-- ==== Sys2Proof/Word.lean ====
section
/-! DEFINITION. The word types of the model and the type of its sparse tables. Everything that computes with them stands in
Sys2Proof/Machine/Bits.lean. -/

namespace Sys2Proof

/-- A byte of memory, of a payload or of a stored image (R7). -/
abbrev Byte := BitVec 8
/-- A 32-bit word: a lane register of one thread (R170), a route entry (R301). -/
abbrev W32 := BitVec 32
/-- A 64-bit word: an order-free accumulator (R127), a counter of RT (R35). -/
abbrev W64 := BitVec 64
/-- A string of bytes, first byte at the lowest offset. -/
abbrev Bytes := List Byte

/-- A sparse table by number: pairs with strictly rising keys, none holding the table's default value. -/
abbrev SMap (α : Type) := List (Nat × α)

end Sys2Proof
end

