-- ==== Sys2Proof/Machine/Parts/Arrays.lean ====
section
/-! DEFINITION. The state of the matrix arrays MA0 to MA15 (R144 to R169). -/

namespace Sys2Proof.Machine

/-- An array operation descriptor (R158), its fields decoded. `opcode` is the code of R159; 0xFFFF names no queue. -/
structure ArrayDesc where
  opcode : Nat
  plane : Fin 2
  acc : Bool
  rmode : Nat
  window : Int
  rows : Nat
  kUsed : Nat
  cols : Nat
  footBase : Nat
  dataTensor : Nat
  scaleTensor : Nat
  first : Nat
  stride : Nat
  waitQueue : Nat
  signalQueue : Nat
  flagTensor : Nat
  flagOffset : Nat
deriving DecidableEq, Repr

/-- A weight plane (R149). Weight (k, n) stands at key k + 2048 n as a raw element code (a trit digit for T2); scale bytes of
block j of column n at key j + 64 n. -/
structure Plane where
  loaded : Bool
  /-- Format code of the weights (R116). -/
  format : Nat
  kUsed : Nat
  cols : Nat
  weights : SMap Nat
  scales : SMap Nat
  /-- Columns whose passes set `WA_INVALID` (R168, R169). -/
  invalidCols : List Nat
deriving DecidableEq, Repr

/-- A plane whose contents are lost or were never loaded (R152). -/
def Plane.empty : Plane :=
  { loaded := false, format := 0, kUsed := 0, cols := 0, weights := [], scales := [], invalidCols := [] }

/-- A descriptor that has issued and not completed (R160, R163). -/
structure ArrayIssue where
  desc : ArrayDesc
  /-- Its index in the entry. -/
  index : Nat
  /-- ac of issue and ac of completion, in ac since the kerf strobe (R163, R658). -/
  issued : Nat
  completes : Nat
  /-- Activation rows that a `PASS` has read, oldest first: element codes, none for poison, `some none` for an invalid byte; scale
  bytes, none for poison (R147, R688). -/
  rowsRead : List (List (Option (Option Nat)) × List (Option Nat))
  /-- Columns that failed their parity as a `PASS` used them (R169), and whether its plane or pair was bad at issue (R146). -/
  badColumns : List Nat
  badPair : Bool
  /-- The conversion flags of a `DRAIN` and the OR of its rows' flag bytes (R156). -/
  drainFlags : Nat
deriving DecidableEq, Repr

/-- One matrix array. Times are in ac of its die since the kerf strobe (R163, R658). -/
structure ArrayUnit where
  plane0 : Plane
  plane1 : Plane
  /-- Foot words at key 512 row + column; a word not listed holds what the bank held when its contents were last lost. -/
  foot : SMap (Option Nat)
  footFlags : SMap (Option Nat)
  /-- How often the contents were lost; 0 since the cold start (R152). -/
  footEpoch : Nat
  /-- The entry under way: its frame class, or none. -/
  entry : Option Nat
  /-- Index of the next descriptor of the entry (R160 rule 2). -/
  nextDesc : Nat
  /-- First ac in which each engine is free (R160 rule 5), and in which the next descriptor may issue (rule 2). -/
  loadFree : Nat
  passFree : Nat
  footFree : Nat
  issueFree : Nat
  /-- Per plane: the ac from which a `LOAD` may issue (R151), and from which a `PASS` may issue (rule 6). -/
  loadAfter : List Nat
  passAfter : List Nat
  /-- Descriptors issued and not completed, oldest first. -/
  outstanding : List ArrayIssue
  /-- Descriptors completed in the last ac in which one completed (R160 rules 7 and 8). -/
  settled : List ArrayIssue
  /-- Signals that wait for a credit (R161). -/
  deferred : List Nat
  /-- A descriptor failed its parity check: nothing further issues in the frame (R169). -/
  stopped : Bool
  /-- The entry has reached `END` (R160 rule 8). -/
  done : Bool
deriving DecidableEq, Repr

/-- An array that has run nothing. -/
def ArrayUnit.reset : ArrayUnit :=
  { plane0 := Plane.empty, plane1 := Plane.empty, foot := [], footFlags := [], footEpoch := 0, entry := none, nextDesc := 0,
    loadFree := 0, passFree := 0, footFree := 0, issueFree := 0, loadAfter := [0, 0], passAfter := [0, 0],
    outstanding := [], settled := [], deferred := [], stopped := false, done := true }

/-- The sixteen arrays, and each partition's flag byte: of the current frame and as latched at the last kerf (R156). -/
structure ArrayState where
  units : SMap ArrayUnit
  frameFlags : SMap Nat
  latchedFlags : SMap Nat
deriving DecidableEq, Repr

/-- No array has run. -/
def ArrayState.reset : ArrayState := { units := [], frameFlags := [], latchedFlags := [] }

end Sys2Proof.Machine
end

