-- ==== Sys2Proof/Machine/Parts/Cells.lean ====
section
/-! DEFINITION. The state of the cell monitor and of the estimator (R398 to R440). Charges are in coulombs, voltages in units of
0.1 mV as the sensors read them, currents in mA (discharge positive), temperatures in 0.1 degree, uncertainties in points. -/

namespace Sys2Proof.Machine

/-- One cell as the estimator holds it (R411, R413, R423). -/
structure CellEst where
  /-- Charge above empty, and present capacity. -/
  charge : Rat
  capacity : Rat
  /-- Marked for balancing (R411), and whether it bled in the last cycle (R437). -/
  marked : Bool
  bled : Bool
  /-- Charge counted into it since cold start, and at each anchor its fill and that count (R423), newest first. -/
  counted : Rat
  anchors : List (Rat × Rat)
  /-- Open-circuit readings of the last scans of a rest, newest first, at most 10 (R425). -/
  restReadings : List Nat
deriving DecidableEq, Repr

/-- A cell of which nothing is known. -/
def CellEst.blank : CellEst :=
  { charge := 0, capacity := 0, marked := false, bled := false, counted := 0, anchors := [], restReadings := [] }

/-- One slice CSk (R399, R401, R410): whether it can be read, consecutive scans unread and read, the time of its last valid
command, its bleed switches (bit mask over its eight cells), and its sleep (R404). -/
structure Slice where
  unread : Nat
  goodScans : Nat
  lost : Bool
  selfTestFailed : Bool
  lastCommand : Nat
  switches : Nat
  asleep : Bool
deriving DecidableEq, Repr

/-- A slice as the chain wakes it. -/
def Slice.reset : Slice :=
  { unread := 0, goodScans := 0, lost := false, selfTestFailed := false, lastCommand := 0, switches := 0, asleep := false }

/-- What one scan measured (R402, R408): 48 voltages, the stack current, 24 thermistors after substitution, 6 die
temperatures. -/
structure Scan where
  volts : List Nat
  currentMa : Int
  therms : List Int
  dies : List Int
deriving DecidableEq, Repr

/-- What a scan cycle reads (R402, R403, R666): the readings before the slices' trims, the slices that could not be read, and each
slice's two voltage references in units of 10 µV before their trims. -/
structure ScanInput where
  scan : Scan
  unread : List (Fin 6)
  refs : List (Nat × Nat)
deriving DecidableEq, Repr

/-- What enumeration reads from the pack identity store (R400): whether its CRC and chemistry are right, counts, capacities in mAh,
serial, the OCV table in mV and the resistance table in micro-ohm. -/
structure PackIdentity where
  crcOk : Bool
  chemistryOk : Bool
  cellCount : Nat
  sliceCount : Nat
  ratedMah : Nat
  bolMah : Nat
  serial : Bytes
  ocv : List (List Nat)
  r1 : List Nat
deriving DecidableEq, Repr

/-- How enumeration went (R401): the address count returned from the south and from the north port; the slices with a broken sense
wire; the pack identity; the first scan, whose references and thermistors the self-test compares; the bits of the pack record that the
flash has lost since it was written (R14). -/
structure ChainRead where
  southOk : Bool
  northOk : Bool
  wireBad : List (Fin 6)
  pack : PackIdentity
  first : ScanInput
  recordFlips : List (Fin 512)
deriving DecidableEq, Repr

/-- One tick of a capture (R406): the time its integration began, 48 voltages and the stack current. -/
structure CaptureTick where
  start : Nat
  volts : List Nat
  currentMa : Int
deriving DecidableEq, Repr

/-- A capture armed (R405, R406): since when; the strobe of its kerf. -/
structure Capture where
  armedAt : Nat
  strobe : Option Nat
  acted : Bool
deriving DecidableEq, Repr

/-- A rest (R425): its ticket, when its kerf was, since when the stack current has stayed at or below 50 mA. -/
structure Rest where
  ticket : Nat
  began : Nat
  quietSince : Option Nat
  /-- Rest complete; the storage converter restarts at the next kerf (R425 item 5). -/
  complete : Bool
deriving DecidableEq, Repr

/-- The cell monitor and the estimator. -/
structure CellState where
  /-- The chain is enumerated; it works from the north port only (R401). -/
  enumerated : Bool
  northOnly : Bool
  /-- Enumeration failed: both directions inhibited until the next cold start. -/
  enumFailed : Bool
  slices : List Slice
  packSerial : Bytes
  /-- Factory trims of the slices' references in units of 10 µV: entry 20 × slice + 10 × reference + band (R666). -/
  trims : List Int
  /-- The 64 bytes of the pack record in flash, none if it was never written, and `PACK_CHANGED` (R14). -/
  packRecord : Option Bytes
  packChanged : Bool
  /-- C_BOL in coulombs (R400). -/
  capacityBol : Rat
  /-- The OCV table: 8 bands of 21 voltages in mV (R415). -/
  ocv : List (List Rat)
  /-- The resistance table: entry 6 x temperature band + rate band, in micro-ohm (R415); its factory values. -/
  r1 : List Rat
  r1Factory : List Rat
  cells : List CellEst
  /-- Stack uncertainty u (R413, R419). -/
  u : Rat
  /-- Reported stack SOC (R418), in points. -/
  reported : Rat
  /-- Charge counted since the last scan, signed and absolute; absolute charge counted since the last anchor (R418, R419). -/
  countedScan : Rat
  countedAbs : Rat
  throughput : Rat
  lastTick : Nat
  /-- Time of the last anchor, u before the correction of the anchor before it aside. -/
  lastAnchor : Int
  restWanted : Bool
  scanCount : Nat
  lastScan : Nat
  /-- Time of the last scan cycle (R403, R404). -/
  scannedAt : Nat
  scan : Scan
  /-- Consecutive scans each threshold of R408 has held, by a number of its own. -/
  persist : SMap Nat
  /-- Reasons for which charge and discharge are inhibited, and those that also wait for an acknowledgement (R408 to R410,
  R421, R422, R401, R430). -/
  chargeInhibit : List Nat
  dischargeInhibit : List Nat
  /-- Ceilings in mA (R408, R409). -/
  chargeCeiling : Nat
  dischargeCeiling : Nat
  /-- Reported SOC at the last end of charge; charge taken since the last end of discharge (R421, R422). -/
  endChargeAt : Option Rat
  endDischargeTaken : Option Rat
  /-- Thermistors treated as failed (R408). -/
  badTherms : List Nat
  resistanceHigh : Bool
  sohLow : Bool
  imbalance : Bool
  /-- The bleed mask sent for the next cycle, and the parity of scans for R412. -/
  nextMask : List Nat
  oddScan : Bool
  capture : Option Capture
  captureRing : List CaptureTick
  lastCapture : Option Nat
  /-- A rest ticket granted: its number and start frame. -/
  ticket : Option (Nat × Nat)
  rest : Option Rest
  restorePending : Bool
  restoreResult : Nat
  /-- Probation after a restore (R433): since when, sum of absolute errors in 0.1 mV and their number. -/
  probation : Option (Nat × Rat × Nat)
  /-- The estimator's state is lost (R429). -/
  asleep : Bool
  /-- `CELL_GET_STATUS`, `CELL_GET_CELLS` and the blob as of the last scan (R436, R437, R439). -/
  statusBytes : Bytes
  cellsBytes : Bytes
  blob : Bytes
deriving DecidableEq, Repr

/-- The cell monitor before enumeration: nothing known, both directions inhibited by `RESTORE_PENDING` from R430 on. -/
def CellState.reset : CellState :=
  { enumerated := false, northOnly := false, enumFailed := false, slices := List.replicate 6 Slice.reset, packSerial := [],
    trims := List.replicate 120 0, packRecord := none, packChanged := false,
    capacityBol := 0, ocv := [], r1 := [], r1Factory := [], cells := List.replicate 48 CellEst.blank, u := 0, reported := 0,
    countedScan := 0, countedAbs := 0, throughput := 0, lastTick := 0, lastAnchor := 0, restWanted := false, scanCount := 0,
    lastScan := 0, scannedAt := 0, scan := { volts := [], currentMa := 0, therms := [], dies := [] }, persist := [], chargeInhibit := [],
    dischargeInhibit := [], chargeCeiling := 0, dischargeCeiling := 0, endChargeAt := none, endDischargeTaken := none,
    badTherms := [], resistanceHigh := false, sohLow := false, imbalance := false, nextMask := [], oddScan := false,
    capture := none, captureRing := [], lastCapture := none, ticket := none, rest := none, restorePending := false,
    restoreResult := 0, probation := none, asleep := false, statusBytes := [], cellsBytes := [], blob := [] }

end Sys2Proof.Machine
end

