-- ==== Sys2Proof/Machine/Parts/Commands.lean ====
section
/-! DEFINITION. Operands that several commands share, and what the module's sensors report with an event. -/

namespace Sys2Proof

/-- What storage errors a lane instruction meets at its turn (R196, R249, R252): the word fails parity; registers hit (register,
lane, double-bit); slots hit by double-bit errors; bench words in error by module address, and whether each can be corrected. -/
structure LaneUpset where
  parity : Bool
  regs : List (Fin 16 × Fin 128 × Bool)
  slots : List (Fin 64)
  mem : List (Nat × Bool)
deriving DecidableEq, Repr

/-- No error. -/
def LaneUpset.none : LaneUpset := { parity := false, regs := [], slots := [], mem := [] }

/-- What storage errors an array descriptor meets (R169, R249): the descriptor fails parity; plane columns that fail theirs; foot
words corrected; foot words (row, column) lost; bench words in error. -/
structure ArrayUpset where
  parity : Bool
  columns : List Nat
  corrected : Bool
  words : List (Nat × Nat)
  mem : List (Nat × Bool)
deriving DecidableEq, Repr

/-- No error. -/
def ArrayUpset.none : ArrayUpset := { parity := false, columns := [], corrected := false, words := [], mem := [] }

/-- What the shim controller's sensors report of a 50 microsecond interval (R357, R367): the load at the intermediate bus in W, the bus, stack
and intermediate bus voltages in mV, the stack current in mA, and the error of the input converter in power mode in W. -/
structure ShimInputs where
  load : Nat
  busMv : Nat
  stackMv : Nat
  stackMa : Int
  ibusMv : Nat
  error : Int
deriving DecidableEq, Repr

/-- What a die-to-die crossing does to data (R670): its 64-bit words found with a double-bit error, and whether single-bit ones were
corrected. -/
structure Crossing where
  bad : List Nat
  fixed : Bool
deriving DecidableEq, Repr

/-- A crossing without an error. -/
def Crossing.clean : Crossing := { bad := [], fixed := false }

/-- A row of a lane cluster at a time: where a row-wide instruction issues (R171), and the storage errors met there. -/
structure RowAt where
  cluster : Fin 256
  row : Fin 64
  t : Nat
  upset : LaneUpset
deriving DecidableEq, Repr

/-- A row of a lane cluster at a time, and the guard of an instruction: PD0 to PD7 and the polarity bit (R183). -/
structure LaneAt where
  cluster : Fin 256
  row : Fin 64
  t : Nat
  guard : Fin 8
  invert : Bool
  upset : LaneUpset
deriving DecidableEq, Repr

/-- The rounding fields of a conversion: `RMODE`, and the key registers and `ELEM_HIGH` of R215. -/
structure LaneRound where
  stochastic : Bool
  vb : Fin 16
  vc : Fin 16
  high : Fin 65536
deriving DecidableEq, Repr

/-- What can hold back a completion signal (R161, R284): an array or a mover. -/
inductive Engine where
  | array (m : Fin 16)
  | mover (k : Fin 128)
deriving DecidableEq, Repr

/-- A link word (R298, R324): the neighbour's announced level, and whether it announces a retrained path. -/
structure LinkWord where
  level : Option Nat
  retrained : Bool
deriving DecidableEq, Repr

/-- The neighbour a dowel token comes from: the tree parent, or the member with this index. -/
inductive DowelFrom where
  | parent
  | member (index : Nat)
deriving DecidableEq, Repr

/-- A memory that is scrubbed outside refresh windows (R253). -/
inductive ScrubTarget where
  | bench (die : Fin 4)
  | tier2
  | tier3
deriving DecidableEq, Repr

/-- What a register write addresses (R332, R333, R348, R354): an offset in BAR0 of the function; or of its configuration space Bus Master
Enable, the PF's count of enabled VFs, a base address (0 BAR0 of the PF, 1 and 2 BAR0 and BAR2 of the VFs), MSI-X Enable (bit 0) and
function mask (bit 1), the enable of ASPM L1, the uncorrectable error status of AER, or any other field. -/
inductive RegSpace where
  | bar0 (offset : Nat)
  | busMaster
  | numVfs
  | bar (n : Fin 3)
  | msixControl
  | aspm
  | aerStatus
  | config
deriving DecidableEq, Repr

/-- What a PCIe link runs at (R332): transfer rate in GT/s, lanes, and FLIT mode; 0 GT/s while it is down. -/
structure LinkRate where
  gts : Nat
  lanes : Nat
  flit : Bool
deriving DecidableEq, Repr

/-- Why the PCIe link is reset (R354). -/
inductive LinkResetCause where
  | perst
  | hotReset
  | linkDown
deriving DecidableEq, Repr

/-- A PLL (R654, R656, R669, R671): one of the ping-pong pair of a compute die, the memory PLL of a die, the hub's, that of the
distributed reference. -/
inductive Pll where
  | pingPong (die : Fin 4) (which : Fin 2)
  | memory (die : Fin 4)
  | hub
  | reference
deriving DecidableEq, Repr

/-- An ICMPv6 message of R589: an echo request with its bytes after the checksum; a neighbour solicitation for a target; a router
advertisement of a prefix for autoconfiguration (its first 64 bits). -/
inductive Icmp6 where
  | echo (data : Bytes)
  | solicit (target : Nat)
  | routerAdvert (prefix64 : Nat)
deriving DecidableEq, Repr

namespace Machine

/-- The format codes of R116. -/
inductive Format where
  | int8 | int32 | fp32 | bf16 | fp8E4m3 | fp8E5m2 | mxfp8E4m3 | mxfp8E5m2 | mxfp6E3m2 | mxfp6E2m3 | mxfp4E2m1 | mxint8
  | t2 | e8m0 | wa64 | raw
deriving DecidableEq, Repr

end Machine

end Sys2Proof
end

