-- ==== Sys2Proof/Machine/Parts/Fabric.lean ====
section
/-! DEFINITION. The state of the Oljan fabric: paths, links, routes, endpoints, transactions, dowels (R288 to R331). -/

namespace Sys2Proof.Machine

/-- A flit (R293). Channel 0 DOWEL, 1 CONTROL, 2 DATA, 3 IDLE. -/
structure Flit where
  channel : Nat
  head : Bool
  tail : Bool
  nak : Bool
  creditVc : Nat
  creditCount : Nat
  seq : Nat
  ack : Nat
  lseq : Nat
  payload : Bytes
deriving DecidableEq, Repr

/-- The state of a path as `OF_GET_LINK_STATUS` codes it (R328). -/
inductive PathState where
  | down
  | training
  | up
  | upWaiting
deriving DecidableEq, Repr

/-- One path, OP2k or OP2k+1 (R293 to R297). -/
structure Path where
  state : PathState
  /-- Neighbour's `NODE_ID`, serial and protocol level as training reported them (R290). -/
  neighbour : Option Nat
  serial : Bytes
  delayNs : Nat
  replays : Nat
  fecUncorrected : Nat
  /-- Next `SEQ` to send and last `SEQ` received good, modulo 4,096. -/
  nextSeq : Nat
  lastGood : Nat
  /-- A good flit has been missed: everything up to a replay of the next `SEQ` is discarded (R295); a `NAK` has still to be sent. -/
  nakSent : Bool
  nakDue : Bool
  /-- The `ACK` that the last flit sent carried. -/
  ackSent : Nat
  /-- Flits sent and not acknowledged, oldest first. -/
  unacked : List Flit
  /-- Copies of dowels that wait for a credit (R294, R299). -/
  dowels : List Flit
  /-- The `SEQ` from which the path last replayed, and how many replays from there in a row have failed (R296). -/
  retryFrom : Option Nat
  failedReplays : Nat
  /-- When `ACK` last advanced, or flits came to be unacknowledged (R296); when training began (R290); when the path came up, and the
  flits, `IDLE` ones among them, accounted for since (R289). -/
  ackAt : Nat
  trainAt : Nat
  upAt : Nat
  flitCount : Nat
  /-- Credits held per channel DOWEL, CONTROL, DATA, and credits owed to the neighbour (R294, R308). -/
  credits : List Nat
  owed : List Nat
deriving DecidableEq, Repr

/-- A path before it trains. -/
def Path.cold : Path :=
  { state := .down, neighbour := none, serial := [], delayNs := 0, replays := 0, fecUncorrected := 0, nextSeq := 0,
    lastGood := 4095, nakSent := false, nakDue := false, ackSent := 4095, unacked := [], dowels := [], retryFrom := none,
    failedReplays := 0, ackAt := 0, trainAt := 0, upAt := 0, flitCount := 0, credits := [32, 256, 2560], owed := [0, 0, 0] }

/-- One stream of `LSEQ` numbers: a PAIRED link has one, a SPLIT link one per half (R291, R297). -/
structure Stream where
  txLseq : Nat
  rxLseq : Nat
  /-- Flits received ahead of their turn (R297). -/
  early : List Flit
  /-- When each of them arrived (rc), by `LSEQ`. -/
  earlyAt : SMap Nat
  /-- Payload bytes of the transaction being received, and the flits it has taken on path A and on path B. -/
  rx : Bytes
  rxA : Nat
  rxB : Nat
  /-- Flits that have no `LSEQ` yet and wait for a credit or for room among the unacknowledged ones. -/
  txQueue : List Flit
  /-- Flits of a failed path to be sent again ahead of any new flit (R298). -/
  resend : List Flit
  dowelTx : Nat
  dowelRx : List Nat
deriving DecidableEq, Repr

/-- A stream at training. -/
def Stream.start : Stream :=
  { txLseq := 0, rxLseq := 0, early := [], earlyAt := [], rx := [], rxA := 0, rxB := 0, txQueue := [], resend := [], dowelTx := 0, dowelRx := [] }

/-- A logical link OLk (R291). -/
structure Link where
  split : Bool
  pathA : Path
  pathB : Path
  streamA : Stream
  streamB : Stream
  /-- The neighbour's most recent level announcement, and the link level (R324), by half; a PAIRED link uses the first. -/
  announced : List Nat
  level : List Nat
  /-- The link runs on path A alone because its paths differ by more than 1,000 ns (R297). -/
  skew : Bool
  /-- Both ends have announced a retrained path: striping resumes at the next kerf (R298). -/
  resumeOwn : Bool
  resumePeer : Bool
deriving DecidableEq, Repr

/-- A link at cold start: PAIRED, its ports not yet powered (R290, R291). -/
def Link.cold : Link :=
  { split := false, pathA := Path.cold, pathB := Path.cold, streamA := Stream.start, streamB := Stream.start,
    announced := [0, 0], level := [0, 0], skew := false, resumeOwn := false, resumePeer := false }

/-- A transaction (R313). `crcGood` tells whether its data meet `TX_CRC`. -/
structure Transaction where
  kind : Nat
  hops : Nat
  destNode : Nat
  srcNode : Nat
  destEndpoint : Nat
  srcEndpoint : Nat
  sendRt : Nat
  delayClass : Nat
  windowMismatch : Bool
  count : Nat
  bindSeq : Nat
  window : Int
  waFlags : Nat
  level : Nat
  jobId : Nat
  data : Bytes
  crcGood : Bool
deriving DecidableEq, Repr

/-- A transaction received whole that waits: to be forwarded, or for its release edge (R302, R304). -/
structure HeldTx where
  tx : Transaction
  link : Nat
  half : Nat
  flitsA : Nat
  flitsB : Nat
  /-- RT when its last flit reached the ingress, and whether that was after its release edge (R306). -/
  arrivedRt : Nat
  late : Bool
deriving DecidableEq, Repr

/-- An endpoint's binding (R309, R316, R331). Mode codes as in the table of R309. -/
structure Binding where
  mode : Nat
  batch : Nat
  /-- Peer or parent node; none marks a reduction's root. -/
  remoteNode : Option Nat
  remoteEndpoint : Nat
  window : Int
  children : List (Nat × Nat)
deriving DecidableEq, Repr

/-- An unbound endpoint. -/
def Binding.unbound : Binding :=
  { mode := 0, batch := 0, remoteNode := none, remoteEndpoint := 0, window := 0, children := [] }

/-- A child's partial of one reduction operation (R317). -/
structure ChildPartial where
  child : Nat
  op : Nat
  values : List Nat
  flags : Nat
  window : Int
  mismatch : Bool
  /-- When it was released (R317). -/
  released : Nat
deriving DecidableEq, Repr

/-- A result to be passed on to the children (R318). -/
structure RedResult where
  op : Nat
  values : List Nat
  flags : Nat
  mismatch : Bool
  /-- RT of the release or of the root's own delivery. -/
  rt : Nat
deriving DecidableEq, Repr

/-- What an endpoint holds for the running job (R311, R312, R315 to R318). -/
structure EpState where
  /-- Next `BIND_SEQ` to send (R305). -/
  bindSeq : Nat
  /-- A PUT_SOURCE's credits at the sink. -/
  remoteCredits : Nat
  /-- Requests a GET_SERVER has still to answer: delay class field aside, only their order matters. -/
  requests : Nat
  /-- Credits of the produced queue that a sink has sent to its source, or that a client or a reduction member has reserved. -/
  reserved : Nat
  /-- Reduction: next operation to contribute, results received, partials of children, results to forward. -/
  nextOp : Nat
  results : Nat
  partials : List ChildPartial
  toForward : List RedResult
  /-- When the entries of the consumed queue became visible, oldest first; since when the member may contribute its next operation
  (R316, R317). -/
  seen : List Nat
  mayAt : Option Nat
  /-- The next `BIND_SEQ` to release from each peer, by node, endpoint and kind (R305). -/
  expected : List ((Nat × Nat × Nat) × Nat)
deriving DecidableEq, Repr

/-- An endpoint at the start of a job. -/
def EpState.start : EpState :=
  { bindSeq := 0, remoteCredits := 0, requests := 0, reserved := 0,
    nextOp := 0, results := 0, partials := [], toForward := [], seen := [], mayAt := none, expected := [] }

/-- A dowel token (R319). Kinds 1 DONE, 2 GO, 3 HALT, 4 LEAVE, 5 RELAY_NOTICE. -/
structure Dowel where
  kind : Nat
  relay : Bool
  member : Nat
  domainId : Nat
  frame : Nat
  startRt : Nat
  jobId : Nat
deriving DecidableEq, Repr

/-- The fabric. -/
structure FabricState where
  links : SMap Link
  nodeId : Nat
  standIn : Option Nat
  /-- Children reached through their stand-in (R322), by member index of the child, and the link it uses. -/
  relayed : List (Nat × Nat)
  /-- Members this module stands in for (R322). -/
  standingFor : List Nat
  /-- The parent link is down and tokens go through the stand-in. -/
  relaying : Bool
  routes : SMap Nat
  staging : SMap Nat
  /-- Frames at whose kerfs the staging table becomes active (R303, R330). -/
  commits : List Nat
  bindings : SMap Binding
  endpoints : SMap EpState
  toForward : List HeldTx
  toRelease : List HeldTx
  /-- Dowel tokens received and not yet handled: neighbour's `NODE_ID` and token, oldest first. -/
  dowelsIn : List (Nat × Dowel)
  /-- Halts passed up and down (R320). -/
  haltsUp : List Nat
  haltsDown : List Nat
  /-- `LATE_RELEASE` raised this frame (R306). -/
  lateRaised : Bool
  /-- Flits put on the fibres, newest first: port and the 256 bytes (R293). `IDLE` flits are among them only where they carry a `NAK`, a new
  `ACK` or credits. -/
  out : List (Nat × Bytes)
deriving DecidableEq, Repr

/-- The fabric at cold start (R290, R291, R301, R303, R309). `NODE_ID` 0: the manual gives no reset value (DESIGN CHOICE). -/
def FabricState.reset : FabricState :=
  { links := [], nodeId := 0, standIn := none, relayed := [], standingFor := [], relaying := false, routes := [], staging := [],
    commits := [], bindings := [], endpoints := [], toForward := [], toRelease := [], dowelsIn := [], haltsUp := [], haltsDown := [],
    lateRaised := false, out := [] }

end Sys2Proof.Machine
end

