-- ==== Sys2Proof/Machine/Parts/Faults.lean ====
section
/-! DEFINITION. The state of the fault collector: records, class slots, log, FAULT_OUT_N, reactions under way (R523 to R551). -/

namespace Sys2Proof.Machine

/-- The sources of R527, which R540 compares: a compute die, the hub die, or the PWC as a whole. -/
inductive Source where
  | cd (n : Fin 4)
  | hd
  | pwc
deriving DecidableEq, Repr

/-- What a raising unit reports (R527): the code, the faulty unit (R536), the scope (0 to 15 for Pk, 0xFF module), the
measured quantity and whether a lasting condition began (R524). -/
structure FaultMsg where
  code : Nat
  unit : Nat
  scope : Nat
  detail : Nat
  cond : Bool
deriving DecidableEq, Repr

/-- A fault raised and not yet handled by the fault collector, and when it was raised (rc). -/
structure Raised where
  src : Source
  msg : FaultMsg
  raisedAt : Nat
deriving DecidableEq, Repr

/-- A fault record (R535), with the source and the arrival time that R540 needs. `timePc` counts pc since cold start. -/
structure FaultRec where
  code : Nat
  baseLevel : Nat
  level : Nat
  scope : Nat
  escalated : Bool
  injected : Bool
  cond : Bool
  unit : Nat
  seq : Nat
  detail : Nat
  frame : Nat
  timePc : Nat
  src : Source
deriving DecidableEq, Repr

/-- One of the twelve class slots (R536): its records, oldest first, its saturating count and `ACK_PENDING`. -/
structure ClassSlot where
  recs : List FaultRec
  count : Nat
  ackPending : Bool
deriving DecidableEq, Repr

/-- The slot of a class that holds nothing. -/
def emptySlot : ClassSlot := { recs := [], count := 0, ackPending := false }

/-- FAULT_OUT_N as R541 drives it: whether it is driven low, since when (rc) it stands as it does, and whether an assertion
waits for the end of the high gap. -/
structure FaultOut where
  low : Bool
  since : Nat
  waiting : Bool
deriving DecidableEq, Repr

/-- The fault collector. -/
structure FaultState where
  /-- Faults on their way to the collector, oldest first. -/
  raised : List Raised
  /-- The last 256 records, oldest first (R538). -/
  log : List FaultRec
  /-- `LOG_LOST`, saturating 32 bits. -/
  logLost : Nat
  /-- `NEXT_SEQ`, modulo 2^32 (R535). -/
  nextSeq : Nat
  /-- The second R538 counts in, and the NOTE and MINOR records each code has logged in it. -/
  logSecond : Nat
  logCounts : SMap Nat
  /-- Class slots by class number 1 to 12 (R536). -/
  slots : SMap ClassSlot
  /-- The first source of the present episode (R537). -/
  firstSource : Option (Nat × Nat)
  /-- Levels set by `FC_SET_LEVEL`, by code (R556). -/
  setLevels : SMap Nat
  out : FaultOut
  /-- Scopes whose halt dowels HD has still to send, and when each is due (rc): 1.0 microsecond after arrival (R528, R530). -/
  haltsDue : List (Nat × Nat)
  /-- Records of MINOR or higher not yet signalled to the PF (R542). -/
  eventsDue : Nat
  /-- A first `IBUS_OVERVOLTAGE` has been handled since cold start (R532). -/
  ibusOvSeen : Bool
  /-- The input converter has still to restart once after it (R532). -/
  ovRestartDue : Bool
  /-- The input converter runs in auxiliary mode after a FATAL reaction (R533). -/
  auxMode : Bool
  /-- Copy of each fuse group in use, by group offset: 0 first, 1 second, 2 neither (R546). -/
  fuseCopy : SMap Nat
  /-- Since when a MAJOR, and a CRITICAL, reaction has been in force. -/
  majorSince : Option Nat
  criticalSince : Option Nat
  /-- The connector inputs 1 to 14 that stand out of range (R645). -/
  inputOutOfRange : List Nat
  /-- The last pc on which events were handled, and the step of R683 of the last of them. -/
  edge : Nat × Nat
  /-- The pc of the last arrival, and its place in the order of R527 within it. -/
  lastArrival : Nat × Nat
  /-- The pc in which the last message of each die fault line was complete, by die, 4 HD (R527). -/
  lineDone : SMap Nat
deriving DecidableEq, Repr

/-- The fault collector at cold start: nothing recorded, sequence 0 (R535, R539). -/
def FaultState.reset : FaultState :=
  { raised := [], log := [], logLost := 0, nextSeq := 0, logSecond := 0, logCounts := [], slots := [], firstSource := none,
    setLevels := [], out := { low := false, since := 0, waiting := false }, haltsDue := [], eventsDue := 0,
    majorSince := none, criticalSince := none, ibusOvSeen := false, ovRestartDue := false, auxMode := false, fuseCopy := [], inputOutOfRange := [], edge := (0, 0), lastArrival := (0, 0), lineDone := [] }

end Sys2Proof.Machine
end

