-- ==== Sys2Proof/Machine/Parts/Memory.lean ====
section
/-! DEFINITION. The state of bench memory and the three tiers (R228 to R255). -/

namespace Sys2Proof.Machine

/-- Addresses `lo` to `hi - 1` whose contents are undefined since loss number `epoch` (R58, R231). -/
structure LostRange where
  lo : Nat
  hi : Nat
  epoch : Nat
deriving DecidableEq, Repr

/-- Data on the way between memories: a byte, or none for a poisoned one (R250). -/
abbrev Data := List (Option Byte)

/-- What a bench access does when it takes effect (R189, R234, R688): a load or store of a cluster's lanes, as lane flag and offset; a
slot's flag byte or value; a port cycle of an array descriptor; the flag byte of a `DRAIN`; a mover's read or write. -/
inductive BenchAct where
  | laneLoad (cluster row d : Nat) (lanes : List (Bool × Nat))
  | laneStore (cluster : Nat) (lanes : List (Bool × Nat × BitVec 32))
  | slotLoad (cluster slot off : Nat)
  | slotStore (cluster off value : Nat) (flagAt : Option Nat) (flags : Nat)
  | arrayCycle (m index cycle : Nat)
  | arrayFlag (m index : Nat)
  | moverRead (k index a n : Nat) (errs : List (Nat × Bool))
  | moverWrite (k a : Nat) (d : Data)
deriving DecidableEq, Repr

/-- A bench access on its way: its die, the root cycle of the edge on which it takes effect, the one on which it would have without
withheld grants (R164), whether it writes, its port (R267). -/
structure BenchAccess where
  die : Nat
  due : Nat
  nominal : Nat
  write : Bool
  port : Nat
  act : BenchAct
deriving DecidableEq, Repr

/-- Who made a tier read: a mover 32n + m, or the host interface for partition p (R267). -/
inductive Requester where
  | mover (n : Nat)
  | host (p : Nat)
deriving DecidableEq, Repr

/-- A tier read held in its slot whose data are not delivered yet (R238, R241, R243). -/
structure HeldRead where
  tier : Nat
  who : Requester
  /-- The number of the mover's descriptor as issued, or of the host read. -/
  tag : Nat
  address : Nat
  data : Data
  /-- The instant of its slot (R283). -/
  slot : Nat
deriving DecidableEq, Repr

/-- The memory system. -/
structure MemState where
  /-- Written bytes by module address, strictly rising, none zero: an unlisted byte that is not lost reads zero. -/
  cells : List Host.Cell
  /-- Addresses whose contents are undefined: disjoint, rising. -/
  lost : List LostRange
  /-- How many losses there have been. -/
  losses : Nat
  /-- Poisoned units by base address (R249). -/
  poison : SMap Bool
  /-- Units in error whose error no read has found yet, and of which part has been written since their contents were lost (R231,
  R250). -/
  latent : SMap Bool
  held : List HeldRead
  /-- Bench accesses that have not taken effect, in the order in which they will (R683 step 6). -/
  bench : List BenchAccess
  /-- The instant of the slot last used: Tier 1 stack k at k, Tier 2 at 16, Tier 3 reads at 17 and writes at 18 (R236, R240, R242). -/
  lastSlot : SMap (Option Nat)
  /-- The sector last written, with the instant of its slot and what it held before (R245). -/
  t3Before : Option (Nat × Nat × Data)
  /-- Memory status byte of each partition: this frame, and as latched at the last kerf (R251). -/
  status : SMap Nat
  latchedStatus : SMap Nat
  /-- Corrected-error faults already raised this frame (R252). -/
  correctedRaised : List Nat
  /-- Stacks at which `T1_HOT` has been raised and not re-armed (R239). -/
  t1Hot : List Nat
  /-- Accesses that Tier 2 had served by the last kerf strobe (R675). -/
  t2Served : Nat
  /-- Tier 3 refuses writes until the free spare is back at 2 % (R247). -/
  t3Refusing : Bool
  /-- Free spare of Tier 3, in permille of the spare (R247). -/
  t3SparePermille : Nat
  /-- Bytes programmed into Tier 3 flash in its life, and whether its two wear faults have been raised (R248). -/
  t3Programmed : Nat
  t3WearWarned : Bool
  t3WearLimited : Bool
  /-- The stack last in its refresh window, and when that window ends (R237). -/
  refreshing : Option (Nat × Nat)
  /-- Next unit each memory's scrub reads: benches 0 to 3, stacks 4 to 19, Tier 2 20, Tier 3 21 (R253). -/
  scrubAt : SMap Nat
deriving DecidableEq, Repr

/-- Nothing written since power-on: every byte of every region is undefined (R231). Free spare full and no byte programmed: DESIGN CHOICE,
the manual gives no value. -/
def MemState.reset : MemState :=
  { cells := [],
    lost := [{ lo := 0, hi := 0x10000000000000, epoch := 0 }], losses := 0, poison := [], latent := [], held := [], bench := [], lastSlot := [],
    t3Before := none, status := [],
    latchedStatus := [], correctedRaised := [], t1Hot := [], t2Served := 0, t3Refusing := false, t3SparePermille := 1000,
    t3Programmed := 0, t3WearWarned := false, t3WearLimited := false, refreshing := none, scrubAt := [] }

end Sys2Proof.Machine
end

