-- ==== Sys2Proof/Machine/Parts/Queues.lean ====
section
/-! DEFINITION. The state of the queues and of the 128 movers (R256 to R287). -/

namespace Sys2Proof.Machine

/-- A queue entry (R258): 512 data bytes, or a signal without data. -/
structure QEntry where
  data : Option Data
deriving DecidableEq, Repr

/-- One hardware queue (R258, R260): its declaration, its visible entries and those in transit, oldest first, the producer's
credits and those on their way back. -/
structure Queue where
  declared : Bool
  partition : Nat
  producer : Nat
  consumer : Nat
  depth : Nat
  frameLocal : Bool
  visible : List QEntry
  transit : List QEntry
  credits : Nat
  creditsTransit : Nat
  /-- Its counts failed their parity check: it takes no further sends or receives in the job (R287). -/
  failed : Bool
deriving DecidableEq, Repr

/-- A queue no jig has declared. -/
def Queue.none : Queue :=
  { declared := false, partition := 0, producer := 0, consumer := 0, depth := 0, frameLocal := false, visible := [],
    transit := [], credits := 0, creditsTransit := 0, failed := false }

/-- A mover descriptor (R277); 0xFFFF names no queue. -/
structure MvDesc where
  opcode : Nat
  fence : Bool
  waitQueue : Nat
  signalQueue : Nat
  dataQueue : Nat
  srcTensor : Nat
  dstTensor : Nat
  srcOffset : Nat
  dstOffset : Nat
  rowBytes : Nat
  rows : Nat
  srcStride : Nat
  dstStride : Nat
  fillValue : Nat
deriving DecidableEq, Repr

/-- A descriptor under way (R281, R282): bytes its source accesses have covered, bytes in the staging buffer that no
destination access has taken, and bytes its destination accesses have covered. -/
structure MvIssue where
  desc : MvDesc
  /-- Its number among all that the mover has issued, and whether its jig has gone (R58, R286). -/
  tag : Nat
  orphan : Bool
  /-- Module addresses of its tensors, kept so that an issued transfer completes after its jig has gone (R58, R286). -/
  srcBase : Nat
  dstBase : Nat
  srcPos : Nat
  buffer : Data
  dstPos : Nat
  /-- When parts of the buffer came, oldest first: the bytes up to which, counted from the start of the transfer, and the qc of the die,
  counted from the kerf strobe, from which they are there (R283). -/
  arrived : List (Nat × Nat)
deriving DecidableEq, Repr

/-- One mover. -/
structure Mover where
  /-- The entry under way: its frame class, or none. -/
  entry : Option Nat
  nextDesc : Nat
  /-- At most two descriptors with accesses outstanding, oldest first (R281). -/
  active : List MvIssue
  /-- Completed descriptors whose signals wait for a credit (R284): number as issued, and queue. -/
  deferred : List (Nat × Nat)
  /-- The qc, plus one, of its last access to its bench port (R272), and of its last issue (R281). -/
  lastQc : Nat
  issueQc : Nat
  /-- Descriptors the mover has ever issued, and slots it has used in the frame (R273). -/
  issued : Nat
  slotsUsed : Nat
  stopped : Bool
  done : Bool
deriving DecidableEq, Repr

/-- A mover that runs nothing. -/
def Mover.reset : Mover :=
  { entry := none, nextDesc := 0, active := [], deferred := [], lastQc := 0, issueQc := 0, issued := 0, slotsUsed := 0, stopped := false, done := true }

/-- Queues and movers. -/
structure QueueState where
  queues : SMap Queue
  movers : SMap Mover
deriving DecidableEq, Repr

/-- No queue declared, no mover running. -/
def QueueState.reset : QueueState := { queues := [], movers := [] }

end Sys2Proof.Machine
end

