-- ==== Sys2Proof/Machine/Parts/Shim.lean ====
section
/-! DEFINITION. The state of the shim stage: policy, leases, target and goal, supply limit, converters, bus (R357 to R397). Powers are
in W, energies in J, voltages in mV, currents in mA; times in root cycles. -/

namespace Sys2Proof.Machine

/-- The four policies (R375), numbered 0 to 3 in `SHIM_GET_STATUS`. -/
inductive Policy where
  | flatten
  | follow
  | island
  | lend
deriving DecidableEq, Repr

/-- A lease (R380, R396). -/
structure Lease where
  id : Nat
  ramp : Nat
  /-- `ALLOWED_POLICIES` by policy number. -/
  allowed : Nat
  floorPct : Nat
  exportW : Nat
  ceilingW : Nat
  /-- When it expires. -/
  expires : Nat
deriving DecidableEq, Repr

/-- Why the module is in ISLAND (R377, R383, R390). -/
inductive IslandCause where
  | notIsland
  | commanded
  | busLoss
  | protection
deriving DecidableEq, Repr

/-- A scheduled step (R372): its frame, its mean draw in W and, once it has entered P_avg, its dP; the partition; whether it is the
END step; whether it has entered P_avg. -/
structure ShimStep where
  frame : Nat
  delta : Rat
  partition : Nat
  atEnd : Bool
  entered : Bool
  /-- Its jig has ended or is halting without having reached END: withdrawn at the next kerf (R372). -/
  withdrawn : Bool
deriving DecidableEq, Repr

/-- The settings of R391 and R397. -/
structure ShimLimits where
  importW : Nat
  exportW : Nat
  stackDa : Nat
  lowPct : Nat
  highPct : Nat
  shortImport : Bool
deriving DecidableEq, Repr

/-- The fused limits (R391). -/
def ShimLimits.fused : ShimLimits :=
  { importW := 2800, exportW := 1500, stackDa := 300, lowPct := 15, highPct := 90, shortImport := true }

/-- A commanded policy change that waits for its frame (R395). -/
structure PolicyChange where
  frame : Nat
  policy : Option Policy
  targetPct : Option Nat
  ramp : Option Nat
  tau : Option Nat
deriving DecidableEq, Repr

/-- A converter (R357, R390): it runs; the fault that stopped it, if one did; its heat sink limits it to 2,000 W. -/
structure Converter where
  running : Bool
  stoppedBy : Option Nat
  hot : Bool
deriving DecidableEq, Repr

/-- What flows through the shim stage as 50 microsecond means, and its voltages (R357, R367, R394): bus draw, storage output and load at
the intermediate bus, whose voltage is `ibusMv`. -/
structure ShimMeter where
  busDraw : Int
  storageW : Int
  load : Nat
  busMv : Nat
  stackMv : Nat
  stackMa : Int
  ibusMv : Nat
deriving DecidableEq, Repr

/-- The shim stage. -/
structure ShimState where
  policy : Policy
  commanded : Policy
  targetPct : Nat
  ramp : Nat
  tau : Nat
  changes : List PolicyChange
  lease : Option Lease
  pendingLease : Option Lease
  /-- A lease has expired and the shim has not yet acted on it at a kerf (R382). -/
  leaseExpired : Bool
  /-- Id, ramp and ceiling of the last lease in effect (R369, R371, R394). -/
  lastLeaseId : Nat
  lastRamp : Option Nat
  lastCeiling : Option Nat
  limits : ShimLimits
  nextLimits : ShimLimits
  target : Rat
  goal : Rat
  /-- P_base, P_err, P_avg of the last kerf, T_eff (R371). -/
  base : Rat
  err : Rat
  avg : Rat
  tEff : Rat
  /-- P_soc of the last kerf, the storage converter's command under FOLLOW (R358, R371). -/
  pSoc : Rat
  /-- The narrow window of R370 holds. -/
  narrow : Bool
  steps : List ShimStep
  /-- S, its reason, and the permission of F0 of the last kerf (R374, R387). -/
  supply : Nat
  supplyReason : Nat
  f0Permitted : Bool
  /-- F0 was withheld, with this reason (R387). -/
  f0Reason : Nat
  headroom : Bool
  headroomAt : Nat
  headroomRaised : Bool
  excursion : Bool
  excursionCount : Nat
  excursionEnergy : Rat
  excursionRaised : Bool
  /-- Short-term import: the milliseconds in which it ran within the last 60 s, newest first (R364). -/
  shortImport : List Nat
  shortExhausted : Bool
  /-- The policy falls to FLATTEN at the next kerf (R377, R378). -/
  floorChange : Bool
  islandCause : IslandCause
  islandFloorRaised : Bool
  exhaustedAt : Option Nat
  busPresent : Bool
  /-- The bus stands below 600 V, or has never come: the start supply has no source (R362, R608). -/
  busDead : Bool
  busReturned : Bool
  isolationOpen : Bool
  stackSwitchOpen : Bool
  /-- Voltage on the input capacitance in mV. -/
  capacitanceMv : Nat
  precharging : Option Nat
  input : Converter
  storage : Converter
  /-- Feed-forward current command added so far in the frame, in W; the next segment of the plan (R359). -/
  feedForward : Rat
  nextSegment : Nat
  lastPlanW : Rat
  /-- VR_ALERT_N stopped the feed-forward for the frame (R360). -/
  noFeedForward : Bool
  meter : ShimMeter
  /-- Mean loads over 50 microseconds in the last second, newest first, and load minus plan by the millisecond (R371). -/
  loads : List Nat
  errors : List Rat
deriving DecidableEq, Repr

/-- The shim stage at cold start (R369, R371, R391): nothing runs, the isolation and the stack switch open. -/
def ShimState.reset : ShimState :=
  { policy := .flatten, commanded := .flatten, targetPct := 55, ramp := 40, tau := 600, changes := [], lease := none,
    pendingLease := none, leaseExpired := false, lastLeaseId := 0, lastRamp := none, lastCeiling := none,
    limits := ShimLimits.fused, nextLimits := ShimLimits.fused, target := 0, goal := 0, base := 0, err := 0, avg := 0,
    tEff := 55, pSoc := 0, narrow := false, steps := [], supply := 0, supplyReason := 0, f0Permitted := false, f0Reason := 0,
    headroom := false, headroomAt := 0, headroomRaised := false, excursion := false, excursionCount := 0,
    excursionEnergy := 0, excursionRaised := false, shortImport := [], shortExhausted := false, floorChange := false,
    islandCause := .notIsland, islandFloorRaised := false, exhaustedAt := none, busPresent := false,
    busDead := true, busReturned := false, isolationOpen := true, stackSwitchOpen := true, capacitanceMv := 0,
    precharging := none,
    input := { running := false, stoppedBy := none, hot := false },
    storage := { running := false, stoppedBy := none, hot := false }, feedForward := 0, nextSegment := 0,
    lastPlanW := 0, noFeedForward := false,
    meter := { busDraw := 0, storageW := 0, load := 0, busMv := 0, stackMv := 0, stackMa := 0, ibusMv := 0 },
    loads := [], errors := [] }

end Sys2Proof.Machine
end

