-- ==== Sys2Proof/Syntax.lean ====
section
/-! DEFINITION. The commands: one constructor for every row of spec/opcode_table.json, in the table's order. The operands of a row
are what the sender of the command supplies: register numbers and fields of a program's own word (for the lane, array and mover
rows), the mailbox slot, the moment `t` of an event in root cycles, and what the module measures at it. -/

namespace Sys2Proof
open Sys2Proof.Machine

/-- A command to the module. -/
inductive Instr where
  /-- `MAILBOX_REQUEST_PCIE` (R587): A 64-bit write of the header word with GO set makes a PCIe slot's request ready for the active
  processor. -/
  | mailboxRequestPcie (f : Fin 17) (word : BitVec 64) (t : Nat)
  /-- `MAILBOX_DATAGRAM` (R590): A UDP datagram reaches the Ethernet MBP slot; if it passes the transport checks it becomes a ready
  request, otherwise it is discarded and counted. -/
  | mailboxDatagram (port : Fin 2) (src srcPort dstPort : Nat) (data : Bytes) (t : Nat)
  /-- `I3C_PRIVATE_WRITE` (R592): An I3C private write delivers a request to the I3C slot; a bad one is discarded and
  MAILBOX_MSG_BAD is raised. -/
  | i3cPrivateWrite (data : Bytes) (t : Nat)
  /-- `I3C_PRIVATE_READ` (R592): An I3C private read returns the ready response, or gets NACK of the address if no response is
  ready. -/
  | i3cPrivateRead (t : Nat)
  /-- `I3C_SCL_STUCK` (R645): SCL held low for 100 ms within a transfer abandons the transfer and raises INPUT_OUT_OF_RANGE. -/
  | i3cSclStuck (t : Nat)
  /-- `MP_GET_STATUS` (R598): Returns the roles, firmware versions, banks, takeover count and journal state of the management
  processors. -/
  | mpGetStatus (slot : Fin 19) (t : Nat)
  /-- `MP_STAGE_IMAGE` (R599): Writes one chunk of a firmware image into a bank; FIRST erases the bank and LAST verifies it. -/
  | mpStageImage (slot : Fin 19) (t : Nat)
  /-- `MP_RESTART_STANDBY` (R600): Restarts the processor that does not hold control from the named bank and clears its failure
  count. -/
  | mpRestartStandby (slot : Fin 19) (t : Nat)
  /-- `MP_HANDOVER` (R601): Schedules or cancels a hand-over of control at the kerf of a named frame. -/
  | mpHandover (slot : Fin 19) (t : Nat)
  /-- `MP_SET_SWITCHBACK` (R602): Sets switch-back to MANUAL or AUTO. -/
  | mpSetSwitchback (slot : Fin 19) (t : Nat)
  /-- `MP_SET_MGMT` (R603): Sets the mailbox UDP port, enables or disables PTP, and replaces the list of allowed source prefixes. -/
  | mpSetMgmt (slot : Fin 19) (t : Nat)
  /-- `MOD_SET_STATE` (R633): Commands a change of module state to ACTIVE, STANDBY or PARKED, or a RESTART, at a frame or at once.
  -/
  | modSetState (slot : Fin 19) (t : Nat)
  /-- `MOD_GET_STATE` (R634): Returns the module state, start phase, prior state, flags and any scheduled change. -/
  | modGetState (slot : Fin 19) (t : Nat)
  /-- `SHIM_GET_STATUS` (R394): Returns the shim policy, state of charge, target, goal, draws, supply limit and lease status. -/
  | shimGetStatus (slot : Fin 19) (t : Nat)
  /-- `SHIM_SET_POLICY` (R395): Commands a shim policy, state-of-charge target, local ramp or tau, taking effect at a frame. -/
  | shimSetPolicy (slot : Fin 19) (t : Nat)
  /-- `SHIM_GRANT_LEASE` (R396): Grants a lease that sets the ramp, the allowed policies, the export, the import ceiling and the
  duration. -/
  | shimGrantLease (slot : Fin 19) (t : Nat)
  /-- `SHIM_SET_LIMITS` (R397): Tightens the import, export, stack current, window or short-term import limits. -/
  | shimSetLimits (slot : Fin 19) (t : Nat)
  /-- `CELL_GET_STATUS` (R436): Returns the stack state of charge, its uncertainty, the state of health, flags, extreme cells and
  ceilings. -/
  | cellGetStatus (slot : Fin 19) (t : Nat)
  /-- `CELL_GET_CELLS` (R437): Returns the voltage, charge and capacity of every cell, together with the thermistor and slice
  temperatures. -/
  | cellGetCells (slot : Fin 19) (t : Nat)
  /-- `CELL_GRANT_REST` (R438): Grants a rest ticket for a start frame, or cancels one. -/
  | cellGrantRest (slot : Fin 19) (t : Nat)
  /-- `CELL_SAVE_STATE` (R439): Returns the 256-byte estimator state blob formed at the most recent scan. -/
  | cellSaveState (slot : Fin 19) (t : Nat)
  /-- `CELL_RESTORE_STATE` (R440): Checks a saved blob under R432 and either adopts it or rejects it as STALE, which clears
  RESTORE_PENDING. -/
  | cellRestoreState (slot : Fin 19) (t : Nat)
  /-- `REG_GET_TELEMETRY` (R470): Returns a rail's telemetry; a read through MBP also resets its held peaks. -/
  | regGetTelemetry (slot : Fin 19) (t : Nat)
  /-- `REG_SET_COMPENSATOR` (R471): Writes a rail's staging compensator bank, or selects FACTORY, to be applied at a frame. -/
  | regSetCompensator (slot : Fin 19) (t : Nat)
  /-- `REG_SET_TRIM` (R472): Sets the per-state voltage trims of a VCORE rail or of VHUB, to be applied at a frame. -/
  | regSetTrim (slot : Fin 19) (t : Nat)
  /-- `GV_GET_STATUS` (R516): Returns the frequency states, limits, powers, pacing counts and temperatures of the governor. -/
  | gvGetStatus (slot : Fin 19) (t : Nat)
  /-- `GV_SET_CLAMP` (R517): Sets the module, die and partition clamps. -/
  | gvSetClamp (slot : Fin 19) (t : Nat)
  /-- `GV_SET_QUOTA` (R518): Sets or removes partition quotas. -/
  | gvSetQuota (slot : Fin 19) (t : Nat)
  /-- `GV_SET_LIMITS` (R519): Tightens the droop thresholds and the rail current settings. -/
  | gvSetLimits (slot : Fin 19) (t : Nat)
  /-- `GV_GET_THROTTLE` (R520): Returns the throttle reason counters of the module or of one partition. -/
  | gvGetThrottle (slot : Fin 19) (t : Nat)
  /-- `GV_GET_ENERGY` (R521): Returns the energy counters of the partitions or of the queues. -/
  | gvGetEnergy (slot : Fin 19) (t : Nat)
  /-- `GV_GET_THERMAL` (R522): Returns a die's diode reading, model node temperatures and thermal flags. -/
  | gvGetThermal (slot : Fin 19) (t : Nat)
  /-- `FC_GET_SUMMARY` (R553): Returns the first source, the level in force and the twelve class slots. -/
  | fcGetSummary (slot : Fin 19) (t : Nat)
  /-- `FC_GET_LOG` (R554): Returns logged fault records from a given sequence number on. -/
  | fcGetLog (slot : Fin 19) (t : Nat)
  /-- `FC_ACK_FAULTS` (R555): Acknowledges named class slots against their expected LAST_SEQ, emptying them or marking them
  ACK_PENDING. -/
  | fcAckFaults (slot : Fin 19) (t : Nat)
  /-- `FC_SET_LEVEL` (R556): Raises the level of a fault code until cold start. -/
  | fcSetLevel (slot : Fin 19) (t : Nat)
  /-- `FC_INJECT_FAULT` (R557): Records a fault exactly as if its unit had raised it, with INJECTED set. -/
  | fcInjectFault (slot : Fin 19) (t : Nat)
  /-- `ID_GET_IDENTITY` (R558): Returns the serial numbers, stepping, firmware version, capability level and identity flags. -/
  | idGetIdentity (slot : Fin 19) (t : Nat)
  /-- `FUSE_READ_GROUP` (R559): Returns bytes of one fuse group, taken from the copy in use. -/
  | fuseReadGroup (slot : Fin 19) (t : Nat)
  /-- `OB_READ_COUNTERS` (R682): Returns a range of live counter words, and can clear the held peaks. -/
  | obReadCounters (slot : Fin 19) (t : Nat)
  /-- `OB_ARM_SNAPSHOT` (R682): Arms or cancels a snapshot buffer for a frame. -/
  | obArmSnapshot (slot : Fin 19) (t : Nat)
  /-- `OB_READ_SNAPSHOT` (R682): Returns the state and counter words of a snapshot buffer. -/
  | obReadSnapshot (slot : Fin 19) (t : Nat)
  /-- `OB_SET_GRANT` (R682): Sets the OWN and SHARED counter grant of a partition. -/
  | obSetGrant (slot : Fin 19) (t : Nat)
  /-- `FT_JOIN_DOMAIN` (R76): Accepts a declaration to join a frame domain, or to change the tree position within one, at a join
  frame. -/
  | ftJoinDomain (slot : Fin 19) (t : Nat)
  /-- `FT_LEAVE_DOMAIN` (R77): Schedules a leave from the domain at a leave frame, with halts if FORCE is set. -/
  | ftLeaveDomain (slot : Fin 19) (t : Nat)
  /-- `FT_SET_DOMAIN` (R78): Schedules a change of domain level, cadence, clamp mode, fixed state, frame length or watchdog factor.
  -/
  | ftSetDomain (slot : Fin 19) (t : Nat)
  /-- `FT_GET_FRAME_STATUS` (R79): Returns the frame number, RT, domain, states, slack and counts captured at the last kerf. -/
  | ftGetFrameStatus (slot : Fin 19) (t : Nat)
  /-- `OF_GET_LINK_STATUS` (R328): Returns the mode, states, neighbours, delays and error counts of a logical link. -/
  | ofGetLinkStatus (slot : Fin 19) (t : Nat)
  /-- `OF_SET_LINKS` (R329): Sets the NODE_ID, stand-in and split mask, and requests retraining of links. -/
  | ofSetLinks (slot : Fin 19) (t : Nat)
  /-- `OF_SET_ROUTES` (R330): Writes route entries into the staging table, and can commit them for a frame. -/
  | ofSetRoutes (slot : Fin 19) (t : Nat)
  /-- `OF_BIND_ENDPOINT` (R331): Binds an Oljan queue endpoint to a put, get or reduce mode with its peers. -/
  | ofBindEndpoint (slot : Fin 19) (t : Nat)
  /-- `JIG_DOORBELL` (R345): A write to the doorbell queues a jig at an aperture offset for the loader, or drops it when the limit
  is reached. -/
  | jigDoorbell (p : Fin 16) (adr : Fin 0x20000000) (t : Nat)
  /-- `PART_CTRL_ENABLE` (R336): PART_CTRL ENABLE checks a partition record and, if it passes, schedules the enable for the next
  kerf. -/
  | partCtrlEnable (p : Fin 16) (t : Nat)
  /-- `PART_CTRL_DISABLE` (R337): PART_CTRL DISABLE schedules the disable of a partition that holds no jig for the next kerf. -/
  | partCtrlDisable (p : Fin 16) (t : Nat)
  /-- `REGISTER_WRITE` (R8): A write to a register that has no row of its own sets RW fields, clears W1C bits and ignores RO bits.
  -/
  | registerWrite (f : Fin 17) (space : RegSpace) (data : Bytes) (t : Nat)
  /-- `HQ_SEND_ENTRY` (R351): The host write that covers byte 511 of a send position sends that position as one data entry, or drops
  it when no credit is left. -/
  | hqSendEntry (p : Fin 16) (q : Fin 4) (off : Fin 512) (data : Bytes) (t : Nat)
  /-- `APERTURE_WRITE` (R341): A posted write TLP to the memory aperture is checked against the partition's granules and buffered
  for a host slot. -/
  | apertureWrite (p : Fin 16) (offset : Nat) (data : Bytes) (enables : List Bool) (t : Nat)
  /-- `APERTURE_READ` (R343): A read TLP to the memory aperture is checked and queued for the partition's host slots. -/
  | apertureRead (p : Fin 16) (offset length t : Nat)
  /-- `HOST_SLOT_ACCESS` (R340): A host read or write, or an assembled Tier 3 sector, is served in one of the partition's host
  slots. -/
  | hostSlotAccess (p : Fin 16) (t : Nat) (errs : List (Nat × Bool)) (spare : Option Nat)
  /-- `SECTOR_INCOMPLETE` (R342): A Tier 3 sector buffer still incomplete 1 ms after its first byte is discarded, and the fault is
  raised. -/
  | sectorIncomplete (p : Fin 16) (t : Nat)
  /-- `RESULT_RECORD_WRITE` (R348): A held load result record is written by DMA into the result ring once the ring has room, and its
  MSI-X message follows. -/
  | resultRecordWrite (p : Fin 16) (t : Nat)
  /-- `HQ_TO_HOST_WRITE` (R350): A to-host endpoint writes the oldest visible entry into its host ring once the ring has room. -/
  | hqToHostWrite (p : Fin 16) (q : Fin 4) (t : Nat)
  /-- `LINK_RESET` (R354): PERST_N, a hot reset or a PCIe link down clears the host-visible PCIe state of every function. -/
  | linkReset (cause : LinkResetCause) (t : Nat)
  /-- `VF_FLR` (R354): A function level reset, or removal, of a VF clears its registers and starts a partition reset. -/
  | vfFlr (p : Fin 16) (removed : Bool) (t : Nat)
  /-- `PF_FLR` (R354): A function level reset of the PF clears the PF registers and removes every VF. -/
  | pfFlr (t : Nat)
  /-- `PCIE_UNCORRECTABLE` (R356): The endpoint detects an uncorrectable error that AER reports as fatal. -/
  | pcieUncorrectable (bit : Fin 32) (t : Nat)
  /-- `PCIE_LINK_TRAINING_START` (R612): The PCIe endpoint begins link training once VHUB is at power-good and PERST_N is
  deasserted. -/
  | pcieLinkTrainingStart (t : Nat)
  /-- `KERF_STROBE` (R45): The frame timing unit starts a kerf: the frame number advances, settings are sampled, the announcement is
  sent and the kerf-start checks run. -/
  | kerfStrobe (plan : Bool) (copies : List (Fin 5))
  /-- `FREQ_STATE_SWITCH` (R49): The compute dies switch PLL on the first root edge after the due time with no stretch active. -/
  | freqStateSwitch (t : Nat)
  /-- `FREQ_SWITCH_DEFERRED` (R51): If the stretch-busy line is still asserted 256 rc after the due time, the switch is skipped for
  the frame and DROOP is recorded. -/
  | freqSwitchDeferred (t : Nat)
  /-- `MOVER_START` (R275): At t = 80 ns of the kerf all movers start their programs for the frame. -/
  | moverStart (t : Nat)
  /-- `CLUSTER_GROUP_START` (R45): A lane-cluster group starts at its time in the kerf, and its rows begin rotation. -/
  | clusterGroupStart (j : Fin 16) (t : Nat)
  /-- `ARRAY_START` (R45): A matrix array starts its program entry at its time in the kerf. -/
  | arrayStart (k : Fin 16) (t : Nat)
  /-- `CLAMP_LOAD` (R474): At 3,400 ns the governor core loads the frame's limits into every slice. -/
  | clampLoad (t : Nat)
  /-- `KERF_END` (R45): At 4,000 ns the kerf ends: clamp enforcement begins, pacing resumes with its preset and the next state is
  armed. -/
  | kerfEnd (known : Bool) (t : Nat)
  /-- `KERF_LATE` (R60): Kerf events not complete by 4.0 µs plus 256 rc raise KERF_LATE. -/
  | kerfLate (t : Nat)
  /-- `FRAME_MARK` (R35): A mark word is received whole and used to lock RT or to verify it. -/
  | frameMark (t : Nat) (b : Bool) (word : BitVec 64) (edgesRc : Nat)
  /-- `MARK_MISSING` (R36): 3 ms without a valid mark raises MARK_MISSING. -/
  | markMissing (t : Nat)
  /-- `REFERENCE_LOST` (R37): Three missing edges lose the active reference; the unit changes to the other reference or enters
  holdover. -/
  | referenceLost (t : Nat) (b : Bool)
  /-- `HOLDOVER_EXPIRY` (R37): After 20 ms of holdover with no reference returned, the module leaves its domain at the next kerf. -/
  | holdoverExpiry (t : Nat)
  /-- `LOCAL_DONE` (R41): The module reaches local done for the frame and, under BARRIER cadence, sends a done dowel. -/
  | localDone (t : Nat)
  /-- `BARRIER_WATCHDOG` (R57): No kerf by L × WATCHDOG_FACTOR / 16 raises the fault and sends halt dowels. -/
  | barrierWatchdog (t : Nat)
  /-- `DOWEL_DONE` (R320): A done dowel from a child is combined, and the combined done is passed up, or GO is sent by the root. -/
  | dowelDone (src : DowelFrom) (tok : Dowel) (t : Nat)
  /-- `DOWEL_GO` (R320): A go dowel is passed to the children and schedules the next kerf at START_RT. -/
  | dowelGo (src : DowelFrom) (tok : Dowel) (t : Nat)
  /-- `DOWEL_HALT` (R320): A halt dowel is passed up or down and halts its job on this member. -/
  | dowelHalt (src : DowelFrom) (tok : Dowel) (t : Nat)
  /-- `DOWEL_LEAVE` (R320): A leave dowel from a child makes the parent stop counting it from the leave frame. -/
  | dowelLeave (src : DowelFrom) (tok : Dowel) (t : Nat)
  /-- `RELAY_NOTICE` (R322): A relay notice, or a relayed token, makes the parent route that child's tokens through the stand-in. -/
  | relayNotice (src : DowelFrom) (tok : Dowel) (t : Nat)
  /-- `LOADER_TAKE_JIG` (R104): The loader takes up the next doorbell, checks the jig in order and distributes it. -/
  | loaderTakeJig (t : Nat)
  /-- `PLAN_RECORD` (R25): The PWC receives a class energy-plan record over the hub–PWC link and stores it. -/
  | planRecord (t : Nat)
  /-- `PLAN_ACK` (R108): The PWC's acknowledgement of the last plan record ends step 18, and LOADED is delivered. -/
  | planAck (t : Nat)
  /-- `ARRAY_LOAD` (R149): A LOAD descriptor issues and fills a weight plane column by column. -/
  | arrayLoad (m : Fin 16) (x : ArrayDesc) (t : Nat) (e : ArrayUpset)
  /-- `ARRAY_PASS` (R153): A PASS descriptor issues and streams activation rows against a plane into the foot rows. -/
  | arrayPass (m : Fin 16) (x : ArrayDesc) (t : Nat) (e : ArrayUpset)
  /-- `ARRAY_FOOT_LOAD` (R154): A FOOT_LOAD copies WA64 partials from bench into foot rows. -/
  | arrayFootLoad (m : Fin 16) (x : ArrayDesc) (t : Nat) (e : ArrayUpset)
  /-- `ARRAY_DRAIN` (R155): A DRAIN converts foot rows and writes them to bench. -/
  | arrayDrain (m : Fin 16) (x : ArrayDesc) (t : Nat) (e : ArrayUpset)
  /-- `ARRAY_END` (R160): END issues once every earlier descriptor has completed, and the array reaches its part of local done. -/
  | arrayEnd (m : Fin 16) (t : Nat) (e : ArrayUpset)
  /-- `ARRAY_DESCRIPTOR_COMPLETE` (R163): An array descriptor completes at its fixed count, and its signal and flag effects follow.
  -/
  | arrayDescriptorComplete (m : Fin 16) (t : Nat)
  /-- `DEFERRED_SIGNAL_SEND` (R284): A completion signal that found no credit is sent in the first cycle with a credit. -/
  | deferredSignalSend (g : Engine) (q : Nat)
  /-- `NOP` (R223): Lane instruction with no effect. -/
  | laneNop (r : RowAt)
  /-- `END` (R223): Lane instruction that sets the row's done bit. -/
  | laneEnd (r : RowAt)
  /-- `BR` (R223): Lane branch taken for the whole row on ANY or ALL of a predicate. -/
  | laneBr (r : RowAt) (all : Bool) (p : Fin 8) (pol : Bool) (target : Fin 1024)
  /-- `JMP` (R223): Lane unconditional branch. -/
  | laneJmp (r : RowAt) (target : Fin 1024)
  /-- `LOOP` (R224): Lane instruction that reads a trip count and pushes a loop level. -/
  | laneLoop (r : RowAt) (trip : Option (Fin 16)) (imm maxTrip : Fin 65536) (target : Fin 1024)
  /-- `LOOPEND` (R224): Lane instruction that ends one pass and loops back or exits. -/
  | laneLoopend (r : RowAt) (p : Fin 8)
  /-- `IADD` (R204): Integer add. -/
  | laneIadd (w : LaneAt) (d a b : Fin 16)
  /-- `ISUB` (R204): Integer subtract. -/
  | laneIsub (w : LaneAt) (d a b : Fin 16)
  /-- `IMUL` (R204): Low 32 bits of an integer product. -/
  | laneImul (w : LaneAt) (d a b : Fin 16)
  /-- `IMULH` (R204): High 32 bits of a signed product. -/
  | laneImulh (w : LaneAt) (d a b : Fin 16)
  /-- `IMULHU` (R204): High 32 bits of an unsigned product. -/
  | laneImulhu (w : LaneAt) (d a b : Fin 16)
  /-- `IMIN` (R204): Signed minimum. -/
  | laneImin (w : LaneAt) (d a b : Fin 16)
  /-- `IMAX` (R204): Signed maximum. -/
  | laneImax (w : LaneAt) (d a b : Fin 16)
  /-- `UMIN` (R204): Unsigned minimum. -/
  | laneUmin (w : LaneAt) (d a b : Fin 16)
  /-- `UMAX` (R204): Unsigned maximum. -/
  | laneUmax (w : LaneAt) (d a b : Fin 16)
  /-- `AND` (R204): Bitwise and. -/
  | laneAnd (w : LaneAt) (d a b : Fin 16)
  /-- `OR` (R204): Bitwise or. -/
  | laneOr (w : LaneAt) (d a b : Fin 16)
  /-- `XOR` (R204): Bitwise exclusive or. -/
  | laneXor (w : LaneAt) (d a b : Fin 16)
  /-- `SHL` (R204): Shift left. -/
  | laneShl (w : LaneAt) (d a b : Fin 16)
  /-- `SHR` (R204): Logical shift right. -/
  | laneShr (w : LaneAt) (d a b : Fin 16)
  /-- `SAR` (R204): Arithmetic shift right. -/
  | laneSar (w : LaneAt) (d a b : Fin 16)
  /-- `SEL` (R204): Select by predicate. -/
  | laneSel (w : LaneAt) (d a b : Fin 16) (p : Fin 8)
  /-- `FADD` (R205): FP32 add. -/
  | laneFadd (w : LaneAt) (d a b : Fin 16)
  /-- `FSUB` (R205): FP32 subtract. -/
  | laneFsub (w : LaneAt) (d a b : Fin 16)
  /-- `FMUL` (R205): FP32 multiply. -/
  | laneFmul (w : LaneAt) (d a b : Fin 16)
  /-- `FFMA` (R205): FP32 fused multiply-add. -/
  | laneFfma (w : LaneAt) (d a b c : Fin 16)
  /-- `FFMS` (R205): FP32 fused multiply-subtract. -/
  | laneFfms (w : LaneAt) (d a b c : Fin 16)
  /-- `FMIN` (R205): FP32 minimum. -/
  | laneFmin (w : LaneAt) (d a b : Fin 16)
  /-- `FMAX` (R205): FP32 maximum. -/
  | laneFmax (w : LaneAt) (d a b : Fin 16)
  /-- `FABS` (R205): FP32 absolute value. -/
  | laneFabs (w : LaneAt) (d a : Fin 16)
  /-- `FNEG` (R205): FP32 negation. -/
  | laneFneg (w : LaneAt) (d a : Fin 16)
  /-- `MOVI` (R206): Move immediate. -/
  | laneMovi (w : LaneAt) (d : Fin 16) (imm : W32)
  /-- `IADDI` (R206): Add immediate. -/
  | laneIaddi (w : LaneAt) (d a : Fin 16) (imm : W32)
  /-- `ANDI` (R206): And immediate. -/
  | laneAndi (w : LaneAt) (d a : Fin 16) (imm : W32)
  /-- `ORI` (R206): Or immediate. -/
  | laneOri (w : LaneAt) (d a : Fin 16) (imm : W32)
  /-- `XORI` (R206): Xor immediate. -/
  | laneXori (w : LaneAt) (d a : Fin 16) (imm : W32)
  /-- `SHLI` (R206): Shift left by immediate. -/
  | laneShli (w : LaneAt) (d a : Fin 16) (imm : W32)
  /-- `SHRI` (R206): Logical shift right by immediate. -/
  | laneShri (w : LaneAt) (d a : Fin 16) (imm : W32)
  /-- `SARI` (R206): Arithmetic shift right by immediate. -/
  | laneSari (w : LaneAt) (d a : Fin 16) (imm : W32)
  /-- `FADDI` (R206): FP32 add immediate. -/
  | laneFaddi (w : LaneAt) (d a : Fin 16) (imm : W32)
  /-- `FMULI` (R206): FP32 multiply by immediate. -/
  | laneFmuli (w : LaneAt) (d a : Fin 16) (imm : W32)
  /-- `MOV` (R206): Register move. -/
  | laneMov (w : LaneAt) (d a : Fin 16)
  /-- `SPR` (R206): Read a special value into a register. -/
  | laneSpr (w : LaneAt) (d : Fin 16) (sel : Fin 9)
  /-- `WADD` (R206): WA64 pair add modulo 2^64. -/
  | laneWadd (w : LaneAt) (d a b : Fin 8)
  /-- `WSHIFT` (R207): Move a WA64 pair to another window. -/
  | laneWshift (w : LaneAt) (d a : Fin 8) (by_ : BitVec 32)
  /-- `FCMP` (R208): FP32 compare into a predicate. -/
  | laneFcmp (w : LaneAt) (d : Fin 8) (a b : Fin 16) (cond : Fin 8)
  /-- `ICMP` (R208): Integer compare into a predicate. -/
  | laneIcmp (w : LaneAt) (d : Fin 8) (a b : Fin 16) (cond : Fin 10)
  /-- `FCLASS` (R208): FP32 class test into a predicate. -/
  | laneFclass (w : LaneAt) (d : Fin 8) (a : Fin 16) (classes : Fin 512)
  /-- `PLOG` (R208): Predicate logic. -/
  | lanePlog (w : LaneAt) (d a b : Fin 8) (op : Fin 4)
  /-- `PSET` (R208): Predicate from bit 0 of a register. -/
  | lanePset (w : LaneAt) (d : Fin 8) (a : Fin 16)
  /-- `CVTFI` (R214): FP32 to INT32 conversion. -/
  | laneCvtfi (w : LaneAt) (d a : Fin 16) (rnd : LaneRound)
  /-- `CVTIF` (R211): INT32 to FP32 conversion. -/
  | laneCvtif (w : LaneAt) (d a : Fin 16) (rnd : LaneRound)
  /-- `CVTFB` (R214): FP32 to BF16 conversion. -/
  | laneCvtfb (w : LaneAt) (d a : Fin 16) (rnd : LaneRound)
  /-- `UNPK` (R212): Decode a packed element to FP32. -/
  | laneUnpk (w : LaneAt) (d : Fin 16) (a : Fin 8) (fmt : Machine.Format) (pos : Fin 64) (digit : Fin 5)
  /-- `MXEXP` (R213): Compute an E8M0 block scale. -/
  | laneMxexp (w : LaneAt) (d a : Fin 16) (fmt : Machine.Format)
  /-- `MXDIV` (R213): Divide by a block scale. -/
  | laneMxdiv (w : LaneAt) (d a b : Fin 16) (fmt : Machine.Format)
  /-- `PACK` (R214): Round and pack an element into a register pair. -/
  | lanePack (w : LaneAt) (d : Fin 8) (a : Fin 16) (fmt : Machine.Format) (pos : Fin 64) (rnd : LaneRound)
  /-- `XRED` (R210): Cross-lane reduction within groups. -/
  | laneXred (w : LaneAt) (d a : Fin 16) (sub : Fin 12) (group : Fin 8)
  /-- `XROT` (R209): Cross-lane rotation. -/
  | laneXrot (w : LaneAt) (d a : Fin 16) (group : Fin 8) (k : Fin 128)
  /-- `XBCAST` (R209): Cross-lane broadcast. -/
  | laneXbcast (w : LaneAt) (d a : Fin 16) (group : Fin 8) (k : Fin 128)
  /-- `XZIP` (R209): Zip pairs across lanes. -/
  | laneXzip (w : LaneAt) (d a : Fin 8)
  /-- `XUNZIP` (R209): Unzip lanes into pairs. -/
  | laneXunzip (w : LaneAt) (d : Fin 8) (a b : Fin 16)
  /-- `PBALLOT` (R209): Gather predicate bits into words. -/
  | lanePballot (w : LaneAt) (d : Fin 16) (a : Fin 8)
  /-- `PCOUNT` (R209): Count set predicates. -/
  | lanePcount (w : LaneAt) (d : Fin 16) (a : Fin 8)
  /-- `FRCP` (R216): Reciprocal. -/
  | laneFrcp (w : LaneAt) (d a : Fin 16)
  /-- `FRSQRT` (R216): Reciprocal square root. -/
  | laneFrsqrt (w : LaneAt) (d a : Fin 16)
  /-- `FSQRT` (R216): Square root. -/
  | laneFsqrt (w : LaneAt) (d a : Fin 16)
  /-- `FEXP2` (R216): Base-2 exponential. -/
  | laneFexp2 (w : LaneAt) (d a : Fin 16)
  /-- `FLOG2` (R216): Base-2 logarithm. -/
  | laneFlog2 (w : LaneAt) (d a : Fin 16)
  /-- `FEXP` (R216): Natural exponential. -/
  | laneFexp (w : LaneAt) (d a : Fin 16)
  /-- `FLOG` (R216): Natural logarithm. -/
  | laneFlog (w : LaneAt) (d a : Fin 16)
  /-- `FSINPI` (R216): sin(πx). -/
  | laneFsinpi (w : LaneAt) (d a : Fin 16)
  /-- `FCOSPI` (R216): cos(πx). -/
  | laneFcospi (w : LaneAt) (d a : Fin 16)
  /-- `FTANH` (R216): Hyperbolic tangent. -/
  | laneFtanh (w : LaneAt) (d a : Fin 16)
  /-- `FSIGM` (R216): Logistic sigmoid. -/
  | laneFsigm (w : LaneAt) (d a : Fin 16)
  /-- `LDR` (R218): Row load from bench. -/
  | laneLdr (w : LaneAt) (d a : Fin 16) (imm : W32)
  /-- `STR` (R218): Row store to bench. -/
  | laneStr (w : LaneAt) (d a : Fin 16) (imm : W32)
  /-- `LDB` (R218): Broadcast load from bench. -/
  | laneLdb (w : LaneAt) (d a : Fin 16) (imm : W32)
  /-- `LDP` (R218): Part load (gather). -/
  | laneLdp (w : LaneAt) (d a : Fin 16) (imm : W32) (part : Fin 16)
  /-- `STP` (R218): Part store (scatter). -/
  | laneStp (w : LaneAt) (d a : Fin 16) (imm : W32) (part : Fin 16)
  /-- `QSEND` (R219): Send a data entry to a queue. -/
  | laneQsend (r : RowAt) (d : Fin 16) (q : Fin 65536)
  /-- `QSIG` (R219): Send a signal entry to a queue. -/
  | laneQsig (r : RowAt) (q : Fin 65536)
  /-- `QRECV` (R220): Receive an entry into a register. -/
  | laneQrecv (w : LaneAt) (d : Fin 16) (q : Fin 65536)
  /-- `QWAIT` (R219): Take an entry and discard it. -/
  | laneQwait (r : RowAt) (q : Fin 65536)
  /-- `SLSET` (R221): Set a slot's window and clear the slot. -/
  | laneSlset (r : RowAt) (slot : Fin 64) (window : Int)
  /-- `RED` (R192): Reduce lane terms into an accumulation slot. -/
  | laneRed (w : LaneAt) (slot : Fin 64) (a : Fin 16) (sub : Fin 4)
  /-- `SLFM` (R221): OR a bench flag byte into a slot's flag byte. -/
  | laneSlfm (r : RowAt) (slot : Fin 64) (a : Fin 16)
  /-- `SLST` (R222): Store a slot's value to bench. -/
  | laneSlst (r : RowAt) (slot : Fin 64) (a b : Fin 16) (withFlag : Bool)
  /-- `SLCVT` (R222): Convert a slot's value into registers. -/
  | laneSlcvt (w : LaneAt) (slot : Fin 64) (d : Fin 16) (fmt : Machine.Format) (rnd : LaneRound)
  /-- `MOVER_COPY` (R278): A COPY descriptor issues a memory-to-memory transfer. -/
  | moverCopy (k : Fin 128) (x : MvDesc) (t : Nat) (parity : Bool)
  /-- `MOVER_PUSH` (R278): A PUSH descriptor issues a transfer of rows into queue entries. -/
  | moverPush (k : Fin 128) (x : MvDesc) (t : Nat) (parity : Bool)
  /-- `MOVER_PULL` (R278): A PULL descriptor issues a transfer of queue entries into memory. -/
  | moverPull (k : Fin 128) (x : MvDesc) (t : Nat) (parity : Bool)
  /-- `MOVER_FILL` (R278): A FILL descriptor issues a fill of memory with a pattern. -/
  | moverFill (k : Fin 128) (x : MvDesc) (t : Nat) (parity : Bool)
  /-- `MOVER_END` (R281): END issues once every transfer has completed, and the mover reaches its part of local done. -/
  | moverEnd (k : Fin 128) (t : Nat) (parity : Bool)
  /-- `MOVER_SOURCE_ACCESS` (R282): A source access takes the first granted slot with buffer room. -/
  | moverSourceAccess (k : Fin 128) (t : Nat) (errs : List (Nat × Bool))
  /-- `MOVER_DEST_ACCESS` (R283): A destination access takes the first usable slot once its bytes are in the buffer. -/
  | moverDestAccess (k : Fin 128) (t : Nat) (bad : List Nat) (cross : Crossing) (spare : Option Nat)
  /-- `MOVER_COMPLETE` (R284): A mover descriptor completes after its last destination access and signals. -/
  | moverComplete (k : Fin 128) (t : Nat)
  /-- `QUEUE_ENTRY_VISIBLE` (R261): A sent entry becomes visible to its consumer after the transit time. -/
  | queueEntryVisible (q : Fin 4416) (t : Nat) (cross : Crossing) (bad : List (Fin 128)) (fixed parity : Bool)
  /-- `QUEUE_CREDIT_VISIBLE` (R261): A returned credit becomes visible to its producer. -/
  | queueCreditVisible (q : Fin 4416) (t : Nat) (parity : Bool)
  /-- `T1_READ_DELIVER` (R238): A Tier 1 stripe read delivers its data 56 mc after its slot. -/
  | t1ReadDeliver (k : Fin 16) (cross : Crossing)
  /-- `T1_REFRESH_WINDOW` (R237): A stack enters its fixed refresh window and also scrubs one block. -/
  | t1RefreshWindow (k : Fin 16) (t : Nat) (err : Option Bool)
  /-- `T1_TEMP_READ` (R239): The controller reads a stack's temperature and raises T1_HOT at 105 °C. -/
  | t1TempRead (k : Fin 16) (decic : Int)
  /-- `T2_READ_DELIVER` (R241): A Tier 2 stripe read delivers its data 108 hc after its slot. -/
  | t2ReadDeliver (cross : Crossing)
  /-- `T3_READ_RELEASE` (R243): A Tier 3 sector read is released exactly 120 µs after its slot. -/
  | t3ReadRelease (missed : Bool) (cross : Crossing)
  /-- `T3_RECLAMATION` (R247): Reclamation runs in a write slot that no table grants. -/
  | t3Reclamation (bytes spare : Nat)
  /-- `MEMORY_SCRUB` (R253): A scrub read corrects or poisons stored data outside the schedules. -/
  | memoryScrub (m : ScrubTarget) (err : Option Bool)
  /-- `PORT_TRAINING_COMPLETE` (R290): A port completes training and reports its neighbour and delay. -/
  | portTrainingComplete (port : Fin 32) (neighbour : Nat) (serial : Bytes) (level delayNs t : Nat)
  /-- `TRAIN_FAIL` (R290): A port not trained within 500 ms stays down, and the fault is raised. -/
  | trainFail (port : Fin 32) (t : Nat)
  /-- `FLIT_RECEIVE` (R295): A flit is received; its ACK and credits are taken, and a CRC failure causes a NAK and replay. -/
  | flitReceive (port : Fin 32) (t : Nat) (raw : Bytes) (fecBad fecFixed : Bool) (word : Option LinkWord)
  /-- `PATH_DOWN` (R296): A path goes down on lock loss, failed replays or an ACK timeout, and is retrained. -/
  | pathDown (port : Fin 32) (lockLost : Bool) (t : Nat)
  /-- `TRANSACTION_FORWARD` (R302): A transaction for another node is forwarded by the active route table. -/
  | transactionForward (t : Nat) (upset : Bool)
  /-- `TRANSACTION_RELEASE` (R304): A transaction is released to its endpoint at SEND_RT plus its delay class. -/
  | transactionRelease (t : Nat)
  /-- `PUT_FORM` (R311): A put source forms a PUT once it holds a full batch of entries and credits. -/
  | putForm (e : Fin 256) (t : Nat)
  /-- `CREDIT_SEND` (R311): A put sink sends a CREDIT once it holds BATCH returned credits. -/
  | creditSend (e : Fin 256) (t : Nat)
  /-- `GET_FORM` (R312): A get client forms a GET once it holds a signal entry and the credits. -/
  | getForm (e : Fin 256) (t : Nat)
  /-- `RESPONSE_FORM` (R312): A get server forms a RESPONSE once the entries are visible. -/
  | responseForm (e : Fin 256) (t : Nat)
  /-- `REDUCE_COMBINE` (R317): A reduction member combines its own contribution with its children's and sends the sum up, or forms
  the result at the root. -/
  | reduceCombine (e : Fin 256) (t : Nat)
  /-- `REDUCE_RESULT_FORWARD` (R318): A member forwards a released result to its children 20 ns after release. -/
  | reduceResultForward (e : Fin 256) (t : Nat)
  /-- `SHIM_TARGET_STEP` (R367): Every 50 µs P_target moves toward P_goal by at most R × 50 µs, and excursions and headroom are
  assessed. -/
  | shimTargetStep (t : Nat) (x : ShimInputs)
  /-- `FEED_FORWARD_STEP` (R359): At a plan segment boundary the planned power change is added to the voltage source's command. -/
  | feedForwardStep (t : Nat)
  /-- `SHORT_IMPORT_EXHAUSTED` (R364): Once the 10 s short-term import allowance is used, import is limited to 2,800 W. -/
  | shortImportExhausted (t : Nat)
  /-- `LEASE_EXPIRY` (R382): A lease expires without renewal; FLATTEN takes effect and LEASE_EXPIRED is raised. -/
  | leaseExpiry (t : Nat)
  /-- `BUS_LOSS` (R383): A bus below 600 V for 50 µs stops the input converter, and the module enters ISLAND at once. -/
  | busLoss (t : Nat)
  /-- `BUS_OVERVOLTAGE` (R362): A bus above 960 V for 10 µs stops the input converter and opens its input isolation. -/
  | busOvervoltage (t : Nat)
  /-- `BUS_PRESENT` (R386): A bus in range for 1.0 s becomes present, and the module leaves the ride-through at the next kerf. -/
  | busPresent (t capMv : Nat)
  /-- `PRECHARGE_START` (R610): Precharge begins at the later of the end of the token sequence and the end of the hold-off. -/
  | prechargeStart (t : Nat)
  /-- `PRECHARGE_COMPLETE` (R363): The input capacitance reaches 95 % of the bus, and the input converter starts. -/
  | prechargeComplete (t capMv : Nat)
  /-- `PRECHARGE_FAIL` (R363): Precharge not complete within 200 ms stops, and the fault is raised. -/
  | prechargeFail (t : Nat)
  /-- `INPUT_OVERCURRENT` (R390): Input current above 7.0 A for 1 µs stops the input converter. -/
  | inputOvercurrent (t : Nat)
  /-- `STORAGE_OVERCURRENT` (R390): Stack current above 36 A stops the storage converter and opens the stack switch. -/
  | storageOvercurrent (t : Nat)
  /-- `IBUS_OVERVOLTAGE` (R390): An intermediate bus above 56.0 V stops both converters. -/
  | ibusOvervoltage (t : Nat)
  /-- `INPUT_RESTART_AFTER_OV` (R532): The input converter restarts once, 5 ms after IBUS_OVERVOLTAGE, if the bus is present. -/
  | inputRestartAfterOv (t : Nat)
  /-- `IBUS_UNDERVOLTAGE` (R390): An intermediate bus below 44.0 V for 20 µs raises the fault. -/
  | ibusUndervoltage (t : Nat)
  /-- `CONVERTER_HOT` (R390): A converter heat sink at 95 °C limits that converter to 2,000 W. -/
  | converterHot (t : Nat) (storage : Bool)
  /-- `CONVERTER_OVERTEMP` (R390): A converter heat sink at 110 °C stops that converter. -/
  | converterOvertemp (t : Nat) (storage : Bool)
  /-- `STORAGE_FINAL_STOP` (R385): 5 s after ISLAND_EXHAUSTED the storage converter stops. -/
  | storageFinalStop (t : Nat)
  /-- `CELL_SCAN` (R403): A scan cycle measures every cell, compares the thresholds, updates the estimator and sends the bleed mask.
  -/
  | cellScan (t : Nat) (inp : ScanInput)
  /-- `REST_TIMEOUT` (R428): 150 s without a complete rest aborts the rest. -/
  | restTimeout (t : Nat)
  /-- `CAPTURE_ARM` (R405): A capture is armed 3.5 ms before a kerf with a forecast step, opening the bleeds and starting fast
  ticks. -/
  | captureArm (t stepMa : Nat)
  /-- `CAPTURE_READ` (R406): 1.2 ms after the strobe the capture ring is read and the resistance is measured. -/
  | captureRead (t : Nat) (ring : List CaptureTick)
  /-- `CAPTURE_CANCEL` (R405): A capture whose kerf has not come within 20 ms is cancelled. -/
  | captureCancel (t : Nat)
  /-- `SLICE_COMMAND_TIMEOUT` (R399): A slice without a valid command for 25 ms opens its bleed switches. -/
  | sliceCommandTimeout (k : Fin 6) (t : Nat)
  /-- `CHAIN_ENUMERATION` (R401): At cold start the cell monitor enumerates the ring, self-tests the slices and reads the pack
  identity. -/
  | chainEnumeration (t : Nat) (r : ChainRead)
  /-- `CHARGE_COUNT_TICK` (R414): Every 50 µs the cell monitor counts stack, bleed and slice charge into each cell. -/
  | chargeCountTick (t : Nat) (currentMa : Int)
  /-- `VOLTAGE_SAMPLE` (R446): Each rail sample runs the compensator and moves the reference. -/
  | voltageSample (r : Fin 16) (code t : Nat)
  /-- `PWM_PERIOD_START` (R445): A phase computes the on-time of its pulse at the start of its period. -/
  | pwmPeriodStart (r : Fin 16) (p : Fin 40) (iAvg iP : Int) (ibusMv frMa : Nat) (limitAt : Option Nat) (t : Nat)
  /-- `OVERSHOOT_TRIP` (R455): An overshoot comparator trip ends every phase's pulse within 3 rc. -/
  | overshootTrip (r : Fin 16) (uv t : Nat)
  /-- `OVERSHOOT_CLEAR` (R455): The voltage falling below the reference plus half the threshold allows pulses again. -/
  | overshootClear (r : Fin 16) (uv t : Nat)
  /-- `UNDERSHOOT_TRIP` (R456): An undershoot begins extra pulses within 3 rc. -/
  | undershootTrip (r : Fin 16) (uv ibusMv frMa : Nat) (limits : List (Fin 40 × Nat)) (t : Nat)
  /-- `PHASE_FAIL` (R464): A power-stage fault report stops the phase, derating or stopping its rail. -/
  | phaseFail (r : Fin 16) (p : Fin 40) (t : Nat)
  /-- `PHASE_LIMITING` (R461): A phase held at its limit for 100 periods raises the fault. -/
  | phaseLimiting (r : Fin 16) (p : Fin 40) (t : Nat)
  /-- `STAGE_HOT` (R465): A stage at 125 °C asserts VR_ALERT_N. -/
  | stageHot (r : Fin 16) (p : Fin 40) (t : Nat)
  /-- `RAIL_OVERCURRENT` (R461): Rail current above 125 % of rating for 10 µs stops the rail. -/
  | railOvercurrent (r : Fin 16) (ma t : Nat)
  /-- `RAIL_UNDERVOLTAGE` (R461): A rail below 85 % of its reference for 20 µs loses power-good. -/
  | railUndervoltage (r : Fin 16) (uv t : Nat)
  /-- `RAIL_OVERVOLTAGE` (R463): Rail over-voltage stops a class S rail, or latches the low-side switches of a class L rail. -/
  | railOvervoltage (r : Fin 16) (uv t : Nat)
  /-- `RAIL_OV_FR_STOP` (R462): A class S rail still over-voltage 10 µs later stops FR. -/
  | railOvFrStop (r : Fin 16) (uv t : Nat)
  /-- `CURRENT_IMBALANCE` (R461): A phase away from the mean for 1 ms raises the fault. -/
  | currentImbalance (r : Fin 16) (p : Fin 40) (t : Nat)
  /-- `FR_OVERCURRENT` (R442): FR above 380 A for 2 µs stops it and every rail it feeds. -/
  | frOvercurrent (t : Nat)
  /-- `FR_UNDERVOLTAGE` (R442): FR output below 11.5 V for 20 µs raises the fault. -/
  | frUndervoltage (t : Nat)
  /-- `RIPPLE_BLOCK_CHECK` (R449): A 50 µs block after a bank change checks ripple and reverts to FACTORY after 20 bad blocks. -/
  | rippleBlockCheck (r : Fin 16) (peakToPeakUv t : Nat)
  /-- `TELEMETRY_BLOCK` (R466): A 50 µs block mean is formed, the means and peaks are updated, and VCORE blocks are sent. -/
  | telemetryBlock (r : Fin 17) (rawUv rawMa : Nat) (tempDc pwcDc : Int) (t : Nat)
  /-- `STAGED_START_EVENT` (R458): At each timed point the next rail group starts, if the earlier ones have power-good. -/
  | stagedStartEvent (frUv : Nat) (shorts : List (Fin 16 × Fin 40)) (repaired : List (Fin 5)) (t : Nat)
  /-- `RAIL_STOP_STEP` (R460): Each 1 ms step stops the next group of rails. -/
  | railStopStep (t : Nat)
  /-- `VR_ALERT_N_ASSERT` (R508): Assertion of VR_ALERT_N switches every compute die to the F5 reserve clock within 1 µs. -/
  | vrAlertNAssert (t : Nat)
  /-- `VR_ALERT_N_RELEASE` (R508): Release of VR_ALERT_N lets the cap rise from the next kerf. -/
  | vrAlertNRelease (t : Nat)
  /-- `PACING_UPDATE` (R478): Every 1 µs each slice adjusts its pacing count against its limits. -/
  | pacingUpdate (n : Fin 4) (ma : Nat) (partMw : List (Fin 16 × Nat)) (t : Nat)
  /-- `F0_TIME_EXHAUSTED` (R494): 6.0 s of F0 within the window sets the pacing floor 8 until the next kerf. -/
  | f0TimeExhausted (t : Nat)
  /-- `DROOP_CROSSING` (R482): A sense voltage below the threshold starts a clock stretch. -/
  | droopCrossing (n : Fin 4) (uv t : Nat)
  /-- `STRETCH_END` (R482): 32 periods above the recovery threshold end the stretch. -/
  | stretchEnd (n : Fin 4) (uv t : Nat)
  /-- `DIODE_SAMPLE` (R497): A die diode is sampled, validated and compared with the thresholds. -/
  | diodeSample (n : Fin 5) (v : Int) (t : Nat)
  /-- `THERMAL_MODEL_UPDATE` (R498): Every 50 µs the 64-node models are updated and the die thresholds compared. -/
  | thermalModelUpdate (hubHeat : List Nat) (t : Nat)
  /-- `ORDERLY_STOP_CLOCKS` (R504): The compute-die clocks stop once issued transfers complete, or at 500 µs. -/
  | orderlyStopClocks (t : Nat)
  /-- `ORDERLY_STOP_RAILS` (R504): 1 µs after the clocks stop, VCORE0–VCORE3 stop. -/
  | orderlyStopRails (t : Nat)
  /-- `FLOW_LOSS` (R506): FLOW_OK low for 200 µs begins the orderly stop and raises FLOW_LOSS. -/
  | flowLoss (t : Nat)
  /-- `FLOW_RESTORED` (R507): FLOW_OK high for 1.0 s removes the flow cause of a die stop. -/
  | flowRestored (t : Nat)
  /-- `DIE_RESTART` (R507): Once acknowledged and the cause has gone, the compute dies restart by the staged start. -/
  | dieRestart (t : Nat)
  /-- `STACK_TEMP_READ` (R500): Stack temperatures read every 1 ms impose or clear a die throttle. -/
  | stackTempRead (k : Fin 16) (v : Int) (t : Nat)
  /-- `COOLANT_READ` (R645): The inlet temperature read every 10 ms is range-checked, and COOLANT_HOT is raised after 1 s above 45
  °C. -/
  | coolantRead (v : Int) (t : Nat)
  /-- `QUOTA_MEAN_UPDATE` (R496): Every 1 ms each partition's 1,000 ms mean power is computed. -/
  | quotaMeanUpdate (t : Nat)
  /-- `ENERGY_ATTRIBUTION` (R511): Every 50 µs the module's energy is attributed to partitions and queues. -/
  | energyAttribution (est : List (Nat × Nat)) (dieNj : List Nat) (moduleUj : Nat) (queues : List (Fin 4416 × Nat)) (t : Nat)
  /-- `FAULT_ARRIVAL` (R528): A fault reaches the fault collector and is latched, its level decided with escalation, and its
  reaction set. -/
  | faultArrival (src : Source) (msg : FaultMsg) (bad : Bool) (t : Nat)
  /-- `REACTION_HALT_DOWELS` (R528): 1.0 µs after arrival HD sends the halt dowels that the reaction requires. -/
  | reactionHaltDowels (t : Nat)
  /-- `FAULT_EVENT` (R542): Within 100 µs a record of MINOR or higher sets FAULT_EVENT in the PF. -/
  | faultEvent (t : Nat)
  /-- `FAULT_OUT_TIMER` (R541): A FAULT_OUT_N pulse, hold or gap time ends and the line is released or asserted. -/
  | faultOutTimer (t : Nat)
  /-- `FAULT_CONDITION_CLEAR` (R543): A fault condition ends; an ACK_PENDING slot is emptied and the reactions above the new level
  end. -/
  | faultConditionClear (code unit which t : Nat)
  /-- `WATCHDOG_KICK` (R563): The active processor writes its watchdog kick register. -/
  | watchdogKick (who : Fin 2) (t : Nat)
  /-- `WATCHDOG_EXPIRY` (R563): 3.0 ms without a kick starts a failover, and the coast begins. -/
  | watchdogExpiry (mid : Bool) (t : Nat)
  /-- `MP_FAILURE_DECLARED` (R563): The active processor declares its own failure and a failover begins. -/
  | mpFailureDeclared (mid : Bool) (t : Nat)
  /-- `STANDBY_WATCHDOG_EXPIRY` (R564): 300 ms without a standby kick loses the standby. -/
  | standbyWatchdogExpiry (t : Nat)
  /-- `TAKEOVER_COMPLETE` (R572): The standby loads the newest image, replays the journal and takes the ownership switch, ending the
  coast. -/
  | takeoverComplete (who : Fin 2) (bad0 bad1 corrected : Bool) (badEntry : Option Nat) (t : Nat)
  /-- `COAST_TIMEOUT` (R573): A coast of 50 ms raises MP_COAST_TIMEOUT. -/
  | coastTimeout (t : Nat)
  /-- `MP_NONE_TIMEOUT` (R573): No processor in control 1.0 s after the coast began raises MP_NONE. -/
  | mpNoneTimeout (t : Nat)
  /-- `IMAGE_COPY_START` (R567): The active processor begins an image copy 1.0 s after the last one, when the journal is half full,
  or after takeover. -/
  | imageCopyStart (t : Nat)
  /-- `IMAGE_COPY_COMPLETE` (R567): An image copy completes with its CRC written. -/
  | imageCopyComplete (corrected : Bool) (t : Nat)
  /-- `STANDBY_SELF_TEST` (R562): A READY standby runs its hourly self-test. -/
  | standbySelfTest (pass corrected : Bool) (t : Nat)
  /-- `PROCESSOR_RESTART` (R568): The fault collector resets a lost processor and boots it as standby, or leaves it HELD. -/
  | processorRestart (who : Fin 2) (t : Nat)
  /-- `MP_BOOT_COMPLETE` (R581): A processor completes boot with image verification, taking the active role or becoming standby. -/
  | mpBootComplete (who : Fin 2) (pass : Bool) (t : Nat)
  /-- `PTP_MESSAGE` (R591): A PTP message on management Ethernet updates the pairing of time of day with RT. -/
  | ptpMessage (port : Fin 2) (timeNs t : Nat)
  /-- `MGMT_LINK_DOWN` (R645): 10 ms without synchronisation takes a management port down. -/
  | mgmtLinkDown (port : Fin 2) (t : Nat)
  /-- `ALWAYS_ON_POWER_UP` (R611): Always-on power with PRESENT_N mated starts a cold start, the hold-off and the fuse check. -/
  | alwaysOnPowerUp (mated : Bool) (first second : List (Fin 12)) (calBad : Bool) (t : Nat)
  /-- `PRESENT_N_MATE` (R609): PRESENT_N is sampled mated and a full hold-off begins. -/
  | presentNMate (t : Nat)
  /-- `PRESENT_N_BREAK` (R614): A PRESENT_N break restarts the hold-off, or after precharge is a removal that stops everything
  within 1 ms. -/
  | presentNBreak (t : Nat)
  /-- `HOLD_OFF_EXPIRY` (R609): The 2.0 s hold-off ends. -/
  | holdOffExpiry (t : Nat)
  /-- `TRAY_START_CHANGE` (R610): A filtered change of TRAY_START advances the token sequence or triggers a precharge after bus
  return. -/
  | trayStartChange (high : Bool) (t : Nat)
  /-- `EMERGENCY_STOP` (R533): EMERGENCY_STOP_N low after its deglitch raises the FATAL fault. -/
  | emergencyStop (low : Bool) (t : Nat)
  /-- `SLOT_ID_SAMPLE` (R645): SLOT_ID is sampled 10 ms after always-on power. -/
  | slotIdSample (v : Fin 32) (t : Nat)
  /-- `SLOT_ID_MISMATCH` (R645): A SLOT_ID different from the sample for 100 ms raises INPUT_OUT_OF_RANGE. -/
  | slotIdMismatch (t : Nat)
  /-- `STANDBY_PLL_LOCK` (R659): A retuned standby PLL locks at its armed state. -/
  | standbyPllLock (n : Fin 4) (t : Nat)
  /-- `PLL_LOCK_LOST` (R671): A running PLL loses lock and the dies' clocks stop. -/
  | pllLockLost (p : Pll) (t : Nat)
  /-- `PWC_PLL_CHANGEOVER` (R654): The PWC PLL changes from the local oscillator to the distributed reference when HD first locks.
  -/
  | pwcPllChangeover (t : Nat)
  /-- `OSCILLATOR_CALIBRATION` (R665): Each whole second in one band updates the oscillator correction table. -/
  | oscillatorCalibration (tempDc measured : Int) (t : Nat)
  /-- `COUNTER_FOLD` (R673): Every 10 µs the central reader folds the local increments into the counters. -/
  | counterFold (t : Nat)
  /-- `MGMT_LINK_UP` (R645): A management Ethernet port regains IEEE 802.3 Clause 36 synchronisation and comes back up, so it can
  again serve the Ethernet slot and PTP. -/
  | mgmtLinkUp (port : Fin 2) (t : Nat)
  /-- `PCIE_LINK_UP` (R621): The PCIe link reaches L0, which ends the assertion of WAKE_N after leaving PARKED and lets host traffic
  flow. -/
  | pcieLinkUp (rate : LinkRate) (t : Nat)
  /-- `WAKE_N_TIMEOUT` (R621): WAKE_N is released 1.0 s after VHUB power-good when the PCIe link has not reached L0. -/
  | wakeNTimeout (t : Nat)
  /-- `I3C_ADDRESS_ASSIGNMENT` (R592): An ENTDAA or SETDASA from the tray controller gives the module its I3C dynamic address. -/
  | i3cAddressAssignment (address : Fin 128) (viaStatic : Option (Fin 128)) (t : Nat)
  /-- `ICMPV6_MESSAGE` (R589): A Neighbor Discovery, router advertisement or ICMPv6 Echo message arrives on a management port and
  the module answers it or configures its addresses. -/
  | icmpv6Message (port : Fin 2) (src : Nat) (msg : Icmp6) (t : Nat)
deriving DecidableEq, Repr

end Sys2Proof
end

