-- ==== Sys2Proof/Config.lean ====
section
/-! DEFINITION. What an implementation or one manufactured module fixes, and the free values of the model: constants without a
body, so that nothing can be proved of them. Each is named in an entry of the assumption log. -/

namespace Sys2Proof

/-- A byte whose value the manual leaves undefined, by the loss that made it so and its address (R58, R231). -/
opaque Config.freeByte : Nat → Nat → BitVec 8
/-- Whether the memory unit at an address reads as uncorrectable after the loss that made its contents undefined (R231). -/
opaque Config.freePoison : Nat → Nat → Bool
/-- A foot word, and a foot row's flag byte, whose contents were lost (R152): by array, loss and index. -/
opaque Config.freeFoot : Nat → Nat → Nat → Nat
/-- The B0 implementation's transcendental result within the bound of R216: by opcode and input (R217). -/
opaque Config.transcendental : Nat → BitVec 32 → BitVec 32
/-- A free number, by the reason it is drawn for and the counter `State.free`. -/
opaque Config.freeNat : Nat → Nat → Nat

/-- A byte of the fuse image that the manual leaves to the module: identity, keys, tables and calibration (R546 to R549). -/
opaque Config.fuse : Nat → BitVec 8
/-- The open-circuit voltage in mV of a fill outside 0 to 1, and the fill and the slope in mV per unit of fill for a voltage the
table of a temperature band does not hold (R415): by band. -/
opaque Config.beyondOcv : Nat → Rat → Rat
opaque Config.beyondFill : Nat → Rat → Rat
opaque Config.beyondSlope : Nat → Rat → Rat
/-- Power in W that the input converter brings to the intermediate bus at an input current of 4.6 A and a bus voltage in mV below 680 V, where
the manual gives no efficiency (R357, R362). -/
opaque Config.inputLimitW : Nat → Nat
/-- The square root as the estimator's firmware computes it (R427). -/
opaque Config.root : Rat → Rat
/-- Supply current of a slice in microampere (R414); at most 2,000. -/
opaque Config.sliceSupply : Nat → Nat

/-- Whether an error between two codes, and an on-time between two steps, is taken as the higher (R445, R446). -/
opaque Config.errorUp : Rat → Bool
opaque Config.onUp : Rat → Bool
/-- The setpoint in mV of a rail other than VCORE and VHUB, within its range (R441). -/
opaque Config.railSetpoint : Nat → Nat
/-- The fused thermal model of a die (R498): conductance between two nodes and from a node to the coolant in W per K, heat capacity of a
node in J per K, and a node's share of the base energy. -/
opaque Config.conductance : Nat → Nat → Nat → Rat
opaque Config.coolantConductance : Nat → Nat → Rat
opaque Config.heatCapacity : Nat → Nat → Rat
opaque Config.baseShare : Nat → Nat → Rat
/-- The share of an amount that nothing measured divides, by die (R474: a budgeter entry without power). -/
opaque Config.evenShare : Nat → Rat
/-- Whether an oscillator offset between two numbers of 0.001 ppm is taken as the higher (R665). -/
opaque Config.oscUp : Rat → Bool
/-- `QF_CREDIT_WAIT_QC` and `QF_ENTRY_WAIT_QC` (R675) by index, time of the cold start and time: the manual does not say which waits they
count. -/
opaque Config.waitQc : Nat → Nat → Nat → Nat
/-- A reading of a PWC converter as the trim of its reference moves it (R667): converter, trim in 10 µV, reading. The manual gives no
scaling of the converters. -/
opaque Config.trimmed : Nat → Rat → Int → Int
/-- SHA-384, and whether a signature verifies over a message with an ECDSA P-384 public key (R581): FIPS 180-4 and FIPS 186-5 define
them. -/
opaque Config.sha384 : List (BitVec 8) → List (BitVec 8)
opaque Config.ecdsaVerifies : List (BitVec 8) → List (BitVec 8) → List (BitVec 8) → Bool

end Sys2Proof
end

