-- ==== Sys2Proof/Machine/Bits.lean ====
section
/-! DEFINITION. Sparse tables, byte order, bit fields and the CRC-32C: the helpers every other file computes with.
Byte order is decided here, once: the byte at the lowest offset holds bits [7:0] (R7). -/

namespace Sys2Proof.Machine

/-! ### Sparse tables -/

/-- The value at key `k`; a key not listed holds `d`. -/
def SMap.get {α : Type} : SMap α → Nat → α → α
  | [], _, d => d
  | (k', v) :: r, k, d => if k = k' then v else SMap.get r k d

/-- An entry put before the first key above its own. -/
def SMap.insert {α : Type} : SMap α → Nat → α → SMap α
  | [], k, v => [(k, v)]
  | (k', v') :: r, k, v => if k < k' then (k, v) :: (k', v') :: r else (k', v') :: SMap.insert r k v

/-- Write `v` at key `k`, keeping the keys strictly rising and the default `d` unlisted. -/
def SMap.set {α : Type} [DecidableEq α] (m : SMap α) (k : Nat) (v d : α) : SMap α :=
  let rest := m.filter (fun kv => !(kv.1 == k))
  if v = d then rest else SMap.insert rest k v

/-- Every key of the table is above `lo`, they rise strictly, and no entry equals the default. -/
def SMap.wfFrom {α : Type} [DecidableEq α] : Option Nat → SMap α → α → Bool
  | _, [], _ => true
  | lo, (k, v) :: r, d => (match lo with | none => true | some l => decide (l < k)) && decide (v ≠ d) && SMap.wfFrom (some k) r d

/-- The canonical form of a sparse table with default `d`. -/
def SMap.wf {α : Type} [DecidableEq α] (m : SMap α) (d : α) : Bool := SMap.wfFrom none m d

/-- Change the value at key `k` by `f`. -/
def SMap.modify {α : Type} [DecidableEq α] (m : SMap α) (k : Nat) (d : α) (f : α → α) : SMap α :=
  SMap.set m k (f (SMap.get m k d)) d

/-- The table without the keys for which `p` holds: they fall back to the default. -/
def SMap.drop {α : Type} (m : SMap α) (p : Nat → Bool) : SMap α := m.filter (fun kv => !p kv.1)

/-- Change every listed value by `f`. -/
def SMap.mapAll {α : Type} [DecidableEq α] (m : SMap α) (d : α) (f : α → α) : SMap α :=
  m.filterMap (fun kv => if f kv.2 = d then none else some (kv.1, f kv.2))

/-- Change the listed values at the keys for which `p` holds by `f`. -/
def SMap.mapAt {α : Type} [DecidableEq α] (m : SMap α) (d : α) (p : Nat → Bool) (f : α → α) : SMap α :=
  m.filterMap (fun kv => if p kv.1 then (if f kv.2 = d then none else some (kv.1, f kv.2)) else some kv)

/-- Write a run of values at consecutive keys from `k`. -/
def SMap.setRun {α : Type} [DecidableEq α] : SMap α → Nat → List α → α → SMap α
  | m, _, [], _ => m
  | m, k, v :: vs, d => SMap.setRun (SMap.set m k v d) (k + 1) vs d

/-! ### Bytes and little-endian numbers (R7) -/

/-- A string of bytes as a number, the first byte least significant. -/
def leNat : Bytes → Nat
  | [] => 0
  | b :: r => b.toNat + 256 * leNat r

/-- The low `n` bytes of `v`, least significant first. -/
def leBytes : Nat → Nat → Bytes
  | 0, _ => []
  | n + 1, v => BitVec.ofNat 8 v :: leBytes n (v / 256)

/-- The little-endian field of `n` bytes at offset `off`; bytes past the end of the string read zero. -/
def rd (b : Bytes) (off n : Nat) : Nat := leNat ((b.drop off).take n)

/-- The signed little-endian field of `n` bytes at offset `off`. -/
def rdInt (b : Bytes) (off n : Nat) : Int :=
  let v := rd b off n
  if 2 * v < 256 ^ n then (v : Int) else (v : Int) - ((256 ^ n : Nat) : Int)

/-- `n` bytes of a signed number in two's complement. -/
def leInt (n : Nat) (v : Int) : Bytes := leBytes n (v % ((256 ^ n : Nat) : Int)).toNat

/-- The `n` bytes of `b` from offset `off`, zero-padded to length `n`. -/
def slice (b : Bytes) (off n : Nat) : Bytes :=
  let x := (b.drop off).take n
  x ++ List.replicate (n - x.length) 0

/-- `n` zero bytes. -/
def zeros (n : Nat) : Bytes := List.replicate n 0

/-- Whether bytes `off` to `off + n - 1` are all zero: how a reserved field must stand (R10). -/
def zeroAt (b : Bytes) (off n : Nat) : Bool := ((b.drop off).take n).all (· == 0)

/-- Bits [lo + n - 1 : lo] of a number. -/
def bitsOf (v lo n : Nat) : Nat := v / 2 ^ lo % 2 ^ n

/-- Bit `i` of a number. -/
def bitAt (v i : Nat) : Bool := v.testBit i

/-- A flag as the number 0 or 1. -/
def b2n (b : Bool) : Nat := if b then 1 else 0

/-- A number whose bit `i` is the `i`-th flag of the list. -/
def flags : List Bool → Nat
  | [] => 0
  | b :: r => b2n b + 2 * flags r

/-- A two's-complement reading of the low `n` bits. -/
def sext (n v : Nat) : Int :=
  let w := v % 2 ^ n
  if 2 * w < 2 ^ n then (w : Int) else (w : Int) - ((2 ^ n : Nat) : Int)

/-- A number added to a counter that saturates at `top`. -/
def satAdd (top a b : Nat) : Nat := min top (a + b)

/-- The indices below `n` that satisfy `p`. -/
def indices (n : Nat) (p : Nat → Bool) : List Nat := (List.range n).filter p

/-- The list with position `i` replaced; an `i` past the end changes nothing. -/
def setNth {α : Type} (l : List α) (i : Nat) (v : α) : List α := l.set i v

/-- Element `i` of a list, or `d`. -/
def nth {α : Type} (l : List α) (i : Nat) (d : α) : α := l.getD i d

/-- A value given for `n` bands of 10 K, interpolated between band centres at `x` tenths of a degree above the first centre; the end bands'
own beyond the outermost centres (R666, R667; DEDUCED at the ends). -/
def bandValue (v : Nat → Rat) (n : Nat) (x : Int) : Rat :=
  if x ≤ 0 then v 0
  else if 100 * ((n : Int) - 1) ≤ x then v (n - 1)
  else v (x.toNat / 100) + (v (x.toNat / 100 + 1) - v (x.toNat / 100)) * ((x.toNat % 100 : Nat) : Rat) / 100

/-! ### CRC-32C (R86) -/

/-- One bit of the reflected CRC-32C division. -/
def crcBit (c : BitVec 32) : BitVec 32 :=
  if c.getLsbD 0 then (c >>> 1) ^^^ 0x82F63B78#32 else c >>> 1

/-- One byte of the reflected CRC-32C division. -/
def crcByte (c : BitVec 32) (b : Byte) : BitVec 32 :=
  crcBit (crcBit (crcBit (crcBit (crcBit (crcBit (crcBit (crcBit (c ^^^ b.setWidth 32))))))))

/-- The CRC-32C of a string of bytes: polynomial 0x1EDC_6F41 reflected, initial value and final inversion all ones (R86). -/
def crc32c (b : Bytes) : BitVec 32 := ~~~ (b.foldl crcByte 0xFFFFFFFF#32)

/-- Whether the four bytes at `off` hold the CRC-32C of the bytes before them from `from_` on. -/
def crcGood (b : Bytes) (start off : Nat) : Bool :=
  rd b off 4 == (crc32c ((b.drop start).take (off - start))).toNat

end Sys2Proof.Machine
end

