-- ==== Sys2Proof/Machine/Formats.lean ====
section
/-! DEFINITION. Number formats and order-free arithmetic (R116 to R143): decoding, exact values, WA64 terms, output conversion,
stochastic rounding. A finite value is held exactly, as a sign, a whole number and a power of two. -/

namespace Sys2Proof.Machine

/-- A decoded operand: NaN, an infinity, or exactly `±mant × 2^exp`. Zero keeps its sign. -/
inductive FVal where
  | nan
  | inf (neg : Bool)
  | fin (neg : Bool) (mant : Nat) (exp : Int)
deriving DecidableEq, Repr

/-- A floating-point format (R117): widths, bias, and the exponent and mantissa fields of its largest finite value. -/
structure FloatFmt where
  expBits : Nat
  manBits : Nat
  bias : Int
  maxExp : Nat
  maxMan : Nat
  /-- Overflow gives infinity (BF16, FP32), else the largest finite value (R137). -/
  toInf : Bool
deriving DecidableEq, Repr

def fmtE4M3 : FloatFmt := { expBits := 4, manBits := 3, bias := 7, maxExp := 15, maxMan := 6, toInf := false }
def fmtE5M2 : FloatFmt := { expBits := 5, manBits := 2, bias := 15, maxExp := 30, maxMan := 3, toInf := false }
def fmtE3M2 : FloatFmt := { expBits := 3, manBits := 2, bias := 3, maxExp := 7, maxMan := 3, toInf := false }
def fmtE2M3 : FloatFmt := { expBits := 2, manBits := 3, bias := 1, maxExp := 3, maxMan := 7, toInf := false }
def fmtE2M1 : FloatFmt := { expBits := 2, manBits := 1, bias := 1, maxExp := 3, maxMan := 1, toInf := false }
def fmtBF16 : FloatFmt := { expBits := 8, manBits := 7, bias := 127, maxExp := 254, maxMan := 127, toInf := true }
def fmtFP32 : FloatFmt := { expBits := 8, manBits := 23, bias := 127, maxExp := 254, maxMan := 8388607, toInf := true }

/-- The format a code names (R116); 0x00 and 0x11 to 0xFF name none. -/
def Format.ofCode : Nat → Option Format
  | 0x01 => some .int8 | 0x02 => some .int32 | 0x03 => some .fp32 | 0x04 => some .bf16
  | 0x05 => some .fp8E4m3 | 0x06 => some .fp8E5m2 | 0x07 => some .mxfp8E4m3 | 0x08 => some .mxfp8E5m2
  | 0x09 => some .mxfp6E3m2 | 0x0A => some .mxfp6E2m3 | 0x0B => some .mxfp4E2m1 | 0x0C => some .mxint8
  | 0x0D => some .t2 | 0x0E => some .e8m0 | 0x0F => some .wa64 | 0x10 => some .raw
  | _ => none

/-- The code of a format (R116). -/
def Format.code (f : Format) : Nat := ((List.range 17).find? (fun c => Format.ofCode c == some f)).getD 0

/-- The floating-point element format of a format, where it has one. -/
def Format.float : Format → Option FloatFmt
  | .fp32 => some fmtFP32
  | .bf16 => some fmtBF16
  | .fp8E4m3 | .mxfp8E4m3 => some fmtE4M3
  | .fp8E5m2 | .mxfp8E5m2 => some fmtE5M2
  | .mxfp6E3m2 => some fmtE3M2
  | .mxfp6E2m3 => some fmtE2M3
  | .mxfp4E2m1 => some fmtE2M1
  | _ => none

/-- A format whose elements are scaled in blocks of 32 by E8M0 bytes (R122). -/
def Format.blockScaled : Format → Bool
  | .mxfp8E4m3 | .mxfp8E5m2 | .mxfp6E3m2 | .mxfp6E2m3 | .mxfp4E2m1 | .mxint8 | .t2 => true
  | _ => false

/-- An MX format: block-scaled and not ternary (R139). -/
def Format.mx : Format → Bool
  | .mxfp8E4m3 | .mxfp8E5m2 | .mxfp6E3m2 | .mxfp6E2m3 | .mxfp4E2m1 | .mxint8 => true
  | _ => false

/-- Bits of one element, for the formats whose elements have a whole number of bits (R116). -/
def Format.elemBits : Format → Nat
  | .int32 | .fp32 => 32
  | .bf16 => 16
  | .mxfp6E3m2 | .mxfp6E2m3 => 6
  | .mxfp4E2m1 => 4
  | .wa64 => 64
  | _ => 8

/-- Bytes that `n` elements of a format take from the start of a tensor (R116, R123, R124). -/
def Format.bytesFor (f : Format) (n : Nat) : Nat :=
  match f with
  | .t2 => (n + 4) / 5
  | f => (n * f.elemBits + 7) / 8

/-! ### Decoding -/

/-- The value of a bit pattern of a floating-point format (R117). -/
def decodeFloat (f : FloatFmt) (bits : Nat) : FVal :=
  let m := bits % 2 ^ f.manBits
  let e := bits / 2 ^ f.manBits % 2 ^ f.expBits
  let s := (bits / 2 ^ (f.manBits + f.expBits) % 2) == 1
  if e = 0 then .fin s m (1 - f.bias - f.manBits)
  else if f.maxExp < e then (if m = 0 then .inf s else .nan)
  else if e = f.maxExp ∧ f.maxMan < m then .nan
  else .fin s (2 ^ f.manBits + m) (e - f.bias - f.manBits)

/-- The value of a signed whole number times a power of two. -/
def FVal.ofInt (i : Int) (exp : Int) : FVal := .fin (decide (i < 0)) i.natAbs exp

/-- The value of one element's raw code, before any block scale (R117, R120, R124). -/
def decodeElem (f : Format) (code : Nat) : FVal :=
  match f.float with
  | some ff => decodeFloat ff code
  | none =>
    match f with
    | .int8 => .ofInt (sext 8 code) 0
    | .int32 => .ofInt (sext 32 code) 0
    | .mxint8 => .ofInt (sext 8 code) (-6)
    | .t2 => if code = 1 then .fin false 1 0 else if code = 2 then .fin true 1 0 else .fin false 0 0
    | .e8m0 => if code = 255 then .nan else .fin false 1 ((code : Int) - 127)
    | _ => .ofInt (sext 64 code) 0

/-- The five digits of a T2 byte, none for an invalid byte (R124, R125). -/
def t2Digits (b : Nat) : Option (List Nat) :=
  if b ≤ 242 then some [b % 3, b / 3 % 3, b / 9 % 3, b / 27 % 3, b / 81 % 3] else none

/-! ### Exact arithmetic -/

/-- The signed mantissa. -/
def signed (neg : Bool) (m : Nat) : Int := if neg then -(m : Int) else m

/-- The exact product of two values; NaN for zero times infinity. -/
def FVal.mul : FVal → FVal → FVal
  | .nan, _ => .nan
  | _, .nan => .nan
  | .inf a, .inf b => .inf (a != b)
  | .inf a, .fin b m _ => if m = 0 then .nan else .inf (a != b)
  | .fin a m _, .inf b => if m = 0 then .nan else .inf (a != b)
  | .fin a m e, .fin b n f => .fin (a != b) (m * n) (e + f)

/-- The exact sum of two finite values as a signed whole number and an exponent. -/
def exactAdd (m1 : Int) (e1 : Int) (m2 : Int) (e2 : Int) : Int × Int :=
  let e := min e1 e2
  (m1 * 2 ^ (e1 - e).toNat + m2 * 2 ^ (e2 - e).toNat, e)

/-- The exact sum; opposite infinities give NaN. A zero sum is +0 unless both operands are -0 (R205). -/
def FVal.add : FVal → FVal → FVal
  | .nan, _ => .nan
  | _, .nan => .nan
  | .inf a, .inf b => if a = b then .inf a else .nan
  | .inf a, .fin .. => .inf a
  | .fin .., .inf b => .inf b
  | .fin a m e, .fin b n f =>
    let r := exactAdd (signed a m) e (signed b n) f
    if r.1 = 0 then .fin (a && b && decide (m = 0) && decide (n = 0)) 0 0 else .ofInt r.1 r.2

/-- A value with its sign changed. -/
def FVal.neg : FVal → FVal
  | .nan => .nan
  | .inf a => .inf (!a)
  | .fin a m e => .fin (!a) m e

/-- Scale a finite value by a power of two. -/
def FVal.scale (v : FVal) (k : Int) : FVal :=
  match v with
  | .fin a m e => .fin a m (e + k)
  | v => v

/-- ⌊i × 2^k⌋ for a whole number `i`. -/
def floorScale (i : Int) (k : Int) : Int :=
  if 0 ≤ k then i * 2 ^ k.toNat else i / (2 ^ (-k).toNat : Int)

/-! ### WA64 (R126 to R130) -/

/-- `WA_INEXACT`, `WA_SAT`, `WA_INVALID`, `OUT_RANGE` of the flag byte (R130). -/
def waInexact : Nat := 1
def waSat : Nat := 2
def waInvalid : Nat := 4
def outRange : Nat := 8

/-- One term quantized under window `w` (R127, R128): the signed 40-bit field and its flags. -/
def quantize (p : FVal) (w : Int) : Int × Nat :=
  match p with
  | .nan => (0, waInvalid)
  | .inf _ => (0, waInvalid)
  | .fin s m e =>
    let i := signed s m
    let q := floorScale i (e - w)
    let inexact := if e < w ∧ i % (2 ^ (w - e).toNat : Int) ≠ 0 then waInexact else 0
    if 2 ^ 39 - 1 < q then (2 ^ 39 - 1, inexact ||| waSat)
    else if q < -2 ^ 39 then (-2 ^ 39, inexact ||| waSat)
    else (q, inexact)

/-- A signed number as a 64-bit pattern, and the addition of WA64 values modulo 2^64 (R129). -/
def wa64OfInt (i : Int) : Nat := (i % 2 ^ 64).toNat
def wa64Add (a b : Nat) : Nat := (a + b) % 2 ^ 64

/-! ### Rounding (R135 to R141) -/

/-- The rounding mode of a conversion (R135); `stochastic` carries bits [63:40] of the generator's output. -/
inductive Rounding where
  | rne
  | stochastic (r : Nat)
deriving DecidableEq, Repr

/-- `±m × 2^(-d)` rounded to a whole number of magnitude: nearest even, or the neighbour the generator chooses (R136, R141). -/
def roundShift (neg : Bool) (m d : Nat) (mode : Rounding) : Nat :=
  let lo := m / 2 ^ d
  let rem := m % 2 ^ d
  if rem = 0 then lo
  else match mode with
    | .rne => if 2 * rem < 2 ^ d then lo else if 2 ^ d < 2 * rem then lo + 1 else lo + lo % 2
    | .stochastic r =>
      -- the fraction is counted from the neighbour toward minus infinity
      let num := if neg then 2 ^ d - rem else rem
      let up := decide (2 ^ 24 ≤ num * 2 ^ 24 / 2 ^ d + r)
      if up != neg then lo + 1 else lo

/-- The bit pattern of `±n × 2^q`, where `q` is the spacing the rounding chose; the flag tells that the range was exceeded
(R137). -/
def packFloat (f : FloatFmt) (neg : Bool) (n : Nat) (q : Int) : Nat × Bool :=
  let sbit := b2n neg * 2 ^ (f.manBits + f.expBits)
  if n < 2 ^ f.manBits then (sbit + n, false)
  else
    let carried := decide (n = 2 ^ (f.manBits + 1))
    let man := if carried then 0 else n - 2 ^ f.manBits
    let e : Int := q + f.manBits + f.bias + (if carried then 1 else 0)
    if (f.maxExp : Int) < e ∨ (e = f.maxExp ∧ f.maxMan < man) then
      (if f.toInf then sbit + (2 ^ f.expBits - 1) * 2 ^ f.manBits
       else sbit + f.maxExp * 2 ^ f.manBits + f.maxMan, true)
    else (sbit + e.toNat * 2 ^ f.manBits + man, false)

/-- The exponent of the leading bit of `m × 2^e`, for `m` above 0. -/
def leadExp (m : Nat) (e : Int) : Int := (Nat.log2 m : Int) + e

/-- The spacing exponent of a format at a magnitude (R136): subnormal spacing below the smallest normal. -/
def spacing (f : FloatFmt) (m : Nat) (e : Int) : Int := max (leadExp m e) (1 - f.bias) - f.manBits

/-- The result of rounding an exact finite value to a floating-point format: the pattern, whether the range was exceeded, and
whether the result differs from the value. A result of zero keeps the sign `zeroNeg`. -/
def roundFloat (f : FloatFmt) (neg : Bool) (m : Nat) (e : Int) (mode : Rounding) (zeroNeg : Bool) : Nat × Bool × Bool :=
  let zeroBits := b2n zeroNeg * 2 ^ (f.manBits + f.expBits)
  if m = 0 then (zeroBits, false, false)
  else
    let q := spacing f m e
    if q ≤ e then
      let r := packFloat f neg (m * 2 ^ (e - q).toNat) q
      (r.1, r.2, r.2)
    else
      let d := (q - e).toNat
      let n := roundShift neg m d mode
      if n = 0 then (zeroBits, false, true)
      else
        let r := packFloat f neg n q
        (r.1, r.2, r.2 || decide (m % 2 ^ d ≠ 0))

/-- An exact value rounded to a whole number (R138). -/
def roundInt (neg : Bool) (m : Nat) (e : Int) (mode : Rounding) : Int :=
  if 0 ≤ e then signed neg (m * 2 ^ e.toNat) else signed neg (roundShift neg m (-e).toNat mode)

/-- A whole number limited to `n`-bit two's complement: the pattern and whether it was limited (R138). -/
def limitInt (n : Nat) (i : Int) : Nat × Bool :=
  if (2 : Int) ^ (n - 1) - 1 < i then (2 ^ (n - 1) - 1, true)
  else if i < -(2 : Int) ^ (n - 1) then (2 ^ (n - 1), true)
  else ((i % (2 : Int) ^ n).toNat, false)

/-- E_max of an MX element format (R139). -/
def Format.eMax : Format → Int
  | .mxfp8E4m3 => 8
  | .mxfp8E5m2 => 15
  | .mxfp6E3m2 => 4
  | .mxfp6E2m3 => 2
  | .mxfp4E2m1 => 2
  | _ => 0

/-- The block exponent t of R139 from the largest magnitude of the block, as whole number and exponent. -/
def mxExponent (f : Format) (m : Nat) (e : Int) : Int :=
  min 127 (max (-127) (leadExp m e - f.eMax))

/-- One WA64 value `A × 2^w` converted to an unscaled format (R136 to R138): the element code and `OUT_RANGE`. -/
def convertOut (f : Format) (a : Nat) (w : Int) (mode : Rounding) : Nat × Bool :=
  let i := sext 64 a
  match f with
  | .wa64 => (a, false)
  | .int8 => limitInt 8 (roundInt (decide (i < 0)) i.natAbs w mode)
  | .int32 => limitInt 32 (roundInt (decide (i < 0)) i.natAbs w mode)
  | f =>
    match f.float with
    | some ff => let r := roundFloat ff (decide (i < 0)) i.natAbs w mode false; (r.1, r.2.1)
    | none => (0, false)

/-- An exact value converted to an MX element under block exponent `t` (R139 steps 3 and 4). -/
def mxElem (f : Format) (neg : Bool) (m : Nat) (e : Int) (t : Int) (mode : Rounding) : Nat × Bool :=
  match f.float with
  | some ff => let r := roundFloat ff neg m (e - t) mode false; (r.1, r.2.1)
  | none =>
    let i := roundInt neg m (e - t + 6) mode
    if 127 < i then (127, true) else if i < -127 then (129, true) else ((i % 256).toNat, false)

/-- The larger of two magnitudes given as whole number and exponent. -/
def maxMag (a b : Nat × Int) : Nat × Int :=
  if a.1 = 0 then b else if b.1 = 0 then a
  else
    let e := min a.2 b.2
    if a.1 * 2 ^ (a.2 - e).toNat < b.1 * 2 ^ (b.2 - e).toNat then b else a

/-- A block of exact values converted to an MX format: the scale byte, the element codes and `OUT_RANGE` (R139). -/
def mxBlock (f : Format) (vals : List (Bool × Nat × Int)) (modes : List Rounding) : Nat × List Nat × Bool :=
  let a := vals.foldl (fun acc v => maxMag acc v.2) (0, 0)
  if a.1 = 0 then (0, vals.map (fun _ => 0), false)
  else
    let t := mxExponent f a.1 a.2
    let rs := (vals.zip modes).map (fun vm => mxElem f vm.1.1 vm.1.2.1 vm.1.2.2 t vm.2)
    ((t + 127).toNat, rs.map Prod.fst, rs.any Prod.snd)

/-! ### The generator of stochastic rounding (R142, R143) -/

/-- The mixing function of R142. -/
def mix (x : BitVec 64) : BitVec 64 :=
  let x := x ^^^ (x >>> 32)
  let x := x * 0xA3B195C47E2DF0A9#64
  let x := x ^^^ (x >>> 29)
  let x := x * 0xC62F4B8E19D7A35D#64
  x ^^^ (x >>> 32)

/-- r = u[63:40] for a job frame, a tensor number and an element index (R142, R143). -/
def stochR (jobFrame tensor element : Nat) : Nat :=
  let k := mix (BitVec.ofNat 64 jobFrame + BitVec.ofNat 64 tensor * 0x9E3779B97F4A7C15#64)
  (mix (k ^^^ BitVec.ofNat 64 element)).toNat / 2 ^ 40

end Sys2Proof.Machine
end

