-- ==== Sys2Proof/Machine/LaneAlu.lean ====
section
/-! DEFINITION. The arithmetic of the lane instructions on one lane's words: integer and FP32 operations, comparisons, conversions,
window shifts (R204 to R215). Each operation that can record an event answers its word and its flags (R226). -/

namespace Sys2Proof.Machine

/-! ### Arithmetic flags (R226) -/

def afInvalid : Nat := 1
def afOverflow : Nat := 2
def afDivZero : Nat := 4
def afWaInexact : Nat := 8

/-- The canonical NaN (R205). -/
def canonNaN : W32 := 0x7FC00000#32

/-- The value of a register read as binary32. -/
def f32 (w : W32) : FVal := decodeFloat fmtFP32 w.toNat

/-- An infinity as a register word. -/
def infWord (neg : Bool) : W32 := if neg then 0xFF800000#32 else 0x7F800000#32

/-- An exact result rounded once to binary32, nearest even (R205 rules 1, 2, 5): overflow of finite operands is flagged. -/
def roundF32 (v : FVal) (mode : Rounding) : W32 × Nat :=
  match v with
  | .nan => (canonNaN, 0)
  | .inf s => (infWord s, 0)
  | .fin s m e =>
    let r := roundFloat fmtFP32 s m e mode s
    (BitVec.ofNat 32 r.1, if r.2.1 then afOverflow else 0)

/-- Whether a value is NaN. -/
def FVal.isNaN : FVal → Bool
  | .nan => true
  | _ => false

/-- A result formed from operands by exact arithmetic: NaN operands give the canonical NaN with no flag, and a NaN made from
operands that are none is an invalid operation (R205 rules 3 and 4). -/
def finishF32 (anyNaN : Bool) (v : FVal) : W32 × Nat :=
  if anyNaN then (canonNaN, 0)
  else match v with
    | .nan => (canonNaN, afInvalid)
    | v => roundF32 v .rne

def fadd (a b : W32) : W32 × Nat := finishF32 ((f32 a).isNaN || (f32 b).isNaN) ((f32 a).add (f32 b))
def fsub (a b : W32) : W32 × Nat := finishF32 ((f32 a).isNaN || (f32 b).isNaN) ((f32 a).add (f32 b).neg)
def fmul (a b : W32) : W32 × Nat := finishF32 ((f32 a).isNaN || (f32 b).isNaN) ((f32 a).mul (f32 b))

/-- Va × Vb + Vc, rounded once. -/
def ffma (a b c : W32) : W32 × Nat :=
  finishF32 ((f32 a).isNaN || (f32 b).isNaN || (f32 c).isNaN) (((f32 a).mul (f32 b)).add (f32 c))

/-- Vc − Va × Vb, rounded once. -/
def ffms (a b c : W32) : W32 × Nat :=
  finishF32 ((f32 a).isNaN || (f32 b).isNaN || (f32 c).isNaN) ((f32 c).add ((f32 a).mul (f32 b)).neg)

/-- Comparison of two finite or infinite values: -1, 0 or 1, with −0 and +0 equal. -/
def cmpVal : FVal → FVal → Int
  | .inf a, .inf b => if a = b then 0 else if a then -1 else 1
  | .inf a, _ => if a then -1 else 1
  | _, .inf b => if b then 1 else -1
  | .fin a m e, .fin b n f =>
    let d := (exactAdd (signed a m) e (-(signed b n)) f).1
    if d < 0 then -1 else if d = 0 then 0 else 1
  | _, _ => 0

/-- Whether `a` orders below `b`, −0 below +0 (R205 rule 7). -/
def belowF32 (a b : W32) : Bool :=
  let c := cmpVal (f32 a) (f32 b)
  decide (c < 0) || (decide (c = 0) && a.getLsbD 31 && !b.getLsbD 31)

def fmin (a b : W32) : W32 :=
  if (f32 a).isNaN then (if (f32 b).isNaN then canonNaN else b)
  else if (f32 b).isNaN then a else if belowF32 b a then b else a

def fmax (a b : W32) : W32 :=
  if (f32 a).isNaN then (if (f32 b).isNaN then canonNaN else b)
  else if (f32 b).isNaN then a else if belowF32 a b then b else a

def fabs (a : W32) : W32 := if (f32 a).isNaN then canonNaN else a &&& 0x7FFFFFFF#32
def fneg (a : W32) : W32 := if (f32 a).isNaN then canonNaN else a ^^^ 0x80000000#32

/-! ### Integers (R204) -/

def imulh (a b : W32) : W32 := BitVec.ofInt 32 (a.toInt * b.toInt / 2 ^ 32)
def imulhu (a b : W32) : W32 := BitVec.ofNat 32 (a.toNat * b.toNat / 2 ^ 32)
def imin (a b : W32) : W32 := if b.toInt < a.toInt then b else a
def imax (a b : W32) : W32 := if a.toInt < b.toInt then b else a
def umin (a b : W32) : W32 := if b.toNat < a.toNat then b else a
def umax (a b : W32) : W32 := if a.toNat < b.toNat then b else a

/-- A shift count: bits [4:0] of its operand. -/
def shCount (b : W32) : Nat := b.toNat % 32
def shl (a b : W32) : W32 := a <<< shCount b
def shr (a b : W32) : W32 := a >>> shCount b
def sar (a b : W32) : W32 := a.sshiftRight (shCount b)

/-! ### Predicates (R208) -/

/-- The condition of an `FCMP`. -/
def fcmp (cond : Nat) (a b : W32) : Bool :=
  let n := (f32 a).isNaN || (f32 b).isNaN
  let c := cmpVal (f32 a) (f32 b)
  match cond with
  | 0 => !n && decide (c = 0)
  | 1 => n || decide (c ≠ 0)
  | 2 => !n && decide (c < 0)
  | 3 => !n && decide (c ≤ 0)
  | 4 => !n && decide (0 < c)
  | 5 => !n && decide (0 ≤ c)
  | 6 => n
  | _ => !n

/-- The condition of an `ICMP`. -/
def icmp (cond : Nat) (a b : W32) : Bool :=
  match cond with
  | 0 => a == b
  | 1 => a != b
  | 2 => decide (a.toInt < b.toInt)
  | 3 => decide (a.toInt ≤ b.toInt)
  | 4 => decide (b.toInt < a.toInt)
  | 5 => decide (b.toInt ≤ a.toInt)
  | 6 => decide (a.toNat < b.toNat)
  | 7 => decide (a.toNat ≤ b.toNat)
  | 8 => decide (b.toNat < a.toNat)
  | _ => decide (b.toNat ≤ a.toNat)

/-- The class number of a binary32 value (R208 `FCLASS`). -/
def fclassOf (a : W32) : Nat :=
  let e := a.toNat / 2 ^ 23 % 256
  let m := a.toNat % 2 ^ 23
  let s := a.getLsbD 31
  if e = 255 then (if m ≠ 0 then 0 else if s then 1 else 8)
  else if e = 0 then (if m = 0 then (if s then 4 else 5) else if s then 3 else 6)
  else if s then 2 else 7

/-- The sub-operation of a `PLOG`. -/
def plog (op : Nat) (a b : Bool) : Bool :=
  match op with
  | 0 => a && b
  | 1 => a || b
  | 2 => a != b
  | _ => a && !b

/-! ### WA64 in registers (R206, R207) -/

/-- `WSHIFT` of a 64-bit pattern by D. -/
def wshift (a : Nat) (d : Int) : Nat × Nat :=
  let i := sext 64 a
  if 0 ≤ d then
    let q := floorScale i (-d)
    (wa64OfInt q, if q * 2 ^ d.toNat = i then 0 else afWaInexact)
  else
    let p := i * 2 ^ (-d).toNat
    if 2 ^ 63 - 1 < p then (2 ^ 63 - 1, afOverflow)
    else if p < -2 ^ 63 then (2 ^ 63, afOverflow)
    else (wa64OfInt p, 0)

/-! ### Conversions (R211 to R215) -/

/-- `CVTFI`: FP32 to INT32. -/
def cvtfi (a : W32) (mode : Rounding) : W32 × Nat :=
  match f32 a with
  | .nan => (0, afInvalid)
  | .inf s => (if s then 0x80000000#32 else 0x7FFFFFFF#32, afOverflow)
  | .fin s m e =>
    let r := limitInt 32 (roundInt s m e mode)
    (BitVec.ofNat 32 r.1, if r.2 then afOverflow else 0)

/-- `CVTIF`: INT32 to FP32. -/
def cvtif (a : W32) (mode : Rounding) : W32 × Nat := roundF32 (.ofInt a.toInt 0) mode

/-- `CVTFB`: FP32 to BF16 in bits [31:16]. -/
def cvtfb (a : W32) (mode : Rounding) : W32 × Nat :=
  match f32 a with
  | .nan => (0x7FC00000#32, afInvalid)
  | .inf s => (infWord s, 0)
  | .fin s m e =>
    let r := roundFloat fmtBF16 s m e mode false
    (BitVec.ofNat 32 (r.1 * 2 ^ 16), if r.2.1 then afOverflow else 0)

/-- Element width of a conversion's format (R211). -/
def laneElemWidth (f : Format) : Nat :=
  match f with
  | .mxfp6E3m2 | .mxfp6E2m3 => 6
  | .mxfp4E2m1 => 4
  | _ => 8

/-- `UNPK`: the FP32 value of the element at bit `pos` of a pair (R212). -/
def unpk (f : Format) (pair pos digit : Nat) : W32 × Nat :=
  let code := bitsOf pair pos (laneElemWidth f)
  match f with
  | .t2 =>
    match t2Digits code with
    | none => (0, afInvalid)
    | some ds => ((roundF32 (decodeElem .t2 (ds.getD digit 0)) .rne).1, 0)
  | f => ((roundF32 (decodeElem f code) .rne).1, 0)

/-- `MXEXP`: the scale byte for a block whose largest magnitude is |Va| (R213). -/
def mxexp (f : Format) (a : W32) : W32 × Nat :=
  match f32 a with
  | .fin _ m e => if m = 0 then (0, 0) else (BitVec.ofNat 32 (mxExponent f m e + 127).toNat, 0)
  | _ => (255, afInvalid)

/-- `MXDIV`: Va × 2^(127 − x), or 2^(133 − x) for MXINT8 (R211, R213). -/
def mxdiv (f : Format) (a b : W32) : W32 × Nat :=
  let x := b.toNat % 256
  if x = 255 then (canonNaN, afInvalid)
  else
    let k : Int := (if f = .mxint8 then 133 else 127) - (x : Int)
    finishF32 (f32 a).isNaN ((f32 a).scale k)

/-- `PACK`: one value rounded to an element code (R214). -/
def packElem (f : Format) (a : W32) (mode : Rounding) : Nat × Nat :=
  match f32 a with
  | .nan => (0, afInvalid)
  | .inf s =>
    match f.float with
    | some ff => (b2n s * 2 ^ (ff.manBits + ff.expBits) + ff.maxExp * 2 ^ ff.manBits + ff.maxMan, afOverflow)
    | none => (if f = .int8 then (if s then 128 else 127) else (if s then 129 else 127), afOverflow)
  | .fin s m e =>
    match f.float with
    | some ff =>
      let r := roundFloat ff s m e mode false
      (r.1, if r.2.1 then afOverflow else 0)
    | none =>
      let i := roundInt s m e mode
      if f = .int8 then
        let r := limitInt 8 i
        (r.1, if r.2 then afOverflow else 0)
      else if 127 < i then (127, afOverflow)
      else if i < -127 then (129, afOverflow)
      else ((i % 256).toNat, 0)

/-- `PACK` into a pair: the `w` bits at `pos` replaced (R211). -/
def packInto (pair pos w code : Nat) : Nat :=
  pair - bitsOf pair pos w * 2 ^ pos + code % 2 ^ w * 2 ^ pos

/-! ### Reductions over lanes (R210) -/

/-- The identity of an `XRED`. -/
def xredIdentity (sub : Nat) : W32 :=
  match sub with
  | 0 => 0 | 1 => 0x80000000#32 | 2 => 0x7FFFFFFF#32 | 3 => 0 | 4 => 0xFFFFFFFF#32 | 5 => 0xFFFFFFFF#32
  | 6 => 0 | 7 => 0 | 8 => 0x80000000#32 | 9 => 0xFF800000#32 | 10 => 0x7F800000#32 | _ => 0

/-- One combining step of an `XRED`. -/
def xredStep (sub : Nat) (a b : W32) : W32 × Nat :=
  match sub with
  | 0 => (a + b, 0) | 1 => (imax a b, 0) | 2 => (imin a b, 0) | 3 => (umax a b, 0) | 4 => (umin a b, 0)
  | 5 => (a &&& b, 0) | 6 => (a ||| b, 0) | 7 => (a ^^^ b, 0) | 8 => fadd a b | 9 => (fmax a b, 0)
  | 10 => (fmin a b, 0)
  | _ => (fmax (fabs a) (fabs b), 0)

/-- One level of the binary tree: adjacent values combined, the lower-numbered first (R210). -/
def treeLevel (sub : Nat) : List (W32 × Nat) → List (W32 × Nat)
  | a :: b :: r =>
    let c := xredStep sub a.1 b.1
    (c.1, a.2 ||| b.2 ||| c.2) :: treeLevel sub r
  | l => l

/-- The tree over 2^g values. -/
def treeReduce (sub : Nat) : Nat → List (W32 × Nat) → W32 × Nat
  | 0, l => l.headD (0, 0)
  | g + 1, l => treeReduce sub g (treeLevel sub l)

/-! ### Register pairs (R199) -/

/-- The 64-bit value of a pair, and its two words. -/
def pairOf (lo hi : W32) : Nat := lo.toNat + 2 ^ 32 * hi.toNat
def pairLo (v : Nat) : W32 := BitVec.ofNat 32 v
def pairHi (v : Nat) : W32 := BitVec.ofNat 32 (v / 2 ^ 32)

end Sys2Proof.Machine
end

