-- ==== Sys2Proof/Machine/LaneTrans.lean ====
section
/-! DEFINITION. The transcendental lane instructions (R216, R217). The bits within the error bound are the B0 implementation's:
the result is the free value `Config.transcendental` where it meets the bound, and the rounded function value where it does not.
The function value is computed in fixed point, within 2^-56 ulp. No result beyond the bound is accepted: where the computed value is
not exact, the bound is taken 2^-56 ulp narrower. `FSQRT` is exact. -/

namespace Sys2Proof.Machine

/-- Fraction bits of the fixed-point computations below. -/
def fxBits : Nat := 120

/-- 1, ln 2 and π in fixed point. -/
def fxOne : Int := 2 ^ fxBits
def fxLn2 : Int := 693147180559945309417232121458176568 * 2 ^ fxBits / 10 ^ 36
def fxPi : Int := 3141592653589793238462643383279502884 * 2 ^ fxBits / 10 ^ 36

/-- Fixed-point product. -/
def fxMul (a b : Int) : Int := a * b / 2 ^ fxBits

/-- A finite value in fixed point, rounded down. -/
def fxOf (i : Int) (e : Int) : Int := floorScale i (e + fxBits)

/-- The exponential series: term `k` onward of e^x, given x^(k-1)/(k-1)!. -/
def expSeries (x : Int) : Nat → Nat → Int → Int
  | 0, _, _ => 0
  | n + 1, k, t => let t' := fxMul t x / (k : Int); t' + expSeries x n (k + 1) t'

/-- e^x in fixed point for |x| at most about 1. -/
def fxExp (x : Int) : Int := fxOne + expSeries x 34 1 fxOne

/-- The inverse hyperbolic tangent's series over odd powers, given z^(k). -/
def atanhSeries (z2 : Int) : Nat → Nat → Int → Int
  | 0, _, _ => 0
  | n + 1, k, p => p / (k : Int) + atanhSeries z2 n (k + 2) (fxMul p z2)

/-- ln m in fixed point for m in [1, 2) given in fixed point. -/
def fxLn (m : Int) : Int :=
  let z := (m - fxOne) * 2 ^ fxBits / (m + fxOne)
  2 * atanhSeries (fxMul z z) 40 1 z

/-- The sine series: the sum over alternating odd terms divided by x, given the current term. -/
def sincSeries (x2 : Int) : Nat → Nat → Int → Int
  | 0, _, _ => 0
  | n + 1, k, t => t + sincSeries x2 n (k + 2) (-(fxMul t x2 / ((k + 1 : Nat) * (k + 2 : Nat) : Int)))

/-- sin(πr)/r in fixed point for |r| at most 1/2, r in fixed point. -/
def fxSinc (r : Int) : Int :=
  let x := fxMul fxPi r
  fxMul fxPi (sincSeries (fxMul x x) 26 1 fxOne)

/-- The integer square root of `n` by bits, from bit `b` down. -/
def isqrtBits (n : Nat) : Nat → Nat → Nat
  | 0, r => if (r + 1) * (r + 1) ≤ n then r + 1 else r
  | b + 1, r => isqrtBits n b (if (r + 2 ^ (b + 1)) * (r + 2 ^ (b + 1)) ≤ n then r + 2 ^ (b + 1) else r)

/-- √(m × 2^e) for a nonzero mantissa below 2^25, to at least 30 bits and a sticky bit: a whole number and an exponent. -/
def sqrtExact (m : Nat) (e : Int) : Nat × Int :=
  let e' := if e % 2 = 0 then e else e - 1
  let m' := (if e % 2 = 0 then m else 2 * m) * 2 ^ 60
  let r := isqrtBits m' 43 0
  (2 * r + (if r * r = m' then 0 else 1), (e' - 60) / 2 - 1)

/-- 1/√(m × 2^e) for a nonzero mantissa below 2^25: a whole number, an exponent, and whether it is exact. -/
def rsqrtValue (m : Nat) (e : Int) : Nat × Int × Bool :=
  let e' := if e % 2 = 0 then e else e - 1
  let m' := if e % 2 = 0 then m else 2 * m
  let r := isqrtBits (2 ^ 240 / m') 120 0
  (r, -120 - e' / 2, r * r * m' == 2 ^ 240)

/-- Whether pattern `c` is within `num / 2^56` ulp of the value `i × 2^e`; where `abs` is given, an ulp is `2^abs`. -/
def withinBound (c : W32) (i : Int) (e : Int) (num : Nat) (abs : Option Int) : Bool :=
  match f32 c with
  | .fin s m f =>
    let d := exactAdd (signed s m) f (-i) e
    let ulpExp : Int := match abs with
      | some a => a
      | none => if i = 0 then -149 else max (leadExp i.natAbs e - 23) (-149)
    -- |d| ≤ num × 2^(ulpExp − 56)
    let lim := exactAdd (num : Int) (ulpExp - 56) (-(d.1.natAbs : Int)) d.2
    decide (0 ≤ lim.1)
  | .inf s => decide ((roundF32 (.ofInt i e) .rne).1 = infWord s)
  | .nan => false

/-- The implementation's result for a function value `i × 2^e`, exact or not, under a bound of `ulps` (R216, R217). -/
def boundedResult (op : Nat) (x : W32) (i : Int) (e : Int) (exact_ : Bool) (ulps : Nat) (abs : Option Int) : W32 × Nat :=
  let near := roundF32 (.ofInt i e) .rne
  let c := Config.transcendental op x
  let r := if withinBound c i e (ulps * 2 ^ 56 - (if exact_ then 0 else 1)) abs then c else near.1
  (r, if (f32 r) = .inf r.msb then afOverflow else 0)

/-- 2^(i × 2^e) where the exponent is in fixed point `y`: whole part and fraction. -/
def exp2Value (y : Int) : Int × Int :=
  let n := y / 2 ^ fxBits
  let fr := y % 2 ^ fxBits
  (fxExp (fxMul fr fxLn2), n - fxBits)

/-- log2 of m × 2^e in fixed point. -/
def log2Value (m : Nat) (e : Int) : Int :=
  let k := Nat.log2 m
  let mant := (m : Int) * 2 ^ fxBits / 2 ^ k
  (e + k) * 2 ^ fxBits + fxLn mant * 2 ^ fxBits / fxLn2

/-- ln of m × 2^e in fixed point. -/
def lnValue (m : Nat) (e : Int) : Int :=
  let k := Nat.log2 m
  let mant := (m : Int) * 2 ^ fxBits / 2 ^ k
  (e + k) * fxLn2 + fxLn mant

/-- sin(π r) for r = i × 2^e exactly, |r| ≤ 1/2. -/
def sinPiValue (i : Int) (e : Int) : Int × Int := (i * fxSinc (fxOf i e), e - fxBits)

/-- r with x = n + r, |r| ≤ 1/2: n and the mantissa of r at exponent `e` below 0. -/
def nearestInt (i : Int) (e : Int) : Int × Int :=
  if 0 ≤ e then (i * 2 ^ e.toNat, 0)
  else
    let d : Int := 2 ^ (-e).toNat
    let n := (2 * i + d) / (2 * d)
    (n, i - n * d)

/-- tanh of i × 2^e for a small argument, |x| < 2^-20: x − x³/3. -/
def tanhSmall (i : Int) (e : Int) : Int × Int :=
  let x := fxOf i e
  (i * (fxOne - fxMul x x / 3), e - fxBits)

/-- tanh |x| and 1/(1+e^-|x|) from t = e^(-y) in fixed point. -/
def tanhOf (t : Int) : Int := (fxOne - t) * 2 ^ fxBits / (fxOne + t)
def sigmOf (t : Int) : Int := 2 ^ (2 * fxBits) / (fxOne + t)

/-- e^(-y) in fixed point for y ≥ 0 in fixed point. -/
def expNeg (y : Int) : Int :=
  let r := exp2Value (-(y * 2 ^ fxBits / fxLn2))
  floorScale r.1 (r.2 + fxBits)

/-- One lane's transcendental result and flags, by opcode 0x70 to 0x7A (R216). -/
def laneTrans (op : Nat) (x : W32) : W32 × Nat :=
  match f32 x with
  | .nan => (canonNaN, 0)
  | .inf s =>
    match op with
    | 0x70 => (if s then 0x80000000#32 else 0, 0)
    | 0x71 => if s then (canonNaN, afInvalid) else (0, 0)
    | 0x72 => if s then (canonNaN, afInvalid) else (infWord false, 0)
    | 0x73 => if s then (0, 0) else (infWord false, afOverflow)
    | 0x74 => if s then (canonNaN, afInvalid) else (infWord false, 0)
    | 0x75 => if s then (0, 0) else (infWord false, afOverflow)
    | 0x76 => if s then (canonNaN, afInvalid) else (infWord false, 0)
    | 0x77 => (canonNaN, afInvalid)
    | 0x78 => (canonNaN, afInvalid)
    | 0x79 => (if s then 0xBF800000#32 else 0x3F800000#32, 0)
    | _ => (if s then 0 else 0x3F800000#32, 0)
  | .fin s m e =>
    let i := signed s m
    match op with
    | 0x70 =>
      if m = 0 then (infWord s, afDivZero)
      else boundedResult op x (signed s (2 ^ 200 / m)) (-200 - e) (2 ^ 200 % m == 0) 1 none
    | 0x71 =>
      if m = 0 then (infWord s, afDivZero)
      else if s then (canonNaN, afInvalid)
      else
        let r := rsqrtValue m e
        boundedResult op x (r.1 : Int) r.2.1 r.2.2 1 none
    | 0x72 =>
      if m = 0 then (if s then 0x80000000#32 else 0, 0)
      else if s then (canonNaN, afInvalid)
      else
        let r := sqrtExact m e
        roundF32 (.fin false r.1 r.2) .rne
    | 0x73 =>
      if 0 ≤ (exactAdd i e (-128) 0).1 then (infWord false, afOverflow)
      else if (exactAdd i e 150 0).1 ≤ 0 then (0, 0)
      else
        let r := exp2Value (fxOf i e)
        boundedResult op x r.1 r.2 ((nearestInt i e).2 == 0) 2 none
    | 0x74 =>
      if m = 0 then (infWord true, afDivZero)
      else if s then (canonNaN, afInvalid)
      else if x = 0x3F800000#32 then (0, 0)
      else
        let inner := decide (0 ≤ (exactAdd i e (-1) (-1)).1) && decide ((exactAdd i e (-2) 0).1 ≤ 0)
        boundedResult op x (log2Value m e) (-fxBits) (m == 2 ^ Nat.log2 m) 2 (if inner then some (-23) else none)
    | 0x75 =>
      if 0 ≤ (exactAdd (100 * i) e (-8873) 0).1 then (infWord false, afOverflow)
      else if (exactAdd i e 104 0).1 ≤ 0 then (0, 0)
      else
        let r := exp2Value (fxOf i e * 2 ^ fxBits / fxLn2)
        boundedResult op x r.1 r.2 (m == 0) 3 none
    | 0x76 =>
      if m = 0 then (infWord true, afDivZero)
      else if s then (canonNaN, afInvalid)
      else if x = 0x3F800000#32 then (0, 0)
      else
        let inner := decide (0 ≤ (exactAdd i e (-1) (-1)).1) && decide ((exactAdd i e (-2) 0).1 ≤ 0)
        if inner then boundedResult op x (lnValue m e) (-fxBits) false 1 (some (-22))
        else boundedResult op x (lnValue m e) (-fxBits) false 3 none
    | 0x77 =>
      let n := nearestInt i e
      if n.2 = 0 then (0, 0)
      else
        let half := (exactAdd (n.2.natAbs : Int) e (-1) (-1)).1 == 0
        let v := if half then (n.2.sign, (0 : Int)) else sinPiValue n.2 e
        boundedResult op x (if n.1 % 2 = 0 then v.1 else -v.1) v.2 half 2 none
    | 0x78 =>
      let n := nearestInt i e
      if n.2 = 0 then boundedResult op x (if n.1 % 2 = 0 then 1 else -1) 0 true 2 none
      else
        -- cos(π(n + r)) = (−1)^n sin(π(1/2 − |r|))
        let d := exactAdd 1 (-1) (-(n.2.natAbs : Int)) e
        if d.1 = 0 then (0, 0)
        else
          let v := sinPiValue d.1 d.2
          boundedResult op x (if n.1 % 2 = 0 then v.1 else -v.1) v.2 false 2 none
    | 0x79 =>
      if m = 0 then boundedResult op x 0 0 true 3 none
      else if leadExp m e < -20 then
        let v := tanhSmall i e
        boundedResult op x v.1 v.2 false 3 none
      else
        let t := if 6 < leadExp m e then 0 else expNeg (2 * fxOf m e)
        boundedResult op x (signed s (tanhOf t).toNat) (-fxBits) false 3 none
    | _ =>
      if leadExp m e < 8 ∨ m = 0 then
        let t := expNeg (fxOf m e)
        let v := sigmOf t
        if s then
          -- 1/(1+e^|x|) = e^-|x| / (1+e^-|x|), kept to relative precision
          let r := exp2Value (-(fxOf m e * 2 ^ fxBits / fxLn2))
          boundedResult op x (r.1 * v) (r.2 - fxBits) (m == 0) 3 none
        else boundedResult op x v (-fxBits) (m == 0) 3 none
      else if s then boundedResult op x 0 0 false 3 none else boundedResult op x 1 0 false 3 none

end Sys2Proof.Machine
end

