-- ==== Sys2Proof/Machine/FaultCodes.lean ====
section
/-! DEFINITION. The fault codes of every chapter and their fused base levels (R523; the code tables of R61, R115, R169, R196,
R227, R255, R287, R326, R356, R392, R434, R468, R514, R526, R604, R671). Levels: 1 NOTE, 2 MINOR, 3 MAJOR, 4 CRITICAL, 5 FATAL. -/

namespace Sys2Proof.Machine

/-- `DIE_WARN`, NOTE. -/
def FC.dieWarn : Nat := 0x0101
/-- `DIE_THROTTLE`, MINOR. -/
def FC.dieThrottle : Nat := 0x0102
/-- `DIE_SHUTDOWN`, CRITICAL. -/
def FC.dieShutdown : Nat := 0x0103
/-- `DIODE_FAULT`, MINOR. -/
def FC.diodeFault : Nat := 0x0104
/-- `MODEL_DIVERGED`, NOTE. -/
def FC.modelDiverged : Nat := 0x0105
/-- `STACK_WARM`, NOTE. -/
def FC.stackWarm : Nat := 0x0106
/-- `COOLANT_HOT`, MINOR. -/
def FC.coolantHot : Nat := 0x0107
/-- `STOP_IMMEDIATE`, CRITICAL. -/
def FC.stopImmediate : Nat := 0x0108
/-- `PHASE_LIMITING`, NOTE. -/
def FC.phaseLimiting : Nat := 0x0201
/-- `PHASE_FAIL`, MAJOR. -/
def FC.phaseFail : Nat := 0x0202
/-- `STAGE_HOT`, MINOR. -/
def FC.stageHot : Nat := 0x0203
/-- `RAIL_OVERCURRENT`, MAJOR. -/
def FC.railOvercurrent : Nat := 0x0204
/-- `RAIL_UNDERVOLTAGE`, MAJOR. -/
def FC.railUndervoltage : Nat := 0x0205
/-- `RAIL_OVERVOLTAGE`, CRITICAL. -/
def FC.railOvervoltage : Nat := 0x0206
/-- `HS_SHORT`, MAJOR. -/
def FC.hsShort : Nat := 0x0207
/-- `START_TIMEOUT`, MAJOR. -/
def FC.startTimeout : Nat := 0x0208
/-- `COMP_REVERTED`, MINOR. -/
def FC.compReverted : Nat := 0x0209
/-- `CURRENT_IMBALANCE`, NOTE. -/
def FC.currentImbalance : Nat := 0x020A
/-- `FR_OVERCURRENT`, CRITICAL. -/
def FC.frOvercurrent : Nat := 0x020B
/-- `FR_UNDERVOLTAGE`, MAJOR. -/
def FC.frUndervoltage : Nat := 0x020C
/-- `PLAN_LATE`, NOTE. -/
def FC.planLate : Nat := 0x0301
/-- `ENVELOPE_EXCURSION`, NOTE. -/
def FC.envelopeExcursion : Nat := 0x0302
/-- `HEADROOM`, NOTE. -/
def FC.headroom : Nat := 0x0303
/-- `BUS_LOSS`, MINOR. -/
def FC.busLoss : Nat := 0x0304
/-- `BUS_OVERVOLTAGE`, MINOR. -/
def FC.busOvervoltage : Nat := 0x0305
/-- `PRECHARGE_FAIL`, MINOR. -/
def FC.prechargeFail : Nat := 0x0306
/-- `INPUT_OVERCURRENT`, MAJOR. -/
def FC.inputOvercurrent : Nat := 0x0307
/-- `STORAGE_OVERCURRENT`, MAJOR. -/
def FC.storageOvercurrent : Nat := 0x0308
/-- `IBUS_OVERVOLTAGE`, CRITICAL. -/
def FC.ibusOvervoltage : Nat := 0x0309
/-- `IBUS_UNDERVOLTAGE`, MAJOR. -/
def FC.ibusUndervoltage : Nat := 0x030A
/-- `CONVERTER_HOT`, MINOR. -/
def FC.converterHot : Nat := 0x030B
/-- `CONVERTER_OVERTEMP`, MAJOR. -/
def FC.converterOvertemp : Nat := 0x030C
/-- `ISLAND_FLOOR`, NOTE. -/
def FC.islandFloor : Nat := 0x030D
/-- `ISLAND_EXHAUSTED`, CRITICAL. -/
def FC.islandExhausted : Nat := 0x030E
/-- `LEND_FLOOR`, NOTE. -/
def FC.lendFloor : Nat := 0x030F
/-- `POLICY_DROPPED`, NOTE. -/
def FC.policyDropped : Nat := 0x0310
/-- `CHAIN_ENUM_FAIL`, MAJOR. -/
def FC.chainEnumFail : Nat := 0x0401
/-- `PACK_ID_INVALID`, MAJOR. -/
def FC.packIdInvalid : Nat := 0x0402
/-- `SLICE_LOST`, MAJOR. -/
def FC.sliceLost : Nat := 0x0403
/-- `CHAIN_REVERSED`, NOTE. -/
def FC.chainReversed : Nat := 0x0404
/-- `SLICE_SELFTEST`, MAJOR. -/
def FC.sliceSelftest : Nat := 0x0405
/-- `CELL_HIGH`, MINOR. -/
def FC.cellHigh : Nat := 0x0406
/-- `CELL_LOW`, MINOR. -/
def FC.cellLow : Nat := 0x0407
/-- `CELL_LIMIT_HIGH`, CRITICAL. -/
def FC.cellLimitHigh : Nat := 0x0408
/-- `CELL_LIMIT_LOW`, CRITICAL. -/
def FC.cellLimitLow : Nat := 0x0409
/-- `CELL_TEMP_HIGH`, MINOR. -/
def FC.cellTempHigh : Nat := 0x040A
/-- `CELL_OVERTEMP`, CRITICAL. -/
def FC.cellOvertemp : Nat := 0x040B
/-- `CELL_TEMP_LOW`, NOTE. -/
def FC.cellTempLow : Nat := 0x040C
/-- `END_OF_CHARGE`, NOTE. -/
def FC.endOfCharge : Nat := 0x040D
/-- `END_OF_DISCHARGE`, NOTE. -/
def FC.endOfDischarge : Nat := 0x040E
/-- `IMBALANCE`, NOTE. -/
def FC.imbalance : Nat := 0x040F
/-- `REST_FAILED`, NOTE. -/
def FC.restFailed : Nat := 0x0410
/-- `RESTORE_REJECTED`, NOTE. -/
def FC.restoreRejected : Nat := 0x0411
/-- `SOH_LOW`, MINOR. -/
def FC.sohLow : Nat := 0x0412
/-- `RESISTANCE_HIGH`, MINOR. -/
def FC.resistanceHigh : Nat := 0x0413
/-- `THERMISTOR_FAULT`, MINOR. -/
def FC.thermistorFault : Nat := 0x0414
/-- `BENCH_CORRECTED`, NOTE. -/
def FC.benchCorrected : Nat := 0x0501
/-- `BENCH_UNCORRECTED`, MINOR. -/
def FC.benchUncorrected : Nat := 0x0502
/-- `T1_CORRECTED`, NOTE. -/
def FC.t1Corrected : Nat := 0x0503
/-- `T1_UNCORRECTED`, MINOR. -/
def FC.t1Uncorrected : Nat := 0x0504
/-- `T2_CORRECTED`, NOTE. -/
def FC.t2Corrected : Nat := 0x0505
/-- `T2_UNCORRECTED`, MINOR. -/
def FC.t2Uncorrected : Nat := 0x0506
/-- `T3_UNCORRECTED`, MINOR. -/
def FC.t3Uncorrected : Nat := 0x0507
/-- `T3_READ_MISS`, MINOR. -/
def FC.t3ReadMiss : Nat := 0x0508
/-- `T3_WRITE_REFUSED`, MINOR. -/
def FC.t3WriteRefused : Nat := 0x0509
/-- `T3_WEAR_WARN`, NOTE. -/
def FC.t3WearWarn : Nat := 0x050A
/-- `T3_WEAR_LIMIT`, MINOR. -/
def FC.t3WearLimit : Nat := 0x050B
/-- `T1_HOT`, MAJOR. -/
def FC.t1Hot : Nat := 0x050C
/-- `MV_BOUNDS`, MINOR. -/
def FC.mvBounds : Nat := 0x0520
/-- `MV_BUFFER_UNCORRECTED`, MINOR. -/
def FC.mvBufferUncorrected : Nat := 0x0521
/-- `MV_DESCRIPTOR_PARITY`, MAJOR. -/
def FC.mvDescriptorParity : Nat := 0x0522
/-- `PATH_DOWN`, MINOR. -/
def FC.pathDown : Nat := 0x0601
/-- `LINK_DOWN`, MINOR. -/
def FC.linkDown : Nat := 0x0602
/-- `PATH_SKEW`, NOTE. -/
def FC.pathSkew : Nat := 0x0603
/-- `TRAIN_FAIL`, NOTE. -/
def FC.trainFail : Nat := 0x0604
/-- `LATE_RELEASE`, MINOR. -/
def FC.lateRelease : Nat := 0x0605
/-- `HOP_LIMIT`, MINOR. -/
def FC.hopLimit : Nat := 0x0606
/-- `NO_ROUTE`, MINOR. -/
def FC.noRoute : Nat := 0x0607
/-- `TX_DATA_CRC`, MINOR. -/
def FC.txDataCrc : Nat := 0x0608
/-- `JOB_MISMATCH`, MINOR. -/
def FC.jobMismatch : Nat := 0x0609
/-- `RED_WINDOW`, MINOR. -/
def FC.redWindow : Nat := 0x060A
/-- `GO_LATE`, MINOR. -/
def FC.goLate : Nat := 0x060B
/-- `LEVEL_MISMATCH`, NOTE. -/
def FC.levelMismatch : Nat := 0x060C
/-- `DOWEL_FOREIGN`, NOTE. -/
def FC.dowelForeign : Nat := 0x060D
/-- `TREE_LINK_DOWN`, MINOR. -/
def FC.treeLinkDown : Nat := 0x060E
/-- `OVERRUN`, MINOR. -/
def FC.overrun : Nat := 0x0701
/-- `BARRIER_WATCHDOG`, MINOR. -/
def FC.barrierWatchdog : Nat := 0x0702
/-- `JOB_HALTED`, MINOR. -/
def FC.jobHalted : Nat := 0x0703
/-- `SLACK_NEGATIVE`, NOTE. -/
def FC.slackNegative : Nat := 0x0704
/-- `MARK_MISMATCH`, MINOR. -/
def FC.markMismatch : Nat := 0x0705
/-- `MARK_MISSING`, NOTE. -/
def FC.markMissing : Nat := 0x0706
/-- `FORCED_LEAVE`, MINOR. -/
def FC.forcedLeave : Nat := 0x0707
/-- `JOIN_REFUSED`, NOTE. -/
def FC.joinRefused : Nat := 0x0708
/-- `KERF_LATE`, MAJOR. -/
def FC.kerfLate : Nat := 0x0709
/-- `PLL_LOCK_LOST`, MAJOR. -/
def FC.pllLockLost : Nat := 0x0720
/-- `STANDBY_PLL_UNLOCKED`, MINOR. -/
def FC.standbyPllUnlocked : Nat := 0x0721
/-- `RT_COPY_MISMATCH`, MINOR. -/
def FC.rtCopyMismatch : Nat := 0x0722
/-- `MA_PAIR`, MINOR. -/
def FC.maPair : Nat := 0x0801
/-- `MA_PLANE_PARITY`, MINOR. -/
def FC.maPlaneParity : Nat := 0x0802
/-- `MA_FOOT_CORRECTED`, NOTE. -/
def FC.maFootCorrected : Nat := 0x0803
/-- `MA_FOOT_UNCORRECTED`, MINOR. -/
def FC.maFootUncorrected : Nat := 0x0804
/-- `MA_DESCRIPTOR_PARITY`, MAJOR. -/
def FC.maDescriptorParity : Nat := 0x0805
/-- `LF_BENCH_BOUNDS`, MINOR. -/
def FC.lfBenchBounds : Nat := 0x0810
/-- `LF_TRIP_LIMIT`, MINOR. -/
def FC.lfTripLimit : Nat := 0x0811
/-- `LF_REG_CORRECTED`, NOTE. -/
def FC.lfRegCorrected : Nat := 0x0812
/-- `LF_REG_UNCORRECTED`, MINOR. -/
def FC.lfRegUncorrected : Nat := 0x0813
/-- `LF_SLOT_UNCORRECTED`, MINOR. -/
def FC.lfSlotUncorrected : Nat := 0x0814
/-- `LF_PROGRAM_PARITY`, MAJOR. -/
def FC.lfProgramParity : Nat := 0x0815
/-- `LF_ARITH_INVALID`, NOTE. -/
def FC.lfArithInvalid : Nat := 0x0816
/-- `QF_ENTRY_UNCORRECTED`, MINOR. -/
def FC.qfEntryUncorrected : Nat := 0x0820
/-- `QF_CREDIT_ERROR`, MAJOR. -/
def FC.qfCreditError : Nat := 0x0821
/-- `D2D_CORRECTED`, NOTE. -/
def FC.d2dCorrected : Nat := 0x0830
/-- `D2D_UNCORRECTED`, MINOR. -/
def FC.d2dUncorrected : Nat := 0x0831
/-- `D2D_LANE_REPAIRED`, NOTE. -/
def FC.d2dLaneRepaired : Nat := 0x0832
/-- `MP_FAILOVER`, MINOR. -/
def FC.mpFailover : Nat := 0x0901
/-- `RESUMED_FROM_OLDER_IMAGE`, NOTE. -/
def FC.resumedFromOlderImage : Nat := 0x0902
/-- `MP_STANDBY_LOST`, MINOR. -/
def FC.mpStandbyLost : Nat := 0x0903
/-- `JOURNAL_TRUNCATED`, NOTE. -/
def FC.journalTruncated : Nat := 0x0904
/-- `FW_VERIFY_FAIL`, MINOR. -/
def FC.fwVerifyFail : Nat := 0x0905
/-- `FW_NO_VALID_IMAGE`, CRITICAL. -/
def FC.fwNoValidImage : Nat := 0x0906
/-- `STATE_IMAGE_LOST`, MAJOR. -/
def FC.stateImageLost : Nat := 0x0907
/-- `MP_MEMORY_CORRECTED`, NOTE. -/
def FC.mpMemoryCorrected : Nat := 0x0908
/-- `MAILBOX_MSG_BAD`, NOTE. -/
def FC.mailboxMsgBad : Nat := 0x0909
/-- `HANDOVER_ABORTED`, MINOR. -/
def FC.handoverAborted : Nat := 0x090A
/-- `MGMT_LINK_DOWN`, NOTE. -/
def FC.mgmtLinkDown : Nat := 0x090B
/-- `MP_COAST_TIMEOUT`, MAJOR. -/
def FC.mpCoastTimeout : Nat := 0x0930
/-- `MP_NONE`, CRITICAL. -/
def FC.mpNone : Nat := 0x0931
/-- `FLOW_LOSS`, CRITICAL. -/
def FC.flowLoss : Nat := 0x0A01
/-- `EMERGENCY_STOP`, FATAL. -/
def FC.emergencyStop : Nat := 0x0A02
/-- `REF_CHANGEOVER`, MINOR. -/
def FC.refChangeover : Nat := 0x0A03
/-- `REF_HOLDOVER`, MINOR. -/
def FC.refHoldover : Nat := 0x0A04
/-- `REF_RESTORED`, NOTE. -/
def FC.refRestored : Nat := 0x0A05
/-- `INPUT_OUT_OF_RANGE`, MINOR. -/
def FC.inputOutOfRange : Nat := 0x0A06
/-- `LEASE_EXPIRED`, NOTE. -/
def FC.leaseExpired : Nat := 0x0A30
/-- `APERTURE_DENIED`, MINOR. -/
def FC.apertureDenied : Nat := 0x0B01
/-- `DOORBELL_DROPPED`, NOTE. -/
def FC.doorbellDropped : Nat := 0x0B02
/-- `SECTOR_INCOMPLETE`, MINOR. -/
def FC.sectorIncomplete : Nat := 0x0B03
/-- `HQ_NO_CREDIT`, MINOR. -/
def FC.hqNoCredit : Nat := 0x0B04
/-- `PCIE_LINK_DOWN`, MINOR. -/
def FC.pcieLinkDown : Nat := 0x0B05
/-- `PCIE_UNCORRECTABLE`, MAJOR. -/
def FC.pcieUncorrectable : Nat := 0x0B06
/-- `JIG_REJECTED`, NOTE. -/
def FC.jigRejected : Nat := 0x0B20
/-- `JIG_LATE`, MINOR. -/
def FC.jigLate : Nat := 0x0B21
/-- `FUSE_COPY_BAD`, NOTE. -/
def FC.fuseCopyBad : Nat := 0x0C01
/-- `FUSE_GROUP_INVALID`, FATAL. -/
def FC.fuseGroupInvalid : Nat := 0x0C02
/-- `TEST_MODE_ACTIVE`, NOTE. -/
def FC.testModeActive : Nat := 0x0C03
/-- `FAULT_MESSAGE_BAD`, MAJOR. -/
def FC.faultMessageBad : Nat := 0x0C04
/-- `CALIBRATION_INVALID`, MAJOR. -/
def FC.calibrationInvalid : Nat := 0x0C05

/-- Codes of class 0x01 and their fused levels. -/
def codesThermal : SMap Nat :=
  [(0x0101, 1), (0x0102, 2), (0x0103, 4), (0x0104, 2), (0x0105, 1), (0x0106, 1), (0x0107, 2), (0x0108, 4)]
/-- Codes of class 0x02 and their fused levels. -/
def codesRegulator : SMap Nat :=
  [(0x0201, 1), (0x0202, 3), (0x0203, 2), (0x0204, 3), (0x0205, 3), (0x0206, 4), (0x0207, 3), (0x0208, 3),
   (0x0209, 2), (0x020A, 1), (0x020B, 4), (0x020C, 3)]
/-- Codes of class 0x03 and their fused levels. -/
def codesShim : SMap Nat :=
  [(0x0301, 1), (0x0302, 1), (0x0303, 1), (0x0304, 2), (0x0305, 2), (0x0306, 2), (0x0307, 3), (0x0308, 3),
   (0x0309, 4), (0x030A, 3), (0x030B, 2), (0x030C, 3), (0x030D, 1), (0x030E, 4), (0x030F, 1), (0x0310, 1)]
/-- Codes of class 0x04 and their fused levels. -/
def codesCell : SMap Nat :=
  [(0x0401, 3), (0x0402, 3), (0x0403, 3), (0x0404, 1), (0x0405, 3), (0x0406, 2), (0x0407, 2), (0x0408, 4),
   (0x0409, 4), (0x040A, 2), (0x040B, 4), (0x040C, 1), (0x040D, 1), (0x040E, 1), (0x040F, 1), (0x0410, 1),
   (0x0411, 1), (0x0412, 2), (0x0413, 2), (0x0414, 2)]
/-- Codes of class 0x05 and their fused levels. -/
def codesMemory : SMap Nat :=
  [(0x0501, 1), (0x0502, 2), (0x0503, 1), (0x0504, 2), (0x0505, 1), (0x0506, 2), (0x0507, 2), (0x0508, 2),
   (0x0509, 2), (0x050A, 1), (0x050B, 2), (0x050C, 3), (0x0520, 2), (0x0521, 2), (0x0522, 3)]
/-- Codes of class 0x06 and their fused levels. -/
def codesFabric : SMap Nat :=
  [(0x0601, 2), (0x0602, 2), (0x0603, 1), (0x0604, 1), (0x0605, 2), (0x0606, 2), (0x0607, 2), (0x0608, 2),
   (0x0609, 2), (0x060A, 2), (0x060B, 2), (0x060C, 1), (0x060D, 1), (0x060E, 2)]
/-- Codes of class 0x07 and their fused levels. -/
def codesFrame : SMap Nat :=
  [(0x0701, 2), (0x0702, 2), (0x0703, 2), (0x0704, 1), (0x0705, 2), (0x0706, 1), (0x0707, 2), (0x0708, 1),
   (0x0709, 3), (0x0720, 3), (0x0721, 2), (0x0722, 2)]
/-- Codes of class 0x08 and their fused levels. -/
def codesCompute : SMap Nat :=
  [(0x0801, 2), (0x0802, 2), (0x0803, 1), (0x0804, 2), (0x0805, 3), (0x0810, 2), (0x0811, 2), (0x0812, 1),
   (0x0813, 2), (0x0814, 2), (0x0815, 3), (0x0816, 1), (0x0820, 2), (0x0821, 3), (0x0830, 1), (0x0831, 2),
   (0x0832, 1)]
/-- Codes of class 0x09 and their fused levels. -/
def codesManagement : SMap Nat :=
  [(0x0901, 2), (0x0902, 1), (0x0903, 2), (0x0904, 1), (0x0905, 2), (0x0906, 4), (0x0907, 3), (0x0908, 1),
   (0x0909, 1), (0x090A, 2), (0x090B, 1), (0x0930, 3), (0x0931, 4)]
/-- Codes of class 0x0A and their fused levels. -/
def codesInput : SMap Nat :=
  [(0x0A01, 4), (0x0A02, 5), (0x0A03, 2), (0x0A04, 2), (0x0A05, 1), (0x0A06, 2), (0x0A30, 1)]
/-- Codes of class 0x0B and their fused levels. -/
def codesHost : SMap Nat :=
  [(0x0B01, 2), (0x0B02, 1), (0x0B03, 2), (0x0B04, 2), (0x0B05, 2), (0x0B06, 3), (0x0B20, 1), (0x0B21, 2)]
/-- Codes of class 0x0C and their fused levels. -/
def codesFuse : SMap Nat :=
  [(0x0C01, 1), (0x0C02, 5), (0x0C03, 1), (0x0C04, 3), (0x0C05, 3)]

/-- The fused base level of a code; 0 where the code is not a valid code (R523, R547). -/
def baseLevel (code : Nat) : Nat :=
  match code / 256 with
  | 1 => SMap.get codesThermal code 0
  | 2 => SMap.get codesRegulator code 0
  | 3 => SMap.get codesShim code 0
  | 4 => SMap.get codesCell code 0
  | 5 => SMap.get codesMemory code 0
  | 6 => SMap.get codesFabric code 0
  | 7 => SMap.get codesFrame code 0
  | 8 => SMap.get codesCompute code 0
  | 9 => SMap.get codesManagement code 0
  | 10 => SMap.get codesInput code 0
  | 11 => SMap.get codesHost code 0
  | 12 => SMap.get codesFuse code 0
  | _ => 0

end Sys2Proof.Machine
end

