-- ==== Sys2Proof/Machine/Parts/Frame.lean ====
section
/-! DEFINITION. The state of the frame timing unit: frame number, reference time, references, cadence, domain, kerf, barrier
(R31 to R79). Times are in root cycles of 7.2 GHz (R5): 72 to a reference period, 7,200 to a microsecond. -/

namespace Sys2Proof.Machine

/-- The two cadences (R38, R40). -/
inductive Cadence where
  | fixed
  | barrier
deriving DecidableEq, Repr

/-- The two clamp modes (R71). -/
inductive ClampMode where
  | opportunistic
  | fixedFrequency
deriving DecidableEq, Repr

/-- The modes a module runs its frames under, its own or its domain's (R33). -/
structure Modes where
  cadence : Cadence
  clampMode : ClampMode
  /-- `FIXED_STATE`: 1 to 5 under FIXED_FREQUENCY, 0 under OPPORTUNISTIC. -/
  fixedState : Nat
  frameLengthUs : Nat
deriving DecidableEq, Repr

/-- The modes after a cold start and after leaving PARKED (R33). -/
def Modes.initial : Modes := { cadence := .fixed, clampMode := .opportunistic, fixedState := 0, frameLengthUs := 1000 }

/-- A frame domain as its member holds it (R62, R76). -/
structure Domain where
  id : Nat
  level : Nat
  memberIndex : Nat
  memberCount : Nat
  /-- `PARENT_INDEX`; none at the root. -/
  parent : Option Nat
  children : List Nat
  watchdogFactor : Nat
  releaseMarginNs : Nat
deriving DecidableEq, Repr

/-- An accepted `FT_JOIN_DOMAIN` that waits for its frame (R64). -/
structure PendingJoin where
  dom : Domain
  modes : Modes
  joinFrame : Nat
  joinTime : Nat
deriving DecidableEq, Repr

/-- An accepted `FT_SET_DOMAIN` that waits for its frame (R69, R70); none is "no change". -/
structure DomainChange where
  frame : Nat
  time : Nat
  frameLengthUs : Option Nat
  level : Option Nat
  cadence : Option Cadence
  clampMode : Option ClampMode
  fixedState : Option Nat
  watchdogFactor : Option Nat
deriving DecidableEq, Repr

/-- The tree position replaced at a frame by an `FT_JOIN_DOMAIN` of the module's own domain (R66). -/
structure PendingTree where
  frame : Nat
  parent : Option Nat
  children : List Nat
  releaseMarginNs : Nat
deriving DecidableEq, Repr

/-- The frame classes of one frame: the module's, and each partition's by partition number (R26, R89). -/
structure FrameClasses where
  module : Option Nat
  parts : List (Option Nat)
deriving DecidableEq, Repr

/-- No partition runs a class. -/
def FrameClasses.none : FrameClasses := { module := Option.none, parts := [] }

/-- The values of `FT_GET_FRAME_STATUS` captured at t = 0 of a kerf (R79). -/
structure FrameStatus where
  frameNumber : Nat
  kerfRt : Nat
  domainId : Nat
  domainLevel : Nat
  moduleLevel : Nat
  cadence : Cadence
  clampMode : ClampMode
  freqState : Nat
  memberState : Nat
  activeRef : Nat
  slackNs : Int
  stretchNs : Nat
  overrunCount : Nat
  deferredCount : Nat
  halted : List Nat
deriving DecidableEq, Repr

/-- The events of the kerf in progress (R45). -/
structure Kerf where
  /-- The kerf has not ended. -/
  active : Bool
  /-- Time of the strobe, and RT there. -/
  strobe : Nat
  rt : Nat
  /-- The frequency state sampled at t = 0 (R488), and whether its switch is still due (R49). -/
  sampled : Nat
  switchDue : Bool
  /-- Kerf extension in rc of the state being left (R50, R51). -/
  extRc : Nat
  /-- The same wait in cycles of the 7.2 GHz root. -/
  extTime : Nat
  moversStarted : Bool
  /-- Cluster groups j and arrays started or passed over in this kerf (R45, R46). -/
  groupsDone : List Nat
  arraysDone : List Nat
  clampLoaded : Bool
  late : Bool
deriving DecidableEq, Repr

/-- The frame timing unit. -/
structure FrameState where
  /-- The 48-bit frame number (R32). -/
  number : Nat
  /-- The count is frozen in PARKED (R32). -/
  frozen : Bool
  /-- When the frame timing unit started, and whether a kerf has occurred since (R33). -/
  startedAt : Nat
  anyKerf : Bool
  /-- RT was `rtBase` at time `rtAt` and advances every 72 root cycles (R35). -/
  rtBase : Nat
  rtAt : Nat
  rtLocked : Bool
  /-- Number of the last valid mark, while the next could follow it (R35), and of the last that disagreed with RT (R36). -/
  lastMark : Option Nat
  lastDisagreeing : Option Nat
  /-- Valid marks ignored because they disagreed with RT (R36). -/
  marksIgnored : Nat
  /-- Time of the last valid mark, and whether `MARK_MISSING` stands. -/
  lastMarkAt : Nat
  markMissing : Bool
  /-- The references lost and not returned (R37). -/
  refALost : Bool
  refBLost : Bool
  /-- 0 FRAME_REF_A, 1 FRAME_REF_B; none in holdover. -/
  activeRef : Option Nat
  holdoverSince : Option Nat
  modes : Modes
  domain : Option Domain
  /-- The domain is left at the kerf of this frame (R67); a forced leave waits for the next kerf (R68). -/
  leaveFrame : Option Nat
  forcedLeave : Bool
  pendingJoin : Option PendingJoin
  pendingTree : Option PendingTree
  changes : List DomainChange
  /-- The anchor of the FIXED schedule: frame J starts at RT edge `JOIN_TIME` (R38); none before the first. -/
  anchor : Option (Nat × Nat)
  /-- A go dowel taken: its frame number and start time (R54). -/
  go : Option (Nat × Nat)
  /-- A go dowel of the domain to be joined that carries `JOIN_FRAME` or more (R64, R65). -/
  joinGo : Option (Nat × Nat)
  kerf : Kerf
  /-- Classes of the frame running and of the two after it (R26). -/
  classes : FrameClasses
  next1 : FrameClasses
  next2 : FrameClasses
  status : FrameStatus
  /-- `LAST_KERF_EXT_RC` (R79). -/
  lastExtRc : Nat
  overrunCount : Nat
  deferredCount : Nat
  /-- Children whose done has come for this frame, the module's own done, and done passed up (R53). -/
  childrenDone : List Nat
  ownDone : Bool
  ownDoneAt : Nat
  /-- Children whose `LEAVE` has come: member, and the frame from which it no longer counts (R67, R320). -/
  childLeaves : List (Nat × Nat)
  donePassed : Bool
  /-- The watchdog of this frame has expired (R57). -/
  watchdogFired : Bool
  /-- Jobs halted in this frame, so that a repeated halt dowel is idempotent (R58). -/
  haltedJobs : List Nat
deriving DecidableEq, Repr

/-- The frame timing unit as a cold start leaves it: frame 0, RT counting from 0 unlocked (R32, R33, R35). That FRAME_REF_A is the active
reference is a DESIGN CHOICE: the manual names neither. -/
def FrameState.reset : FrameState :=
  { number := 0, frozen := false, startedAt := 0, anyKerf := false, rtBase := 0, rtAt := 0, rtLocked := false,
    lastMark := none, lastDisagreeing := none, marksIgnored := 0, lastMarkAt := 0, markMissing := false,
    refALost := false, refBLost := false,
    activeRef := some 0, holdoverSince := none, modes := Modes.initial, domain := none, leaveFrame := none,
    forcedLeave := false, pendingJoin := none, pendingTree := none, changes := [], anchor := none, go := none, joinGo := none,
    kerf := { active := false, strobe := 0, rt := 0, sampled := 5, switchDue := false, extRc := 0, extTime := 0, moversStarted := false,
              groupsDone := [], arraysDone := [], clampLoaded := false, late := false },
    classes := FrameClasses.none, next1 := FrameClasses.none, next2 := FrameClasses.none,
    status := { frameNumber := 0, kerfRt := 0, domainId := 0, domainLevel := 0, moduleLevel := 0, cadence := .fixed,
                clampMode := .opportunistic, freqState := 5, memberState := 0, activeRef := 0, slackNs := 0,
                stretchNs := 0, overrunCount := 0, deferredCount := 0, halted := [] },
    lastExtRc := 0, overrunCount := 0, deferredCount := 0, childrenDone := [], ownDone := false,
    ownDoneAt := 0, childLeaves := [],
    donePassed := false, watchdogFired := false, haltedJobs := [] }

end Sys2Proof.Machine
end

