-- ==== Sys2Proof/Machine/Parts/Governor.lean ====
section
/-! DEFINITION. The state of the governor: settings, limits, pacing, stretch, frequency states, budgeter, heat, throttle reasons and
energy (R473 to R522). Powers are in W or mW as named, temperatures in 0.1 degree, times in root cycles. -/

namespace Sys2Proof.Machine

/-- The settings that commands change and kerfs take over (R474, R517 to R519). -/
structure GovSettings where
  /-- C_M, and C_n of the four compute dies, in W. -/
  clampM : Nat
  clampDie : List Nat
  /-- C_p and Q_p of each partition that has one, in W. -/
  clampPart : SMap Nat
  quota : SMap Nat
  /-- Droop thresholds in half percent; none is the die's fused value (R481). -/
  droop : List (Option Nat)
  /-- Rail current settings in A. -/
  railCurrent : List Nat
deriving DecidableEq, Repr

/-- The defaults of R474. -/
def GovSettings.initial : GovSettings :=
  { clampM := 4000, clampDie := [900, 900, 900, 900], clampPart := [], quota := [], droop := [none, none, none, none],
    railCurrent := [1000, 1000, 1000, 1000] }

/-- The limits of a frame (R474): L_M, L_n in W, I_lim,n in A, L_p in W, and S with its reason code. -/
structure GovLimits where
  module : Nat
  dies : List Rat
  railA : List Rat
  parts : SMap Rat
  supply : Nat
  supplyReason : Nat
  /-- The reason code that pacing against each L_n counts under (R509). -/
  dieReasons : List Nat
deriving DecidableEq, Repr

/-- Limits before the first load: the fused ratings (R475). -/
def GovLimits.initial : GovLimits :=
  { module := 4000, dies := [900, 900, 900, 900], railA := [1000, 1000, 1000, 1000], parts := [], supply := 4000,
    supplyReason := 0, dieReasons := [1, 1, 1, 1] }

/-- A budgeter entry at one frequency state (R484): means in W, peaks in A. -/
structure Learned where
  power : List Rat
  current : List Rat
  count : Nat
deriving DecidableEq, Repr

/-- A die of the governor: CD0 to CD3 at 0 to 3, HD at 4. -/
structure DieGov where
  /-- Pacing count m, its value before the kerf, and whether pacing is suspended (R477 to R479). -/
  pacing : Nat
  paceBefore : Nat
  preset : Nat
  /-- A droop stretch is under way, and since when (R482); stretch is suspended for a forced switch (R508). -/
  stretching : Option Nat
  /-- P_n in mW and I_n in mA of the last update (R473). -/
  powerMw : Nat
  currentMa : Nat
  /-- Stretch time of the frame in ns (R483), and since when the clocks have run at the pacing count that stands. -/
  stretchNs : Rat
  pacedAt : Nat
  /-- Last diode sample, last valid one, validity, consecutive valid samples since, fast sampling (R497, R499); a sample has been
  taken since the die's start. -/
  sampled : Bool
  diode : Int
  diodeGood : Int
  diodeValid : Bool
  validRun : Nat
  fast : Bool
  /-- The slice's energy counters in nJ, by the reference of an array or a cluster of its die (R19). -/
  unitNj : SMap Nat
  /-- Node temperatures, and the heat in microjoule attributed to each node in the last step (R498). -/
  nodes : List Rat
  heat : List Rat
  /-- Hottest node at the last updates, newest first, over 1 ms and at its start (R503, R522). -/
  hottest : List Rat
  warn : Bool
  throttle : Bool
  shutdown : Bool
  /-- Since when diode and model differ by 8 to 15 K; the fault is raised (R499). -/
  divergedSince : Option Nat
  divergedRaised : Bool
  /-- Stacks of the die that impose a throttle (R500). -/
  stackThrottle : Bool
deriving DecidableEq, Repr

/-- A die with no sample and nothing lengthened. -/
def DieGov.reset : DieGov :=
  { pacing := 0, paceBefore := 0, preset := 0, stretching := none, powerMw := 0, currentMa := 0, stretchNs := 0, pacedAt := 0, sampled := false, diode := 0,
    diodeGood := 0, diodeValid := true, validRun := 0, fast := false, unitNj := [], nodes := List.replicate 64 0, heat := List.replicate 64 0, hottest := [], warn := false,
    throttle := false, shutdown := false, divergedSince := none, divergedRaised := false, stackThrottle := false }

/-- How far a stop of the compute dies has gone (R504, R505, R507). -/
inductive StopPhase where
  | running
  /-- An orderly stop decided at this time: nothing further issues. -/
  | stopping (since : Nat)
  /-- The clocks stopped at this time; VCORE is due to stop. -/
  | clocksOff (since : Nat)
  | stopped
deriving DecidableEq, Repr

/-- What a frame has shown for learning (R487). -/
structure FrameLearning where
  /-- Sums of the block means of each VCORE rail in mW and their number; the highest 10 microsecond current in mA. -/
  powerSum : List Nat
  blocks : Nat
  peak : List Nat
  /-- Microseconds of pacing above a floor, by die. -/
  pacedUs : List Nat
  spoiled : Bool
deriving DecidableEq, Repr

/-- Nothing measured yet. -/
def FrameLearning.none : FrameLearning :=
  { powerSum := [0, 0, 0, 0], blocks := 0, peak := [0, 0, 0, 0], pacedUs := [0, 0, 0, 0], spoiled := false }

/-- The governor. -/
structure GovState where
  /-- Ratings of the four VCORE rails in A, as CR reported them at the last kerf (R464). -/
  rated : List Nat
  settings : GovSettings
  nextSettings : GovSettings
  limits : GovLimits
  /-- The limits computed at t = 0, to be loaded at 3,400 ns. -/
  nextLimits : GovLimits
  running : Nat
  /-- The state whose voltage the running clock needs; the forced change to F5 does not move it (R452, R508). -/
  volted : Nat
  armed : Nat
  ready : Nat
  thermalCap : Nat
  vrCap : Nat
  boostBlocked : Bool
  /-- Intervals (start, end) at F0 with m below 8, newest first; the start of the one running (R493). -/
  f0Past : List (Nat × Nat)
  f0Since : Option Nat
  /-- The floor of R494. -/
  f0Floor : Bool
  /-- Module power in mW: the last 20 blocks of 50 microseconds and the last 60,000 means of a millisecond, newest first (R473,
  R495). -/
  power : List Nat
  powerMs : List Nat
  /-- P_rest in mW, sampled at t = 0 (R473). -/
  restMw : Int
  dies : List DieGov
  /-- Budgeter entries at key 8 x module class + state (R484). -/
  entries : SMap (Option Learned)
  learning : FrameLearning
  diesOn : Bool
  stop : StopPhase
  /-- Causes of a stop that still hold: 1 thermal, 2 flow, 3 lost PLL lock, 4 a fault reaction, 5 a module state. -/
  stopCauses : List Nat
  flowLossSince : Option Nat
  /-- FLOW_OK has not stood high for 1.0 s since it was low: at cold start, as an undriven line reads (R507, R613, R641). -/
  flowLow : Bool
  stackTemps : List Int
  stackWarm : List Nat
  coolant : Int
  coolantSamples : List Int
  coolantHotSince : Option Nat
  coolantRaised : Bool
  vrAlert : Bool
  vrAlertSince : Nat
  /-- No kerf has occurred since the alert was released: the cap stays at F5 (R508). -/
  vrHold : Bool
  /-- Mean powers of the partitions over each of the last 1,000 ms, in mW, newest first, and their energies at the last of them in
  microjoule; active quotas (R496). -/
  partMeans : SMap (List Nat)
  energyAt : SMap Nat
  quotaActive : List Nat
  /-- Throttle reason counters: key 16 x scope + reason code, scope 0 the module and p + 1 for Pp, in root cycles (R509). -/
  throttle : SMap Nat
  /-- The microsecond in which pacing last counted for a key of `throttle`. -/
  pacedAtUs : SMap Nat
  /-- Since when the dies have run at the state that stands. -/
  stateSince : Nat
  /-- Reasons that count the frame running, with the state of their caps (R509, R510), and those its pacing and stretch counted. -/
  frameReasons : List (Nat × Nat)
  pacedReasons : List Nat
  /-- The counted reasons of the last arming, with their caps (R488). -/
  armedReasons : List (Nat × Nat)
  primary : Nat
  lastStretchNs : Nat
  /-- Energy counters in microjoule: partitions 0 to 15, unattributed 16 (R511); queues (R512). -/
  energy : SMap Nat
  queueEnergy : SMap Nat
  moduleClass : Nat
deriving DecidableEq, Repr

/-- The governor at cold start: F5 (R458), defaults of R474, dies off. -/
def GovState.reset : GovState :=
  { rated := [1000, 1000, 1000, 1000], settings := GovSettings.initial, nextSettings := GovSettings.initial, limits := GovLimits.initial,
    nextLimits := GovLimits.initial, running := 5, volted := 5, armed := 5, ready := 5, thermalCap := 0, vrCap := 0, boostBlocked := false,
    f0Past := [], f0Since := none, f0Floor := false, power := [], powerMs := [], restMw := 0, dies := List.replicate 5 DieGov.reset,
    entries := [], learning := FrameLearning.none, diesOn := false, stop := .stopped, stopCauses := [], flowLossSince := none, flowLow := true,
    stackTemps := List.replicate 16 0, stackWarm := [], coolant := 0, coolantSamples := [],
    coolantHotSince := none, coolantRaised := false, vrAlert := false, vrAlertSince := 0, vrHold := false, partMeans := [], energyAt := [], quotaActive := [],
    throttle := [], pacedAtUs := [], stateSince := 0, frameReasons := [], pacedReasons := [], armedReasons := [], primary := 0, lastStretchNs := 0, energy := [],
    queueEnergy := [], moduleClass := 0 }

end Sys2Proof.Machine
end

