-- ==== Sys2Proof/Machine/Parts/HostIf.lean ====
section
/-! DEFINITION. The state of the host interface: partition records, per-function registers, queues to and from the host, aperture
traffic (R333 to R356). -/

namespace Sys2Proof.Machine

/-- One host queue endpoint of a VF (R350, R351): ring base, `SIZE_LOG2`, enable, head, tail, and its send position with which of
its bytes the host writes. Its credits are those of the queue it feeds. -/
structure HostQueue where
  base : Nat
  sizeLog2 : Nat
  enabled : Bool
  head : Nat
  tail : Nat
  sendBytes : SMap Byte
deriving DecidableEq, Repr

/-- A host queue after reset (R351): size 4, disabled. -/
def HostQueue.reset : HostQueue := { base := 0, sizeLog2 := 4, enabled := false, head := 0, tail := 0, sendBytes := [] }

/-- An access of the aperture (R341 to R343): a write's bytes with their enables, or a read's length. `number` names a read. -/
inductive TlpKind where
  | write (data : Bytes) (enables : List Bool)
  | read (number length : Nat)
deriving DecidableEq, Repr

/-- A TLP to the aperture: when it came among its function's, and its module address. -/
structure ApertureTlp where
  seq : Nat
  address : Nat
  kind : TlpKind
deriving DecidableEq, Repr

/-- A Tier 3 sector under assembly (R342): its first TLP and module address, the bytes come so far by position, and when the first
came. -/
structure Sector where
  seq : Nat
  address : Nat
  bytes : SMap (Option Byte)
  firstAt : Nat
deriving DecidableEq, Repr

/-- A completion of a read (R334, R343, R344). -/
inductive Completion where
  | data (bytes : Bytes)
  | poisoned
  | unsupported
  | aborted
deriving DecidableEq, Repr

/-- A write by DMA to host memory (R348, R350): function, address, bytes, none for a poisoned one. -/
structure HostWrite where
  function : Nat
  address : Nat
  data : List (Option Byte)
deriving DecidableEq, Repr

/-- An entry of an MSI-X table (R332, R333): address, data, and its mask bit. -/
structure MsixEntry where
  address : Nat
  data : Nat
  masked : Bool
deriving DecidableEq, Repr

/-- An entry after reset: masked (PRESUMED: PCIe's own). -/
def MsixEntry.reset : MsixEntry := { address := 0, data := 0, masked := true }

/-- MSI-X of a function (R332, R353): MSI-X Enable, the function mask, the table by vector, and its pending bits. -/
structure MsixFn where
  enabled : Bool
  masked : Bool
  table : SMap MsixEntry
  waiting : Nat
deriving DecidableEq, Repr

/-- MSI-X of a function after reset: disabled (PRESUMED: PCIe's own). -/
def MsixFn.reset : MsixFn := { enabled := false, masked := false, table := [], waiting := 0 }

/-- An MSI-X message sent: its function and vector, and the address and data that the table gave. -/
structure MsixMessage where
  function : Nat
  vector : Nat
  address : Nat
  data : Nat
deriving DecidableEq, Repr

/-- A virtual function with its partition's traffic. -/
structure Vf where
  present : Bool
  busMaster : Bool
  intStatus : Nat
  intEnable : Nat
  doorbellDropped : Nat
  ringBase : Nat
  ringSizeLog2 : Nat
  ringEnabled : Bool
  resultHead : Nat
  resultTail : Nat
  hqs : List HostQueue
  quiescing : Bool
  /-- Accesses that wait for a host slot, in order; sectors under assembly; TLPs the link holds back (R340 to R343). -/
  accesses : List ApertureTlp
  sectors : List Sector
  stalled : List ApertureTlp
  nextTlp : Nat
  nextRead : Nat
  /-- Completions returned to the host, oldest first, by number of the read. -/
  completions : List (Nat × Completion)
  deniedRaised : Bool
deriving DecidableEq, Repr

/-- A virtual function after reset (R348, R351, R354). That it is absent until the host enables it is PCIe's own (PRESUMED). -/
def Vf.reset : Vf :=
  { present := false, busMaster := false, intStatus := 0, intEnable := 0, doorbellDropped := 0, ringBase := 0,
    ringSizeLog2 := 4, ringEnabled := false, resultHead := 0, resultTail := 0, hqs := List.replicate 4 HostQueue.reset,
    quiescing := false, accesses := [], sectors := [], stalled := [], nextTlp := 0, nextRead := 0, completions := [],
    deniedRaised := false }

/-- The host interface. -/
structure HostState where
  /-- The 16 partition records, 320 bytes each (R335). -/
  records : SMap Bytes
  /-- Enabled partitions; records as captured at enable. -/
  enabled : List Nat
  active : SMap Bytes
  /-- Enables and disables that wait for the next kerf (R336, R337). -/
  pendingEnable : List Nat
  pendingDisable : List Nat
  /-- `PART_CTRL`: the partition and action last commanded, its result, and whether it is pending. -/
  ctrlPartition : Nat
  ctrlAction : Nat
  ctrlPending : Bool
  /-- The pc in which the command that is pending was accepted (R29). -/
  ctrlPc : Nat
  ctrlResult : Nat
  pfPresent : Bool
  pfBusMaster : Bool
  pfIntStatus : Nat
  pfIntEnable : Nat
  vfs : SMap Vf
  /-- MSI-X of the functions: 0 the PF, p + 1 the VF of partition p. -/
  msixFns : SMap MsixFn
  /-- MSI-X messages sent, newest first (R353). -/
  msix : List MsixMessage
  /-- Base addresses: 0 BAR0 of the PF, 1 and 2 BAR0 and BAR2 of the VFs (R333). -/
  bars : SMap Nat
  /-- Host memory written by the module, newest first. -/
  hostWrites : List HostWrite
  linkUp : Bool
  /-- Link training is in progress (R612). -/
  training : Bool
  /-- What the link runs at, and whether ASPM L1 is enabled (R332). -/
  rate : LinkRate
  aspmL1 : Bool
  /-- PCIe link errors reported through AER (R356), and the uncorrectable error status bits of AER (R332). -/
  aer : Nat
  aerStatus : Nat
deriving DecidableEq, Repr

/-- The host interface at cold start: partitions disabled, records zero (R335), link down. -/
def HostState.reset : HostState :=
  { records := [], enabled := [], active := [], pendingEnable := [], pendingDisable := [], ctrlPartition := 0,
    ctrlAction := 0, ctrlPending := false, ctrlPc := 0, ctrlResult := 0, pfPresent := true, pfBusMaster := false, pfIntStatus := 0,
    pfIntEnable := 0, vfs := [], msixFns := [], msix := [], bars := [], hostWrites := [], linkUp := false, training := false,
    rate := { gts := 0, lanes := 0, flit := false }, aspmL1 := false, aer := 0, aerStatus := 0 }

end Sys2Proof.Machine
end

