-- ==== Sys2Proof/Machine/Parts/Jigs.lean ====
section
/-! DEFINITION. Jigs as the loader holds them once checked, and the loader's own state (R80 to R115). -/

namespace Sys2Proof.Machine

/-- A frame-class record (R87). `bodyTime` holds six values for F0 to F5, in 10 ns. -/
structure ClassRec where
  id : Nat
  planIndex : Nat
  lengthUs : Nat
  bodyTime : List Nat
  hintPackageW : Nat
  hintFlags : Nat
deriving DecidableEq, Repr

/-- A frame-sequence entry (R90). -/
inductive SeqEntry where
  | run (cls count : Nat)
  | idle (count : Nat)
  | loop (target count : Nat)
  | stop
deriving DecidableEq, Repr

/-- A segment of an energy plan (R93): its end in 0.01 % of the body, and the power at F0 to F5 in W. -/
structure PlanSegment where
  endPermyriad : Nat
  powerW : List Nat
deriving DecidableEq, Repr

/-- An energy plan (R93, R94). -/
structure Plan where
  segments : List PlanSegment
  perState : Bool
deriving DecidableEq, Repr

/-- A queue declaration (R96). -/
structure QueueDecl where
  id : Nat
  producer : Nat
  consumer : Nat
  depth : Nat
  frameLocal : Bool
  fabric : Bool
deriving DecidableEq, Repr

/-- A placement record (R97). -/
structure Placement where
  tensor : Nat
  tier : Nat
  format : Nat
  readOnly : Bool
  preloaded : Bool
  address : Nat
  size : Nat
deriving DecidableEq, Repr

/-- A program entry (R99): the bytes of the body that are the program of one frame class. -/
structure ProgEntry where
  cls : Nat
  offset : Nat
  length : Nat
deriving DecidableEq, Repr

/-- A unit's program section (R99). `unit` is a unit reference (R85). -/
structure Program where
  unit : Nat
  entries : List ProgEntry
  body : Bytes
deriving DecidableEq, Repr

/-- A slot entry (R268): port, transfer bytes, first slot, run, repeat, stride. -/
structure SlotEntry where
  port : Nat
  bytes : Nat
  first : Nat
  run : Nat
  count : Nat
  stride : Nat
deriving DecidableEq, Repr

/-- A slot-table section (R101). -/
structure SlotSection where
  resource : Nat
  periodQc : Nat
  entries : List SlotEntry
deriving DecidableEq, Repr

/-- A jig whose checks have passed (R82 to R101). -/
structure Jig where
  capLevel : Nat
  cadence : Nat
  clampMode : Nat
  fixedState : Nat
  frameLengthUs : Nat
  jobId : Nat
  /-- `START_FRAME`, 0 for the first kerf after step 18 (R110). -/
  startField : Nat
  classBase : Nat
  classCount : Nat
  idleW : Nat
  classes : List ClassRec
  sequence : List SeqEntry
  plans : List Plan
  queues : List QueueDecl
  placements : List Placement
  programs : List Program
  slots : List SlotSection
deriving DecidableEq, Repr

/-- How far a partition's jig has come (R110, R112 to R114). -/
inductive JigPhase where
  /-- Past step 4, its distribution not yet acknowledged. -/
  | loading
  /-- Past step 18, its start frame not yet begun. -/
  | loaded
  | running
deriving DecidableEq, Repr

/-- What a partition does in a frame (R91, R95). -/
inductive FrameWork where
  | nothing
  | run (cls : Nat)
  | idle
  /-- The frame in which the sequence reaches `END`. -/
  | atEnd
deriving DecidableEq, Repr

/-- Position in a frame sequence (R91): the entry, frames of it still to run after this one, passes counted per `LOOP` entry. -/
structure SeqPos where
  entry : Nat
  left : Nat
  passes : SMap Nat
deriving DecidableEq, Repr

/-- The jig a partition holds (R112). -/
structure PartJig where
  jig : Jig
  phase : JigPhase
  /-- The start frame; none until the first kerf after step 18 fixes it for `START_FRAME` 0. -/
  startFrame : Option Nat
  pos : SeqPos
  work : FrameWork
  /-- A halt has been received: the units stop at the next kerf (R58). -/
  halting : Bool
deriving DecidableEq, Repr

/-- A load result (R106). -/
structure LoadResult where
  partition : Nat
  status : Nat
  error : Nat
  sectionIndex : Nat
  itemIndex : Nat
  byteOffset : Nat
  jobId : Nat
  frame : Nat
deriving DecidableEq, Repr

/-- A class plan as the PWC holds it: plan, body times and the partition it came from (R25, R95). -/
structure ClassPlan where
  partition : Nat
  plan : Plan
  bodyTime : List Nat
  hintPackageW : Nat
  hintFlags : Nat
  lengthUs : Nat
deriving DecidableEq, Repr

/-- A doorbell in the loader's queue (R345): partition, Tier 2 address of the image, and how many TLPs its function had issued. -/
structure Doorbell where
  partition : Nat
  address : Nat
  after : Nat
deriving DecidableEq, Repr

/-- The loader and the jigs on the module. -/
structure JigState where
  /-- Jigs by partition. -/
  parts : SMap (Option PartJig)
  /-- Doorbells waiting, in order (R108). -/
  doorbells : List Doorbell
  /-- The partition whose jig the loader holds, and the classes whose plans the PWC has not received (R108). -/
  inHand : Option Nat
  plansToSend : List Nat
  /-- The PWC has received every plan and its acknowledgement is due. -/
  ackDue : Bool
  /-- The class plans of the PWC (R95). -/
  planStore : SMap (Option ClassPlan)
  /-- `IDLE_W` of a partition whose last jig ended by a halt (R95 item 4). -/
  haltedIdleW : SMap Nat
  /-- Partitions with a halted job (R79). -/
  halted : List Nat
  /-- Load results not yet delivered, oldest first (R106). -/
  results : List LoadResult
deriving DecidableEq, Repr

/-- No jig anywhere. -/
def JigState.reset : JigState :=
  { parts := [], doorbells := [], inHand := none, plansToSend := [], ackDue := false, planStore := [], haltedIdleW := [],
    halted := [], results := [] }

end Sys2Proof.Machine
end

