-- ==== Sys2Proof/Machine/Parts/Lanes.lean ====
section
/-! DEFINITION. The state of the lane clusters LC000 to LC255 (R170 to R196). -/

namespace Sys2Proof.Machine

/-- One level of a row's loop stack (R170): remaining count and start index. `stop` is the index of the loop's `LOOPEND`, which the
`LOOP` word at `start` names (R224): kept here so that a branch finds it without reading the program (DEDUCED, log entry 12). -/
structure LoopLevel where
  left : Nat
  start : Nat
  stop : Nat
deriving DecidableEq, Repr

/-- The row-wide state of one row (R170): program counter, loop stack (innermost level first), done. -/
structure RowCtl where
  pc : Nat
  stack : List LoopLevel
  done : Bool
deriving DecidableEq, Repr

/-- A row at the start of a frame (R177). -/
def RowCtl.start : RowCtl := { pc := 1, stack := [], done := false }

/-- An accumulation slot (R170, R192): its WA64 value, flag byte and window. -/
structure AccSlot where
  value : Nat
  flags : Nat
  window : Int
deriving DecidableEq, Repr

/-- A slot that holds zero under window 0 (R177). -/
def AccSlot.zero : AccSlot := { value := 0, flags := 0, window := 0 }

/-- Fields of an instruction word in `REG` form (R198); a field that the opcode does not use is zero. -/
structure RegFields where
  d : Nat := 0
  a : Nat := 0
  b : Nat := 0
  c : Nat := 0
  sub : Nat := 0
  fmt : Nat := 0
  rmode : Nat := 0
  pos : Nat := 0
  aux : Nat := 0
deriving DecidableEq, Repr

/-- One lane cluster. Register V of row j stands at key 16 j + V as the words of its 128 lanes; predicate d of row j at
key 8 j + d. -/
structure Cluster where
  regs : SMap (List W32)
  preds : SMap (List Bool)
  rows : SMap RowCtl
  slots : SMap AccSlot
  /-- The entry under way: its frame class (R173), or none. -/
  entry : Option Nat
  /-- The lc, counted from the kerf strobe, from which the rotation counts (R173); negative where a strobe has passed since (R658). -/
  origin : Int
  /-- The lc whose turn was taken last (R171). -/
  turn : Int
  rowCount : Nat
  keepState : Bool
  /-- The jig has started the cluster before (R177); a job halt ends the jig (R114), so that this also tells of it. -/
  ranInJig : Bool
  /-- An instruction word failed its parity check: nothing further issues in the frame (R196). -/
  stopped : Bool
  /-- `LF_ARITH_INVALID` and `LF_BENCH_BOUNDS` raised this frame (R188, R227), and the lanes the bounds check caught. -/
  arithRaised : Bool
  boundsRaised : Bool
  boundsLanes : Nat
deriving DecidableEq, Repr

/-- The words of 128 lanes, all zero; the predicates of 128 lanes, all zero. -/
def zeroLanes : List W32 := List.replicate 128 0
def falseLanes : List Bool := List.replicate 128 false

/-- A cluster whose thread state and slots are zero and that runs nothing (R178). -/
def Cluster.reset : Cluster :=
  { regs := [], preds := [], rows := [], slots := [], entry := none, origin := 0, turn := -1, rowCount := 0, keepState := false, ranInJig := false,
    stopped := false, arithRaised := false, boundsRaised := false, boundsLanes := 0 }

/-- The lane field, and each partition's arithmetic flag byte: of the current frame and as latched at the last kerf (R226). -/
structure LaneState where
  clusters : SMap Cluster
  arith : SMap Nat
  latchedArith : SMap Nat
deriving DecidableEq, Repr

/-- No cluster has run. -/
def LaneState.reset : LaneState := { clusters := [], arith := [], latchedArith := [] }

end Sys2Proof.Machine
end

