-- ==== Sys2Proof/Machine/Parts/Mgmt.lean ====
section
/-! DEFINITION. The state of the management processors, the state store, the firmware banks and the mailbox slots (R560 to R604). -/

namespace Sys2Proof.Machine

/-- Role and sub-state of a management processor (R561), as `STANDBY_STATE` codes it (R598). -/
inductive MpRole where
  | none
  | active
  | booting
  | selfTest
  | ready
  | held
  | recovery
deriving DecidableEq, Repr

/-- One management processor. -/
structure Processor where
  role : MpRole
  bank : Nat
  fwMajor : Nat
  fwMinor : Nat
  capLevel : Nat
  /-- Format its firmware writes, and the oldest it reads (R582). -/
  format : Nat
  formatMin : Nat
  lastKick : Nat
  /-- Times of its failures within the last hour (R568). -/
  failures : List Nat
  /-- Since when it has been READY without a fault of its own (R578). -/
  readySince : Nat
deriving DecidableEq, Repr

/-- A processor without power. -/
def Processor.off : Processor :=
  { role := .none, bank := 0, fwMajor := 0, fwMinor := 0, capLevel := 0, format := 0, formatMin := 0, lastKick := 0,
    failures := [], readySince := 0 }

/-- An image slot (R566): its header, and whether it is good. The body is the firmware's state, whose layout the manual does not
give. -/
structure ImageSlot where
  good : Bool
  seq : Nat
  mark : Nat
  frame : Nat
  format : Nat
  fwMajor : Nat
  fwMinor : Nat
  capLevel : Nat
deriving DecidableEq, Repr

/-- A slot never written. -/
def ImageSlot.empty : ImageSlot :=
  { good := false, seq := 0, mark := 0, frame := 0, format := 0, fwMajor := 0, fwMinor := 0, capLevel := 0 }

/-- A journal entry (R569). -/
structure JournalEntry where
  seq : Nat
  source : Nat
  complete : Bool
  request : Bytes
  response : Bytes
  frame : Nat
  good : Bool
deriving DecidableEq, Repr

/-- A mailbox slot (R584): the bytes of a PCIe slot's window; the request in progress; the response ready for a private read of the
I3C slot; the last journalled command with its response (R593). A request whose function was reset sends no message (R588). For the
Ethernet slot, where the request came from: port, and source address and UDP port as one number. -/
structure MailSlot where
  window : SMap Byte
  request : Option Bytes
  response : Option Bytes
  ignoredWrites : Nat
  last : Option (Bytes × Bytes)
  silent : Bool
  replyTo : Nat × Nat
deriving DecidableEq, Repr

/-- A slot that holds nothing. Window bytes zero: DESIGN CHOICE, the manual gives no value. -/
def MailSlot.empty : MailSlot :=
  { window := [], request := none, response := none, ignoredWrites := 0, last := none, silent := false, replyTo := (0, 0) }

/-- A firmware bank (R580, R599): the bytes staged or installed, whether it verifies, and the slot whose staging is open. -/
structure FwBank where
  valid : Bool
  fwMajor : Nat
  fwMinor : Nat
  capLevel : Nat
  format : Nat
  formatMin : Nat
  staged : Bytes
  openFrom : Option Nat
deriving DecidableEq, Repr

/-- An allowed source prefix (R603). -/
structure Prefix6 where
  bytes : Bytes
  length : Nat
deriving DecidableEq, Repr

/-- A datagram or message the module has sent: port, destination address and UDP port, bytes. -/
structure NetOut where
  port : Nat
  dest : Nat
  data : Bytes
deriving DecidableEq, Repr

/-- The management processors and their communication. -/
structure MgmtState where
  mpA : Processor
  mpB : Processor
  /-- Which processor holds the ownership switch: 0 MP-A, 1 MP-B (R560). -/
  owner : Option Nat
  /-- The processor last in control, whose present role the status commands report. -/
  lastOwner : Nat
  switchAuto : Bool
  failedOver : Bool
  coastSince : Option Nat
  lastCoastUs : Nat
  takeovers : Nat
  resumedOlder : Bool
  handoverFrame : Option Nat
  /-- The coast under way is a commanded hand-over (R575). -/
  handover : Bool
  coastRaised : Bool
  noneRaised : Bool
  image0 : ImageSlot
  image1 : ImageSlot
  /-- An image copy under way: slot, snapshot's journal mark and frame, start time. -/
  copying : Option (Nat × Nat × Nat × Nat)
  copyDue : Bool
  lastImageAt : Nat
  nextImageSeq : Nat
  journal : List JournalEntry
  jseq : Nat
  bank0 : FwBank
  bank1 : FwBank
  /-- Banks of the boot record (R581). -/
  bootA : Nat
  bootB : Nat
  slots : SMap MailSlot
  /-- Slots whose requests are ready, in order, with the pc in which each became so (R585). -/
  readyOrder : List (Nat × Nat)
  /-- Time of the last `MAILBOX_MSG_BAD` (R604). -/
  msgBadAt : Option Nat
  udpPort : Nat
  ptpEnabled : Bool
  prefixes : List Prefix6
  ethDiscarded : Nat
  linkA : Bool
  linkB : Bool
  /-- Address configuration of each port: link-local, and one autoconfigured address with its prefix (R589). -/
  addressA : Option Nat
  addressB : Option Nat
  /-- Datagrams sent, newest first. -/
  sent : List NetOut
  /-- The pairing of time of day (PTP ns) with RT (R591). -/
  ptp : Option (Nat × Nat)
  i3cAddress : Option Nat
  recovery : Bool
deriving DecidableEq, Repr

/-- A bank that holds nothing. -/
def FwBank.empty : FwBank :=
  { valid := false, fwMajor := 0, fwMinor := 0, capLevel := 0, format := 0, formatMin := 0, staged := [], openFrom := none }

/-- The bank of a module as delivered: firmware 3.4 at capability level 2 (R558, R580). The manual gives no contents at delivery and
no number of its state format: DESIGN CHOICE. -/
def FwBank.shipped : FwBank :=
  { valid := true, fwMajor := 3, fwMinor := 4, capLevel := 2, format := 1, formatMin := 1, staged := [], openFrom := none }

/-- The management domain before cold start: no processor runs, the stores are clear (R565), UDP port 52,032, PTP enabled, no
prefixes (R590, R591). -/
def MgmtState.reset : MgmtState :=
  { mpA := Processor.off, mpB := Processor.off, owner := none, lastOwner := 0, switchAuto := false, failedOver := false,
    coastSince := none, lastCoastUs := 0, takeovers := 0, resumedOlder := false, handoverFrame := none, handover := false,
    coastRaised := false, noneRaised := false, image0 := ImageSlot.empty, image1 := ImageSlot.empty, copying := none,
    copyDue := false, lastImageAt := 0, nextImageSeq := 1, journal := [], jseq := 0, bank0 := FwBank.shipped,
    bank1 := FwBank.shipped, bootA := 0, bootB := 0, slots := [], readyOrder := [], msgBadAt := none, udpPort := 52032,
    ptpEnabled := true, prefixes := [], ethDiscarded := 0, linkA := false, linkB := false, addressA := none,
    addressB := none, sent := [], ptp := none, i3cAddress := none, recovery := false }

end Sys2Proof.Machine
end

