-- ==== Sys2Proof/Machine/Parts/Module.lean ====
section
/-! DEFINITION. The state of bring-up, the module states and the connector pins (R605 to R652), the clocks (R653 to R671) and the
counters (R672 to R682). -/

namespace Sys2Proof.Machine

/-- Module states (R605), numbered as `MODULE_STATE` (R634). -/
inductive ModState where
  | starting
  | active
  | standby
  | parked
  | safe
  | recovery
deriving DecidableEq, Repr

/-- The token sequence of R610: nothing seen, the low seen, complete. -/
inductive TokenPhase where
  | waitLow
  | waitHigh
  | granted
deriving DecidableEq, Repr

/-- Bring-up and module state. -/
structure ModuleState where
  mode : ModState
  /-- `START_PHASE`: 0 BOOTED, 1 RAILS, 2 AWAIT_FLOW, 3 AWAIT_RESTORE, 4 DONE. -/
  phase : Nat
  prior : Option ModState
  since : Nat
  changes : Nat
  /-- A scheduled change: target state and frame (R633). -/
  scheduled : Option (ModState × Nat)
  coldCause : Nat
  /-- When the last cold start began. -/
  coldAt : Nat
  holdOff : Option Nat
  holdOffDone : Bool
  token : TokenPhase
  /-- When a low TRAY_START that stood at the last break of PRESENT_N, or at power-up, will have been sampled low for 1 ms (R610). -/
  tokenLow : Nat
  prechargeStarted : Bool
  prechargeWanted : Bool
  fatal : Bool
  /-- The always-on domain has power; the fuse check has passed (R546, R611). -/
  powered : Bool
  fuseOk : Bool
  /-- The cold start has ended before completion (R611). -/
  ended : Bool
  removed : Bool
  wakeSince : Option Nat
  /-- WAKE_N is to be asserted at VHUB power-good (R621). -/
  wakeDue : Bool
  /-- A commanded restart acts once its response has been given: the bank and the cause (R600, R631, R634). -/
  restartDue : Option (Nat × Nat)
  /-- The rails of the module stop for a change of state; the restore was accepted since the cold start (R616). -/
  restored : Bool
  railsDone : Bool
  processorsUp : Bool
deriving DecidableEq, Repr

/-- The module before its always-on domain has power (R607). -/
def ModuleState.reset : ModuleState :=
  { mode := .starting, phase := 0, prior := none, since := 0, changes := 0, scheduled := none, coldCause := 0, coldAt := 0,
    holdOff := none, holdOffDone := false, token := .waitLow, tokenLow := 0, prechargeStarted := false, prechargeWanted := false,
    fatal := false, powered := false, fuseOk := false, ended := false, removed := false, wakeSince := none, wakeDue := false,
    restartDue := none,
    restored := false, railsDone := false, processorsUp := false }

/-- The connector inputs as filtered, and the outputs driven (R641, R642, R645). -/
structure Pins where
  presentMated : Bool
  trayStart : Bool
  trayStartSince : Nat
  flowOk : Bool
  emergencyStopN : Bool
  slotId : Option Nat
  perstN : Bool
  wakeN : Bool
  clkreqN : Bool
deriving DecidableEq, Repr

/-- An absent module with undriven inputs: no token, no flow, stop (R641). -/
def Pins.reset : Pins :=
  { presentMated := false, trayStart := false, trayStartSince := 0, flowOk := false, emergencyStopN := false, slotId := none,
    perstN := false, wakeN := true, clkreqN := true }

/-- A stretch of a die's root over which one rule gives every cycle its length (R52, R477, R482): the root cycle that begins it, counted
from the kerf strobe, and the time of its first edge and the PLL period, in ticks of 1/110 of a cycle of the fixed 7.2 GHz root, of which
every root period of R656 is a whole number; the pacing count; whether every cycle lasts two periods (R482). -/
structure RootSeg where
  base : Nat
  edge : Nat
  period : Nat
  pace : Nat
  slow : Bool
deriving DecidableEq, Repr

/-- The clock unit of one compute die (R656 to R663): held states of PLL 0 and 1 while locked, which PLL runs, whether the standby
has been armed, whether the die is on the reserve clock. -/
structure DieClock where
  pll0 : Option Nat
  pll1 : Option Nat
  running : Nat
  standbyArmed : Bool
  reserve : Bool
  /-- Floor m_S of an emulated frame (R660). -/
  emulation : Nat
  /-- The die's root since the last kerf strobe, in order of time; empty while it has no clock (R658). -/
  root : List RootSeg
deriving DecidableEq, Repr

/-- A die after its start: PLL 0 at F5, PLL 1 the standby, not armed (R659, R663). -/
def DieClock.start : DieClock :=
  { pll0 := some 5, pll1 := none, running := 0, standbyArmed := false, reserve := false, emulation := 0, root := [] }

/-- One band of the oscillator's correction table (R664): offset in 0.001 ppm, update count. -/
structure OscBand where
  offset : Int
  updates : Nat
deriving DecidableEq, Repr

/-- The clocks. -/
structure ClockState where
  dies : List DieClock
  /-- The PWC PLL follows the distributed reference (R654). -/
  pwcOnReference : Bool
  osc : List OscBand
  oscBand : Nat
  /-- The oscillator's temperature as last read, in 0.1 degree (R664), and the correction the reference PLL runs on, in 0.001 ppm: 0 while
  it follows a frame reference (R665). -/
  oscTempDc : Int
  oscCorrection : Rat
  /-- Trims of the PWC's converters in units of 10 µV by converter and band, 8 converter + band (R667), and the PWC's die temperature as
  last read, in 0.1 degree. -/
  pwcTrims : SMap Int
  pwcTempDc : Int
  /-- The calibration sector fails its CRC (R667). -/
  calibrationInvalid : Bool
deriving DecidableEq, Repr

/-- The clocks at cold start (R654, R663, R664). -/
def ClockState.reset : ClockState :=
  { dies := List.replicate 4 DieClock.start, pwcOnReference := false,
    osc := List.replicate 16 { offset := 0, updates := 0 }, oscBand := 0, oscTempDc := 0, oscCorrection := 0,
    pwcTrims := [], pwcTempDc := 0, calibrationInvalid := false }

/-- States of a snapshot buffer (R680, R682). -/
inductive SnapState where
  | empty
  | armed
  | taken
  | missed
deriving DecidableEq, Repr

/-- A snapshot buffer: state, frame, RT, the counter words by index, and the owners at that kerf: for each counter index that
belongs to an instance of a partition, the partition plus one. -/
structure Snapshot where
  state : SnapState
  frame : Nat
  rt : Nat
  words : SMap Nat
  owners : SMap Nat
deriving DecidableEq, Repr

/-- A buffer that holds nothing. -/
def Snapshot.none : Snapshot := { state := .empty, frame := 0, rt := 0, words := [], owners := [] }

/-- The observation unit: authoritative values as 56-bit words (wraps over value), local increments not yet folded in, frame
bytes, buffers and grants (R672 to R681). -/
structure CounterState where
  values : SMap Nat
  local32 : SMap Nat
  snaps : List Snapshot
  grants : SMap Nat
deriving DecidableEq, Repr

/-- The observation unit at cold start (R674, R681). -/
def CounterState.reset : CounterState :=
  { values := [], local32 := [], snaps := List.replicate 4 Snapshot.none, grants := [] }

end Sys2Proof.Machine
end

