-- ==== Sys2Proof/Machine/Parts/Rails.lean ====
section
/-! DEFINITION. The state of the core regulators: rails 0 to 15 and the fixed-ratio stage, rail 16 (R441 to R472). Voltages are in
microvolts, currents in mA, powers in mW. -/

namespace Sys2Proof.Machine

/-- A compensator bank (R447): b0 to b3 and a1 to a3 as raw values, and the other coefficients. -/
structure Bank where
  coeff : List Int
  shareGain : Nat
  uLimit : Nat
  overshootMv : Nat
  undershootMv : Nat
deriving DecidableEq, Repr

/-- The state of a rail, as `RAIL_STATE` codes it (R470). -/
inductive RailMode where
  | off
  | starting
  | on
  | stoppedFault
  | latched
deriving DecidableEq, Repr

/-- Voltage, current and power together (R466). -/
structure Vip where
  uv : Nat
  ma : Nat
  mw : Nat
deriving DecidableEq, Repr

/-- Nothing measured. -/
def Vip.zero : Vip := { uv := 0, ma := 0, mw := 0 }

/-- A phase (R444, R445, R456): when its period began, in root cycles; the end of its pulse, in eighths of a root cycle since cold
start; the on-time given, in steps. -/
structure Phase where
  stopped : Bool
  began : Nat
  endsAt : Nat
  onSteps : Nat
  /-- The extra pulse of R456 has been given in this period. -/
  extraGiven : Bool
  /-- The period began while R455 held pulses off: no pulse in it. -/
  skipped : Bool
  /-- Consecutive periods in which the pulse ended at the phase limit, and in which the current stood off the mean (R461). -/
  limited : Nat
  uneven : Nat
deriving DecidableEq, Repr

/-- A phase at rest. -/
def Phase.idle : Phase := { stopped := false, began := 0, endsAt := 0, onSteps := 0, extraGiven := false, skipped := false, limited := 0,
                             uneven := 0 }

/-- A rail. -/
structure Rail where
  mode : RailMode
  /-- Setpoint, and the reference that moves toward it (R451); it rises by this much per sample while the rail starts (R458). -/
  setpoint : Int
  vref : Rat
  startSlope : Rat
  vsense : Int
  /-- When the rail started, from which its phases' periods count (R444). -/
  startedAt : Nat
  /-- Power-good, and since when the samples have stood within 3 % of the setpoint (R458). -/
  good : Bool
  goodSince : Option Nat
  /-- Since when the voltage has stood within 10 mV of the setpoint with the reference there (R453). -/
  steadySince : Option Nat
  /-- The active user bank, none for FACTORY (R447, R448); the staging bank and the frame of its change. -/
  active : Option Bank
  staging : Option Bank
  /-- A change of bank or to FACTORY waiting: frame, and whether it is to FACTORY. -/
  change : Option (Nat × Bool)
  /-- e[n-1] to e[n-3] and u[n-1] to u[n-3] (R446); u[n] is the head. -/
  pastE : List Int
  pastU : List Int
  phases : List Phase
  /-- R455 holds pulses off. -/
  truncating : Bool
  truncatedInBlock : Bool
  undershotInBlock : Bool
  lastTruncated : Bool
  lastUndershot : Bool
  truncateCount : Nat
  /-- Stages that assert VR_ALERT_N (R465), by phase. -/
  hotStages : List Nat
  /-- The low-side switches are latched on (R463). -/
  lowLatched : Bool
  /-- Ripple is watched until this time after a change of bank; consecutive bad blocks (R449). -/
  watchUntil : Nat
  badBlocks : Nat
  /-- Trims for F0 to F5 in mV (R454), and the trims waiting for a frame. -/
  trim : List Int
  trimPending : Option (Nat × List Int)
  stageTempDc : Int
  block : Vip
  /-- The last 20 blocks and the last 1,000 one-millisecond means, newest first (R466). -/
  blocks : List Vip
  mean1ms : Vip
  means : List Vip
  mean1s : Vip
  peakVMin : Nat
  peakIMax : Nat
  peakPMax : Nat
  peakResetAt : Nat
  peakResetDue : Bool
  peakAny : Bool
deriving DecidableEq, Repr

/-- A rail that is off, on FACTORY, with no trim (R448, R454). -/
def Rail.reset : Rail :=
  { mode := .off, setpoint := 0, vref := 0, startSlope := 0, vsense := 0, startedAt := 0, good := false, goodSince := none, steadySince := none, active := none, staging := none,
    change := none, pastE := [0, 0, 0], pastU := [0, 0, 0], phases := [], truncating := false, truncatedInBlock := false,
    undershotInBlock := false, lastTruncated := false, lastUndershot := false, truncateCount := 0, hotStages := [],
    lowLatched := false, watchUntil := 0, badBlocks := 0, trim := [0, 0, 0, 0, 0, 0], trimPending := none, stageTempDc := 0,
    block := Vip.zero, blocks := [], mean1ms := Vip.zero, means := [], mean1s := Vip.zero, peakVMin := 0, peakIMax := 0,
    peakPMax := 0, peakResetAt := 0, peakResetDue := false, peakAny := false }

/-- The regulators. -/
structure RailState where
  rails : SMap Rail
  /-- Output of the fixed-ratio stage in microvolts (R442), as T_ff takes it. -/
  frOutput : Nat
  /-- A staged start under way: its start time and the number of its next event (R458); rails it has started. -/
  startAt : Option Nat
  startStep : Nat
  startedRails : List Nat
  /-- A stop under way: the number of its next step, its last step, and the rails it stops (R460). -/
  stopNext : Option Nat
  stopLast : Nat
  stopOnly : List Nat
  stopAt : Nat
  /-- The rail whose power-good the staged start lacked (R459), while the rails it started stop. -/
  startFailed : Bool
deriving DecidableEq, Repr

/-- Every rail off (R443, cold start). -/
def RailState.reset : RailState :=
  { rails := [], frOutput := 0, startAt := none, startStep := 0, startedRails := [], stopNext := none, stopLast := 0,
    stopOnly := [], stopAt := 0, startFailed := false }

end Sys2Proof.Machine
end

