-- ==== Sys2Proof/Machine/State.lean ====
section
/-! DEFINITION. The state of the module, its faults and refusals, and the state a cold start begins from. Each subsystem's state
stands in a file of its own under Sys2Proof/Machine/Parts. -/

namespace Sys2Proof.Machine

/-- Steps that the manual gives no continuation: none. Every command of the table has an effect, so no step of this model faults. -/
inductive Fault where
deriving DecidableEq, Repr

/-- Commands the model does not carry out. -/
inductive Refusal where
  /-- The command has no meaning yet: raised by arms of `exec` alone, of which none is left that does. Safe: the model stops. -/
  | notModelled (mnemonic : String)
deriving DecidableEq, Repr

/-- The module. -/
structure State where
  /-- Time since always-on power, in cycles of the fixed 7.2 GHz root (R5): 72 to an RT period, 30 to a pc. -/
  now : Nat
  frame : FrameState
  jigs : JigState
  arrays : ArrayState
  lanes : LaneState
  mem : MemState
  qf : QueueState
  fabric : FabricState
  host : HostState
  shim : ShimState
  cells : CellState
  rails : RailState
  gov : GovState
  fc : FaultState
  mp : MgmtState
  mod : ModuleState
  pins : Pins
  clocks : ClockState
  ob : CounterState
  /-- The model's own: how many free values have been drawn (DESIGN CHOICE, log entry 3). -/
  free : Nat
  /-- Commands that wait, first in, first out. -/
  pending : List Instr
deriving DecidableEq, Repr

/-- The module as a cold start finds it, before its always-on domain has power (R607, R611). -/
def State.reset : State :=
  { now := 0, frame := FrameState.reset, jigs := JigState.reset, arrays := ArrayState.reset, lanes := LaneState.reset,
    mem := MemState.reset, qf := QueueState.reset, fabric := FabricState.reset, host := HostState.reset,
    shim := ShimState.reset, cells := CellState.reset, rails := RailState.reset, gov := GovState.reset,
    fc := FaultState.reset, mp := MgmtState.reset, mod := ModuleState.reset, pins := Pins.reset,
    clocks := ClockState.reset, ob := CounterState.reset, free := 0, pending := [] }

/-- What a command answers. -/
abbrev Outcome := Host.Outcome State Fault Refusal

end Sys2Proof.Machine
end

