-- ==== Sys2Proof/Machine/Ops.lean ====
section
/-! DEFINITION. The named operations over the module's shared state: time, raising a fault, counters, ownership, memory with poison,
queues. -/

namespace Sys2Proof.Machine

/-! ### Time (R5, R35) -/

/-- Root cycles of the fixed 7.2 GHz root in a microsecond, a millisecond, an RT period, a pc. -/
def rcUs : Nat := 7200
def rcMs : Nat := 7200000
def rcSec : Nat := 7200000000
def rcRt : Nat := 72
def rcPc : Nat := 30

/-- A moment in ns as root cycles, rounded down. -/
def rcOfNs (ns : Nat) : Nat := ns * 36 / 5
/-- Root cycles in ns, rounded down. -/
def nsOfRc (rc : Nat) : Nat := rc * 5 / 36

/-- The state at time `t`: time never runs back. -/
def State.upTo (s : State) (t : Nat) : State := { s with now := max s.now t }

/-- An event of step `k` of R683 at time `t`: where one of a later step has been handled on the same edge, this one falls on the next. -/
def State.onEdge (s : State) (t k : Nat) : State :=
  let s1 := s.upTo t
  let pc := s1.now / rcPc
  if s1.fc.edge.1 = pc ∧ k < s1.fc.edge.2 then { s1 with now := rcPc * (pc + 1), fc := { s1.fc with edge := (pc + 1, k) } }
  else { s1 with fc := { s1.fc with edge := (pc, k) } }

/-- RT at time `t` (R35). -/
def FrameState.rtAtTime (f : FrameState) (t : Nat) : Nat := f.rtBase + (t - f.rtAt) / rcRt
/-- RT now. -/
def State.rt (s : State) : Nat := s.frame.rtAtTime s.now
/-- The time of RT edge `rt`. -/
def FrameState.timeOfRt (f : FrameState) (rt : Nat) : Nat := f.rtAt + (rt - f.rtBase) * rcRt

/-- The first RT edge at or after time `t`, in the RT that stands (R36, R40): the first of that RT where `t` lies before it. -/
def FrameState.edgeAt (f : FrameState) (t : Nat) : Nat := f.rtBase + (t - f.rtAt + rcRt - 1) / rcRt
/-- Now is an RT edge. -/
def State.onRtEdge (s : State) : Bool := (s.now - s.frame.rtAt) % rcRt == 0
/-- Now is an RT edge that is a multiple of `n`. -/
def State.onRtMultiple (s : State) (n : Nat) : Bool := s.onRtEdge && s.frame.rtAtTime s.now % n == 0

/-! ### Faults (R524, R527) -/

/-- Raise a fault: its message goes to the fault collector, which takes it up at `FAULT_ARRIVAL`. -/
def State.raiseMsg (s : State) (src : Source) (m : FaultMsg) : State :=
  { s with fc := { s.fc with raised := s.fc.raised ++ [{ src := src, msg := m, raisedAt := s.now }] } }

/-- Raise a fault of module scope. -/
def State.raise (s : State) (src : Source) (code unit detail : Nat) : State :=
  s.raiseMsg src { code := code, unit := unit, scope := 0xFF, detail := detail, cond := false }

/-- Raise a fault of module scope whose cause is a lasting condition. -/
def State.raiseCond (s : State) (src : Source) (code unit detail : Nat) : State :=
  s.raiseMsg src { code := code, unit := unit, scope := 0xFF, detail := detail, cond := true }

/-- Raise a fault of partition scope (R530); a unit without an owner has module scope. -/
def State.raiseFor (s : State) (src : Source) (code unit : Nat) (p : Option Nat) : State :=
  s.raiseMsg src { code := code, unit := unit, scope := p.getD 0xFF, detail := 0, cond := false }

/-- Raise a HOST fault of the VF of partition `p`: its instance is the function's number (R530, R536). -/
def State.raiseVf (s : State) (code p : Nat) : State :=
  s.raiseMsg .hd { code := code, unit := p + 1, scope := p, detail := 0, cond := false }

/-- The fault line of compute die `n`. -/
def Source.ofDie (n : Nat) : Source :=
  match n with
  | 0 => .cd 0 | 1 => .cd 1 | 2 => .cd 2 | 3 => .cd 3 | _ => .hd

/-- No instance (R535). -/
def noUnit : Nat := 0xFFFF

/-! ### Counters (R672, R673) -/

/-- Count `n` at index `i`: the section's local increment, 32 bits. -/
def State.bump (s : State) (i n : Nat) : State :=
  { s with ob := { s.ob with local32 := SMap.modify s.ob.local32 i 0 (fun v => (v + n) % 2 ^ 32) } }

/-- Put a LEVEL or FRAME counter to the value `v` (R672), 48 bits two's complement. -/
def State.level (s : State) (i : Nat) (v : Int) : State :=
  { s with ob := { s.ob with values := SMap.set s.ob.values i (v % 2 ^ 48).toNat 0,
                             local32 := SMap.set s.ob.local32 i 0 0 } }

/-- The value of a counter now: folded value plus local increment, modulo 2^56 with its wraps (R677, R678). -/
def State.counter (s : State) (i : Nat) : Nat := (SMap.get s.ob.values i 0 + SMap.get s.ob.local32 i 0) % 2 ^ 56

/-- Hold the highest of the counter's value and `v`. -/
def State.peak (s : State) (i : Nat) (v : Nat) : State := if s.counter i < v then s.level i v else s

/-- Hold the lowest of the counter's value and `v`; a counter at 0 holds nothing yet (DESIGN CHOICE). -/
def State.trough (s : State) (i : Nat) (v : Nat) : State :=
  if s.counter i = 0 ∨ v < s.counter i then s.level i v else s

/-- Count whole units of a quantity that grows from `a` to `b`. -/
def State.bumpWhole (s : State) (i : Nat) (a b : Rat) : State := s.bump i (b.floor - a.floor).toNat

/-! ### The PWC's converters and the local oscillator (R664 to R667) -/

/-- Converters of the PWC by number: rail sense 0 to 15, telemetry voltage 16 + r and current 33 + r of rail r, bus voltage, stack
current. -/
def cvTelemetryV (r : Nat) : Nat := 16 + r
def cvTelemetryI (r : Nat) : Nat := 33 + r
def cvBus : Nat := 50
def cvStack : Nat := 51

/-- The trim of converter `k` at the PWC's temperature: eight bands, the first below 10 degrees, taken around 5 degrees, the last from 70
degrees on, around 75 (DEDUCED); zero while the calibration sector is invalid. -/
def State.pwcTrim (s : State) (k : Nat) : Rat :=
  if s.clocks.calibrationInvalid then 0
  else bandValue (fun i => ((SMap.get s.clocks.pwcTrims (8 * k + i) 0 : Int) : Rat)) 8 (s.clocks.pwcTempDc - 50)

/-- A reading of converter `k`, corrected (R667): a zero trim leaves it as it is. -/
def State.pwcReading (s : State) (k : Nat) (x : Int) : Int := if s.pwcTrim k = 0 then x else Config.trimmed k (s.pwcTrim k) x

/-- The band of an oscillator temperature in 0.1 degree (R664), and a band's centre. -/
def oscBandOf (t : Int) : Nat := min 15 ((t - 100).toNat / 50)
def oscCentre (b : Nat) : Int := 125 + 50 * (b : Int)

/-- An entry of the correction table is valid from its eighth update (R665). -/
def OscBand.valid (b : OscBand) : Bool := decide (8 ≤ b.updates)

/-- The entry of a band. -/
def ClockState.oscEntry (c : ClockState) (b : Nat) : OscBand := c.osc.getD b { offset := 0, updates := 0 }

/-- The valid band nearest to a temperature, within 10 K of its centre, the lower of two equally near (DEDUCED). -/
def ClockState.nearestBand (c : ClockState) (t : Int) : Option Nat :=
  ((List.range 16).filter (fun b => (c.oscEntry b).valid && decide ((t - oscCentre b).natAbs ≤ 100))).foldl (fun best b =>
    match best with
    | some a => if (t - oscCentre b).natAbs < (t - oscCentre a).natAbs then some b else best
    | none => some b) none

/-- The correction of the oscillator at a temperature in 0.1 degree (R665), in 0.001 ppm. -/
def ClockState.correction (c : ClockState) (t : Int) : Rat :=
  let b := oscBandOf t
  let e := c.oscEntry b
  if e.valid then
    let low := decide (t < oscCentre b)
    let n := c.oscEntry (if low then b - 1 else b + 1)
    if n.valid && !(low && b == 0) then
      (e.offset : Rat) + ((n.offset : Rat) - (e.offset : Rat)) * ((t - oscCentre b).natAbs : Rat) / 50
    else (e.offset : Rat)
  else (c.nearestBand t).elim 0 (fun k => ((c.oscEntry k).offset : Rat))

/-- The reference PLL runs on the corrected oscillator from now on, in holdover and before lock (R665). -/
def State.runOnOscillator (s : State) : State :=
  { s with clocks := { s.clocks with oscCorrection := s.clocks.correction s.clocks.oscTempDc } }

/-- The reference PLL follows a frame reference. -/
def State.runOnReference (s : State) : State := { s with clocks := { s.clocks with oscCorrection := 0 } }

/-! ### Functions of the host interface (R353) -/

/-- The VF of partition `p`. -/
def State.vf (s : State) (p : Nat) : Vf := SMap.get s.host.vfs p Vf.reset
def State.setVf (s : State) (p : Nat) (v : Vf) : State :=
  { s with host := { s.host with vfs := SMap.set s.host.vfs p v Vf.reset } }

/-- MSI-X of function `f`. -/
def State.msixOf (s : State) (f : Nat) : MsixFn := SMap.get s.host.msixFns f MsixFn.reset
def State.setMsixOf (s : State) (f : Nat) (m : MsixFn) : State :=
  { s with host := { s.host with msixFns := SMap.set s.host.msixFns f m MsixFn.reset } }

/-- Bus Master Enable of function `f`. -/
def State.busMasterOf (s : State) (f : Nat) : Bool := if f = 0 then s.host.pfBusMaster else (s.vf (f - 1)).busMaster

/-- The message of a vector leaves function `f`, counted (R675). -/
def State.emitMsix (s : State) (f vector : Nat) : State :=
  let e := SMap.get (s.msixOf f).table vector MsixEntry.reset
  let x : MsixMessage := { function := f, vector := vector, address := e.address, data := e.data }
  (({ s with host := { s.host with msix := x :: s.host.msix } } : State).bump (0x986 + 8 * f) 1).bump (0x981 + 8 * f) 1

/-- Function `f` may send the message of a vector now: MSI-X enabled, neither mask set, Bus Master Enable set (PRESUMED: PCIe's rules, to
which R353 refers). -/
def State.msixOpen (s : State) (f vector : Nat) : Bool :=
  let m := s.msixOf f
  m.enabled && !m.masked && !(SMap.get m.table vector MsixEntry.reset).masked && s.busMasterOf f

/-- Function `f` (0 the PF, p + 1 the VF of partition `p`) sends a message of a vector, or holds it pending where it is masked (R353). -/
def State.sendMsix (s : State) (f vector : Nat) : State :=
  if s.msixOpen f vector then s.emitMsix f vector
  else if (s.msixOf f).enabled then s.setMsixOf f { s.msixOf f with waiting := (s.msixOf f).waiting ||| 2 ^ vector }
  else s

/-- Messages that waited are sent once they may be, in vector order (R353). -/
def State.settleMsix (s : State) (f : Nat) : State :=
  (List.range 7).foldl (fun s v =>
    if bitAt (s.msixOf f).waiting v && s.msixOpen f v then
      (s.setMsixOf f { s.msixOf f with waiting := (s.msixOf f).waiting &&& (127 - 2 ^ v) }).emitMsix f v
    else s) s

/-- A cause of the PF: its bit is set, and its message sent if the bit becomes set while it is enabled (R353). -/
def State.pfEvent (s : State) (bit : Nat) : State :=
  let old := bitAt s.host.pfIntStatus bit
  let s1 : State := { s with host := { s.host with pfIntStatus := s.host.pfIntStatus ||| 2 ^ bit } }
  if !old && bitAt s.host.pfIntEnable bit then s1.sendMsix 0 bit else s1

/-- A cause of the VF of partition `p` (R353). -/
def State.vfEvent (s : State) (p bit : Nat) : State :=
  let v := s.vf p
  let s1 := s.setVf p { v with intStatus := v.intStatus ||| 2 ^ bit }
  if !bitAt v.intStatus bit && bitAt v.intEnable bit then s1.sendMsix (p + 1) bit else s1

/-! ### Ownership (R229, R335) -/

/-- The record in force of partition `p`. -/
def State.record (s : State) (p : Nat) : Bytes := SMap.get s.host.active p []

/-- The partition whose mask field at `off` has bit `k`: at most one, since enables are checked (R336). -/
def State.ownerBit (s : State) (off k : Nat) : Option Nat :=
  s.host.enabled.find? (fun p => bitAt (rd (s.record p) off 32) k)

def State.ownerOfArray (s : State) (k : Nat) : Option Nat :=
  s.host.enabled.find? (fun p => bitAt (rd (s.record p) 0 2) k)
def State.ownerOfMover (s : State) (k : Nat) : Option Nat :=
  s.host.enabled.find? (fun p => bitAt (rd (s.record p) 8 16) k)
def State.ownerOfCluster (s : State) (k : Nat) : Option Nat := s.ownerBit 32 k
def State.ownerOfEndpoint (s : State) (k : Nat) : Option Nat := s.ownerBit 64 k

/-- The memories (R228). -/
inductive Region where
  | bench (die : Nat)
  | tier1 (stack : Nat)
  | tier2
  | tier3
  | reserved
deriving DecidableEq, Repr

/-- The region of a module address and the offset in it (R228). -/
def regionOf (a : Nat) : Region × Nat :=
  if a < 0x40000000 then
    if a % 0x10000000 < 0xC000000 then (.bench (a / 0x10000000), a % 0x10000000) else (.reserved, 0)
  else if a < 0x10000000000 then (.reserved, 0)
  else if a < 0x20000000000 then
    let o := a - 0x10000000000
    if o % 0x1000000000 < 0xC00000000 then (.tier1 (o / 0x1000000000), o % 0x1000000000) else (.reserved, 0)
  else if a < 0x38000000000 then (.tier2, a - 0x20000000000)
  else if a < 0x40000000000 then (.reserved, 0)
  else if a < 0x60000000000 then (.tier3, a - 0x40000000000)
  else (.reserved, 0)

/-- First granule and count of partition `p` in a region (R335), and the granule's size (R229). -/
def State.granules (s : State) (p : Nat) (r : Region) : Nat × Nat × Nat :=
  let b := s.record p
  match r with
  | .bench n => (rd b (96 + 2 * n) 1, rd b (97 + 2 * n) 1, 0x100000)
  | .tier1 k => (rd b (144 + 2 * k) 1, rd b (145 + 2 * k) 1, 0x10000000)
  | .tier2 => (rd b 240 2, rd b 242 2, 0x40000000)
  | .tier3 => (rd b 244 2, rd b 246 2, 0x40000000)
  | .reserved => (0, 0, 1)

/-- Whether partition `p` owns every byte from `a` to `a + n - 1` (R230). -/
def State.owns (s : State) (p a n : Nat) : Bool :=
  let r := regionOf a
  let g := s.granules p r.1
  s.host.enabled.contains p && (r.1 != .reserved) &&
    decide (g.1 * g.2.2 ≤ r.2) && decide (r.2 + n ≤ (g.1 + g.2.1) * g.2.2)

/-- Start of the bench of die `n`; bytes of a bench (R228). -/
def benchBase (n : Nat) : Nat := n * 0x10000000
def benchSize : Nat := 201326592

/-! ### Memory contents, loss and poison (R231, R249, R250) -/

/-- The poison unit at an address: its base and size (R249). -/
def poisonUnit (a : Nat) : Nat × Nat :=
  match (regionOf a).1 with
  | .bench _ => (a - a % 4, 4)
  | .tier1 _ => (a - a % 64, 64)
  | .tier2 => (a - a % 64, 64)
  | .tier3 => (a - a % 4096, 4096)
  | .reserved => (a, 1)

/-- The loss that made the byte at `a` undefined, if any. -/
def MemState.lostAt (m : MemState) (a : Nat) : Option Nat :=
  (m.lost.find? (fun r => decide (r.lo ≤ a) && decide (a < r.hi))).map (·.epoch)

/-- The byte at `a` as stored: a byte never written since its contents were lost is a free value (R231). -/
def MemState.byteAt (m : MemState) (a : Nat) : Byte :=
  match m.lostAt a with
  | some e => Config.freeByte e a
  | none => SMap.get m.cells a 0

/-- The loss that makes a poison unit undefined, if any byte of it is. -/
def MemState.unitLost (m : MemState) (base size : Nat) : Option Nat :=
  (m.lost.find? (fun r => decide (r.lo < base + size) && decide (base < r.hi))).map (·.epoch)

/-- Whether a unit reads as poison: marked, or undefined contents that the memory finds uncorrectable (R231). -/
def MemState.unitPoisoned (m : MemState) (base size : Nat) : Bool :=
  SMap.get m.poison base false || SMap.get m.latent base false || (match m.unitLost base size with | some e => Config.freePoison e base | none => false)

/-- The byte at `a` as a read returns it: none when its unit is poisoned. -/
def MemState.readByte (m : MemState) (a : Nat) : Option Byte :=
  let u := poisonUnit a
  if m.unitPoisoned u.1 u.2 then none else some (m.byteAt a)

/-- Bytes `a` to `a + n - 1` as a read returns them. -/
def MemState.readData (m : MemState) (a n : Nat) : Data := (List.range n).map (fun i => m.readByte (a + i))

/-- The ranges of a list of lost ranges without `[lo, hi)`. -/
def cutRanges : List LostRange → Nat → Nat → List LostRange
  | [], _, _ => []
  | r :: rs, lo, hi =>
    let left := if r.lo < min r.hi lo then [{ r with hi := min r.hi lo }] else []
    let right := if max r.lo hi < r.hi then [{ r with lo := max r.lo hi }] else []
    left ++ right ++ cutRanges rs lo hi

/-- A range inserted in order of address. -/
def insertRange : List LostRange → LostRange → List LostRange
  | [], x => [x]
  | r :: rs, x => if x.lo ≤ r.lo then x :: r :: rs else r :: insertRange rs x

/-- Store one byte. -/
def MemState.writeByte (m : MemState) (a : Nat) (b : Byte) : MemState :=
  { m with cells := SMap.set m.cells a b 0, lost := cutRanges m.lost a (a + 1) }

/-- Store bytes from `a` on; a poisoned byte leaves what is stored. -/
def MemState.writeBytes (m : MemState) (a : Nat) : Data → MemState
  | [] => m
  | some b :: r => (m.writeByte a b).writeBytes (a + 1) r
  | none :: r => m.writeBytes (a + 1) r

/-- Bases of the poison units that `n` bytes from `a` touch, each once, at most `n` of them. -/
def touchedUnits : Nat → Nat → Nat → List (Nat × Nat)
  | 0, _, _ => []
  | fuel + 1, a, stop =>
    if a < stop then
      let u := poisonUnit a
      u :: touchedUnits fuel (u.1 + u.2) stop
    else []

/-- Mark or clear the poison of one unit that a write of `d` at `a` touches (R250 items 2 and 3): a write of part of a unit in error leaves
it so, found or not. -/
def MemState.settleUnit (m : MemState) (a : Nat) (d : Data) (u : Nat × Nat) : MemState :=
  let part := (d.drop (u.1 - a)).take (u.1 + u.2 - max a u.1)
  if part.any (·.isNone) then { m with poison := SMap.set m.poison u.1 true false }
  else if a ≤ u.1 ∧ u.1 + u.2 ≤ a + d.length then
    { m with poison := SMap.set m.poison u.1 false false, latent := SMap.set m.latent u.1 false false }
  else if m.unitPoisoned u.1 u.2 ∧ !SMap.get m.poison u.1 false then { m with latent := SMap.set m.latent u.1 true false }
  else m

/-- Write data, poison included, at `a`. -/
def MemState.store (m : MemState) (a : Nat) (d : Data) : MemState :=
  ((touchedUnits d.length a (a + d.length)).foldl (fun m u => m.settleUnit a d u) m).writeBytes a d

/-- Bytes as data without poison. -/
def goodData (b : Bytes) : Data := b.map some

/-- The contents of `[lo, hi)` become undefined (R58, R152, R231). -/
def MemState.lose (m : MemState) (lo hi : Nat) : MemState :=
  { m with losses := m.losses + 1, cells := SMap.drop m.cells (fun k => decide (lo ≤ k) && decide (k < hi)),
           poison := SMap.drop m.poison (fun k => decide (lo ≤ k) && decide (k < hi)),
           latent := SMap.drop m.latent (fun k => decide (lo ≤ k) && decide (k < hi)),
           lost := insertRange (cutRanges m.lost lo hi) { lo := lo, hi := hi, epoch := m.losses + 1 } }

/-- The module's own zero form: the sparse memory lists addresses strictly rising and no zero byte. -/
def Memory.wf (m : MemState) : Bool := SMap.wf m.cells (0 : Byte)

/-- Detection fault of a memory (R255) and the number that names the unit (R536). -/
def detectionFault (a : Nat) : Nat × Nat × Source :=
  match (regionOf a).1 with
  | .bench n => (FC.benchUncorrected, 0x100 + n, Source.ofDie n)
  | .tier1 k => (FC.t1Uncorrected, k, Source.ofDie (k / 4))
  | .tier2 => (FC.t2Uncorrected, noUnit, .hd)
  | .tier3 => (FC.t3Uncorrected, noUnit, .hd)
  | .reserved => (FC.t2Uncorrected, noUnit, .hd)

/-- Poison the unit at `base` and raise its detection fault, once, when the error is first found (R250). -/
def State.findPoison (s : State) (base : Nat) : State :=
  if SMap.get s.mem.poison base false then s
  else
    let f := detectionFault base
    ({ s with mem := { s.mem with poison := SMap.set s.mem.poison base true false,
                                  latent := SMap.set s.mem.latent base false false } } : State).raise f.2.2 f.1 f.2.1 0

/-- Set bits of a partition's memory status byte (R251). -/
def State.memStatus (s : State) (p : Option Nat) (bits : Nat) : State :=
  match p with
  | none => s
  | some p => { s with mem := { s.mem with status := SMap.modify s.mem.status p 0 (· ||| bits) } }

def memPoisonRead : Nat := 1
def memT3Miss : Nat := 2
def memT3Refused : Nat := 4
def memCorrected : Nat := 8

/-- Corrected-error fault of a memory, the number that keeps it to one per frame (R252), and the counters of corrected and
uncorrected errors (R675): Tier 3 counts no corrected ones. -/
def correctedFault (a : Nat) : Nat × Nat × Nat × Nat :=
  match (regionOf a).1 with
  | .bench n => (FC.benchCorrected, n, 0x6C0 + 4 * n, 0x6C1 + 4 * n)
  | .tier1 k => (FC.t1Corrected, 4 + k, 0x6D0 + 4 * k, 0x6D1 + 4 * k)
  | .tier2 => (FC.t2Corrected, 20, 0x710, 0x711)
  | _ => (FC.t3Uncorrected, 21, 0, 0x71C)

/-- Errors that an access for partition `p` finds in stored data (R250, R252): a corrected one sets `MEM_CORRECTED` and raises the
memory's fault once per frame; one that cannot be corrected poisons its unit. -/
def State.memErrors (s : State) (p : Option Nat) : List (Nat × Bool) → State
  | [] => s
  | (a, fixed) :: r =>
    let f := correctedFault a
    let d := detectionFault a
    if fixed then
      let s0 := s.memStatus p memCorrected
      let s1 := if (regionOf a).1 = .tier3 then s0 else s0.bump f.2.2.1 1
      let s2 := if s1.mem.correctedRaised.contains f.2.1 ∨ (regionOf a).1 = .tier3 then s1
        else ({ s1 with mem := { s1.mem with correctedRaised := f.2.1 :: s1.mem.correctedRaised } } : State).raise d.2.2 f.1 d.2.1 0
      s2.memErrors p r
    else ((s.findPoison (poisonUnit a).1).bump f.2.2.2 1).memErrors p r

/-- Read `n` bytes at `a` for partition `p`: poison found is marked and raised, and sets `MEM_POISON_READ` (R250). -/
def State.readMem (s : State) (p : Option Nat) (a n : Nat) : Data × State :=
  let bad := (touchedUnits n a (a + n)).filter (fun u => s.mem.unitPoisoned u.1 u.2)
  let d := s.mem.readData a n
  let s1 := bad.foldl (fun s u => s.findPoison u.1) s
  let s2 := match (regionOf a).1 with
    | .bench k => s1.bump (0x6C2 + 4 * k) bad.length
    | _ => s1
  (d, if bad.isEmpty then s2 else s2.memStatus p memPoisonRead)

/-- Write data at `a`. -/
def State.writeMem (s : State) (a : Nat) (d : Data) : State := { s with mem := s.mem.store a d }

/-- OR flags into a byte of bench memory at a module address (R156, R234). -/
def State.orByte (s : State) (a flags : Nat) : State :=
  s.writeMem a [some (BitVec.ofNat 8 ((s.mem.byteAt a).toNat ||| flags))]

/-- OR flags into the frame flag byte of a partition (R156). -/
def State.orFrameFlags (s : State) (p : Option Nat) (flags : Nat) : State :=
  match p with
  | some p => { s with arrays := { s.arrays with frameFlags := SMap.modify s.arrays.frameFlags p 0 (· ||| flags) } }
  | none => s

/-- The number little-endian data spell, none if any byte is poisoned. -/
def dataNat (d : Data) : Option Nat := (d.mapM id).map leNat

/-! ### Queues (R256 to R264) -/

def State.queue (s : State) (q : Nat) : Queue := SMap.get s.qf.queues q Queue.none
def State.setQueue (s : State) (q : Nat) (v : Queue) : State :=
  { s with qf := { s.qf with queues := SMap.set s.qf.queues q v Queue.none } }

/-- A send finds a credit; a receive finds an entry (R260, R287). -/
def Queue.canSend (q : Queue) : Bool := q.declared && !q.failed && decide (0 < q.credits)
def Queue.canReceive (q : Queue) : Bool := q.declared && !q.failed && !q.visible.isEmpty

/-- Send: one credit taken, the entry in transit (R260 items 1 and 2). -/
def Queue.send (q : Queue) (e : QEntry) : Queue := { q with credits := q.credits - 1, transit := q.transit ++ [e] }
/-- Receive: the oldest visible entry taken, its credit on the way back (R260 items 3 and 4). -/
def Queue.receive (q : Queue) : Queue := { q with visible := q.visible.tail, creditsTransit := q.creditsTransit + 1 }

/-- The queue emptied, its producer's credits restored to `DEPTH` (R260, R263). -/
def Queue.flushed (q : Queue) : Queue :=
  { q with visible := [], transit := [], credits := q.depth, creditsTransit := 0 }

/-- The section a unit reference lies on: die 0 to 3, or 4 for HD (R85, R256). -/
def sectionOfUnit (u : Nat) : Nat :=
  match u / 4096 with
  | 0 => u % 4096 / 4
  | 1 => u % 4096 / 64
  | 2 => u % 4096 / 32
  | _ => 4

/-- Counter of a store's sends: local, remote, endpoint (R675, `QF_SENT_*`), at the store of die `d`. -/
def sendCounter (q : Queue) : Nat :=
  let a := sectionOfUnit q.producer
  let b := sectionOfUnit q.consumer
  if b < 4 then 0x6A0 + 8 * b + (if a = b then 0 else if a < 4 then 1 else 2) else 0x6A0 + 8 * min a 3 + 2

/-- Entries held in the store of section `b`: 0 to 3 the compute dies, 4 the hub. -/
def State.storeCount (s : State) (b : Nat) : Nat :=
  s.qf.queues.foldl (fun n kv =>
    if sectionOfUnit kv.2.consumer = b then n + kv.2.visible.length + kv.2.transit.length else n) 0

/-- Send an entry on queue `k`. -/
def State.sendQueue (s : State) (k : Nat) (e : QEntry) : State :=
  let q := s.queue k
  let s1 := (s.setQueue k (q.send e)).bump (sendCounter q) 1
  let b := sectionOfUnit q.consumer
  if b < 4 then s1.peak (0x6A7 + 8 * b) (s1.storeCount b) else s1

/-- Take an entry from queue `k`. -/
def State.takeQueue (s : State) (k : Nat) : State :=
  let q := s.queue k
  let b := sectionOfUnit q.consumer
  let s := s.setQueue k q.receive
  if b < 4 then s.bump (0x6A0 + 8 * b + 3) 1 else s

/-- A signal entry. -/
def signalEntry : QEntry := { data := none }

/-! ### Jigs and job frames (R110, R143) -/

def State.partJig (s : State) (p : Nat) : Option PartJig := SMap.get s.jigs.parts p none
def State.setPartJig (s : State) (p : Nat) (j : Option PartJig) : State :=
  { s with jigs := { s.jigs with parts := SMap.set s.jigs.parts p j none } }

/-- Partition `p` runs a job in the frame. -/
def State.jobRuns (s : State) (p : Nat) : Bool :=
  match s.partJig p with
  | some j => decide (j.phase = .running)
  | none => false

/-- The job frame of a partition's running jig (R143). -/
def State.jobFrame (s : State) (p : Nat) : Nat :=
  match s.partJig p with
  | some j => (s.frame.number + 2 ^ 48 - j.startFrame.getD 0 % 2 ^ 48) % 2 ^ 48
  | none => 0

/-- The frame class a partition runs in the frame (R91), if it runs one. -/
def State.classOf (s : State) (p : Nat) : Option Nat :=
  match s.partJig p with
  | some j => match j.work with
    | .run c => some c
    | _ => none
  | none => none

/-- The placement of tensor `t` in the jig of partition `p` (R97). -/
def State.placement (s : State) (p t : Nat) : Option Placement :=
  match s.partJig p with
  | some j => j.jig.placements.find? (fun r => r.tensor == t)
  | none => none

/-- Draw a free number for the given reason: the model's own counter advances (log entry 3). -/
def State.draw (s : State) (reason : Nat) : Nat × State :=
  (Config.freeNat reason s.free, { s with free := s.free + 1 })

end Sys2Proof.Machine
end

