-- ==== Sys2Proof/Machine/Programs.lean ====
section
/-! DEFINITION. The programs that units execute: a unit's bytes for a frame class (R85, R99), array and mover descriptors (R158, R277),
lane instruction words (R197 to R200). -/

namespace Sys2Proof.Machine

/-! ### A unit's program -/

/-- The partition that owns a unit, by unit reference (R85, R229). -/
def State.ownerOfUnit (s : State) (u : Nat) : Option Nat :=
  match u / 4096 with
  | 0 => s.ownerOfArray (u % 4096)
  | 1 => s.ownerOfCluster (u % 4096)
  | 2 => s.ownerOfMover (u % 4096)
  | _ => s.ownerOfEndpoint (u % 4096)

/-- The program of unit `u` for class `c` (R99). -/
def Jig.programOf (j : Jig) (u c : Nat) : Option Bytes :=
  match j.programs.find? (fun g => g.unit == u) with
  | none => none
  | some g => (g.entries.find? (fun e => e.cls == c)).map (fun e => slice g.body e.offset e.length)

/-- The program that unit `u` runs under class `c`: that of its partition's jig. -/
def State.programOf (s : State) (u c : Nat) : Bytes :=
  match s.ownerOfUnit u with
  | none => []
  | some p =>
    match s.partJig p with
    | none => []
    | some j => (j.jig.programOf u c).getD []

/-! ### Descriptors -/

/-- The descriptor at image offset `o` (R158). -/
def arrayDescAt (b : Bytes) (o : Nat) : ArrayDesc :=
  let f := fun k n => rd b (o + k) n
  { opcode := f 0 1, plane := Fin.ofNat 2 (f 1 1), acc := bitAt (f 2 1) 0, rmode := bitsOf (f 2 1) 2 2, window := sext 10 (f 4 2),
    rows := f 6 2, kUsed := f 8 2, cols := f 10 2, footBase := f 12 2, dataTensor := f 16 4, scaleTensor := f 20 4, first := f 24 6,
    stride := f 32 4, waitQueue := f 36 2, signalQueue := f 38 2, flagTensor := f 40 4, flagOffset := f 44 4 }

/-- The descriptor at image offset `o` (R277). -/
def mvDescAt (b : Bytes) (o : Nat) : MvDesc :=
  let f := fun k n => rd b (o + k) n
  { opcode := f 0 1, fence := bitAt (f 1 1) 0, waitQueue := f 2 2, signalQueue := f 4 2, dataQueue := f 6 2, srcTensor := f 8 4,
    dstTensor := f 12 4, srcOffset := f 16 8, dstOffset := f 24 8, rowBytes := f 32 4, rows := f 36 4, srcStride := f 40 4,
    dstStride := f 44 4, fillValue := f 48 4 }

/-! ### Lane instruction words (R197, R198) -/

/-- A word in `REG` form; `g` is the guard with its polarity as bits [11:8]. -/
def regWord (op g : Nat) (f : RegFields) : Nat :=
  op + 2 ^ 8 * g + 2 ^ 12 * f.d + 2 ^ 16 * f.a + 2 ^ 20 * f.b + 2 ^ 24 * f.c + 2 ^ 28 * f.sub + 2 ^ 32 * f.fmt + 2 ^ 40 * f.rmode +
    2 ^ 42 * f.pos + 2 ^ 48 * f.aux

/-- A word in `IMM` form. -/
def immWord (op g d a sub : Nat) (imm : W32) : Nat :=
  op + 2 ^ 8 * g + 2 ^ 12 * d + 2 ^ 16 * a + 2 ^ 28 * sub + 2 ^ 32 * imm.toNat

/-- A word in `CTL` form: bits [9:8], [15:12] and [31:16], `TARGET`, `MAX_TRIP`. -/
def ctlWord (op mode field trip target maxTrip : Nat) : Nat :=
  op + 2 ^ 8 * mode + 2 ^ 12 * field + 2 ^ 16 * trip + 2 ^ 32 * target + 2 ^ 48 * maxTrip

/-- Bits [11:8] of a guarded instruction (R183). -/
def guardBits (w : LaneAt) : Nat := w.guard + 8 * b2n w.invert

/-- The fields of a rounding conversion (R215): zero but for `RMODE` where it rounds to nearest. -/
def roundFields (r : LaneRound) (f : RegFields) : RegFields :=
  if r.stochastic then { f with b := r.vb, c := r.vc, rmode := 1, aux := r.high } else f

/-- Word `i` of a program. -/
def wordAt (b : Bytes) (i : Nat) : Nat := rd b (8 * i) 8

end Sys2Proof.Machine
end

