-- ==== Sys2Proof/Machine/Roots.lean ====
section
/-! DEFINITION. The root clock of a compute die, edge by edge (R52, R477, R482, R656 to R658): segments of constant rule, the cycle under way
at a time, and the changes that pacing, stretch and PLL switches make. Times of edges are in ticks (`RootSeg`). -/

namespace Sys2Proof.Machine

/-- Ticks in a cycle of the fixed 7.2 GHz root. -/
def tick : Nat := 110

/-- Root period of a frequency state in ticks (R656): an RT period is 7,920 ticks. -/
def statePeriod (f : Nat) : Nat := nth [99, 110, 120, 132, 165, 220] f 220

/-- Periods that the root cycles from `a` up to `b` take under pacing count `m` (R477): the cycle of index j in its group of 64 is
lengthened when the whole part of (j + 1) m / 64 exceeds that of j m / 64, which sums to this over any run of cycles. -/
def pacedPeriods (m a b : Nat) : Nat := (b - a) + (b * m / 64 - a * m / 64)

/-- The first edge of root cycle `r` of a segment: a stretched cycle lasts two periods, and so does one that pacing and stretch both
lengthen (R482). -/
def RootSeg.edgeOf (g : RootSeg) (r : Nat) : Nat :=
  g.edge + g.period * (if g.slow then 2 * (r - g.base) else pacedPeriods g.pace g.base r)

/-- The root cycle under way at tick `x` of a segment that has begun. A whole number of periods n holds d cycles with d (64 + m) / 64
within one of n, so that d is found among four numbers. -/
def RootSeg.cycleAt (g : RootSeg) (x : Nat) : Nat :=
  let n := (x - g.edge) / g.period
  if g.slow then g.base + n / 2
  else
    let d := n * 64 / (64 + g.pace)
    (((List.range 4).map (fun i => g.base + (d + 2 - i))).find? (fun r => decide (pacedPeriods g.pace g.base r ≤ n))).getD g.base

/-- The last of the segments for which `p` holds, the first where none does. -/
def rootSeg (l : List RootSeg) (p : RootSeg → Bool) : RootSeg :=
  ((l.filter p).getLast?.or l.head?).getD { base := 0, edge := 0, period := 110, pace := 0, slow := false }

/-- The root cycle under way at tick `x`. -/
def DieClock.cycleAt (d : DieClock) (x : Nat) : Nat := (rootSeg d.root (fun g => decide (g.edge ≤ x))).cycleAt x

/-- The first edge of root cycle `r`, as far as the changes now known give it. -/
def DieClock.edgeOf (d : DieClock) (r : Nat) : Nat := (rootSeg d.root (fun g => decide (g.base ≤ r))).edgeOf r

/-- The first root cycle that begins at or after tick `x`. -/
def DieClock.cycleFrom (d : DieClock) (x : Nat) : Nat :=
  let r := d.cycleAt x
  if x ≤ d.edgeOf r then r else r + 1

/-- Segments set one after another: each begins on the edge at which the one before it reaches its first cycle. -/
def relink : Option RootSeg → List RootSeg → List RootSeg
  | _, [] => []
  | none, g :: r => g :: relink (some g) r
  | some p, g :: r =>
    let g := { g with edge := p.edgeOf g.base }
    g :: relink (some g) r

/-- From root cycle `r` on the rule is changed by `f`. -/
def DieClock.change (d : DieClock) (r : Nat) (f : RootSeg → RootSeg) : DieClock :=
  let before := d.root.filter (fun g => decide (g.base < r))
  let after := (d.root.filter (fun g => decide (r ≤ g.base))).map f
  let cut := match before.getLast? with
    | none => []
    | some g => if after.any (fun y => y.base == r) then [] else [f { g with base := r }]
  { d with root := relink none (before ++ cut ++ after) }

/-- A new pacing count takes effect at the first group boundary after tick `x` (R477). -/
def DieClock.setPace (d : DieClock) (x m : Nat) : DieClock :=
  d.change ((d.cycleAt x / 64 + 1) * 64) (fun g => { g with pace := m })

/-- A stretch begins: the first delayed edge is the `n`-th after tick `x`, and none of a transition cycle is delayed (R52, R482). -/
def DieClock.slowDown (d : DieClock) (x n : Nat) : DieClock :=
  let r := d.cycleAt x + (n - 1)
  let free := ((d.root.filter (fun g => decide (x < g.edge))).foldl (fun m g => max m g.base) 0)
  d.change (max r free) (fun g => { g with slow := true })

/-- A stretch is over: cycles from the next edge on last one period (R482). -/
def DieClock.speedUp (d : DieClock) (x : Nat) : DieClock := d.change (d.cycleFrom x) (fun g => { g with slow := false })

/-- The root passes to a PLL of period `p` whose edges are those of the distributed reference at tick `ref` (R52): the switch edge is the
first root edge at or after tick `x`, and the transition cycle ends on the new PLL's first edge one period of the slower PLL or more
after it. The pacing count goes on unless it is suspended; a stretch that the switch does not wait for goes on from the first new edge where
`resume` (R508). -/
def DieClock.switchTo (d : DieClock) (x p ref : Nat) (resume : Bool) : DieClock :=
  if d.root.isEmpty then d else
  let r := d.cycleFrom x
  let old := rootSeg d.root (fun g => decide (g.base ≤ r))
  let e := d.edgeOf r
  let least := e + max old.period p
  let stop := ref + (least - ref + p - 1) / p * p
  { d with root := d.root.filter (fun g => decide (g.base < r)) ++
      [{ base := r, edge := e, period := stop - e, pace := 0, slow := false },
       { base := r + 1, edge := stop, period := p, pace := old.pace, slow := resume && old.slow }] }

/-- The root counts anew from the first root edge at or after tick `x`, with pacing suspended (R479, R658). -/
def DieClock.restart (d : DieClock) (x : Nat) : DieClock :=
  let r := d.cycleFrom x
  let g := rootSeg d.root (fun g => decide (g.base ≤ r))
  if d.root.isEmpty then d else { d with root := [{ base := 0, edge := d.edgeOf r, period := g.period, pace := 0, slow := g.slow }] }

/-- The root of a die whose clock starts at tick `x` with period `p` (R663). -/
def rootStart (x p : Nat) : List RootSeg := [{ base := 0, edge := x, period := p, pace := 0, slow := false }]

/-- Segments that ended before tick `x` are forgotten. -/
def DieClock.trim (d : DieClock) (x : Nat) : DieClock :=
  { d with root := match (d.root.filter (fun g => decide (g.edge ≤ x))).getLast? with
      | none => d.root
      | some g => g :: d.root.filter (fun y => decide (x < y.edge)) }

def State.dieClock (s : State) (n : Nat) : DieClock := s.clocks.dies.getD n DieClock.start
def State.setDieClock (s : State) (n : Nat) (d : DieClock) : State :=
  { s with clocks := { s.clocks with dies := setNth s.clocks.dies n d } }

/-- Change the root of die `n`, keeping what is still ahead. -/
def State.changeRoot (s : State) (n : Nat) (f : DieClock → DieClock) : State :=
  s.setDieClock n (f ((s.dieClock n).trim (tick * s.now)))

/-- Root period of the PLL that supplies a die, for the state it holds. -/
def DieClock.heldPeriod (d : DieClock) : Nat := statePeriod (if d.reserve then 5 else (if d.running = 0 then d.pll0 else d.pll1).getD 5)

/-- Every die's root passes to the PLL that now supplies it, at tick `x`, in step with the distributed reference (R52, R508). -/
def State.switchRoots (s : State) (x : Nat) (resume : Bool) : State :=
  (List.range 4).foldl (fun s n =>
    s.changeRoot n (fun d => d.switchTo x d.heldPeriod (tick * s.frame.rtAt) resume)) s

/-- The compute dies have no clock: accesses that have not taken effect are lost (R504, R505). -/
def State.rootsStop (s : State) : State :=
  { s with clocks := { s.clocks with dies := s.clocks.dies.map (fun d => { d with root := [] }) }, mem := { s.mem with bench := [] } }

/-- Root cycle, ac, lc and qc under way on die `n`, counted from the kerf strobe (R658). -/
def State.rc (s : State) (n : Nat) : Nat := (s.dieClock n).cycleAt (tick * s.now)
def State.acOf (s : State) (n : Nat) : Nat := s.rc n / 4
def State.lcOf (s : State) (n : Nat) : Nat := s.rc n / 3
def State.qcOf (s : State) (n : Nat) : Nat := s.rc n / 6

/-- The first cycle of `k` root cycles that begins on die `n` at or after time `t` (R45, R173). -/
def State.cycleOf (s : State) (n k t : Nat) : Nat := ((s.dieClock n).cycleFrom (tick * t) + k - 1) / k

end Sys2Proof.Machine
end

