-- ==== Sys2Proof/Machine/Slots.lean ====
section
/-! DEFINITION. Time-slot tables at work (R236, R240, R242, R265 to R268, R272 to R274, R340): which slot of a resource a moment lies in, which
port a jig's entries or a partition's record grant it to, and how many slots a port was granted. -/

namespace Sys2Proof.Machine

/-! ### What entries grant (R268) -/

/-- The entry grants its port slot `x`. -/
def SlotEntry.covers (e : SlotEntry) (x : Nat) : Bool :=
  decide (e.first ≤ x) &&
    (if e.stride = 0 then decide (x - e.first < e.run)
     else decide ((x - e.first) / e.stride < e.count) && decide ((x - e.first) % e.stride < e.run))

/-- Slots below `x` that the entry grants. -/
def SlotEntry.below (e : SlotEntry) (x : Nat) : Nat :=
  let n := x - e.first
  if e.stride = 0 then min e.run n
  else
    let full := min e.count (if n < e.run then 0 else (n - e.run) / e.stride + 1)
    full * e.run + (if full < e.count then min e.run (n - full * e.stride) else 0)

/-- The table of a resource in the jig that partition `p` runs: entries are in force from its start frame until it goes (R274). -/
def State.slotTable (s : State) (p : Option Nat) (resource : Nat) : Option SlotSection :=
  match p with
  | none => none
  | some p =>
    match s.partJig p with
    | none => none
    | some j => if j.phase = .running then j.jig.slots.find? (fun x => x.resource == resource) else none

/-- The table grants `port` slot `x` of the period. -/
def SlotSection.grants (t : SlotSection) (port x : Nat) : Bool := t.entries.any (fun e => e.port == port && e.covers x)

/-! ### Bench slots (R265 to R267, R272) -/

/-- The bench table of die `n` grants `port` the qc `q`, counted from the kerf strobe. -/
def State.benchGrant (s : State) (p : Option Nat) (n port q : Nat) : Bool :=
  match s.slotTable p n with
  | none => false
  | some t => t.grants port (q % t.periodQc)

/-- The qc in which an ac, or an lc, begins. -/
def qcOfAc (a : Nat) : Nat := 4 * a / 6
def qcOfLc (l : Nat) : Nat := l / 2

/-- An ac that never comes: what a port waits for that is granted no slot (R273). -/
def neverAc : Nat := 2 ^ 64

/-- The first of the next `fuel` ac from `a` on in which the table grants `port`. -/
def SlotSection.firstAc (t : SlotSection) (port : Nat) : Nat → Nat → Nat
  | 0, _ => neverAc
  | fuel + 1, a => if t.grants port (qcOfAc a % t.periodQc) then a else t.firstAc port fuel (a + 1)

/-- The first ac from `a` on in which array port `port` of die `n` is granted: the pattern repeats after three periods at most. -/
def State.nextAc (s : State) (p : Option Nat) (n port a : Nat) : Nat :=
  match s.slotTable p n with
  | none => neverAc
  | some t => t.firstAc port (3 * t.periodQc) a

/-- The next `k` port cycles of an array, the first due in ac `a`, each `gap` ac after the one before it or later where a grant is withheld:
when each would be due, and when it is (R164, R688). -/
def State.portCycles (s : State) (p : Option Nat) (n port gap : Nat) : Nat → Nat → List (Nat × Nat)
  | 0, _ => []
  | k + 1, a =>
    let g := s.nextAc p n port a
    (a, g) :: s.portCycles p n port gap k (g + gap)

/-! ### Bench accesses on their way (R189, R234, R267, R683 step 6) -/

/-- Which of two accesses of a die takes effect first: the one due earlier; on one edge reads before writes, then in port order. -/
def BenchAccess.before (x y : BenchAccess) : Bool :=
  decide (x.due < y.due) ||
    (x.due == y.due && ((!x.write && y.write) || (x.write == y.write && decide (x.port < y.port))))

/-- An access put in its place. -/
def insertAccess (x : BenchAccess) : List BenchAccess → List BenchAccess
  | [] => [x]
  | y :: r => if x.before y then x :: y :: r else y :: insertAccess x r

/-- A bench access is made. -/
def State.addAccess (s : State) (x : BenchAccess) : State :=
  { s with mem := { s.mem with bench := insertAccess x s.mem.bench } }

/-! ### Tier slots (R236, R240, R242, R266) -/

/-- A slot of a tier resource: its resource and number, the instant it lies at, and the schedule it belongs to: Tier 1 stack k is k,
Tier 2 16, Tier 3 reads 17 and writes 18. -/
structure TierSlot where
  resource : Nat
  slot : Nat
  instant : Nat
  schedule : Nat
deriving DecidableEq, Repr

/-- Root cycles since the last RT edge whose value is a multiple of `n`. -/
def State.sinceRt (s : State) (n : Nat) : Nat := s.rt % n * rcRt + (s.now - s.frame.rtAt) % rcRt

/-- The slot number among `k` slots spread evenly over `hc` cycles that lies at cycle `h`, if one does. -/
def evenSlot (k hc h : Nat) : Option Nat :=
  let x := (k * h + hc - 1) / hc
  if x < k ∧ hc * x / k = h then some x else none

/-- The slot under way now for an access at `a`, if there is one: a stack serves one access in each mc outside its refresh window, Tier 2
125 in a round of 288 hc, Tier 3 five reads in a round of 144 hc and five writes in one of 576. -/
def State.tierSlot (s : State) (a : Nat) (write : Bool) : Option TierSlot :=
  match (regionOf a).1 with
  | .tier1 k =>
    let o := s.sinceRt 195
    some { resource := 0x10 + k / 4, slot := 4 * (o / 5) + k % 4, instant := s.now - o % 5, schedule := k }
  | .tier2 =>
    let o := s.sinceRt 32
    (evenSlot 125 288 (o / 8)).map (fun x => { resource := 0x20, slot := x, instant := s.now - o % 8, schedule := 16 })
  | .tier3 =>
    if write then
      let o := s.sinceRt 64
      (evenSlot 5 576 (o / 8)).map (fun x => { resource := 0x21, slot := 20 + x, instant := s.now - o % 8, schedule := 18 })
    else
      let o := s.sinceRt 16
      (evenSlot 5 144 (o / 8)).map (fun x =>
        { resource := 0x21, slot := 5 * (s.rt % 64 / 16) + x, instant := s.now - o % 8, schedule := 17 })
  | _ => none

/-- The slot has served no access yet (R236, R240, R242). -/
def State.slotUnused (s : State) (x : TierSlot) : Bool := decide (SMap.get s.mem.lastSlot x.schedule none ≠ some x.instant)

/-- The slot serves an access. -/
def State.useSlot (s : State) (x : TierSlot) : State :=
  { s with mem := { s.mem with lastSlot := SMap.set s.mem.lastSlot x.schedule (some x.instant) none } }

/-- The jig of partition `p` grants `port` the slot. -/
def State.tierGrant (s : State) (p : Option Nat) (port : Nat) (x : TierSlot) : Bool :=
  match s.slotTable p x.resource with
  | none => false
  | some t => t.grants port x.slot

/-- The record of partition `p` keeps the slot for its host port (R340). -/
def State.hostSlot (s : State) (p : Nat) (x : TierSlot) : Bool :=
  s.host.enabled.contains p &&
    (if x.resource = 0x20 then bitAt (rd (s.record p) 272 16) x.slot
     else x.resource == 0x21 && bitAt (rd (s.record p) 292 4) x.slot)

/-- The host port of partition `p` holds the slot. -/
def State.hostGrant (s : State) (p : Nat) (x : TierSlot) : Bool := s.hostSlot p x || s.tierGrant (some p) (128 + p) x

/-! ### Slots granted to a port over a span (R273) -/

/-- Slots of the entry numbered from `lo` on, the first `n` of them. -/
def SlotEntry.among (e : SlotEntry) (lo n : Nat) : Nat := e.below (lo + n) - e.below lo

/-- Slots of a tier resource that an entry grants from the period's start up to `o` root cycles into it. -/
def SlotEntry.upTo (e : SlotEntry) (resource o : Nat) : Nat :=
  if resource < 0x20 then e.below (4 * ((o + 4) / 5))
  else
    let h := (o + 7) / 8
    if resource = 0x20 then e.below ((125 * h + 287) / 288)
    else e.among 0 (5 * (h / 144) + (5 * (h % 144) + 143) / 144) + e.among 20 ((5 * h + 575) / 576)

/-- Slots that an entry grants over `t` root cycles from an RT edge of value 0 on. -/
def SlotEntry.total (e : SlotEntry) (resource t : Nat) : Nat :=
  let len := if resource < 0x20 then 195 * rcRt else if resource = 0x20 then 32 * rcRt else 64 * rcRt
  t / len * e.upTo resource len + e.upTo resource (t % len)

/-- Tier 2 slots that a mask of host slots keeps over `t` root cycles from an RT edge of value 0 on: slot x lies at hc ⌊288 x / 125⌋ of a
round of 288 hc (R240). -/
def maskTotal (mask t : Nat) : Nat :=
  (List.range 125).foldl (fun n x =>
    if bitAt mask x then n + t / 2304 + (if 8 * (288 * x / 125) < t % 2304 then 1 else 0) else n) 0

/-- Tier 2 slots granted to any port between two moments on the scale of RT: by the running jigs' tables and by the partitions' records. -/
def State.t2Granted (s : State) (rcA rcB : Nat) : Nat :=
  s.host.enabled.foldl (fun n p =>
    let mask := rd (s.record p) 272 16
    let n1 := n + (maskTotal mask rcB - maskTotal mask rcA)
    match s.slotTable (some p) 0x20 with
    | none => n1
    | some t => t.entries.foldl (fun n e => n + (e.total 0x20 rcB - e.total 0x20 rcA)) n1) 0

/-- Slots that the tables of partition `p` have granted a mover since the kerf strobe: its bench port in the qc that have begun, its tier
ports between two moments on the scale of RT. -/
def State.slotsGranted (s : State) (p : Option Nat) (k qc rcA rcB : Nat) : Nat :=
  let tables := [0x10, 0x11, 0x12, 0x13, 0x20, 0x21].filterMap (fun r => s.slotTable p r)
  let tier := tables.foldl (fun n t => t.entries.foldl (fun n e =>
    if e.port = k then n + (e.total t.resource rcB - e.total t.resource rcA) else n) n) 0
  match s.slotTable p (k / 32) with
  | none => tier
  | some t => t.entries.foldl (fun n e =>
      if e.port = 80 + k % 32 then n + qc / t.periodQc * e.below t.periodQc + e.below (qc % t.periodQc) else n) tier

end Sys2Proof.Machine
end

