-- ==== Sys2Proof/Machine/Operands.lean ====
section
/-! DEFINITION. The operand forms of the lane instructions: registers, pairs, predicates, guards, addresses, and the shape of an
instruction that issues for one row (R170 to R194, R197 to R200). -/

namespace Sys2Proof.Machine

/-! ### Clusters and rows -/

def State.cluster (s : State) (c : Nat) : Cluster := SMap.get s.lanes.clusters c Cluster.reset
def State.setCluster (s : State) (c : Nat) (v : Cluster) : State :=
  { s with lanes := { s.lanes with clusters := SMap.set s.lanes.clusters c v Cluster.reset } }

def Cluster.row (cl : Cluster) (j : Nat) : RowCtl := SMap.get cl.rows j RowCtl.start
def Cluster.setRow (cl : Cluster) (j : Nat) (r : RowCtl) : Cluster := { cl with rows := SMap.set cl.rows j r RowCtl.start }

/-- The words of register `v` of row `j`. -/
def Cluster.reg (cl : Cluster) (j v : Nat) : List W32 := SMap.get cl.regs (16 * j + v) zeroLanes
def Cluster.setReg (cl : Cluster) (j v : Nat) (w : List W32) : Cluster :=
  { cl with regs := SMap.set cl.regs (16 * j + v) w zeroLanes }

/-- Predicate `d` of row `j`: PD0 always reads 1, and writes to it are ignored (R170). -/
def Cluster.pred (cl : Cluster) (j d : Nat) : List Bool :=
  if d = 0 then List.replicate 128 true else SMap.get cl.preds (8 * j + d) falseLanes
def Cluster.setPred (cl : Cluster) (j d : Nat) (p : List Bool) : Cluster :=
  if d = 0 then cl else { cl with preds := SMap.set cl.preds (8 * j + d) p falseLanes }

/-- The die of a cluster (R17). -/
def dieOfCluster (c : Nat) : Nat := c / 64

/-- Whether the clocks of the compute dies run (R504). -/
def State.diesClocked (s : State) : Bool :=
  match s.gov.stop with
  | .running => true
  | .stopping _ => true
  | _ => false

/-- Whether new work may issue on the compute dies: an orderly stop lets nothing further issue (R504). -/
def State.diesIssue (s : State) : Bool :=
  match s.gov.stop with
  | .running => true
  | _ => false

/-- The row that has its turn in lc `l` of cluster `c` is row `j`, and the turn has not been taken (R171, R173): rows at and above
`ROW_COUNT` have none. -/
def Cluster.turnOf (cl : Cluster) (l : Int) (j : Nat) : Bool :=
  cl.entry.isSome && !cl.stopped && decide (cl.origin ≤ l) && decide (cl.turn < l) && decide (j < cl.rowCount) &&
    decide ((l - cl.origin) % (cl.rowCount : Int) = (j : Int))

/-- Row `j` of cluster `c` has its turn now, and may issue (R173, R174, R196, R504). -/
def State.rowTurn (s : State) (c j : Nat) : Bool := s.diesIssue && (s.cluster c).turnOf (s.lcOf (dieOfCluster c)) j

/-- The word that row `j` issues next (R170, R197). -/
def State.laneWord (s : State) (c j : Nat) : Nat :=
  let cl := s.cluster c
  wordAt (s.programOf (0x1000 + c) (cl.entry.getD 0)) (cl.row j).pc

/-! ### Movers -/

def State.mover (s : State) (k : Nat) : Mover := SMap.get s.qf.movers k Mover.reset
def State.setMover (s : State) (k : Nat) (v : Mover) : State :=
  { s with qf := { s.qf with movers := SMap.set s.qf.movers k v Mover.reset } }

/-! ### Lanes -/

/-- The lanes a guard selects (R183). -/
def Cluster.selected (cl : Cluster) (w : LaneAt) : List Bool := (cl.pred w.row w.guard).map (fun b => b != w.invert)

/-- Words with the selected lanes replaced. -/
def mergeLanes {α : Type} : List Bool → List α → List α → List α
  | g :: gs, n :: ns, o :: os => (if g then n else o) :: mergeLanes gs ns os
  | _, _, os => os

/-- The OR of the flags of the selected lanes. -/
def laneFlags : List Bool → List (W32 × Nat) → Nat
  | g :: gs, r :: rs => (if g then r.2 else 0) ||| laneFlags gs rs
  | _, _ => 0

/-- Low and high words of pair `p` (R199), and the 64-bit values of its lanes. -/
def Cluster.pair (cl : Cluster) (j p : Nat) : List Nat :=
  List.zipWith pairOf (cl.reg j (2 * p)) (cl.reg j (2 * p + 1))
def Cluster.setPair (cl : Cluster) (j p : Nat) (g : List Bool) (v : List Nat) : Cluster :=
  let cl1 := cl.setReg j (2 * p) (mergeLanes g (v.map pairLo) (cl.reg j (2 * p)))
  cl1.setReg j (2 * p + 1) (mergeLanes g (v.map pairHi) (cl.reg j (2 * p + 1)))

/-! ### Issue -/

/-- Record arithmetic events of cluster `c` (R226), and raise `LF_ARITH_INVALID` on the first invalid one of the frame (R227). -/
def State.noteArith (s : State) (c flags : Nat) : State :=
  if flags = 0 then s
  else
    let p := s.ownerOfCluster c
    let s1 : State := match p with
      | some p => { s with lanes := { s.lanes with arith := SMap.modify s.lanes.arith p 0 (· ||| flags) } }
      | none => s
    if bitAt flags 0 && !(s1.cluster c).arithRaised then
      (s1.setCluster c { s1.cluster c with arithRaised := true }).raiseFor (Source.ofDie (dieOfCluster c))
        FC.lfArithInvalid (0x1000 + c) p
    else s1

/-- The row moves to program counter `pc`, and the issue is counted. -/
def State.rowTo (s : State) (c j pc : Nat) : State :=
  let cl := s.cluster c
  (s.setCluster c (cl.setRow j { cl.row j with pc := pc % 1024 })).bump (0x090 + 4 * c) 1

/-- The row moves to the next word. -/
def State.rowNext (s : State) (c j : Nat) : State := s.rowTo c j (((s.cluster c).row j).pc + 1)

/-- The turn of the lc under way is taken. -/
def State.takeTurn (s : State) (c : Nat) : State :=
  s.setCluster c { s.cluster c with turn := s.lcOf (dieOfCluster c) }

/-- A turn of a row that has issued `END` is empty (R174). -/
def State.emptyTurn (s : State) (c : Nat) : State := s.bump (0x091 + 4 * c) 1
/-- A turn skipped for want of a bench slot (R187), and on a queue (R191). -/
def State.skipBench (s : State) (c : Nat) : State := s.bump (0x092 + 4 * c) 1
def State.skipQueue (s : State) (c : Nat) : State := s.bump (0x093 + 4 * c) 1

/-- An instruction that row `j` issues changes its cluster by `f`, which also answers the flags of the selected lanes. -/
def State.issueRow (s : State) (c j : Nat) (f : Cluster → Cluster × Nat) : State :=
  let r := f (s.cluster c)
  ((s.setCluster c r.1).rowNext c j).noteArith c r.2

/-- Vd of each selected lane takes a word computed from the words at hand (R200). -/
def Cluster.writeReg (cl : Cluster) (w : LaneAt) (d : Nat) (v : List (W32 × Nat)) : Cluster × Nat :=
  let g := cl.selected w
  (cl.setReg w.row d (mergeLanes g (v.map Prod.fst) (cl.reg w.row d)), laneFlags g v)

/-- PDd of each selected lane takes a truth value. -/
def Cluster.writePred (cl : Cluster) (w : LaneAt) (d : Nat) (v : List Bool) : Cluster × Nat :=
  (cl.setPred w.row d (mergeLanes (cl.selected w) v (cl.pred w.row d)), 0)

/-- Vd = f(Va). -/
def State.unary (s : State) (w : LaneAt) (d a : Fin 16) (f : W32 → W32 × Nat) : State :=
  s.issueRow w.cluster w.row (fun cl => cl.writeReg w d ((cl.reg w.row a).map f))

/-- Vd = f(Va, Vb). -/
def State.binary (s : State) (w : LaneAt) (d a b : Fin 16) (f : W32 → W32 → W32 × Nat) : State :=
  s.issueRow w.cluster w.row (fun cl => cl.writeReg w d (List.zipWith f (cl.reg w.row a) (cl.reg w.row b)))

/-- Vd = f(Va, Vb, Vc). -/
def State.ternary (s : State) (w : LaneAt) (d a b c : Fin 16) (f : W32 → W32 → W32 → W32 × Nat) : State :=
  s.issueRow w.cluster w.row (fun cl =>
    cl.writeReg w d (List.zipWith (fun x yz => f x yz.1 yz.2) (cl.reg w.row a) (List.zip (cl.reg w.row b) (cl.reg w.row c))))

/-- Storage errors met at a row's turn (R196): a word that fails parity stops the cluster for the frame; a register hit by a
double-bit error becomes zero; a slot so hit becomes zero with `WA_INVALID` set. -/
def State.laneUpset (s : State) (c j : Nat) (u : LaneUpset) : State :=
  if u = LaneUpset.none then s
  else
    let src := Source.ofDie (dieOfCluster c)
    let p := s.ownerOfCluster c
    let s1 := if u.parity then
        (s.setCluster c { s.cluster c with stopped := true }).raiseFor src FC.lfProgramParity (0x1000 + c) p
      else s
    let s2 := u.regs.foldl (fun s x =>
      if x.2.2 then
        let cl := s.cluster c
        (s.setCluster c (cl.setReg j x.1 (setNth (cl.reg j x.1) x.2.1 0))).raiseFor src FC.lfRegUncorrected (0x1000 + c) p
      else s.raiseFor src FC.lfRegCorrected (0x1000 + c) p) s1
    let s3 := u.slots.foldl (fun s x =>
      let cl := s.cluster c
      let slots := SMap.modify cl.slots x AccSlot.zero (fun y => { y with value := 0, flags := y.flags ||| waInvalid })
      (s.setCluster c { cl with slots := slots }).raiseFor src FC.lfSlotUncorrected (0x1000 + c) p) s2
    s3.memErrors p u.mem

/-- A word without flags. -/
def plain (w : W32) : W32 × Nat := (w, 0)

/-- The rounding mode of one lane (R215). -/
def laneRounding (r : LaneRound) (jobFrame : Nat) (tensor index : W32) : Rounding :=
  if r.stochastic then .stochastic (stochR jobFrame tensor.toNat (r.high * 2 ^ 32 + index.toNat)) else .rne

/-- The rounding modes of the lanes of a row. -/
def Cluster.roundings (cl : Cluster) (j : Nat) (r : LaneRound) (jobFrame : Nat) : List Rounding :=
  List.zipWith (laneRounding r jobFrame) (cl.reg j r.vb) (cl.reg j r.vc)

/-- The job frame of a cluster's partition. -/
def State.clusterJobFrame (s : State) (c : Nat) : Nat :=
  match s.ownerOfCluster c with
  | some p => s.jobFrame p
  | none => 0

/-- Vd = f(Va) under the rounding mode of each lane. -/
def State.rounded (s : State) (w : LaneAt) (d a : Fin 16) (r : LaneRound) (f : W32 → Rounding → W32 × Nat) : State :=
  let jf := s.clusterJobFrame w.cluster
  s.issueRow w.cluster w.row (fun cl =>
    cl.writeReg w d (List.zipWith f (cl.reg w.row a) (cl.roundings w.row r jf)))

/-! ### Bench addresses (R186, R188) -/

/-- Whether a bench offset of a cluster's die lies, with `n` bytes, in its partition's bench ranges (R188). -/
def State.benchOk (s : State) (c off n : Nat) : Bool :=
  match s.ownerOfCluster c with
  | some p => decide (off + n ≤ benchSize) && s.owns p (benchBase (dieOfCluster c) + off) n
  | none => false

/-- `LF_BENCH_BOUNDS`, at most once per frame, counting every lane treated so (R188). -/
def State.noteBounds (s : State) (c lanes : Nat) : State :=
  if lanes = 0 then s
  else
    let cl := s.cluster c
    let s1 := s.setCluster c { cl with boundsRaised := true, boundsLanes := cl.boundsLanes + lanes }
    if cl.boundsRaised then s1
    else s1.raiseFor (Source.ofDie (dieOfCluster c)) FC.lfBenchBounds (0x1000 + c) (s.ownerOfCluster c)

/-- Load the word at a bench offset: zero outside the partition's bench, zero for poison (R188, R250). -/
def State.loadWord (s : State) (c off : Nat) : W32 × State :=
  let a := off / 4 * 4
  if s.benchOk c a 4 then
    let r := s.readMem (s.ownerOfCluster c) (benchBase (dieOfCluster c) + a) 4
    (match dataNat r.1 with | some v => BitVec.ofNat 32 v | none => 0, r.2)
  else (0, s.noteBounds c 1)

/-- Store a word at a bench offset: dropped outside the partition's bench (R188). -/
def State.storeWord (s : State) (c off : Nat) (v : W32) : State :=
  let a := off / 4 * 4
  if s.benchOk c a 4 then s.writeMem (benchBase (dieOfCluster c) + a) (goodData (leBytes 4 v.toNat)) else s.noteBounds c 1

/-- Load for each pair of lane flag and offset, in lane order; lanes not selected load nothing. -/
def State.loadLanes (s : State) (c : Nat) : List (Bool × Nat) → List W32 × State
  | [] => ([], s)
  | (g, off) :: r =>
    let x := if g then s.loadWord c off else (0, s)
    let rest := x.2.loadLanes c r
    (x.1 :: rest.1, rest.2)

/-- Store for each selected lane, in lane order, so that the higher lane takes effect last (R189). -/
def State.storeLanes (s : State) (c : Nat) : List (Bool × Nat × W32) → State
  | [] => s
  | (g, off, v) :: r => (if g then s.storeWord c off v else s).storeLanes c r

/-- Address of a lane: its Va plus the immediate, modulo 2^32 (R218). -/
def laneAddr (va : W32) (imm : W32) : Nat := (va + imm).toNat

/-- Bench accesses of row `j` issue in a slot lc of the cluster's port, and take effect in the second lc after; without the slot the turn
is skipped (R174, R187, R189). `l` says of each whether it writes. -/
def State.laneAccess (s : State) (c j : Nat) (l : List (Bool × BenchAct)) : State :=
  let die := dieOfCluster c
  let lc := s.lcOf die
  if s.benchGrant (s.ownerOfCluster c) die (16 + c % 64) (qcOfLc lc) then
    (l.foldl (fun s y => s.addAccess { die := die, due := 3 * (lc + 2), nominal := 3 * (lc + 2), write := y.1, port := 16 + c % 64,
                                       act := y.2 }) s).rowNext c j
  else s.skipBench c

/-- A load: the selected lanes read at the offsets given, and Vd takes the words. -/
def State.laneLoad (s : State) (w : LaneAt) (d : Fin 16) (sel : List Bool) (offs : List Nat) : State :=
  s.laneAccess w.cluster w.row [(false, .laneLoad w.cluster w.row d (List.zip sel offs))]

/-- A store of Vd by the selected lanes at the offsets given. -/
def State.laneStore (s : State) (w : LaneAt) (d : Fin 16) (sel : List Bool) (offs : List Nat) : State :=
  s.laneAccess w.cluster w.row [(true, .laneStore w.cluster (List.zip sel (List.zip offs ((s.cluster w.cluster).reg w.row d))))]

/-- The lanes of part `p`: 8p to 8p + 7 (R186). -/
def partMask (p : Nat) : List Bool := (List.range 128).map (fun i => i / 8 == p)

/-- Both of two lane masks. -/
def andMask (a b : List Bool) : List Bool := List.zipWith (· && ·) a b

/-- The bench byte at an offset, zero outside the partition's bench (R188, R222). -/
def State.loadFlagByte (s : State) (c off : Nat) : Nat × State :=
  if s.benchOk c off 1 then
    let r := s.readMem (s.ownerOfCluster c) (benchBase (dieOfCluster c) + off) 1
    ((dataNat r.1).getD 0, r.2)
  else (0, s.noteBounds c 1)

/-- A slot's value written at a bench offset; dropped outside the partition's bench (R222). -/
def State.storeSlot (s : State) (c off v : Nat) : State :=
  if s.benchOk c off 8 then s.writeMem (benchBase (dieOfCluster c) + off) (goodData (leBytes 8 v)) else s.noteBounds c 1

/-- OR flags into the bench byte at an offset; dropped outside the partition's bench (R222). -/
def State.orFlagByte (s : State) (c off flags : Nat) : State :=
  if s.benchOk c off 1 then s.orByte (benchBase (dieOfCluster c) + off) flags else s.noteBounds c 1

end Sys2Proof.Machine
end

