-- ==== Sys2Proof/Machine/ArrayOps.lean ====
section
/-! DEFINITION. What array descriptors do (R144 to R169): elements in memory, planes and foot, the port cycles of each descriptor and what
each does at bench (R688), issue and completion. -/

namespace Sys2Proof.Machine

/-! ### Arrays -/

def State.array (s : State) (m : Nat) : ArrayUnit := SMap.get s.arrays.units m ArrayUnit.reset
def State.setArray (s : State) (m : Nat) (v : ArrayUnit) : State :=
  { s with arrays := { s.arrays with units := SMap.set s.arrays.units m v ArrayUnit.reset } }

/-- The die of an array (R17). -/
def dieOfArray (m : Nat) : Nat := m / 4

/-- No queue is named (R158, R277). -/
def noQueue : Nat := 0xFFFF

/-- The placement of a tensor that array `m` names (R97). -/
def State.arrayTensor (s : State) (m t : Nat) : Option Placement :=
  match s.ownerOfArray m with
  | some p => s.placement p t
  | none => none

/-- The format and module address of tensor `t` of array `m`. -/
def State.tensorAt (s : State) (m t : Nat) : Option (Format × Nat) :=
  match s.arrayTensor m t with
  | some r => (Format.ofCode r.format).map (fun f => (f, r.address))
  | none => none

/-- The address of a tensor, 0 where none is named. -/
def State.scaleAt (s : State) (m t : Nat) : Nat :=
  match s.arrayTensor m t with
  | some r => r.address
  | none => 0

/-! ### Elements in memory (R116, R122 to R124) -/

/-- First byte and byte count that elements `first` to `first + n - 1` of a format take in their tensor. -/
def elemSpan (f : Format) (first n : Nat) : Nat × Nat :=
  match f with
  | .t2 => (first / 5, (first + n - 1) / 5 - first / 5 + 1)
  | f => (first * f.elemBits / 8, ((first + n) * f.elemBits + 7) / 8 - first * f.elemBits / 8)

/-- Raw code of element `i` in data that begin at byte `lo` of the tensor: none for poison, `some none` for an invalid T2 byte. -/
def elemCode (f : Format) (d : Data) (lo i : Nat) : Option (Option Nat) :=
  match f with
  | .t2 =>
    match d.getD (i / 5 - lo) none with
    | none => none
    | some b => some ((t2Digits b.toNat).map (fun l => l.getD (i % 5) 0))
  | f =>
    let w := f.elemBits
    let b := i * w / 8
    (dataNat ((d.drop (b - lo)).take ((i * w % 8 + w + 7) / 8))).map (fun v => some (bitsOf v (i * w % 8) w))

/-- Codes of elements `first` to `first + n - 1` of the tensor at `base`, read for partition `p`. -/
def State.readElems (s : State) (p : Option Nat) (f : Format) (base first n : Nat) : List (Option (Option Nat)) × State :=
  let sp := elemSpan f first n
  let r := s.readMem p (base + sp.1) sp.2
  ((List.range n).map (fun i => elemCode f r.1 sp.1 (first + i)), r.2)

/-- Scale bytes of the blocks of those elements: none for poison. An unscaled format has none. -/
def State.readScales (s : State) (p : Option Nat) (f : Format) (base first n : Nat) : List (Option Nat) × State :=
  if f.blockScaled then
    let r := s.readMem p (base + first / 32) ((n + 31) / 32)
    (r.1.map (fun b => b.map BitVec.toNat), r.2)
  else ([], s)

/-- The value of an element under its scale byte: NaN stands for whatever contributes no term and sets `WA_INVALID` (R128, R250). -/
def scaled (f : Format) (code : Option (Option Nat)) (scale : Option Nat) : FVal :=
  match code with
  | some (some c) =>
    if f.blockScaled then
      match scale with
      | some x => if x = 255 then .nan else (decodeElem f c).scale ((x : Int) - 127)
      | none => .nan
    else decodeElem f c
  | _ => .nan

/-! ### Operand pairs (R145) -/

/-- Weight formats: the group of R145, 0 where the format is none. Groups 1 float, 2 integer, 3 narrow, 4 ternary, 5 half. -/
def weightGroup : Format → Nat
  | .fp8E4m3 | .fp8E5m2 | .mxfp8E4m3 | .mxfp8E5m2 => 1
  | .int8 | .mxint8 => 2
  | .mxfp6E3m2 | .mxfp6E2m3 | .mxfp4E2m1 => 3
  | .t2 => 4
  | .bf16 => 5
  | _ => 0

/-- Whether an array accepts a weight and an activation format together (R145). -/
def pairOk (w a : Format) : Bool :=
  match w with
  | .t2 => (a == .fp8E4m3) || (a == .mxfp8E4m3) || (a == .mxint8) || (a == .int8)
  | w => weightGroup w != 0 && weightGroup w == weightGroup a && a != .t2

/-- K_P of a weight format (R145). -/
def kPlane (w : Format) : Nat :=
  match weightGroup w with
  | 3 => 1024
  | 4 => 2048
  | _ => 512

/-- The interval I between activation rows (R145, R146). -/
def rowInterval (a : Format) : Nat := if a = .bf16 then 2 else 1

/-! ### The foot bank (R152 to R154) -/

/-- A foot word; one whose contents were lost is a free value (R152). -/
def ArrayUnit.footWord (u : ArrayUnit) (m row col : Nat) : Nat :=
  match SMap.get u.foot (512 * row + col) none with
  | some v => v
  | none => Config.freeFoot m u.footEpoch (512 * row + col) % 2 ^ 64

/-- The flag byte of a foot row: 0 from cold start on (R130), a free value once its contents were lost (R152). -/
def ArrayUnit.rowFlags (u : ArrayUnit) (m row : Nat) : Nat :=
  match SMap.get u.footFlags row none with
  | some v => v
  | none => if u.footEpoch = 0 then 0 else Config.freeFoot m u.footEpoch (1048576 + row) % 16

/-- Columns `0` on of one foot row take values. -/
def ArrayUnit.setFootRow (u : ArrayUnit) (row : Nat) (v : List Nat) (flags : Nat) : ArrayUnit :=
  { u with foot := SMap.setRun u.foot (512 * row) (v.map some) none, footFlags := SMap.set u.footFlags row (some flags) none }

def ArrayUnit.plane (u : ArrayUnit) (p : Fin 2) : Plane := if p = 0 then u.plane0 else u.plane1
def ArrayUnit.setPlane (u : ArrayUnit) (p : Fin 2) (v : Plane) : ArrayUnit :=
  if p = 0 then { u with plane0 := v } else { u with plane1 := v }

/-! ### Issue (R160) -/

/-- The array has an entry under way whose next descriptor may issue. -/
def State.arrayRuns (s : State) (m : Nat) : Bool :=
  let u := s.array m
  s.diesIssue && u.entry.isSome && !u.stopped && !u.done

/-- The descriptor of the array's program that is next in order (R160 rule 2). -/
def State.nextArrayDesc (s : State) (m : Nat) : ArrayDesc :=
  let u := s.array m
  arrayDescAt (s.programOf m (u.entry.getD 0)) (128 * u.nextDesc)

/-- A named wait queue has an entry (rule 4). -/
def State.waitOk (s : State) (q : Nat) : Bool := q == noQueue || (s.queue q).canReceive

/-- The entry of a named wait queue is taken (rule 4). -/
def State.takeWait (s : State) (q : Nat) : State := if q = noQueue then s else s.takeQueue q

/-- The descriptor uses foot rows. -/
def ArrayDesc.usesFoot (x : ArrayDesc) : Bool := x.opcode == 2 || x.opcode == 3 || x.opcode == 4

/-- Rule 7: foot rows shared with a descriptor that has not completed, or completes in this very ac. -/
def ArrayUnit.footClear (u : ArrayUnit) (x : ArrayDesc) (ac : Nat) : Bool :=
  let clash := fun (y : ArrayIssue) => y.desc.usesFoot && !(y.desc.opcode == 2 && x.opcode == 2) &&
    decide (y.desc.footBase < x.footBase + x.rows) && decide (x.footBase < y.desc.footBase + y.desc.rows)
  u.outstanding.all (fun y => !clash y) && u.settled.all (fun y => !clash y || decide (y.completes < ac))

/-- Whether descriptor `x`, of opcode `op`, is the next of the program and nothing but its engine and its hazards can hold it back in
`ac` (R160 rules 2 to 4). -/
def State.arrayNext (s : State) (m : Nat) (x : ArrayDesc) (op ac : Nat) : Bool :=
  s.arrayRuns m && decide (x = s.nextArrayDesc m) && x.opcode == op && decide ((s.array m).issueFree ≤ ac)

/-- Storage errors that a descriptor meets (R169, R249). -/
def State.arrayUpset (s : State) (m : Nat) (x : ArrayUpset) : State :=
  if x = ArrayUpset.none ∨ !s.arrayRuns m then s
  else
    let src := Source.ofDie (dieOfArray m)
    let p := s.ownerOfArray m
    let s1 := if x.parity then
        (s.setArray m { s.array m with stopped := true }).raiseFor src FC.maDescriptorParity m p
      else s
    let s2 := if x.corrected then (s1.raiseFor src FC.maFootCorrected m p).bump (8 * m + 6) 1 else s1
    let s3 := x.words.foldl (fun s w =>
      let u := s.array m
      (s.setArray m { u with foot := SMap.set u.foot (512 * w.1 + w.2) (some 0) none,
                             footFlags := SMap.set u.footFlags w.1 (some (u.rowFlags m w.1 ||| waInvalid)) none }).raiseFor
        src FC.maFootUncorrected m p) s2
    s3.memErrors p x.mem

/-- ac in which some descriptor is under way that this one adds: from its issue to its completion, less what others cover. -/
def ArrayUnit.busyAdded (u : ArrayUnit) (ac completes : Nat) : Nat :=
  completes + 1 - u.outstanding.foldl (fun b y => max b (y.completes + 1)) ac

/-! ### Port cycles (R163, R164, R688) -/

/-- Write time per output row of a `DRAIN` (R163). -/
def drainQ : Format → Nat
  | .wa64 => 4
  | .int32 => 2
  | .fp32 => 2
  | _ => 1

/-- The bench port of an opcode (R267): feed 0, load 1, foot read 2, foot write 3. -/
def arrayPort (op : Nat) : Nat :=
  match op with
  | 1 => 1
  | 2 => 0
  | 3 => 2
  | _ => 3

/-- The port cycles of a descriptor whose data tensor has format `f`: how many, the ac from issue to the first, the ac between two. -/
def ArrayDesc.cycles (x : ArrayDesc) (f : Format) : Nat × Nat × Nat :=
  match x.opcode with
  | 1 => (x.cols, 0, 1)
  | 2 => (x.rows, 0, rowInterval f)
  | 3 => (2 * x.rows, 1, 1)
  | _ => (drainQ f * x.rows, 7, 1)

/-- The ac from its last port cycle to its completion, and to the first in which its engine is free (R163). -/
def ArrayDesc.after (x : ArrayDesc) (f : Format) : Nat × Nat :=
  match x.opcode with
  | 1 => (4, 1)
  | 2 => (1030, rowInterval f)
  | 3 => (8, 9)
  | _ => (0, 1)

/-- The engines as a descriptor leaves them whose last port cycle falls in ac `last`: the one it uses, and the hazards of its plane
(R151, R160 rules 5 and 6). -/
def ArrayUnit.scheduled (u : ArrayUnit) (x : ArrayDesc) (f : Format) (last : Nat) : ArrayUnit :=
  let free := last + (x.after f).2
  match x.opcode with
  | 1 => { u with loadFree := free, passAfter := setNth u.passAfter x.plane (last + 2 - x.cols) }
  | 2 => { u with passFree := free, loadAfter := setNth u.loadAfter x.plane (last + 512 + rowInterval f - 1) }
  | _ => { u with footFree := free }

/-- The bench accesses of a descriptor, from a list of port cycles numbered from `first`; a `DRAIN` adds its flag byte. -/
def arrayAccesses (m : Nat) (x : ArrayDesc) (index first : Nat) (l : List (Nat × Nat)) : List BenchAccess :=
  let put := fun (a g : Nat) (act : BenchAct) =>
    ({ die := dieOfArray m, due := 4 * g, nominal := 4 * a, write := x.opcode == 4, port := 4 * (m % 4) + arrayPort x.opcode,
       act := act } : BenchAccess)
  (l.zip (List.range l.length)).map (fun y => put y.1.1 y.1.2 (.arrayCycle m index (first + y.2))) ++
    (if x.opcode = 4 then (l.getLast?.map (fun y => put y.1 y.2 (.arrayFlag m index))).toList else [])

/-- The descriptor issues: its wait entry taken, its port cycles laid out, it is outstanding until it completes, and the next may issue
from the next ac. -/
def State.arrayIssue (s : State) (m : Nat) (x : ArrayDesc) (f : Format) (ac : Nat) (badColumns : List Nat) (badPair : Bool) : State :=
  let s1 := s.takeWait x.waitQueue
  let u := s1.array m
  let c := x.cycles f
  let port := 4 * (m % 4) + arrayPort x.opcode
  let l := s1.portCycles (s1.ownerOfArray m) (dieOfArray m) port c.2.2 c.1 (ac + c.2.1)
  let last := (l.getLast?.map (·.2)).getD ac
  let done := last + (x.after f).1
  let i : ArrayIssue := { desc := x, index := u.nextDesc, issued := ac, completes := done, rowsRead := [], badColumns := badColumns,
                          badPair := badPair, drainFlags := 0 }
  let s2 := s1.setArray m { u.scheduled x f last with nextDesc := u.nextDesc + 1, issueFree := ac + 1,
                                                      outstanding := u.outstanding ++ [i] }
  let s3 := (arrayAccesses m x u.nextDesc 0 l).foldl (fun s y => s.addAccess y) s2
  (s3.bump (8 * m + 4) (u.busyAdded ac done)).bump (8 * m + 5) (last - (ac + c.2.1 + c.2.2 * (c.1 - 1)))

/-! ### LOAD (R149 to R151, R168) -/

/-- One column as it enters a plane: element codes, scale bytes, and whether the column is invalid. Whatever is invalid or
poisoned stands as the zero code; a scale that is, as 0xFF (R128). -/
def loadColumn (codes : List (Option (Option Nat))) (scales : List (Option Nat)) : List Nat × List Nat × Bool :=
  (codes.map (fun c => (c.getD none).getD 0), scales.map (fun x => x.getD 255),
   codes.any (fun c => (c.getD none).isNone) || scales.any (fun x => x.getD 255 == 255))

/-- The plane takes one column. -/
def Plane.setColumn (pl : Plane) (n : Nat) (c : List Nat × List Nat × Bool) : Plane :=
  { pl with weights := SMap.setRun pl.weights (2048 * n) c.1 0, scales := SMap.setRun pl.scales (64 * n) c.2.1 0,
            invalidCols := if c.2.2 then pl.invalidCols ++ [n] else pl.invalidCols }

/-- Row or column `r` of a descriptor's tensor as it is read: `k` element codes and their scale bytes. -/
def State.readRow (s : State) (m : Nat) (x : ArrayDesc) (f : Format) (base r k : Nat) :
    List (Option (Option Nat)) × List (Option Nat) × State :=
  let p := s.ownerOfArray m
  let i := x.first + r * x.stride
  let e := s.readElems p f base i k
  let c := e.2.readScales p f (s.scaleAt m x.scaleTensor) i k
  (e.1, c.1, c.2)

/-- Column `n` of a `LOAD` is read and enters its plane. -/
def State.loadCycle (s : State) (m : Nat) (x : ArrayDesc) (f : Format) (base n : Nat) : State :=
  let r := s.readRow m x f base n x.kUsed
  let u := r.2.2.array m
  r.2.2.setArray m (u.setPlane x.plane ((u.plane x.plane).setColumn n (loadColumn r.1 r.2.1)))

/-! ### PASS (R146 to R148, R153) -/

/-- The weights of column `n` of a plane, for the first `k` indices of K. -/
def Plane.column (pl : Plane) (f : Format) (n k : Nat) : List FVal :=
  (List.range k).map (fun i =>
    scaled f (some (some (SMap.get pl.weights (i + 2048 * n) 0)))
      (some (SMap.get pl.scales (i / 32 + 64 * n) (if n < pl.cols then 0 else 127))))

/-- The sum of one column's quantized terms, and their flags (R127, R129, R148). -/
def columnSum (w : Int) : List FVal → List FVal → Nat × Nat
  | a :: as, b :: bs =>
    let t := quantize (a.mul b) w
    let r := columnSum w as bs
    (wa64Add (wa64OfInt t.1) r.1, t.2 ||| r.2)
  | _, _ => (0, 0)

/-- One foot row after its terms have been added (R153). -/
def ArrayUnit.addRow (u : ArrayUnit) (m row : Nat) (acc : Bool) (sums : List Nat) (flags : Nat) : ArrayUnit :=
  let v := if acc then (sums.zip (List.range sums.length)).map (fun x => wa64Add (u.footWord m row x.2) x.1) else sums
  u.setFootRow row v (if acc then u.rowFlags m row ||| flags else flags)

/-- Whether the plane of a `PASS` is loaded and accepts activation format `a` (R146). -/
def Plane.accepts (pl : Plane) (a : Format) : Bool :=
  pl.loaded && (match Format.ofCode pl.format with
    | some f => pairOk f a
    | none => false)

/-- The activation elements that a `PASS` reads of each row: as many as its plane's `K_USED`; where the plane has none, or the pair is bad,
as many as the loader has checked (R162; DEDUCED: their values serve nothing). -/
def Plane.reads (pl : Plane) (a : Format) : Nat := if pl.accepts a then pl.kUsed else kPlane a

/-- Row `r` of a `PASS` is read and enters the array (R147): its terms reach the foot by its completion. -/
def State.passCycle (s : State) (m : Nat) (x : ArrayDesc) (a : Format) (base r index : Nat) : State :=
  let row := s.readRow m x a base r (((s.array m).plane x.plane).reads a)
  let u := row.2.2.array m
  let add := fun (y : ArrayIssue) => if y.index = index then { y with rowsRead := y.rowsRead ++ [(row.1, row.2.1)] } else y
  row.2.2.setArray m { u with outstanding := u.outstanding.map add }

/-- Row `r` of a `PASS` with activation format `a` as its terms are added into the foot (R148, R153): a bad plane or pair gives zero terms
and `WA_INVALID` (R146), and so does a column that is invalid or fails its parity (R168, R169). -/
def ArrayUnit.passRow (u : ArrayUnit) (m : Nat) (i : ArrayIssue) (a : Format) (r : Nat)
    (row : List (Option (Option Nat)) × List (Option Nat)) : ArrayUnit :=
  let x := i.desc
  let pl := u.plane x.plane
  if i.badPair then u.addRow m (x.footBase + r) x.acc (List.replicate x.cols 0) waInvalid
  else
    let f := (Format.ofCode pl.format).getD .raw
    let acts := (row.1.zip (List.range row.1.length)).map (fun y => scaled a y.1 (row.2.getD (y.2 / 32) none))
    let sums := (List.range x.cols).map (fun n =>
      columnSum x.window (if i.badColumns.contains n then [] else pl.column f n pl.kUsed) acts)
    u.addRow m (x.footBase + r) x.acc (sums.map Prod.fst)
      (sums.foldl (fun f y => f ||| y.2) (if pl.invalidCols.isEmpty then 0 else waInvalid))

/-- The rows a `PASS` has read are added into the foot. -/
def State.finishPass (s : State) (m : Nat) (i : ArrayIssue) : State :=
  match s.tensorAt m i.desc.dataTensor with
  | none => s
  | some t =>
    let u := (i.rowsRead.zip (List.range i.rowsRead.length)).foldl (fun (u : ArrayUnit) y => u.passRow m i t.1 y.2 y.1) (s.array m)
    s.setArray m { u with outstanding := u.outstanding.map (fun y => if y.index = i.index then { y with rowsRead := [] } else y) }

/-- Before a plane is loaded anew, the passes on it take their sums from what it held: their last rows have left it (R151). -/
def State.finishPasses (s : State) (m : Nat) (p : Fin 2) : State :=
  (s.array m).outstanding.foldl (fun s i => if i.desc.opcode = 2 ∧ i.desc.plane = p then s.finishPass m i else s) s

/-- Columns that fail their parity during a `PASS`: marked invalid until reloaded (R169). -/
def State.failColumns (s : State) (m : Nat) (p : Fin 2) : List Nat → State
  | [] => s
  | n :: r =>
    let u := s.array m
    let pl := u.plane p
    ((s.setArray m (u.setPlane p { pl with invalidCols := pl.invalidCols ++ [n] })).raiseFor (Source.ofDie (dieOfArray m))
      FC.maPlaneParity m (s.ownerOfArray m)).failColumns m p r

/-! ### FOOT_LOAD (R154) -/

/-- The flag byte of a descriptor: 0 where none is named; a poisoned one reads `WA_INVALID` (DEDUCED, log entry 20). -/
def State.readFlagByte (s : State) (m : Nat) (x : ArrayDesc) : Nat × State :=
  if x.flagTensor = 0 then (0, s)
  else
    let r := s.readMem (s.ownerOfArray m) (s.scaleAt m x.flagTensor + x.flagOffset) 1
    ((dataNat r.1).getD waInvalid % 16, r.2)

/-- Port cycle `c` of a `FOOT_LOAD`: half a row, 256 words (R688); the first cycle of a row gives it the flag byte. A poisoned word becomes
zero and sets its row's `WA_INVALID` (R250). -/
def State.footCycle (s : State) (m : Nat) (x : ArrayDesc) (base c : Nat) : State :=
  let row := x.footBase + c / 2
  let col := 256 * (c % 2)
  let n := min 256 (x.cols - col)
  let e := s.readElems (s.ownerOfArray m) .wa64 base (x.first + c / 2 * x.stride + col) n
  let fl := if c % 2 = 0 then e.2.readFlagByte m x else ((e.2.array m).rowFlags m row, e.2)
  let u := fl.2.array m
  let bad := e.1.any (fun c => c.isNone)
  fl.2.setArray m { u with
    foot := SMap.setRun u.foot (512 * row + col) (e.1.map (fun c => some ((c.getD none).getD 0))) none,
    footFlags := SMap.set u.footFlags row (some (if bad then fl.1 ||| waInvalid else fl.1)) none }

/-! ### DRAIN (R155, R156) -/

/-- The rounding of output element `i` (R143, R155). -/
def drainMode (x : ArrayDesc) (jobFrame i : Nat) : Rounding :=
  if x.rmode = 1 then .stochastic (stochR jobFrame x.dataTensor i) else .rne

/-- Words of one output row in an unscaled format: their bytes and whether a value was limited. -/
def drainPlain (f : Format) (x : ArrayDesc) (jobFrame first : Nat) (v : List Nat) : Bytes × Bool :=
  let r := (v.zip (List.range v.length)).map (fun y => convertOut f y.1 x.window (drainMode x jobFrame (first + y.2)))
  (r.flatMap (fun c => leBytes (f.elemBits / 8) c.1), r.any Prod.snd)

/-- Element codes of a block packed as R123 says. -/
def packCodes (bits : Nat) (codes : List Nat) : Bytes :=
  leBytes (codes.length * bits / 8) (codes.foldr (fun c acc => c + 2 ^ bits * acc) 0)

/-- Blocks of 32 of one output row in an MX format: element bytes, scale bytes, and whether a value was limited (R139). -/
def drainBlocks (f : Format) (x : ArrayDesc) (jobFrame first : Nat) (v : List Nat) : List Nat → Bytes × Bytes × Bool
  | [] => ([], [], false)
  | b :: rest =>
    let blk := (v.drop (32 * b)).take 32
    let vals := blk.map (fun a => let i := sext 64 a; (decide (i < 0), i.natAbs, x.window))
    let modes := (List.range blk.length).map (fun j => drainMode x jobFrame (first + 32 * b + j))
    let r := mxBlock f vals modes
    let t := drainBlocks f x jobFrame first v rest
    (packCodes f.elemBits r.2.1 ++ t.1, BitVec.ofNat 8 r.1 :: t.2.1, r.2.2 || t.2.2)

/-- Flags join those of a `DRAIN` under way. -/
def ArrayUnit.addDrainFlags (u : ArrayUnit) (index flags : Nat) : ArrayUnit :=
  let add := fun (y : ArrayIssue) => if y.index = index then { y with drainFlags := y.drainFlags ||| flags } else y
  { u with outstanding := u.outstanding.map add, settled := u.settled.map add }

/-- Port cycle `c` of a `DRAIN`: 512 / Q words of a row are converted and written to bench (R155, R688), stochastic rounding keyed by the frame
in which they are. -/
def State.drainCycle (s : State) (m : Nat) (x : ArrayDesc) (f : Format) (base c index : Nat) : State :=
  let q := drainQ f
  let row := x.footBase + c / q
  let col := 512 / q * (c % q)
  let u := s.array m
  let v := (List.range (min (512 / q) (x.cols - col))).map (fun n => u.footWord m row (col + n))
  let first := x.first + c / q * x.stride + col
  let jf := (s.ownerOfArray m).elim 0 s.jobFrame
  let z := if f.mx then
      let y := drainBlocks f x jf first v (List.range (v.length / 32))
      ((s.writeMem (base + first * f.elemBits / 8) (goodData y.1)).writeMem (s.scaleAt m x.scaleTensor + first / 32) (goodData y.2.1), y.2.2)
    else
      let y := drainPlain f x jf first v
      (s.writeMem (base + first * f.elemBits / 8) (goodData y.1), y.2)
  z.1.setArray m ((z.1.array m).addDrainFlags index (u.rowFlags m row ||| (if z.2 then outRange else 0)))

/-- The flag byte of a `DRAIN` ORed into bench and into the partition's frame byte in its completion ac (R156). -/
def State.drainFlagOut (s : State) (m : Nat) (i : ArrayIssue) : State :=
  let s1 := if i.desc.flagTensor = 0 then s else s.orByte (s.scaleAt m i.desc.flagTensor + i.desc.flagOffset) i.drainFlags
  s1.orFrameFlags (s1.ownerOfArray m) i.drainFlags

/-! ### What a port cycle does at bench -/

/-- The descriptor of an entry that has issued, completed or not. -/
def ArrayUnit.issueOf (u : ArrayUnit) (index : Nat) : Option ArrayIssue := (u.outstanding ++ u.settled).find? (fun i => i.index == index)

/-- Port cycle `c` of descriptor `index` of array `m`; one that the array has lost does nothing (R152). -/
def State.arrayCycle (s : State) (m index c : Nat) : State :=
  match (s.array m).issueOf index with
  | none => s
  | some i =>
    match s.tensorAt m i.desc.dataTensor with
    | none => s
    | some t =>
      match i.desc.opcode with
      | 1 => s.loadCycle m i.desc t.1 t.2 c
      | 2 => s.passCycle m i.desc t.1 t.2 c index
      | 3 => s.footCycle m i.desc t.2 c
      | _ => s.drainCycle m i.desc t.1 t.2 c index

/-- The flag byte of a `DRAIN` that has written its last row. -/
def State.arrayFlag (s : State) (m index : Nat) : State :=
  match (s.array m).issueOf index with
  | none => s
  | some i => s.drainFlagOut m i

/-! ### A kerf passes while an array works (R165, R274) -/

/-- Times counted from the old strobe as they are counted from the new one, `k` ac later; what lies before it is 0. -/
def ArrayUnit.rebase (u : ArrayUnit) (k : Nat) : ArrayUnit :=
  let sub := fun (y : ArrayIssue) => { y with issued := y.issued - k, completes := y.completes - k }
  { u with loadFree := u.loadFree - k, passFree := u.passFree - k, footFree := u.footFree - k, issueFree := u.issueFree - k,
           loadAfter := u.loadAfter.map (· - k), passAfter := u.passAfter.map (· - k), outstanding := u.outstanding.map sub,
           settled := (u.settled.filter (fun y => decide (k ≤ y.completes))).map sub }

/-- The port cycles that descriptor `i` has still to make, granted by the table as it restarts at the kerf. -/
def State.regrant (s : State) (m : Nat) (i : ArrayIssue) : State :=
  let mine := fun (y : BenchAccess) => match y.act with
    | .arrayCycle n j _ => n == m && j == i.index
    | .arrayFlag n j => n == m && j == i.index
    | _ => false
  let left := s.mem.bench.filter (fun y => mine y && (match y.act with | .arrayCycle _ _ _ => true | _ => false))
  match left, s.tensorAt m i.desc.dataTensor with
  | y :: _, some t =>
    let c := i.desc.cycles t.1
    let port := 4 * (m % 4) + arrayPort i.desc.opcode
    let l := s.portCycles (s.ownerOfArray m) (dieOfArray m) port c.2.2 left.length (y.nominal / 4)
    let last := (l.getLast?.map (·.2)).getD 0
    let u := s.array m
    let done := last + (i.desc.after t.1).1
    let s1 := s.setArray m { u.scheduled i.desc t.1 last with
      outstanding := u.outstanding.map (fun z => if z.index = i.index then { z with completes := done } else z) }
    let s2 : State := { s1 with mem := { s1.mem with bench := s1.mem.bench.filter (fun y => !mine y) } }
    (arrayAccesses m i.desc i.index (c.1 - left.length) l).foldl (fun s y => s.addAccess y) s2
  | _, _ => s

end Sys2Proof.Machine
end

