-- ==== Sys2Proof/Machine/MoverOps.lean ====
section
/-! DEFINITION. What mover descriptors do (R275 to R286): issue, the accesses of a transfer in slots of their ports, the staging buffer, the
tiers' own operations (R231 to R255). -/

namespace Sys2Proof.Machine

/-! ### Movers -/

/-- The die of a mover 32n + m (R17). -/
def dieOfMover (k : Nat) : Nat := k / 32

/-- The placement of a tensor that mover `k` names. -/
def State.moverTensor (s : State) (k t : Nat) : Option Placement :=
  match s.ownerOfMover k with
  | some p => s.placement p t
  | none => none

/-- The module address of a tensor that mover `k` names, 0 for none. -/
def State.moverBase (s : State) (k t : Nat) : Nat := (s.moverTensor k t).elim 0 (·.address)

/-- Bytes a descriptor moves (R278). -/
def MvDesc.total (x : MvDesc) : Nat := x.rows * x.rowBytes

/-- The aligned unit of an access to an address (R282). -/
def accessUnit (a : Nat) : Nat :=
  match (regionOf a).1 with
  | .tier2 => 4096
  | .tier3 => 4096
  | _ => 2048

/-- Address and length of the access at byte `pos` of a transfer: within one row and one aligned unit (R278, R282). -/
def accessAt (base offset stride rowBytes pos : Nat) : Nat × Nat :=
  let a := base + offset + pos / rowBytes * stride + pos % rowBytes
  (a, min (rowBytes - pos % rowBytes) (accessUnit a - a % accessUnit a))

def MvIssue.srcDone (i : MvIssue) : Bool := decide (i.desc.total ≤ i.srcPos)
def MvIssue.dstDone (i : MvIssue) : Bool := decide (i.desc.total ≤ i.dstPos)

/-- The source and the destination access that a transfer makes next. -/
def MvIssue.source (i : MvIssue) : Nat × Nat := accessAt i.srcBase i.desc.srcOffset i.desc.srcStride i.desc.rowBytes i.srcPos
def MvIssue.dest (i : MvIssue) : Nat × Nat := accessAt i.dstBase i.desc.dstOffset i.desc.dstStride i.desc.rowBytes i.dstPos

/-- The mover has an entry under way whose next descriptor may issue. -/
def State.moverRuns (s : State) (k : Nat) : Bool :=
  let v := s.mover k
  s.diesIssue && v.entry.isSome && !v.stopped && !v.done

/-- The order of issue (R281): the previous descriptor has issued its last source access and those before it have taken their
last destination access; for `FENCE` it has completed and sent its signal. -/
def Mover.orderOk (v : Mover) (fence : Bool) : Bool :=
  if fence then v.active.isEmpty && v.deferred.all (fun y => y.1 + 1 != v.issued)
  else match v.active.reverse with
    | [] => true
    | last :: before => last.srcDone && before.all (·.dstDone)

/-- The descriptor of the mover's program that is next in order. -/
def State.nextMvDesc (s : State) (k : Nat) : MvDesc :=
  let v := s.mover k
  mvDescAt (s.programOf (0x2000 + k) (v.entry.getD 0)) (64 * v.nextDesc)

/-- Whether descriptor `x`, of opcode `op`, can issue in qc `qc` (R281). -/
def State.moverOk (s : State) (k : Nat) (x : MvDesc) (op qc : Nat) : Bool :=
  s.moverRuns k && decide (x = s.nextMvDesc k) && x.opcode == op && decide ((s.mover k).issueQc ≤ qc) &&
    (s.mover k).orderOk x.fence && s.waitOk x.waitQueue

/-- A descriptor fails its parity check at issue: nothing further issues in the frame (R287). -/
def State.moverParity (s : State) (k : Nat) : State :=
  (s.setMover k { s.mover k with stopped := true }).raiseFor (Source.ofDie (dieOfMover k)) FC.mvDescriptorParity (0x2000 + k)
    (s.ownerOfMover k)

/-- A descriptor issues; a `FILL` has issued its last source access at once, and its bytes are there (R281 to R283). -/
def State.moverIssue (s : State) (k : Nat) (x : MvDesc) (qc : Nat) : State :=
  let s1 := s.takeWait x.waitQueue
  let v := s1.mover k
  let fill := x.opcode == 4
  s1.setMover k { v with
    nextDesc := v.nextDesc + 1, issued := v.issued + 1, issueQc := qc + 1,
    active := v.active ++ [{ desc := x, tag := v.issued, orphan := false, srcBase := s1.moverBase k x.srcTensor,
                             dstBase := s1.moverBase k x.dstTensor, srcPos := if fill then x.total else 0, buffer := [], dstPos := 0,
                             arrived := if fill then [(x.total, qc)] else [] }] }

/-! ### Accesses (R280, R282, R283) -/

/-- Change the descriptor under way that satisfies `p`, the oldest first. -/
def changeIssue (p : MvIssue → Bool) (f : MvIssue → MvIssue) : List MvIssue → List MvIssue
  | [] => []
  | i :: r => if p i then f i :: r else i :: changeIssue p f r

/-- Bytes of the staging buffer that are held or reserved (R282): a `FILL` takes none. -/
def Mover.used (v : Mover) : Nat :=
  v.active.foldl (fun n i => if i.desc.opcode = 4 then n else n + (i.srcPos - i.dstPos)) 0

/-- Capacity of the staging buffer (R275). -/
def stagingBytes : Nat := 65536

/-- `MV_BOUNDS` (R280). -/
def State.mvBounds (s : State) (k : Nat) : State :=
  s.raiseFor (Source.ofDie (dieOfMover k)) FC.mvBounds (0x2000 + k) (s.ownerOfMover k)

/-- Whether mover `k` may access the bytes (R275, R280): its partition's granules, and no other die's bench. -/
def State.moverMay (s : State) (k a n : Nat) : Bool :=
  (match s.ownerOfMover k with
   | some p => s.owns p a n
   | none => false) &&
  (match (regionOf a).1 with
   | .bench d => d == dieOfMover k
   | _ => true)

/-- The stack at an address is in its refresh window and serves no access: 10 RT periods from each RT edge of value 10k modulo 195, but in
STANDBY (R237). -/
def State.inRefresh (s : State) (a : Nat) : Bool :=
  match (regionOf a).1 with
  | .tier1 k => s.mod.mode != .standby && decide (s.rt % 195 / 10 = k)
  | _ => false

/-- Number of the tier at an address: 0 for a bench. -/
def tierOf (a : Nat) : Nat :=
  match (regionOf a).1 with
  | .bench _ => 0
  | .tier1 _ => 1
  | .tier2 => 2
  | _ => 3

/-- A slot of the mover's port serves an access of `n` bytes (R272, R675). -/
def State.countMover (s : State) (k n : Nat) : State :=
  let s1 := s.setMover k { s.mover k with slotsUsed := (s.mover k).slotsUsed + 1 }
  (s1.bump (0x4A0 + 4 * k) 1).bump (0x4A2 + 4 * k) n

/-- The bytes of a queue entry pass through the mover (R675). -/
def State.countEntry (s : State) (k : Nat) : State := s.bump (0x4A2 + 4 * k) 512

/-- Count an access of the tier at an address, a read or a write, of a mover or of the host (R675). -/
def State.countTier (s : State) (a : Nat) (write host : Bool) : State :=
  match (regionOf a).1 with
  | .tier1 k => s.bump (0x6D2 + 4 * k) 1
  | .tier2 => s.bump ((if host then 0x714 else 0x712) + b2n write) 1
  | .tier3 => s.bump (if write then 0x71A else 0x718) 1
  | _ => s

/-- A slot of mover `k` that an access of descriptor `i` at `a` can take now: none where the port holds none, or it has been used
(R236, R240, R242, R272). Transfers of a jig that has gone go on in slots of the schedule that nothing else has taken (DEDUCED from
R58 and R286). A bench has the number of its qc as the instant. -/
def State.moverSlot (s : State) (k : Nat) (i : MvIssue) (a : Nat) (write : Bool) : Option TierSlot :=
  let p := s.ownerOfMover k
  if tierOf a = 0 then
    let qc := s.qcOf (dieOfMover k)
    if (i.orphan || s.benchGrant p (dieOfMover k) (80 + k % 32) qc) && (s.mover k).lastQc != qc + 1 then
      some { resource := dieOfMover k, slot := qc, instant := qc, schedule := 19 }
    else none
  else
    match s.tierSlot a write with
    | none => none
    | some x => if (i.orphan || s.tierGrant p k x) && s.slotUnused x && !s.inRefresh a then some x else none

/-- The access takes its slot. -/
def State.takeSlot (s : State) (k : Nat) (x : TierSlot) : State :=
  if x.schedule = 19 then s.setMover k { s.mover k with lastQc := x.slot + 1 } else s.useSlot x

/-- Ticks from the start of the qc from which bytes are in the buffer to the first slot on a tier that a write can use: 8 ns to a stack of
the mover's own die, 88 ns to another, 40 ns to the hub (R283). -/
def pathTicks (die a : Nat) : Nat :=
  match (regionOf a).1 with
  | .tier1 k => if k / 4 = die then 6336 else 69696
  | .bench _ => 0
  | _ => 31680

/-- The qc from which byte `pos` of a transfer is in the buffer. -/
def MvIssue.arrival (i : MvIssue) (pos : Nat) : Option Nat := (i.arrived.find? (fun y => decide (pos < y.1))).map (·.2)

/-- The bytes of a destination access are in the buffer early enough for the slot (R283). -/
def State.arrivedFor (s : State) (k : Nat) (i : MvIssue) (a n instant : Nat) : Bool :=
  match i.arrival (i.dstPos + n - 1) with
  | none => false
  | some u =>
    let die := dieOfMover k
    if tierOf a = 0 then decide (u + 1 ≤ s.qcOf die)
    else decide ((s.dieClock die).edgeOf (6 * u) + pathTicks die a ≤ tick * instant)

/-- The slot that the next destination access of mover `k` can take now, if its bytes are there (R282 item 2). -/
def State.destSlot (s : State) (k : Nat) : Option TierSlot :=
  match (s.mover k).active.find? (fun i => !i.dstDone) with
  | none => none
  | some i =>
    if i.desc.opcode = 2 then none
    else
      let x := i.dest
      match s.moverSlot k i x.1 true with
      | none => none
      | some y => if s.arrivedFor k i x.1 x.2 y.instant then some y else none

/-- The bytes as the tier holds them in the slot (R238, R241, R243), for later delivery. -/
def State.holdRead (s : State) (tier : Nat) (who : Requester) (tag a : Nat) (d : Data) (slot : Nat) : State :=
  { s with mem := { s.mem with
      held := s.mem.held ++ [{ tier := tier, who := who, tag := tag, address := a, data := d, slot := slot }] } }

/-- Bytes delivered into the buffer of descriptor `tag` of mover `k`, there from qc `u` on. -/
def State.intoBuffer (s : State) (k tag : Nat) (d : Data) (u : Nat) : State :=
  let v := s.mover k
  s.setMover k { v with active := changeIssue (fun i => i.tag == tag) (fun i =>
    { i with buffer := i.buffer ++ d, arrived := i.arrived ++ [(i.dstPos + i.buffer.length + d.length, u)] }) v.active }

/-- A bench read of mover `k` takes effect: its bytes are in the buffer from three qc later (R283). -/
def State.moverBenchRead (s : State) (k tag a n : Nat) (errs : List (Nat × Bool)) (qc : Nat) : State :=
  let p := s.ownerOfMover k
  if s.moverMay k a n then
    let r := (s.memErrors p errs).readMem p a n
    r.2.intoBuffer k tag r.1 (qc + 3)
  else (s.mvBounds k).intoBuffer k tag (List.replicate n none) (qc + 3)

/-- A Tier 3 read in the slot at `instant` sees a sector as it was before a write in that very hc (R245). -/
def State.sectorBefore (s : State) (a n instant : Nat) : Data :=
  match s.mem.t3Before with
  | some (i, b, d) => if i = instant ∧ b = a - a % 4096 then (d.drop (a % 4096)).take n else s.mem.readData a n
  | none => s.mem.readData a n

/-- Poison that a read finds for the first time is marked and raised in its slot (R250). -/
def State.markRead (s : State) (a n : Nat) : State :=
  (touchedUnits n a (a + n)).foldl (fun s u => if s.mem.unitPoisoned u.1 u.2 then s.findPoison u.1 else s) s

/-- A read of a tier in the slot at `instant`: its data are held for later delivery. A Tier 3 sector shows `MEM_POISON_READ` as it is
released (R244). -/
def State.tierRead (s : State) (p : Option Nat) (who : Requester) (tag a n instant : Nat) (host : Bool) : State :=
  let s1 := s.countTier a false host
  if tierOf a = 3 then
    let d := s1.sectorBefore a n instant
    (s1.markRead a n).holdRead 3 who tag a d instant
  else
    let r := s1.readMem p a n
    r.2.holdRead (tierOf a) who tag a r.1 instant

/-- A source access of descriptor `tag` on a tier in the slot at `instant`. -/
def State.sourceRead (s : State) (k tag a n instant : Nat) (errs : List (Nat × Bool)) : State :=
  let p := s.ownerOfMover k
  if s.moverMay k a n then (s.memErrors p errs).tierRead p (.mover k) tag a n instant false
  else (s.mvBounds k).holdRead (tierOf a) (.mover k) tag a (List.replicate n none) instant

/-- The bytes of an entry as a `PULL` writes them (R264, R287). -/
def pullData (e : Option QEntry) : Data :=
  match e with
  | some { data := some d } => d
  | _ => List.replicate 512 (some 0)

/-- The transfer has issued a source access of `n` bytes: their room is reserved (R282 item 1). -/
def State.reserve (s : State) (k n : Nat) : State :=
  let v := s.mover k
  let s1 := s.setMover k { v with
    active := changeIssue (fun j => !j.srcDone) (fun j => { j with srcPos := j.srcPos + n }) v.active }
  s1.peak (0x4A3 + 4 * k) (s1.mover k).used

/-- The source side of descriptor `i` makes its next access in a slot of its port; a destination access that can take the slot takes it
(R282). -/
def State.sourceAccess (s : State) (k : Nat) (i : MvIssue) (errs : List (Nat × Bool)) : State :=
  let qc := s.qcOf (dieOfMover k)
  if i.desc.opcode = 3 then
    let q := s.queue i.desc.dataQueue
    if q.canReceive && decide ((s.mover k).used + 512 ≤ stagingBytes) then
      (((s.reserve k 512).countEntry k).takeQueue i.desc.dataQueue).intoBuffer k i.tag (pullData q.visible.head?) (qc + 2)
    else s
  else
    let x := i.source
    match s.moverSlot k i x.1 false with
    | none => s
    | some y =>
      if decide ((s.mover k).used + x.2 ≤ stagingBytes) && decide (s.destSlot k ≠ some y) then
        let s1 := ((s.reserve k x.2).countMover k x.2).takeSlot k y
        if tierOf x.1 = 0 then
          s1.addAccess { die := dieOfMover k, due := s1.rc (dieOfMover k), nominal := s1.rc (dieOfMover k), write := false,
                         port := 80 + k % 32, act := .moverRead k i.tag x.1 x.2 errs }
        else s1.sourceRead k i.tag x.1 x.2 y.instant errs
      else s

/-- Tier 3 wear in permille of the rating (R248). -/
def MemState.wearPermille (m : MemState) : Nat := m.t3Programmed / 10000000000000

/-- Bytes programmed into Tier 3 flash, and what its wear raises (R248). -/
def State.t3Program (s : State) (n : Nat) : State :=
  let s1 : State := { s with mem := { s.mem with t3Programmed := s.mem.t3Programmed + n } }
  let w := s1.mem.wearPermille
  let s2 := (s1.bump 0x71E n).level 0x71F w
  let s3 := if 800 ≤ w ∧ !s2.mem.t3WearWarned then
      ({ s2 with mem := { s2.mem with t3WearWarned := true } } : State).raise .hd FC.t3WearWarn noUnit w
    else s2
  if 1000 ≤ w ∧ !s3.mem.t3WearLimited then
    ({ s3 with mem := { s3.mem with t3WearLimited := true } } : State).raise .hd FC.t3WearLimit noUnit w
  else s3

/-- The free spare of Tier 3 as its controller reports it: refusing below 1 %, until back at 2 % (R247). -/
def State.t3Spare (s : State) (permille : Option Nat) : State :=
  match permille with
  | none => s
  | some p =>
    { s with mem := { s.mem with t3SparePermille := p,
                                 t3Refusing := if p < 10 then true else if 20 ≤ p then false else s.mem.t3Refusing } }

/-- A Tier 3 write in the granted slot at `instant` for partition `p`: taken, what the sector held before kept for a read in the same hc, or
refused (R245 to R248). -/
def State.t3Write (s : State) (p : Option Nat) (a : Nat) (d : Data) (instant : Nat) (spare : Option Nat) : State :=
  if s.mem.t3Refusing ∨ 1100 ≤ s.mem.wearPermille then
    (((s.memStatus p memT3Refused).raise .hd FC.t3WriteRefused noUnit 0).bump 0x71B 1).t3Spare spare
  else
    let b := a - a % 4096
    let s1 : State := { s with mem := { s.mem with t3Before := some (instant, b, s.mem.readData b 4096) } }
    (((s1.writeMem a d).countTier a true false).t3Program 4096).t3Spare spare

/-- A destination write of mover `k` in its slot: dropped where the run-time check fails (R280). -/
def State.destWrite (s : State) (k a : Nat) (d : Data) (instant : Nat) (spare : Option Nat) : State :=
  if s.moverMay k a d.length then
    match tierOf a with
    | 0 => s.addAccess { die := dieOfMover k, due := s.rc (dieOfMover k), nominal := s.rc (dieOfMover k), write := true,
                         port := 80 + k % 32, act := .moverWrite k a d }
    | 3 => s.t3Write (s.ownerOfMover k) a d instant spare
    | _ => (s.writeMem a d).countTier a true false
  else s.mvBounds k

/-- The bytes a destination access writes: the pattern of a `FILL`, else the oldest of the buffer. -/
def MvIssue.destData (i : MvIssue) (n : Nat) : Data :=
  if i.desc.opcode = 4 then
    (List.range n).map (fun j => some (BitVec.ofNat 8 (i.desc.fillValue / 256 ^ ((i.dstPos + j) % 4))))
  else i.buffer.take n

/-- Bytes of the staging buffer found uncorrectable are written poisoned (R287). -/
def spoil (bad : List Nat) (d : Data) : Data :=
  (d.zip (List.range d.length)).map (fun y => if bad.contains y.2 then none else y.1)

/-- A destination access has taken the next `n` bytes and freed their room (R282 item 2); `bad` are bytes that the buffer has lost (R287). -/
def State.freeRoom (s : State) (k n : Nat) (bad : List Nat) : State :=
  let v := s.mover k
  let s1 := s.setMover k { v with active := changeIssue (fun j => !j.dstDone) (fun j =>
    { j with dstPos := j.dstPos + n, buffer := j.buffer.drop n }) v.active }
  if bad.isEmpty then s1
  else s1.raiseFor (Source.ofDie (dieOfMover k)) FC.mvBufferUncorrected (0x2000 + k) (s.ownerOfMover k)

/-- Times counted from the old kerf strobe as counted from the new one, `k` qc later (R658). -/
def Mover.rebase (v : Mover) (k : Nat) : Mover :=
  { v with lastQc := v.lastQc - k, issueQc := v.issueQc - k,
           active := v.active.map (fun i => { i with arrived := i.arrived.map (fun y => (y.1, y.2 - k)) }) }

end Sys2Proof.Machine
end

