-- ==== Sys2Proof/Machine/Bench.lean ====
section
/-! DEFINITION. Bench accesses as they take effect, in their order (R189, R234, R267, R683 step 6, R688), and a lane row's turn (R171 to R174,
R196). -/

namespace Sys2Proof.Machine

/-! ### Accesses take effect -/

/-- A load of a row's lanes takes effect: the selected lanes' words enter Vd. -/
def State.laneLoadNow (s : State) (c j d : Nat) (lanes : List (Bool × Nat)) : State :=
  let r := s.loadLanes c lanes
  let cl := r.2.cluster c
  r.2.setCluster c (cl.setReg j d (mergeLanes (lanes.map (·.1)) r.1 (cl.reg j d)))

/-- `SLFM` takes effect: bits [3:0] of the bench byte join the slot's flags (R221, R222). -/
def State.slotLoadNow (s : State) (c slot off : Nat) : State :=
  let x := s.loadFlagByte c off
  let cl := x.2.cluster c
  x.2.setCluster c { cl with slots := SMap.modify cl.slots slot AccSlot.zero (fun y => { y with flags := y.flags ||| x.1 % 16 }) }

/-- A bench access takes effect. -/
def State.runAccess (s : State) (x : BenchAccess) : State :=
  match x.act with
  | .laneLoad c j d lanes => s.laneLoadNow c j d lanes
  | .laneStore c lanes => s.storeLanes c lanes
  | .slotLoad c slot off => s.slotLoadNow c slot off
  | .slotStore c off v flagAt flags =>
    let s1 := s.storeSlot c off v
    let s2 := match flagAt with
      | some a => s1.orFlagByte c a flags
      | none => s1
    s2.orFrameFlags (s2.ownerOfCluster c) flags
  | .arrayCycle m i k => s.arrayCycle m i k
  | .arrayFlag m i => s.arrayFlag m i
  | .moverRead k tag a n errs => s.moverBenchRead k tag a n errs (x.nominal / 6)
  | .moverWrite _ a d => s.writeMem a d

/-- Every access on a list takes effect, in order. -/
def State.runAccesses (s : State) (l : List BenchAccess) : State := l.foldl (fun s x => s.runAccess x) s

/-- Accesses of die `n` due on root edges before the one under way take effect: those of one edge wait for one another, so that reads come
before writes and writes in port order. -/
def State.benchTo (s : State) (n : Nat) : State :=
  let due := fun (x : BenchAccess) => x.die == n && decide (x.due < s.rc n)
  let now := s.mem.bench.filter due
  if now.isEmpty then s
  else ({ s with mem := { s.mem with bench := s.mem.bench.filter (fun x => !due x) } } : State).runAccesses now

/-- The benches of the four dies. -/
def State.benchNow (s : State) : State := (List.range 4).foldl (fun s n => s.benchTo n) s

/-- Accesses of units for which `p` holds are given up. -/
def State.dropAccesses (s : State) (p : BenchAccess → Bool) : State :=
  { s with mem := { s.mem with bench := s.mem.bench.filter (fun x => !p x) } }

/-! ### A row's turn -/

/-- Row `j` of cluster `c` has its turn at time `t`: a row that has issued `END` leaves it empty; else it issues the word of its program,
which does `f`, unless the word fails its parity check (R174, R196). A word that is not the program's does not issue. -/
def State.laneTurn (s : State) (c j t : Nat) (u : LaneUpset) (word : Nat) (f : State → State) : Outcome :=
  let s := (s.upTo t).benchTo (dieOfCluster c)
  if s.rowTurn c j then
    if ((s.cluster c).row j).done then .next ((s.takeTurn c).emptyTurn c)
    else if s.laneWord c j = word then
      let s1 := (s.takeTurn c).laneUpset c j u
      if (s1.cluster c).stopped then .next s1 else .next (f s1)
    else .next s
  else .next s

/-- An instruction with guard issues at its row's turn. -/
def State.laneIssue (s : State) (w : LaneAt) (word : Nat) (f : State → State) : Outcome :=
  s.laneTurn w.cluster w.row w.t w.upset word f

/-- A row-wide instruction issues at its row's turn. -/
def State.rowIssue (s : State) (r : RowAt) (word : Nat) (f : State → State) : Outcome :=
  s.laneTurn r.cluster r.row r.t r.upset word f

/-! ### The kerf strobe (R165, R274, R658) -/

/-- What a due edge counted from the old strobe becomes, `r` being the root cycle that the strobe begins: whole cycles of `k` root
cycles, the one under way at the strobe counting in full. -/
def rebased (k r due : Nat) : Nat := k * (due / k - (r + k - 1) / k)

/-- Die `n` counts from the strobe: units still at work and the accesses ahead of them are counted on, arrays granted by the table as it
restarts. -/
def State.rebaseDie (s : State) (n : Nat) : State :=
  let r := (s.dieClock n).cycleFrom (tick * s.now)
  let up := fun (k : Nat) => (r + k - 1) / k
  let move := fun (x : BenchAccess) =>
    if x.die = n then
      let k := if x.port < 16 then 4 else if x.port < 80 then 3 else 6
      { x with due := rebased k r x.due, nominal := rebased k r x.nominal }
    else x
  let s1 : State := { s with
    mem := { s.mem with bench := s.mem.bench.map move },
    lanes := { s.lanes with clusters := SMap.mapAt s.lanes.clusters Cluster.reset (fun c => dieOfCluster c == n) (fun c =>
      { c with origin := c.origin - (up 3 : Int), turn := c.turn - (up 3 : Int) }) },
    arrays := { s.arrays with units := SMap.mapAt s.arrays.units ArrayUnit.reset (fun m => dieOfArray m == n) (fun u => u.rebase (up 4)) },
    qf := { s.qf with movers := SMap.mapAt s.qf.movers Mover.reset (fun k => dieOfMover k == n) (fun v => v.rebase (up 6)) },
    clocks := { s.clocks with dies := setNth s.clocks.dies n ((s.dieClock n).restart (tick * s.now)) } }
  [4 * n, 4 * n + 1, 4 * n + 2, 4 * n + 3].foldl (fun s m =>
    (s.array m).outstanding.foldl (fun s i => s.regrant m i) s) s1

end Sys2Proof.Machine
end

