-- ==== Sys2Proof/Machine/ArrayCode.lean ====
section
/-! DEFINITION. The meanings of the array commands (R144 to R169): `LOAD`, `PASS`, `FOOT_LOAD`, `DRAIN`, `END`, completion and the
sending of a deferred signal. -/

namespace Sys2Proof.Machine

/-- Descriptor `x` of opcode `op` issues at time `t` if it is the next of the program, its wait entry is there and `ok` holds in the ac
under way (R160); one that fails its parity check stops the array (R169). `f` says what it does, with the format and address of its data
tensor. -/
def State.issueArray (s : State) (m : Nat) (x : ArrayDesc) (op t : Nat) (e : ArrayUpset) (ok : ArrayUnit → Nat → Bool)
    (f : State → Nat → Format → State) : Outcome :=
  let s := (s.upTo t).benchTo (dieOfArray m)
  let ac := s.acOf (dieOfArray m)
  if s.arrayNext m x op ac && ok (s.array m) ac && s.waitOk x.waitQueue then
    let s := s.arrayUpset m e
    if (s.array m).stopped then .next s
    else
      match s.tensorAt m x.dataTensor with
      | none => .next s
      | some d => .next (f s ac d.1)
  else .next s

/-- `LOAD`: fills weight plane `PLANE` (R149 to R151, R163, R168). -/
def execArrayLoad (m : Fin 16) (x : ArrayDesc) (t : Nat) (e : ArrayUpset) (s : State) : Outcome :=
  s.issueArray m x 1 t e (fun u ac => decide (u.loadFree ≤ ac) && decide (nth u.loadAfter x.plane 0 ≤ ac)) (fun s ac f =>
    let s1 := s.finishPasses m x.plane
    let u := s1.array m
    let code := (s1.arrayTensor m x.dataTensor).elim 0 (·.format)
    let pl := { Plane.empty with loaded := true, format := code, kUsed := x.kUsed, cols := x.cols }
    ((s1.setArray m (u.setPlane x.plane pl)).arrayIssue m x f ac [] false).bump (8 * m + 2) 1)

/-- `PASS`: activation rows against a plane into the foot rows (R146 to R148, R153, R163). -/
def execArrayPass (m : Fin 16) (x : ArrayDesc) (t : Nat) (e : ArrayUpset) (s : State) : Outcome :=
  s.issueArray m x 2 t e
    (fun u ac => decide (u.passFree ≤ ac) && decide (nth u.passAfter x.plane 0 ≤ ac) && u.footClear x ac) (fun s ac f =>
    let good := ((s.array m).plane x.plane).accepts f
    let s1 := if good then s.failColumns m x.plane e.columns
      else (s.raiseFor (Source.ofDie (dieOfArray m)) FC.maPair m (s.ownerOfArray m)).bump (8 * m + 7) 1
    ((s1.arrayIssue m x f ac (if good then e.columns else []) (!good)).bump (8 * m) 1).bump (8 * m + 1) x.rows)

/-- `FOOT_LOAD`: WA64 partials from bench into foot rows (R154, R163). -/
def execArrayFootLoad (m : Fin 16) (x : ArrayDesc) (t : Nat) (e : ArrayUpset) (s : State) : Outcome :=
  s.issueArray m x 3 t e (fun u ac => decide (u.footFree ≤ ac) && u.footClear x ac)
    (fun s ac f => s.arrayIssue m x f ac [] false)

/-- `DRAIN`: foot rows to bench with conversion (R155, R156, R163). -/
def execArrayDrain (m : Fin 16) (x : ArrayDesc) (t : Nat) (e : ArrayUpset) (s : State) : Outcome :=
  s.issueArray m x 4 t e (fun u ac => decide (u.footFree ≤ ac) && u.footClear x ac)
    (fun s ac f => (s.arrayIssue m x f ac [] false).bump (8 * m + 3) 1)

/-! ### END, completion, deferred signals (R156, R160, R161, R163) -/

/-- Whether `END` can issue in `ac` (R160 rule 8). -/
def State.arrayEndOk (s : State) (m ac : Nat) : Bool :=
  let u := s.array m
  s.arrayRuns m && (s.nextArrayDesc m).opcode == 15 && u.outstanding.isEmpty && u.deferred.isEmpty && decide (u.issueFree ≤ ac) &&
    u.settled.all (fun y => decide (y.completes < ac))

/-- `END`: the array reaches its part of local done (R160 rule 8), unless its descriptor fails the parity check (R169). -/
def execArrayEnd (m : Fin 16) (t : Nat) (e : ArrayUpset) (s : State) : Outcome :=
  let s := (s.upTo t).benchTo (dieOfArray m)
  if s.arrayEndOk m (s.acOf (dieOfArray m)) then
    let s := s.arrayUpset m e
    if (s.array m).stopped then .next s else .next (s.setArray m { s.array m with done := true, settled := [] })
  else .next s

/-- Send a completion signal, or hold it until a credit comes (R161, R284). -/
def State.signalArray (s : State) (m q : Nat) : State :=
  if q = noQueue then s
  else if (s.queue q).canSend then s.sendQueue q signalEntry
  else s.setArray m { s.array m with deferred := (s.array m).deferred ++ [q] }

/-- A descriptor completes: the sums of a `PASS` are in the foot, the flag byte of a `DRAIN` is ORed in the same ac (`BenchAct.arrayFlag`), and
its signal follows (R156, R161, R163). -/
def execArrayDescriptorComplete (m : Fin 16) (t : Nat) (s : State) : Outcome :=
  let s := (s.upTo t).benchTo (dieOfArray m)
  match (s.array m).outstanding.find? (fun y => decide (y.completes ≤ s.acOf (dieOfArray m))) with
  | none => .next s
  | some y =>
    if s.diesClocked then
      let s1 := if y.desc.opcode = 2 then s.finishPass m y else s
      let u := s1.array m
      let s2 := s1.setArray m { u with outstanding := u.outstanding.filter (fun z => z.index != y.index),
                                       settled := y :: u.settled.filter (fun z => decide (y.completes ≤ z.completes)) }
      .next (s2.signalArray m y.desc.signalQueue)
    else .next s

/-- A completion signal that found no credit is sent (R161, R284). -/
def execDeferredSignalSend (g : Engine) (q : Nat) (s : State) : Outcome :=
  if (s.queue q).canSend then
    match g with
    | .array m =>
      let u := s.array m
      if u.deferred.contains q then .next ((s.setArray m { u with deferred := u.deferred.erase q }).sendQueue q signalEntry)
      else .next s
    | .mover k =>
      let u := s.mover k
      match u.deferred.find? (fun y => y.2 == q) with
      | some y => .next ((s.setMover k { u with deferred := u.deferred.erase y }).sendQueue q signalEntry)
      | none => .next s
  else .next s

end Sys2Proof.Machine
end

