-- ==== Sys2Proof/Machine/FabricOps.lean ====
section
/-! DEFINITION. Operations over the Oljan fabric: links, flits, transactions, routes and the sending of dowels (R288 to R325). -/

namespace Sys2Proof.Machine

/-! ### Links and paths (R291, R296, R297) -/

def State.link (s : State) (k : Nat) : Link := SMap.get s.fabric.links k Link.cold
def State.setLink (s : State) (k : Nat) (l : Link) : State :=
  { s with fabric := { s.fabric with links := SMap.set s.fabric.links k l Link.cold } }

/-- Path A (0) or B (1) of a link. -/
def Link.path (l : Link) (h : Nat) : Path := if h = 0 then l.pathA else l.pathB
def Link.setPath (l : Link) (h : Nat) (p : Path) : Link := if h = 0 then { l with pathA := p } else { l with pathB := p }

/-- The stream of a half: a PAIRED link has one. -/
def Link.stream (l : Link) (h : Nat) : Stream := if l.split ∧ h = 1 then l.streamB else l.streamA
def Link.setStream (l : Link) (h : Nat) (x : Stream) : Link :=
  if l.split ∧ h = 1 then { l with streamB := x } else { l with streamA := x }

/-- A path that carries traffic: up, trained again or not. -/
def Path.live (p : Path) : Bool :=
  match p.state with
  | .up => true
  | .upWaiting => true
  | _ => false

/-- A link, or a half of a split link, is up (R296, R302). -/
def Link.halfUp (l : Link) (h : Nat) : Bool := if l.split then (l.path h).live else l.pathA.live || l.pathB.live

/-- The level of a half (R324). -/
def Link.levelOf (l : Link) (h : Nat) : Nat := nth l.level (if l.split then h else 0) 0

/-- The path that the flit of the next `LSEQ` takes: even numbers A, odd B, or the one path in use (R297, R298). -/
def Link.striped (l : Link) (h : Nat) (lseq : Nat) : Nat :=
  if l.split then h
  else if l.pathA.state = .up ∧ l.pathB.state = .up ∧ !l.skew then lseq % 2
  else if l.pathA.state = .up then 0
  else if l.pathB.state = .up then 1
  else if l.pathA.live then 0 else 1

/-- A path can send a flit of a channel: a credit, and room among the unacknowledged (R294, R295). -/
def Path.canSend (p : Path) (ch : Nat) : Bool := p.live && decide (0 < nth p.credits ch 0) && decide (p.unacked.length < 2048)

/-- The credits a path owes its neighbour that the next flit returns: its channel and count (R293, R294). -/
def Path.creditReturn (p : Path) : Nat × Nat :=
  if 0 < nth p.owed 0 0 then (0, min 4095 (nth p.owed 0 0))
  else if 0 < nth p.owed 1 0 then (1, min 4095 (nth p.owed 1 0))
  else (2, min 4095 (nth p.owed 2 0))

/-- A flit with the `ACK`, `NAK` and credit return of the path (R293 to R295). -/
def Path.dress (p : Path) (f : Flit) : Flit :=
  let cr := p.creditReturn
  { f with ack := p.lastGood, creditVc := cr.1, creditCount := cr.2, nak := p.nakDue }

/-- A path after a flit that `dress` has filled in. -/
def Path.dressed (p : Path) : Path :=
  let cr := p.creditReturn
  { p with owed := setNth p.owed cr.1 (nth p.owed cr.1 0 - cr.2), nakDue := false, ackSent := p.lastGood, flitCount := p.flitCount + 1 }

/-- A numbered flit leaves on a path: it takes the next `SEQ` and a credit (R293 to R295). -/
def Path.send (p : Path) (now : Nat) (f : Flit) : Flit × Path :=
  let g := { p.dress f with seq := p.nextSeq }
  (g, { p.dressed with nextSeq := (p.nextSeq + 1) % 4096, unacked := p.unacked ++ [g],
                       credits := setNth p.credits f.channel (nth p.credits f.channel 0 - 1),
                       ackAt := if p.unacked.isEmpty then now else p.ackAt })

/-- A flit that is sent again: its `SEQ` and credit return as at first, since the receiver has discarded it; `ACK` and `NAK` as they stand
(R295). -/
def Path.again (p : Path) (f : Flit) : Flit × Path :=
  ({ f with ack := p.lastGood, nak := p.nakDue }, { p with nakDue := false, ackSent := p.lastGood, flitCount := p.flitCount + 1 })

/-- An `IDLE` flit: no `SEQ`, no payload (R294). -/
def Flit.idle : Flit :=
  { channel := 3, head := false, tail := false, nak := false, creditVc := 0, creditCount := 0, seq := 0, ack := 0, lseq := 0,
    payload := zeros 240 }

/-- The 256 bytes of a flit (R293). -/
def Flit.bytes (f : Flit) : Bytes :=
  let b := leBytes 1 (f.channel + 4 * b2n f.head + 8 * b2n f.tail + 16 * b2n f.nak) ++ leBytes 1 f.creditVc ++ leBytes 2 f.creditCount ++
    leBytes 2 f.seq ++ leBytes 2 f.ack ++ leBytes 2 f.lseq ++ zeros 2 ++ slice f.payload 0 240
  b ++ leBytes 4 (crc32c b).toNat

/-- Path `h` of link `k`, after a flit that goes onto the fibre, counted (R675). -/
def State.flitLeaves (s : State) (k h : Nat) (r : Flit × Path) : State :=
  let port := 2 * k + h
  let s1 := s.setLink k ((s.link k).setPath h r.2)
  let s2 : State := { s1 with fabric := { s1.fabric with out := (port, r.1.bytes) :: s1.fabric.out } }
  let s3 := if r.1.channel = 3 then s2 else s2.bump (0x730 + 8 * port) 1
  if r.1.nak then s3.bump (0x736 + 8 * port) 1 else s3

/-- A numbered flit on path `h` of link `k`. -/
def State.flitOut (s : State) (k h : Nat) (f : Flit) : State := s.flitLeaves k h (((s.link k).path h).send s.now f)

/-- The oldest waiting flit of a channel, and the queue without it. -/
def takeChannel (ch : Nat) : List Flit → Option (Flit × List Flit)
  | [] => none
  | f :: r =>
    if f.channel = ch then some (f, r)
    else match takeChannel ch r with
      | some (g, r') => some (g, f :: r')
      | none => none

/-- Copies of dowels leave on path `h` while it has credits (R294, R299). -/
def State.sendDowels (fuel : Nat) (s : State) (k h : Nat) : State :=
  match fuel with
  | 0 => s
  | n + 1 =>
    let l := s.link k
    let p := l.path h
    match p.dowels with
    | [] => s
    | f :: r =>
      if p.canSend 0 then ((s.setLink k (l.setPath h { p with dowels := r })).flitOut k h f).sendDowels n k h
      else s

/-- Everything unacknowledged on path `h` is sent again, in order, once the dowels that can leave have left (R294, R295). -/
def State.replayPath (s : State) (k h : Nat) : State :=
  let s1 := s.sendDowels ((s.link k).path h).dowels.length k h
  ((s1.link k).path h).unacked.foldl (fun s f => s.flitLeaves k h (((s.link k).path h).again f)) s1

/-- One flit of half `h` of link `k` leaves, if one can: those of a failed path again, then `CONTROL`, then `DATA` (R294, R297, R298).
Answers whether one left. -/
def State.sendOne (s : State) (k h : Nat) : Bool × State :=
  let l := s.link k
  let x := l.stream h
  let numbered := fun (ch : Nat) (_ : Unit) =>
    let p := l.striped h x.txLseq
    match takeChannel ch x.txQueue with
    | some (f, r) =>
      if (l.path p).canSend ch then
        let l1 := l.setStream h { x with txQueue := r, txLseq := (x.txLseq + 1) % 65536 }
        some ((s.setLink k l1).flitOut k p { f with lseq := x.txLseq })
      else none
    | none => none
  match x.resend with
  | f :: r =>
    let p := l.striped h f.lseq
    if (l.path p).canSend f.channel then (true, (s.setLink k (l.setStream h { x with resend := r })).flitOut k p f)
    else (false, s)
  | [] =>
    match numbered 1 () with
    | some s1 => (true, s1)
    | none =>
      match numbered 2 () with
      | some s1 => (true, s1)
      | none => (false, s)

/-- Flits leave while any can, at most `fuel`. -/
def State.drainHalf (fuel : Nat) (s : State) (k h : Nat) : State :=
  match fuel with
  | 0 => s
  | n + 1 =>
    let r := s.sendOne k h
    if r.1 then r.2.drainHalf n k h else s

/-- Flits of half `h` of link `k` that wait. -/
def State.waiting (s : State) (k h : Nat) : Nat :=
  let x := (s.link k).stream h
  x.txQueue.length + x.resend.length

/-- A path has something to tell its neighbour: a `NAK`, a new `ACK`, or credits. -/
def Path.news (p : Path) : Bool := p.live && (p.nakDue || p.ackSent != p.lastGood || p.owed.any (fun n => decide (0 < n)))

/-- `IDLE` flits carry what no other flit has carried, one channel's credits each (R294). -/
def State.sendIdle (fuel : Nat) (s : State) (k h : Nat) : State :=
  match fuel with
  | 0 => s
  | n + 1 =>
    let p := (s.link k).path h
    if p.news then (s.flitLeaves k h (p.dress Flit.idle, p.dressed)).sendIdle n k h else s

/-- The paths of half `h` of a link. -/
def Link.pathsOf (l : Link) (h : Nat) : List Nat := if l.split then [h] else [0, 1]

/-- Everything that can leave half `h` of link `k` leaves, dowels first, `IDLE` last (R294). -/
def State.drain (s : State) (k h : Nat) : State :=
  let ps := (s.link k).pathsOf h
  let s1 := ps.foldl (fun s p => s.sendDowels ((s.link k).path p).dowels.length k p) s
  let s2 := State.drainHalf (s1.waiting k h) s1 k h
  ps.foldl (fun s p => s.sendIdle 4 k p) s2

/-- Flits join the waiting ones of a half and leave as they can. -/
def State.transmit (s : State) (k h : Nat) (fs : List Flit) : State :=
  let l := s.link k
  let x := l.stream h
  (s.setLink k (l.setStream h { x with txQueue := x.txQueue ++ fs })).drain k h

/-! ### Transactions (R293, R302, R304, R313) -/

/-- Data bytes that a transaction of a kind carries. -/
def txDataLen (kind count : Nat) : Nat := if kind = 2 ∨ kind = 4 then 0 else 512 * count

/-- The channel of a transaction (R313). -/
def txChannel (kind : Nat) : Nat := if kind = 2 ∨ kind = 4 then 1 else 2

/-- The level a transaction requires (R324). -/
def txLevel (kind : Nat) : Nat := if kind = 2 ∨ kind = 3 then 2 else 1

/-- The bytes of a transaction (R313). -/
def Transaction.bytes (x : Transaction) : Bytes :=
  let crc := if x.data.isEmpty then 0#32 else crc32c x.data
  leBytes 1 x.kind ++ leBytes 1 x.hops ++ leBytes 2 x.destNode ++ leBytes 2 x.srcNode ++ leBytes 1 x.destEndpoint ++
  leBytes 1 x.srcEndpoint ++ leBytes 4 x.sendRt ++ leBytes 1 x.delayClass ++ leBytes 1 (b2n x.windowMismatch) ++
  leBytes 2 x.count ++ leBytes 2 x.bindSeq ++ leBytes 2 (x.window % 1024).toNat ++ leBytes 1 x.waFlags ++ leBytes 1 x.level ++
  zeros 2 ++ leBytes 4 x.jobId ++ leBytes 4 (if x.crcGood then crc else ~~~ crc).toNat ++ x.data

/-- The transaction that bytes spell. -/
def Transaction.ofBytes (b : Bytes) : Transaction :=
  let kind := rd b 0 1
  let n := txDataLen kind (rd b 14 2)
  let data := slice b 32 n
  { kind := kind, hops := rd b 1 1, destNode := rd b 2 2 % 8192, srcNode := rd b 4 2 % 8192, destEndpoint := rd b 6 1,
    srcEndpoint := rd b 7 1, sendRt := rd b 8 4, delayClass := rd b 12 1, windowMismatch := bitAt (rd b 13 1) 0,
    count := rd b 14 2, bindSeq := rd b 16 2, window := sext 10 (rd b 18 2 % 1024), waFlags := rd b 20 1,
    level := rd b 21 1, jobId := rd b 24 4, data := data, crcGood := n == 0 || rd b 28 4 == (crc32c data).toNat }

/-- The flits of a transaction: 240 payload bytes each, `HEAD` and `TAIL` marked (R293). -/
def flitsOf (fuel ch : Nat) (head : Bool) (b : Bytes) : List Flit :=
  match fuel with
  | 0 => []
  | n + 1 =>
    let f : Flit := { channel := ch, head := head, tail := decide (b.length ≤ 240), nak := false, creditVc := 0, creditCount := 0,
                      seq := 0, ack := 0, lseq := 0, payload := slice b 0 240 }
    if b.length ≤ 240 then [f] else f :: flitsOf n ch false (b.drop 240)

/-- The flits a transaction occupies. -/
def Transaction.flits (x : Transaction) : List Flit := flitsOf (x.bytes.length / 240 + 1) (txChannel x.kind) true x.bytes

/-- The route a transaction takes: link, half and delay class; none when no valid route is up (R301, R302). -/
def State.route (s : State) (dest : Nat) : Option (Nat × Nat × Nat) :=
  let e := SMap.get s.fabric.routes dest 0
  let pl := bitsOf e 0 4
  let ph := bitsOf e 4 1
  let al := bitsOf e 8 4
  let ah := bitsOf e 12 1
  let half := fun k h => if (s.link k).split then h else 0
  if bitAt e 7 && (s.link pl).halfUp (half pl ph) then some (pl, half pl ph, bitsOf e 16 8)
  else if bitAt e 6 && (s.link al).halfUp (half al ah) then some (al, half al ah, bitsOf e 24 8)
  else none

/-- `INSTANCE` of a link (R536). -/
def linkUnit (k : Nat) : Nat := 0x0100 + k

/-- The first RT edge at or after now (R304). -/
def State.rtEdge (s : State) : Nat := s.frame.edgeAt s.now

/-- The partition that owns an endpoint runs a job whose units have not stopped (R315). -/
def State.epRuns (s : State) (e : Nat) : Bool :=
  match s.ownerOfEndpoint e with
  | some p => s.jobRuns p
  | none => false

/-- A transaction formed at this module for RT edge `rt` leaves by its route with the route's delay class (R302 to R304); without a route
it is discarded with `NO_ROUTE`. It is never sent above the link level (R324). -/
def State.originateAt (s : State) (rt : Nat) (x : Transaction) : State :=
  match s.route x.destNode with
  | none => s.raiseFor .hd FC.noRoute noUnit (s.ownerOfEndpoint x.srcEndpoint)
  | some r =>
    if (s.link r.1).levelOf r.2.1 < txLevel x.kind then s
    else
      let y := { x with srcNode := s.fabric.nodeId, sendRt := rt % 2 ^ 32, delayClass := r.2.2, hops := 0,
                        level := txLevel x.kind, crcGood := true }
      s.transmit r.1 r.2.1 y.flits

/-- A transaction formed now. -/
def State.originate (s : State) (x : Transaction) : State := s.originateAt s.rtEdge x

/-! ### Dowels (R299, R319, R320, R322) -/

/-- The bytes of a token (R319). -/
def Dowel.bytes (d : Dowel) : Bytes :=
  leBytes 1 d.kind ++ leBytes 1 (b2n d.relay) ++ leBytes 2 d.member ++ leBytes 4 d.domainId ++ leBytes 8 d.frame ++
  leBytes 8 d.startRt ++ leBytes 4 d.jobId ++ zeros 4

/-- The token that bytes spell. -/
def Dowel.ofBytes (b : Bytes) : Dowel :=
  { kind := rd b 0 1, relay := bitAt (rd b 1 1) 0, member := rd b 2 2, domainId := rd b 4 4, frame := rd b 8 8 % 2 ^ 48,
    startRt := rd b 16 8, jobId := rd b 24 4 }

/-- The link and half that reach a neighbour directly (R300). -/
def State.linkTo (s : State) (node : Nat) : Option (Nat × Nat) :=
  ((List.range 32).find? (fun p =>
    let l := s.link (p / 2)
    (l.path (p % 2)).live && (l.path (p % 2)).neighbour == some node)).map (fun p => (p / 2, if (s.link (p / 2)).split then p % 2 else 0))

/-- The level a token requires (R324). -/
def Dowel.level (d : Dowel) : Nat := if d.kind = 5 ∨ d.relay then 2 else 1

/-- A token goes out on a half, on every path of it that is up, each copy under the same dowel number (R299); never above the link level
(R324). -/
def State.dowelOut (s : State) (k h : Nat) (d : Dowel) : State :=
  let l := s.link k
  if l.levelOf h < d.level then s
  else
    let x := l.stream h
    let f : Flit := { channel := 0, head := true, tail := true, nak := false, creditVc := 0, creditCount := 0, seq := 0, ack := 0,
                      lseq := x.dowelTx, payload := slice d.bytes 0 240 }
    let l1 := l.setStream h { x with dowelTx := (x.dowelTx + 1) % 65536 }
    let l2 := (l.pathsOf h).foldl (fun l p =>
      if (l.path p).live then l.setPath p { l.path p with dowels := (l.path p).dowels ++ [f] } else l) l1
    ((s.setLink k l2).drain k h).bump (0x832 + 4 * k) 1

/-- A token to the tree parent, or to the stand-in when the parent's link is down (R320, R322). -/
def State.dowelToParent (s : State) (d : Dowel) : State :=
  match s.frame.domain with
  | none => s
  | some dom =>
    match dom.parent with
    | none => s
    | some p =>
      match s.linkTo p with
      | some r => s.dowelOut r.1 r.2 d
      | none =>
        match s.fabric.standIn with
        | some i =>
          match s.linkTo i with
          | some r => s.dowelOut r.1 r.2 { d with relay := true }
          | none => s
        | none => s

/-- A token to a child, through its stand-in while it is reached so (R322). -/
def State.dowelToChild (s : State) (c : Nat) (d : Dowel) : State :=
  match s.fabric.relayed.find? (fun r => r.1 == c) with
  | some r =>
    match s.linkTo r.2 with
    | some q => s.dowelOut q.1 q.2 { d with relay := true }
    | none => s
  | none =>
    match s.linkTo c with
    | some q => s.dowelOut q.1 q.2 { d with relay := false }
    | none => s

/-- A token to every child of a tree node. -/
def State.dowelToChildrenOf (s : State) (dom : Domain) (d : Dowel) : State := dom.children.foldl (fun s c => s.dowelToChild c d) s

/-- A token to every child. -/
def State.dowelToChildren (s : State) (d : Dowel) : State :=
  match s.frame.domain with
  | none => s
  | some dom => s.dowelToChildrenOf dom d

/-- A halt dowel as a member passes it: up to the parent, or at the root down to every child, once each (R320). -/
def State.passHalt (s : State) (d : Dowel) : State :=
  match s.frame.domain with
  | none => s
  | some dom =>
    match dom.parent with
    | some _ =>
      if s.fabric.haltsUp.contains d.jobId then s
      else ({ s with fabric := { s.fabric with haltsUp := d.jobId :: s.fabric.haltsUp } } : State).dowelToParent d
    | none =>
      if s.fabric.haltsDown.contains d.jobId then s
      else ({ s with fabric := { s.fabric with haltsDown := d.jobId :: s.fabric.haltsDown } } : State).dowelToChildren d

/-- The halt dowel that a member originates for a job (R58, R319). -/
def State.sendHaltDowel (s : State) (job : Nat) : State :=
  match s.frame.domain with
  | none => s
  | some dom =>
    s.passHalt { kind := 3, relay := false, member := dom.memberIndex, domainId := dom.id, frame := s.frame.number, startRt := 0,
                 jobId := job }

/-! ### The optical faceplate (R643) -/

/-- Receptacle of an Oljan port, and whether the port is its second one. -/
def receptacleOf (op : Nat) : Nat := if op % 2 = 0 then op / 4 else 8 + op / 4
def secondOfReceptacle (op : Nat) : Bool := decide (2 ≤ op % 4)

/-- Fibre positions of lane `i` of a port: transmit and receive. -/
def fibrePositions (op i : Nat) : Nat × Nat := if secondOfReceptacle op then (5 + i, 12 - i) else (1 + i, 16 - i)

end Sys2Proof.Machine
end

