-- ==== Sys2Proof/Machine/Jobs.lean ====
section
/-! DEFINITION. Jobs on the partitions: the units of a partition, frame sequences, halts, ends and abandonment of jigs, load results
(R26, R58, R89 to R95, R106, R110 to R114, R152, R178, R263, R315). -/

namespace Sys2Proof.Machine

/-! ### Units of a partition -/

def State.arraysOf (s : State) (p : Nat) : List Nat := indices 16 (fun k => bitAt (rd (s.record p) 0 2) k)
def State.moversOf (s : State) (p : Nat) : List Nat := indices 128 (fun k => bitAt (rd (s.record p) 8 16) k)
def State.clustersOf (s : State) (p : Nat) : List Nat := indices 256 (fun k => bitAt (rd (s.record p) 32 32) k)
def State.endpointsOf (s : State) (p : Nat) : List Nat := indices 256 (fun k => bitAt (rd (s.record p) 64 32) k)

/-- The partitions, in ascending order. -/
def allPartitions : List Nat := List.range 16

/-- Partitions whose jig carries a job. -/
def State.partitionsWith (s : State) (job : Nat) : List Nat :=
  allPartitions.filter (fun p => match s.partJig p with | some j => j.jig.jobId == job | none => false)

/-- Partitions that hold a jig counted as a running job (R113). -/
def State.runningJobs (s : State) : List Nat :=
  allPartitions.filter (fun p => match s.partJig p with | some j => decide (j.phase ≠ .loading) | none => false)

/-! ### Frame sequences (R91) -/

/-- The entry at which execution stands after any `LOOP` entries are passed, with the passes counted; `fuel` bounds the chain of
`LOOP` entries, which R92 keeps below five. -/
def seqResolve (fuel : Nat) (q : List SeqEntry) (e : Nat) (passes : SMap Nat) : SeqPos × FrameWork :=
  match fuel with
  | 0 => ({ entry := e, left := 0, passes := passes }, .atEnd)
  | n + 1 =>
    match q.getD e .stop with
    | .run c k => ({ entry := e, left := k - 1, passes := passes }, .run c)
    | .idle k => ({ entry := e, left := k - 1, passes := passes }, .idle)
    | .stop => ({ entry := e, left := 0, passes := passes }, .atEnd)
    | .loop t k =>
      let c := SMap.get passes e 0 + 1
      if k = 0 then seqResolve n q t passes
      else if c < k then seqResolve n q t (SMap.set passes e c 0)
      else seqResolve n q (e + 1) (SMap.set passes e 0 0)

/-- The first frame of a jig. -/
def seqStart (j : Jig) : SeqPos × FrameWork := seqResolve 8 j.sequence 0 []

/-- The frame after one at a position (R91, R114): after `END` nothing. -/
def seqNext (j : Jig) (c : SeqPos × FrameWork) : SeqPos × FrameWork :=
  match c.2 with
  | .nothing => c
  | .atEnd => (c.1, .nothing)
  | w => if 0 < c.1.left then ({ c.1 with left := c.1.left - 1 }, w) else seqResolve 8 j.sequence (c.1.entry + 1) c.1.passes

/-- `n` frames further. -/
def seqAhead (j : Jig) (c : SeqPos × FrameWork) : Nat → SeqPos × FrameWork
  | 0 => c
  | n + 1 => seqAhead j (seqNext j c) n

/-- What a partition does `n` frames after the one that runs, as its jig stands (R26, R89). -/
def State.workAhead (s : State) (p n : Nat) : FrameWork :=
  match s.partJig p with
  | none => .nothing
  | some j =>
    match j.phase with
    | .running => if j.halting ∧ 0 < n then .nothing else (seqAhead j.jig (j.pos, j.work) n).2
    | _ =>
      match j.startFrame with
      | some f => if s.frame.number + n < f then .nothing else (seqAhead j.jig (seqStart j.jig) (s.frame.number + n - f)).2
      | none => .nothing

/-- The class of a frame's work. -/
def FrameWork.cls : FrameWork → Option Nat
  | .run c => some c
  | _ => none

/-- The frame classes of the frame `n` ahead: each partition's, and the module's, which is the lowest-numbered partition's
(R89). -/
def State.classesAhead (s : State) (n : Nat) : FrameClasses :=
  let parts := allPartitions.map (fun p => (s.workAhead p n).cls)
  { module := parts.findSome? id, parts := parts }

/-! ### Load results (R106) -/

/-- A load result joins those to be delivered. -/
def State.deliverResult (s : State) (r : LoadResult) : State :=
  { s with jigs := { s.jigs with results := s.jigs.results ++ [r] } }

/-- The load result of a jig's end or start: status, job and frame, no error. -/
def plainResult (p status job frame : Nat) : LoadResult :=
  { partition := p, status := status, error := 0, sectionIndex := 0xFFFF, itemIndex := 0xFFFFFFFF, byteOffset := 0xFFFFFFFF,
    jobId := job, frame := frame }

/-! ### The end of a jig (R114, R152, R178, R263, R315) -/

/-- Queues of a jig that are frame-local are flushed (R58, R263). -/
def State.flushFrameLocal (s : State) (j : Jig) : State :=
  j.queues.foldl (fun s q => if q.frameLocal then s.setQueue q.id (s.queue q.id).flushed else s) s

/-- Queues of a jig are emptied and given back (R263). -/
def State.dropQueues (s : State) (j : Jig) : State := j.queues.foldl (fun s q => s.setQueue q.id Queue.none) s

/-- An array loses its planes and foot, and what it was doing (R152). -/
def ArrayUnit.lose (u : ArrayUnit) : ArrayUnit := { ArrayUnit.reset with footEpoch := u.footEpoch + 1 }

/-- A mover stops: transfers between memories that it has issued complete, now as orphans; those of queues that are gone, and signals to
them, do not (R58, R286). -/
def Mover.halt (v : Mover) : Mover :=
  { v with entry := none, done := true, stopped := false, deferred := [],
           active := (v.active.filter (fun i => i.desc.opcode == 1 || i.desc.opcode == 4)).map (fun i => { i with orphan := true }) }

/-- A bench access belongs to an array or a cluster of a list. -/
def BenchAccess.ofUnits (arrays clusters : List Nat) (x : BenchAccess) : Bool :=
  match x.act with
  | .laneLoad c _ _ _ => clusters.contains c
  | .laneStore c _ => clusters.contains c
  | .slotLoad c _ _ => clusters.contains c
  | .slotStore c _ _ _ _ => clusters.contains c
  | .arrayCycle m _ _ => arrays.contains m
  | .arrayFlag m _ => arrays.contains m
  | .moverRead _ _ _ _ _ => false
  | .moverWrite _ _ _ => false

/-- The units of a partition are cleared as its jig ends, and accesses they have ahead of them with them (R58, R152, R178, R315). -/
def State.clearUnits (s : State) (p : Nat) : State :=
  let s0 := s.dropAccesses (BenchAccess.ofUnits (s.arraysOf p) (s.clustersOf p))
  let s1 := (s0.arraysOf p).foldl (fun s k => s.setArray k (s.array k).lose) s0
  let s2 := (s1.clustersOf p).foldl (fun s k => s.setCluster k Cluster.reset) s1
  let s3 := (s2.moversOf p).foldl (fun s k => s.setMover k (s.mover k).halt) s2
  { s3 with fabric := { s3.fabric with endpoints := SMap.drop s3.fabric.endpoints (fun e => (s.endpointsOf p).contains e) } }

/-- The bench memory of a partition becomes undefined after a halt (R58). -/
def State.loseBench (s : State) (p : Nat) : State :=
  (List.range 4).foldl (fun s n =>
    let g := s.granules p (.bench n)
    if g.2.1 = 0 then s
    else { s with mem := s.mem.lose (benchBase n + g.1 * g.2.2) (benchBase n + (g.1 + g.2.1) * g.2.2) }) s

/-- The class plans of a partition leave the PWC (R114). -/
def State.removePlans (s : State) (p : Nat) : State :=
  { s with jigs := { s.jigs with
      planStore := s.jigs.planStore.filter (fun kv => match kv.2 with | some c => c.partition != p | none => true) } }

/-- The scheduled steps of a partition's jig are withdrawn at the next kerf (R372). -/
def State.withdrawSteps (s : State) (p : Nat) : State :=
  { s with shim := { s.shim with steps := s.shim.steps.map (fun x => if x.partition = p then { x with withdrawn := true } else x) } }

/-- The partition holds no jig any more, and the loader no longer holds one for it. -/
def State.dropJig (s : State) (p : Nat) : State :=
  let s1 := ((s.withdrawSteps p).removePlans p).setPartJig p none
  if s1.jigs.inHand = some p then
    { s1 with jigs := { s1.jigs with inHand := none, plansToSend := [], ackDue := false } }
  else s1

/-- A jig between step 4 and its start frame is abandoned: `ABANDONED` (3) or `LATE` (2) is delivered (R111, R114). -/
def State.abandonJig (s : State) (p status : Nat) : State :=
  match s.partJig p with
  | none => s
  | some j => (s.dropJig p).deliverResult (plainResult p status j.jig.jobId s.frame.number)

/-- A jig ends at a kerf: `COMPLETED` (4) or `HALTED` (5), naming frame `f` (R114). Only then does a halted partition count among
`HALTED_PARTITIONS` (DESIGN CHOICE: R79 does not say whether one does whose units still run to the kerf). -/
def State.endJig (s : State) (p status f : Nat) : State :=
  match s.partJig p with
  | none => s
  | some j =>
    let s1 := ((s.clearUnits p).dropQueues j.jig).dropJig p
    let s2 := if status = 5 then
        let s2 := s1.loseBench p
        { s2 with jigs := { s2.jigs with haltedIdleW := SMap.set s2.jigs.haltedIdleW p j.jig.idleW 0,
                                         halted := if s2.jigs.halted.contains p then s2.jigs.halted else p :: s2.jigs.halted } }
      else s1
    s2.deliverResult (plainResult p status j.jig.jobId f)

/-! ### Halts (R58, R114) -/

/-- A running partition begins to halt: units not started stay so, movers issue nothing more, frame-local queues are flushed. From the next
frame on it draws its `IDLE_W` (R95 item 4). -/
def State.haltRunning (s : State) (p : Nat) (j : PartJig) : State :=
  let s0 : State := { s with jigs := { s.jigs with haltedIdleW := SMap.set s.jigs.haltedIdleW p j.jig.idleW 0 } }
  let s1 := ((s0.withdrawSteps p).setPartJig p (some { j with halting := true })).flushFrameLocal j.jig
  (s1.moversOf p).foldl (fun s k =>
    let v := s.mover k
    if v.entry.isSome then s.setMover k { v with stopped := true } else s) s1

/-- Halt one partition: a jig before its start frame is abandoned, a running one begins to halt. -/
def State.haltPartition (s : State) (p : Nat) : State :=
  match s.partJig p with
  | none => s
  | some j =>
    match j.phase with
    | .running => if j.halting then s else s.haltRunning p j
    | _ => s.abandonJig p 3

/-- A job of which a running partition is not yet halting. -/
def State.haltsSomething (s : State) (job : Nat) : Bool :=
  (s.partitionsWith job).any (fun p => match s.partJig p with
    | some j => decide (j.phase = .running) && !j.halting
    | none => false)

/-- A member receives or sends a halt dowel for a job (R58): halts for the same job are idempotent. -/
def State.haltJob (s : State) (job : Nat) : State :=
  let s1 := (s.partitionsWith job).foldl (fun s p => s.haltPartition p) s
  if s.haltsSomething job then
    (({ s1 with frame := { s1.frame with haltedJobs := job :: s1.frame.haltedJobs } } : State).raise .hd FC.jobHalted noUnit 0).bump
      0x975 1
  else s1

/-- A member sends a halt dowel for a job, and halts it itself (R56 to R58). -/
def State.sendHalt (s : State) (job : Nat) : State := (s.haltJob job).sendHaltDowel job

/-- Halt dowels for the jobs of some partitions. -/
def State.haltJobsOf (s : State) (ps : List Nat) : State :=
  ps.foldl (fun s p => match s.partJig p with
    | some j => s.sendHalt j.jig.jobId
    | none => s) s

/-- Every job of a module that leaves or stops (R67, R68, R113, R114, R530): a halt dowel for each that counts as running, and a jig still on
its way through the loader is abandoned. -/
def State.haltAllJobs (s : State) : State :=
  let s1 := s.haltJobsOf s.runningJobs
  allPartitions.foldl (fun s p => match s.partJig p with
    | some j => if j.phase = .loading then s.abandonJig p 3 else s
    | none => s) s1

/-! ### Local done (R41) -/

/-- A started unit of partition `p` has not executed its end-of-frame instruction. -/
def State.unitsBusy (s : State) (p : Nat) : Bool :=
  (s.arraysOf p).any (fun k => (s.array k).entry.isSome && !(s.array k).done) ||
  (s.moversOf p).any (fun k => (s.mover k).entry.isSome && !(s.mover k).done) ||
  (s.clustersOf p).any (fun k =>
    let cl := s.cluster k
    cl.entry.isSome && (List.range cl.rowCount).any (fun j => !(cl.row j).done))

/-- A frame-local queue of the jig holds an entry. -/
def State.localQueuesBusy (s : State) (j : Jig) : Bool :=
  j.queues.any (fun q => q.frameLocal && !((s.queue q.id).visible.isEmpty && (s.queue q.id).transit.isEmpty))

/-- The jig has an entry for class `c` in the program of unit `u` (R85). -/
def Jig.hasEntry (j : Jig) (c u : Nat) : Bool := j.programs.any (fun g => g.unit == u && g.entries.any (fun e => e.cls == c))

/-- The kerf has reached the start of every unit that has an entry for class `c` (R45). -/
def State.unitsStarted (s : State) (p c : Nat) (j : Jig) : Bool :=
  let k := s.frame.kerf
  !k.active ||
  ((k.moversStarted || (s.moversOf p).all (fun m => !j.hasEntry c (0x2000 + m))) &&
   (s.clustersOf p).all (fun u => k.groupsDone.contains (4 * (u % 64 / 16) + u / 64) || !j.hasEntry c (0x1000 + u)) &&
   (s.arraysOf p).all (fun m => k.arraysDone.contains (4 * (m % 4) + m / 4) || !j.hasEntry c m))

/-- A partition is done for the frame (R41): no work in it, halted, or, once the kerf has started its units, units and
frame-local queues are finished. -/
def State.partitionDone (s : State) (p : Nat) : Bool :=
  match s.partJig p with
  | none => true
  | some j =>
    match j.work with
    | .run c => j.halting || (s.unitsStarted p c j.jig && !s.unitsBusy p && !s.localQueuesBusy j.jig)
    | _ => true

/-- Local done of the module (R41). -/
def State.localDone (s : State) : Bool := allPartitions.all (fun p => s.partitionDone p)

end Sys2Proof.Machine
end

