-- ==== Sys2Proof/Machine/FabricCode.lean ====
section
/-! DEFINITION. The meanings of the fabric's events (R290 to R318): training, flits, failing paths, forwarding, release, puts, gets and
reductions. -/

namespace Sys2Proof.Machine

/-! ### The module's level (R3, R103, R324) -/

/-- The processor last in control. -/
def State.controller (s : State) : Processor :=
  match s.mp.owner with
  | some 0 => s.mp.mpA
  | some _ => s.mp.mpB
  | none => if s.mp.lastOwner = 0 then s.mp.mpA else s.mp.mpB

/-- The module's capability level: that of the firmware in control (R103, R580). -/
def State.moduleLevel (s : State) : Nat := s.controller.capLevel

/-! ### Training and loss of paths (R290, R296 to R298) -/

/-- Whether a PAIRED link's two measured delays differ by more than 1,000 ns (R297). -/
def Link.skewed (l : Link) : Bool :=
  !l.split && l.pathA.live && l.pathB.live &&
    decide (1000 < max l.pathA.delayNs l.pathB.delayNs - min l.pathA.delayNs l.pathB.delayNs)

/-- The peer's announced level recorded for a half. -/
def Link.announce (l : Link) (h : Nat) (level : Nat) : Link :=
  { l with announced := setNth l.announced (if l.split then h else 0) level }

/-- The time in which a port trains (R290): 500 ms. -/
def trainLimit : Nat := 500 * rcMs

/-- A port completes training within 500 ms: its neighbour, serial, level and delay are known (R290). The second path of a PAIRED link
waits for the kerf at which striping resumes (R298). -/
def execPortTrainingComplete (port : Fin 32) (neighbour : Nat) (serial : Bytes) (level delayNs t : Nat) (s : State) : Outcome :=
  let s := s.upTo t
  let k := port.val / 2
  let h := port.val % 2
  let l := s.link k
  match (l.path h).state with
  | .training =>
    if (l.path h).trainAt + trainLimit < s.now then .next s
    else
    let other := l.path (1 - h)
    let joins := !l.split && other.live
    let p : Path := { Path.cold with
      state := if joins then .upWaiting else .up, neighbour := some neighbour, serial := serial, delayNs := delayNs,
      replays := (l.path h).replays, fecUncorrected := (l.path h).fecUncorrected, ackAt := s.now, upAt := s.now }
    let l1 := (l.setPath h p).announce h level
    let l2 := if joins then { l1 with resumeOwn := true } else l1.setStream h { Stream.start with txQueue := (l1.stream h).txQueue }
    let l3 := { l2 with skew := l2.skewed }
    let s1 := (s.setLink k l3).drain k h
    -- a child whose own link is up again is no longer reached through its stand-in (R322)
    let s2 : State := { s1 with fabric := { s1.fabric with relayed := s1.fabric.relayed.filter (fun r => r.1 != neighbour) } }
    .next (if l3.skew && !l.skew then s2.raise .hd FC.pathSkew (linkUnit k) 0 else s2)
  | _ => .next s

/-- A port that has not trained within 500 ms stays down (R290). -/
def execTrainFail (port : Fin 32) (t : Nat) (s : State) : Outcome :=
  let s := s.upTo t
  let k := port.val / 2
  let h := port.val % 2
  let l := s.link k
  match (l.path h).state with
  | .training =>
    if s.now < (l.path h).trainAt + trainLimit then .next s
    else .next ((s.setLink k (l.setPath h { l.path h with state := .down })).raise .hd FC.trainFail port.val 0)
  | _ => .next s

/-- The flits of a failed path that the link must send again, in order of `LSEQ` (R298); dowels went on both paths. -/
def resendOf (p : Path) : List Flit := p.unacked.filter (fun f => f.channel != 0)

/-- The link to the tree parent has gone (R322): a `RELAY_NOTICE` goes to the stand-in, or `TREE_LINK_DOWN` is raised. -/
def State.parentLinkLost (s : State) (gone : Option Nat) : State :=
  match s.frame.domain with
  | none => s
  | some dom =>
    if dom.parent.isSome && dom.parent == gone && (s.linkTo (dom.parent.getD 0)).isNone then
      match s.fabric.standIn with
      | some _ =>
        ({ s with fabric := { s.fabric with relaying := true } } : State).dowelToParent
          { kind := 5, relay := true, member := dom.memberIndex, domainId := dom.id, frame := s.frame.number, startRt := 0, jobId := 0 }
      | none => s.raise .hd FC.treeLinkDown noUnit 0
    else s

/-- What takes a path down (R296): FEC lock lost for 1 microsecond, eight replays of one flit that failed, or 20 microseconds without
progress of `ACK` while flits are unacknowledged. -/
def Path.fails (p : Path) (lockLost : Bool) (now : Nat) : Bool :=
  lockLost || decide (8 ≤ p.failedReplays) || (!p.unacked.isEmpty && decide (p.ackAt + 20 * rcUs ≤ now))

/-- A path that begins to train; its counts run on from cold start (R290, R328). -/
def Path.training (p : Path) (now : Nat) : Path :=
  { Path.cold with state := .training, trainAt := now, replays := p.replays, fecUncorrected := p.fecUncorrected }

/-- A path goes down and is retrained; the surviving path of a PAIRED link takes over its flits (R296, R298). `lockLost` tells that the FEC
has been without lock for 1 microsecond. -/
def execPathDown (port : Fin 32) (lockLost : Bool) (t : Nat) (s : State) : Outcome :=
  let s := s.upTo t
  let k := port.val / 2
  let h := port.val % 2
  let l := s.link k
  let p := l.path h
  if p.live && p.fails lockLost s.now then
    let dead : Path := { p.training s.now with neighbour := p.neighbour, serial := p.serial, delayNs := p.delayNs }
    let l1 := { (l.setPath h dead) with resumeOwn := false, resumePeer := false, skew := false }
    let s1 := ((s.setLink k l1).raise .hd FC.pathDown port.val 0).bump (0x737 + 8 * port.val) 1
    if !l.split && (l.path (1 - h)).live then
      let other := { l.path (1 - h) with state := PathState.up }
      let x := l1.stream 0
      let l2 := (l1.setPath (1 - h) other).setStream 0 { x with resend := x.resend ++ resendOf p }
      .next (((s1.setLink k l2).bump (0x830 + 4 * k) 1).drain k 0)
    else
      let l2 := { l1 with level := setNth l1.level (if l.split then h else 0) 0 }
      .next (((s1.setLink k l2).raise .hd FC.linkDown (linkUnit k) 0).parentLinkLost p.neighbour)
  else .next s

/-! ### Flits (R293 to R299) -/

/-- The flit that 256 bytes spell. -/
def Flit.ofBytes (b : Bytes) : Flit :=
  let t := rd b 0 1
  { channel := t % 4, head := bitAt t 2, tail := bitAt t 3, nak := bitAt t 4, creditVc := rd b 1 1 % 4,
    creditCount := rd b 2 2 % 4096, seq := rd b 4 2 % 4096, ack := rd b 6 2 % 4096, lseq := rd b 8 2, payload := slice b 12 240 }

/-- Flits acknowledged up to `ack` leave the unacknowledged ones (R295). -/
def dropAcked (ack : Nat) : List Flit → List Flit
  | [] => []
  | f :: r => if (ack + 4096 - f.seq) % 4096 < 2048 then dropAcked ack r else f :: r

/-- Buffer of a channel in flits (R294). -/
def channelBuffer (ch : Nat) : Nat := nth [32, 256, 2560] ch 0

/-- `ACK`, `NAK` and credits of a good flit are taken (R294, R295). A `NAK` that names again the flit from which the path last replayed
tells that this replay failed (R296). -/
def Path.takeReturns (p : Path) (now : Nat) (f : Flit) : Path :=
  let c := min (channelBuffer f.creditVc) (nth p.credits f.creditVc 0 + f.creditCount)
  let rest := dropAcked f.ack p.unacked
  let moved := decide (rest.length ≠ p.unacked.length)
  let oldest := rest.head?.map (·.seq)
  { p with unacked := rest, ackAt := if moved then now else p.ackAt,
           replays := if f.nak && !rest.isEmpty then min 0xFFFFFFFF (p.replays + 1) else p.replays,
           failedReplays := if f.nak && oldest.isSome && oldest == p.retryFrom then p.failedReplays + 1
             else if f.nak || moved then 0 else p.failedReplays,
           retryFrom := if f.nak then oldest else if moved then none else p.retryFrom,
           credits := if f.creditVc < 3 then setNth p.credits f.creditVc c else p.credits }

/-- The counts of a path rise by the credits of flits that have left the receive buffer. -/
def Path.owe (p : Path) (ch n : Nat) : Path := { p with owed := setNth p.owed ch (nth p.owed ch 0 + n) }

/-- The release edge of a transaction (R304), modulo 2^32. -/
def Transaction.releaseRt (x : Transaction) : Nat := (x.sendRt + 5 * x.delayClass) % 2 ^ 32

/-- RT edge `e`, modulo 2^32, has come by RT `rt` (R304). -/
def edgeCome (rt e : Nat) : Bool := decide ((rt % 2 ^ 32 + 2 ^ 32 - e) % 2 ^ 32 < 2 ^ 31)

/-- The release edge of a transaction is past, exactly (R306). -/
def State.pastEdge (s : State) (x : Transaction) : Bool :=
  if s.onRtEdge then edgeCome (s.rt + 2 ^ 32 - 1) x.releaseRt else edgeCome s.rt x.releaseRt

/-- A transaction received whole: to be forwarded, to be released, or discarded above the link level (R302, R304, R324). -/
def State.txArrived (s : State) (k h a b : Nat) (bytes : Bytes) : State :=
  let x := Transaction.ofBytes bytes
  let l := s.link k
  let held : HeldTx := { tx := x, link := k, half := h, flitsA := a, flitsB := b, arrivedRt := s.rt, late := s.pastEdge x }
  if l.levelOf h < x.level then
    let ch := txChannel x.kind
    let l1 := { l with pathA := l.pathA.owe ch a, pathB := l.pathB.owe ch b }
    (s.setLink k l1).raise .hd FC.levelMismatch (linkUnit k) 0
  else if s.fabric.nodeId = x.destNode then
    { s with fabric := { s.fabric with toRelease := s.fabric.toRelease ++ [held] } }
  else { s with fabric := { s.fabric with toForward := s.fabric.toForward ++ [held] } }

/-- A dowel flit: the first good copy of its number is acted on (R299); its credit returns at once. -/
def State.dowelArrived (s : State) (k h : Nat) (port : Nat) (f : Flit) : State :=
  let l := s.link k
  let x := l.stream h
  let l1 := l.setPath (port % 2) ((l.path (port % 2)).owe 0 1)
  if x.dowelRx.contains f.lseq then s.setLink k l1
  else
    let d := Dowel.ofBytes f.payload
    let s1 := s.setLink k (l1.setStream h { x with dowelRx := (f.lseq :: x.dowelRx).take 64 })
    if l.levelOf h < (if d.kind = 5 ∨ d.relay then 2 else 1) then s1.raise .hd FC.levelMismatch (linkUnit k) 0
    else { s1 with fabric := { s1.fabric with dowelsIn := s1.fabric.dowelsIn ++ [((l.path (port % 2)).neighbour.getD 0xFFFF, d)] } }

/-- The flit whose turn it is, by `LSEQ`, joins the transaction being received; a `CONTROL` flit is one by itself (R297, R313). -/
def State.acceptFlit (s : State) (k h : Nat) (f : Flit) : State :=
  let l := s.link k
  let x := l.stream h
  let onA := b2n (f.ack == 0)
  let onB := 1 - onA
  if f.channel = 1 then (s.setLink k (l.setStream h { x with rxLseq := (x.rxLseq + 1) % 65536 })).txArrived k h onA onB f.payload
  else
    let bytes := if f.head then f.payload else x.rx ++ f.payload
    let a := if f.head then onA else x.rxA + onA
    let b := if f.head then onB else x.rxB + onB
    let y := { x with rxLseq := (x.rxLseq + 1) % 65536, rx := bytes, rxA := a, rxB := b }
    if f.tail then (s.setLink k (l.setStream h { y with rx := [], rxA := 0, rxB := 0 })).txArrived k h a b bytes
    else s.setLink k (l.setStream h y)

/-- Flits held early are accepted as their turn comes. -/
def State.acceptEarly (fuel : Nat) (s : State) (k h : Nat) : State :=
  match fuel with
  | 0 => s
  | n + 1 =>
    let l := s.link k
    let x := l.stream h
    match x.early.find? (fun f => f.lseq == x.rxLseq) with
    | some f =>
      let y := { x with early := x.early.erase f, earlyAt := SMap.set x.earlyAt f.lseq 0 0 }
      let s1 := (s.setLink k (l.setStream h y)).peak (0x831 + 4 * k) (nsOfRc (s.now - SMap.get x.earlyAt f.lseq 0))
      State.acceptEarly n (s1.acceptFlit k h f) k h
    | none => s

/-- A `DATA` or `CONTROL` flit in sequence on its path: delivered in `LSEQ` order, held if early, discarded if a duplicate (R297,
R298). A held flit keeps in `ack` the path it came on. -/
def State.flitArrived (s : State) (k h port : Nat) (f : Flit) : State :=
  let g := { f with ack := port % 2 }
  let x := (s.link k).stream h
  let ahead := (f.lseq + 65536 - x.rxLseq) % 65536
  if ahead = 0 then
    let s1 := s.acceptFlit k h g
    State.acceptEarly x.early.length s1 k h
  else if ahead < 32768 ∧ !x.early.any (fun e => e.lseq == f.lseq) then
    s.setLink k ((s.link k).setStream h { x with early := x.early ++ [g], earlyAt := SMap.set x.earlyAt g.lseq s.now 0 })
  else
    let l := s.link k
    s.setLink k (l.setPath (port % 2) ((l.path (port % 2)).owe f.channel 1))

/-- What a link word announces (R298, R324). -/
def State.takeLinkWord (s : State) (k h : Nat) (w : Option LinkWord) : State :=
  match w with
  | none => s
  | some w =>
    let l := s.link k
    let l1 := match w.level with
      | some v => l.announce h v
      | none => l
    s.setLink k (if w.retrained then { l1 with resumePeer := true } else l1)

/-- A flit that fails its CRC or its FEC codeword is discarded, and a `NAK` is due (R295). -/
def State.flitBad (s : State) (port : Nat) (fecBad : Bool) : State :=
  let l := s.link (port / 2)
  let p := l.path (port % 2)
  let q := { p with nakSent := true, nakDue := true, fecUncorrected := if fecBad then min 0xFFFFFFFF (p.fecUncorrected + 1) else p.fecUncorrected }
  let s1 := s.setLink (port / 2) (l.setPath (port % 2) q)
  if fecBad then s1.bump (0x735 + 8 * port) 1 else s1

/-- A good flit on a port (R294, R295): an `IDLE` flit, or the one next in sequence, is taken, and a `NAK` in it answered by a replay. Any
other is one that the receiver discards until the replay has come; nothing in it counts, since the replay repeats it (DEDUCED). -/
def State.flitGood (s : State) (k h port : Nat) (f : Flit) : State :=
  let l := s.link k
  let p := l.path (port % 2)
  let take := fun (s : State) (q : Path) =>
    let s1 := s.setLink k (l.setPath (port % 2) q)
    if f.nak && !q.unacked.isEmpty then (s1.bump (0x733 + 8 * port) 1).replayPath k (port % 2) else s1
  if f.channel = 3 then take s (p.takeReturns s.now f)
  else if f.seq = (p.lastGood + 1) % 4096 then
    let s1 := take s { p.takeReturns s.now f with lastGood := f.seq, nakSent := false }
    if f.channel = 0 then s1.dowelArrived k h port f else s1.flitArrived k h port f
  else s

/-- A flit is received on a port (R293 to R299): `raw` its 256 bytes, `fecBad` an uncorrectable codeword, `fecFixed` corrected
ones, `word` a link word that came with it. -/
def execFlitReceive (port : Fin 32) (t : Nat) (raw : Bytes) (fecBad fecFixed : Bool) (word : Option LinkWord) (s : State) : Outcome :=
  let s := s.upTo t
  let k := port.val / 2
  let h := if (s.link k).split then port.val % 2 else 0
  if ((s.link k).path (port.val % 2)).live then
    let s1 := (s.takeLinkWord k h word).bump (0x731 + 8 * port.val) 1
    let s2 := if fecFixed then s1.bump (0x734 + 8 * port.val) 1 else s1
    .next ((if fecBad || raw.length != 256 || !crcGood raw 0 252 then s2.flitBad port fecBad
            else s2.flitGood k h port (Flit.ofBytes raw)).drain k h)
  else .next s

/-! ### Forwarding and release (R302, R304 to R306, R308, R314, R315) -/

/-- The receive buffer of a transaction is given back (R308). -/
def State.creditHeld (s : State) (x : HeldTx) : State :=
  let l := s.link x.link
  let ch := txChannel x.tx.kind
  (s.setLink x.link { l with pathA := l.pathA.owe ch x.flitsA, pathB := l.pathB.owe ch x.flitsB }).drain x.link x.half

/-- A transaction for another node is forwarded by the active table (R302); `upset` tells that its data were corrupted in the hub
(R314). -/
def execTransactionForward (t : Nat) (upset : Bool) (s : State) : Outcome :=
  let s := s.upTo t
  match s.fabric.toForward with
  | [] => .next s
  | x :: rest =>
    let s1 := ({ s with fabric := { s.fabric with toForward := rest } } : State).creditHeld x
    if 8 ≤ x.tx.hops then .next (s1.raise .hd FC.hopLimit (linkUnit x.link) 0)
    else
      match s1.route x.tx.destNode with
      | none => .next (s1.raise .hd FC.noRoute (linkUnit x.link) 0)
      | some r =>
        if (s1.link r.1).levelOf r.2.1 < x.tx.level then .next s1
        else
          let y := { x.tx with hops := x.tx.hops + 1, crcGood := x.tx.crcGood && !(upset && !x.tx.data.isEmpty) }
          .next ((s1.transmit r.1 r.2.1 y.flits).bump (0x833 + 4 * r.1) 1)

def State.endpoint (s : State) (e : Nat) : EpState := SMap.get s.fabric.endpoints e EpState.start
def State.setEndpoint (s : State) (e : Nat) (x : EpState) : State :=
  { s with fabric := { s.fabric with endpoints := SMap.set s.fabric.endpoints e x EpState.start } }
def State.binding (s : State) (e : Nat) : Binding := SMap.get s.fabric.bindings e Binding.unbound

/-- The queue that endpoint `e` produces into: the one its partition's jig declares with it as producer (R309). -/
def State.producedQueue (s : State) (e : Nat) : Option QueueDecl :=
  match s.ownerOfEndpoint e with
  | none => none
  | some p => (s.partJig p).bind (fun j => j.jig.queues.find? (fun q => q.producer == 0x3000 + e))

/-- Entries delivered into the produced queue of an endpoint, unless that queue takes none (R287). -/
def State.produce (s : State) (e : Nat) (es : List QEntry) : State :=
  match s.producedQueue e with
  | none => s
  | some q => es.foldl (fun s x => if (s.queue q.id).canSend then s.sendQueue q.id x else s) s

/-- The data of a transaction as entries: every word uncorrectable where its CRC failed (R314). -/
def entriesOf (x : Transaction) : List QEntry :=
  (List.range x.count).map (fun i =>
    { data := some (if x.crcGood then goodData (slice x.data (512 * i) 512) else List.replicate 512 none) })

/-- The WA64 values of a vector of entries, 64 to an entry. -/
def valuesOf (n : Nat) (b : Bytes) : List Nat := (List.range (64 * n)).map (fun i => rd b (8 * i) 8)

/-- The entries of a reduction's result, its flag entry last (R318). -/
def resultEntries (values : List Nat) (flags : Nat) : List QEntry :=
  (List.range (values.length / 64)).map (fun i =>
    { data := some (goodData (((values.drop (64 * i)).take 64).flatMap (fun v => leBytes 8 v))) }) ++
  [{ data := some (goodData (leBytes 1 (flags % 16) ++ zeros 511)) }]

/-- Credits a sink or client holds that it has neither sent nor reserved (R311, R312). -/
def State.epCredits (s : State) (e : Nat) : Nat :=
  match s.producedQueue e with
  | none => 0
  | some q => (s.queue q.id).credits - (s.endpoint e).reserved

/-- A member may contribute its next operation (R316): it has the credits, and the result of the operation before the last. -/
def State.mayContribute (s : State) (e : Nat) : Bool :=
  let b := s.binding e
  let ep := s.endpoint e
  b.mode == 5 && s.epRuns e && decide (b.batch + 1 ≤ s.epCredits e) && decide (ep.nextOp ≤ ep.results + 1)

/-- Since when a member may contribute is kept (R317). -/
def State.settleMember (s : State) (e : Nat) : State :=
  let ep := s.endpoint e
  let m := if s.mayContribute e then some (ep.mayAt.getD s.now) else none
  if m = ep.mayAt then s else s.setEndpoint e { ep with mayAt := m }

/-- A result enters a member's own queue and its partition's flag byte (R318). -/
def State.takeResult (s : State) (e : Nat) (r : RedResult) : State :=
  let s1 := (s.produce e (resultEntries r.values r.flags)).orFrameFlags (s.ownerOfEndpoint e) (r.flags % 16)
  let x := s1.endpoint e
  (s1.setEndpoint e { x with results := x.results + 1, reserved := x.reserved - (r.values.length / 64 + 1) }).settleMember e

/-- What a released transaction does at its endpoint (R311, R312, R317, R318). A `REDUCE` from a node that is no child of the binding has no
effect (DEDUCED: only a bound child's partial is an input). -/
def State.releaseAt (s : State) (x : Transaction) : State :=
  let e := x.destEndpoint
  let b := s.binding e
  let ep := s.endpoint e
  let n := x.count
  match b.mode, x.kind with
  | 2, 1 => (s.setEndpoint e { ep with reserved := ep.reserved - n }).produce e (entriesOf x)
  | 1, 4 => s.setEndpoint e { ep with remoteCredits := ep.remoteCredits + n }
  | 3, 2 => s.setEndpoint e { ep with requests := ep.requests + 1 }
  | 4, 3 => (s.setEndpoint e { ep with reserved := ep.reserved - n }).produce e (entriesOf x)
  | 5, 5 =>
    match b.children.findIdx? (fun c => c.1 == x.srcNode && c.2 == x.srcEndpoint) with
    | none => s
    | some child =>
      let p : ChildPartial :=
        { child := child, op := x.bindSeq, values := if x.crcGood then valuesOf n x.data else List.replicate (64 * n) 0,
          flags := if x.crcGood then x.waFlags else x.waFlags ||| waInvalid, window := x.window, mismatch := x.windowMismatch,
          released := s.now }
      let s1 := s.setEndpoint e { ep with partials := ep.partials ++ [p] }
      if x.window ≠ b.window then s1.raiseFor .hd FC.redWindow noUnit (s.ownerOfEndpoint e) else s1
  | 5, 6 =>
    let r : RedResult :=
      { op := x.bindSeq, values := if x.crcGood then valuesOf n x.data else List.replicate (64 * n) 0,
        flags := if x.crcGood then x.waFlags else x.waFlags ||| waInvalid, mismatch := x.windowMismatch, rt := s.rt }
    let s1 := s.takeResult e r
    let y := s1.endpoint e
    s1.setEndpoint e { y with toForward := y.toForward ++ [r] }
  | _, _ => s

/-- A held transaction is due: its release edge has come, or for a late one the first RT edge after its arrival (R304, R306). -/
def State.due (s : State) (x : HeldTx) : Bool := edgeCome s.rt (if x.late then (x.arrivedRt + 1) % 2 ^ 32 else x.tx.releaseRt)

/-- The job of the jig that the partition of endpoint `e` holds. -/
def State.jobOfEndpoint (s : State) (e : Nat) : Option Nat := (s.ownerOfEndpoint e).bind (fun p => (s.partJig p).map (fun j => j.jig.jobId))

/-- What a peer's transactions to an endpoint are told apart by: node, endpoint and kind (R305). -/
def Transaction.peer (x : Transaction) : Nat × Nat × Nat := (x.srcNode, x.srcEndpoint, x.kind)

/-- The `BIND_SEQ` that an endpoint releases next from a peer. -/
def EpState.expects (ep : EpState) (k : Nat × Nat × Nat) : Nat := ((ep.expected.find? (fun y => y.1 == k)).map (·.2)).getD 0

/-- A transaction's turn by `BIND_SEQ` has come (R305); one that will be discarded for its job waits for no turn. -/
def State.inTurn (s : State) (x : Transaction) : Bool :=
  s.jobOfEndpoint x.destEndpoint != some x.jobId ||
    (let d := (x.bindSeq + 65536 - (s.endpoint x.destEndpoint).expects x.peer) % 65536
     d == 0 || decide (32768 ≤ d))

/-- The held transaction to release now: it is due, and its turn has come (R304, R305). -/
def State.nextRelease (s : State) : Option HeldTx := s.fabric.toRelease.find? (fun x => s.due x && s.inTurn x.tx)

/-- The turn of the next transaction of a binding (R305). -/
def State.nextTurn (s : State) (x : Transaction) : State :=
  let ep := s.endpoint x.destEndpoint
  if x.bindSeq = ep.expects x.peer then
    s.setEndpoint x.destEndpoint { ep with
      expected := (x.peer, (x.bindSeq + 1) % 65536) :: ep.expected.filter (fun y => y.1 != x.peer) }
  else s

/-- A transaction is released to its endpoint at its edge (R304 to R308, R314, R315). -/
def execTransactionRelease (t : Nat) (s : State) : Outcome :=
  let s := s.upTo t
  match s.nextRelease with
  | none => .next s
  | some x =>
    let e := x.tx.destEndpoint
    let p := s.ownerOfEndpoint e
    let s1 := ({ s with fabric := { s.fabric with toRelease := s.fabric.toRelease.erase x } } : State).creditHeld x
    let s2 := if x.late then
        let s2 := s1.bump (0x870 + e) 1
        if s2.fabric.lateRaised then s2
        else ({ s2 with fabric := { s2.fabric with lateRaised := true } } : State).raiseFor .hd FC.lateRelease (linkUnit x.link) p
      else s1
    if s.jobOfEndpoint e = some x.tx.jobId then
      let s3 := if x.tx.crcGood then s2 else s2.raiseFor .hd FC.txDataCrc (linkUnit x.link) p
      .next ((s3.nextTurn x.tx).releaseAt x.tx)
    else if p.elim false (fun p => s.jigs.halted.contains p) then .next s2
    else .next (s2.raiseFor .hd FC.jobMismatch (linkUnit x.link) p)

/-! ### Puts and gets (R311, R312) -/

/-- A transaction of endpoint `e` to its peer. -/
def State.epTx (s : State) (e kind count : Nat) (data : Bytes) : Transaction :=
  let b := s.binding e
  let job := (s.ownerOfEndpoint e).bind (fun p => (s.partJig p).map (fun j => j.jig.jobId))
  { kind := kind, hops := 0, destNode := b.remoteNode.getD 0, srcNode := 0, destEndpoint := b.remoteEndpoint, srcEndpoint := e,
    sendRt := 0, delayClass := 0, windowMismatch := false, count := count, bindSeq := (s.endpoint e).bindSeq, window := 0,
    waFlags := 0, level := 0, jobId := job.getD 0, data := data, crcGood := true }

/-- The transaction leaves and the binding's sequence advances. -/
def State.epSend (s : State) (e : Nat) (x : Transaction) : State :=
  let ep := s.endpoint e
  (s.setEndpoint e { ep with bindSeq := (ep.bindSeq + 1) % 65536 }).originate x

/-- The bytes of a queue entry as the hub sends it: bad words zero (R287). -/
def entryBytes (e : QEntry) : Bytes :=
  match e.data with
  | some d => ((List.range 128).flatMap (fun i => match dataNat ((d.drop (4 * i)).take 4) with
      | some v => leBytes 4 v
      | none => zeros 4))
  | none => zeros 512

/-- The next `n` visible entries of the queue endpoint `e` consumes, and the state without them. -/
def State.takeEntries (s : State) (e n : Nat) : List QEntry × State :=
  let q := 0x1000 + e
  let ep := s.endpoint e
  (((s.queue q).visible.take n), (List.range n).foldl (fun s _ => s.takeQueue q) (s.setEndpoint e { ep with seen := ep.seen.drop n }))

/-- Visible entries of the queue that endpoint `e` consumes. -/
def State.epVisible (s : State) (e : Nat) : Nat :=
  let q := s.queue (0x1000 + e)
  if q.canReceive then q.visible.length else 0

/-- A put source forms a `PUT` once it holds a full batch of entries and credits (R311). -/
def execPutForm (e : Fin 256) (t : Nat) (s : State) : Outcome :=
  let s := s.upTo t
  let b := s.binding e
  let ep := s.endpoint e
  if b.mode = 1 ∧ 0 < b.batch ∧ s.epRuns e ∧ b.batch ≤ s.epVisible e ∧ b.batch ≤ ep.remoteCredits then
    let x := s.epTx e 1 b.batch ((s.takeEntries e b.batch).1.flatMap entryBytes)
    let s1 := (s.takeEntries e b.batch).2
    .next ((s1.setEndpoint e { s1.endpoint e with remoteCredits := ep.remoteCredits - b.batch }).epSend e x)
  else .next s

/-- A put sink sends a `CREDIT` for all the credits it holds. -/
def State.sendCredit (s : State) (e : Nat) : State :=
  let n := s.epCredits e
  let ep := s.endpoint e
  (s.setEndpoint e { ep with reserved := ep.reserved + n }).epSend e (s.epTx e 4 n [])

/-- A put sink sends a `CREDIT` once it holds `BATCH` returned credits (R311). -/
def execCreditSend (e : Fin 256) (t : Nat) (s : State) : Outcome :=
  let s := s.upTo t
  let b := s.binding e
  if b.mode = 2 ∧ 0 < b.batch ∧ s.epRuns e ∧ b.batch ≤ s.epCredits e then .next (s.sendCredit e) else .next s

/-- A get client forms a `GET` once it holds a signal entry and the credits (R312). -/
def execGetForm (e : Fin 256) (t : Nat) (s : State) : Outcome :=
  let s := s.upTo t
  let b := s.binding e
  if b.mode = 4 ∧ 0 < b.batch ∧ s.epRuns e ∧ 0 < s.epVisible e ∧ b.batch ≤ s.epCredits e then
    let s1 := (s.takeEntries e 1).2
    let ep := s1.endpoint e
    .next ((s1.setEndpoint e { ep with reserved := ep.reserved + b.batch }).epSend e (s1.epTx e 2 b.batch []))
  else .next s

/-- A get server forms a `RESPONSE` to the oldest request once the entries are visible (R312). -/
def execResponseForm (e : Fin 256) (t : Nat) (s : State) : Outcome :=
  let s := s.upTo t
  let b := s.binding e
  let ep := s.endpoint e
  if b.mode = 3 ∧ 0 < b.batch ∧ s.epRuns e ∧ 0 < ep.requests ∧ b.batch ≤ s.epVisible e then
    let x := s.epTx e 3 b.batch ((s.takeEntries e b.batch).1.flatMap entryBytes)
    let s1 := (s.takeEntries e b.batch).2
    .next ((s1.setEndpoint e { s1.endpoint e with requests := ep.requests - 1 }).epSend e x)
  else .next s

/-! ### Reductions (R316 to R318) -/

/-- Element-wise sum of two vectors modulo 2^64 (R129, R317). -/
def addVectors (a b : List Nat) : List Nat := List.zipWith wa64Add a b

/-- The partial of operation `op` that a member holds from child `c`. -/
def EpState.partialFrom (x : EpState) (op c : Nat) : Option ChildPartial := x.partials.find? (fun y => y.child == c && y.op == op % 65536)

/-- The partials of operation `op` of a binding's `n` children. -/
def EpState.partialsOf (x : EpState) (op n : Nat) : List ChildPartial := (List.range n).filterMap (x.partialFrom op)

/-- A member holds all inputs of its next operation and may contribute (R316, R317). -/
def State.reduceReady (s : State) (e : Nat) : Bool :=
  let b := s.binding e
  let ep := s.endpoint e
  s.mayContribute e && decide (0 < b.batch) && decide (b.batch + 1 ≤ s.epVisible e) &&
    (List.range b.children.length).all (fun c => (ep.partialFrom ep.nextOp c).isSome)

/-- The RT edge on which a member forms its sum: the first at or after the last input plus 120 ns (R317). -/
def State.combineEdge (s : State) (e : Nat) : Nat :=
  let b := s.binding e
  let ep := s.endpoint e
  let last := (ep.partialsOf ep.nextOp b.children.length).foldl (fun m c => max m c.released) (max (nth ep.seen b.batch 0) (ep.mayAt.getD 0))
  s.frame.edgeAt (last + 864)

/-- A member's combined partial: values, flags, mismatch (R317). -/
def combine (n : Nat) (window : Int) (own : List QEntry) (ps : List ChildPartial) : List Nat × Nat × Bool :=
  let v := valuesOf n ((own.take n).flatMap entryBytes)
  let f := rd ((own.drop n).headD signalEntry |> entryBytes) 0 1 % 16
  (ps.foldl (fun a c => addVectors a c.values) v, ps.foldl (fun a c => a ||| c.flags) f,
   ps.any (fun c => c.mismatch || decide (c.window ≠ window)))

/-- A `REDUCE_RESULT` to each child, in the order of the binding, for RT edge `rt` (R318). -/
def State.resultToChildren (s : State) (e rt : Nat) (r : RedResult) : State :=
  let b := s.binding e
  b.children.foldl (fun s c =>
    s.originateAt rt { s.epTx e 6 (r.values.length / 64) (r.values.flatMap (fun v => leBytes 8 v)) with
      destNode := c.1, destEndpoint := c.2, bindSeq := r.op % 65536, window := b.window, waFlags := r.flags,
      windowMismatch := r.mismatch }) s

/-- A member combines its contribution with its children's and sends the sum up, for the edge that R317 gives; the root forms the result
(R317, R318). -/
def execReduceCombine (e : Fin 256) (t : Nat) (s : State) : Outcome :=
  let s := s.upTo t
  let edge := s.combineEdge e
  if s.reduceReady e && decide (edge ≤ s.rt) then
    let b := s.binding e
    let ep := s.endpoint e
    let op := ep.nextOp
    let own := s.takeEntries e (b.batch + 1)
    let c := combine b.batch b.window own.1 (ep.partialsOf op b.children.length)
    let s1 := (own.2.setEndpoint e { own.2.endpoint e with
      nextOp := op + 1, reserved := ep.reserved + b.batch + 1, partials := ep.partials.filter (fun x => x.op != op % 65536) }).settleMember e
    match b.remoteNode with
    | some _ =>
      .next (s1.originateAt edge { s1.epTx e 5 b.batch (c.1.flatMap (fun v => leBytes 8 v)) with
        bindSeq := op % 65536, window := b.window, waFlags := c.2.1, windowMismatch := c.2.2 })
    | none =>
      let r : RedResult :=
        { op := op, values := if c.2.2 then List.replicate (64 * b.batch) 0 else c.1,
          flags := if c.2.2 then c.2.1 ||| waInvalid else c.2.1, mismatch := c.2.2, rt := edge }
      .next ((s1.takeResult e r).resultToChildren e edge r)
  else .next s

/-- A member forwards a released result to its children 20 ns after release (R318). -/
def execReduceResultForward (e : Fin 256) (t : Nat) (s : State) : Outcome :=
  let s := s.upTo t
  let ep := s.endpoint e
  match ep.toForward with
  | [] => .next s
  | r :: rest =>
    if r.rt + 2 ≤ s.rt then .next ((s.setEndpoint e { ep with toForward := rest }).resultToChildren e (r.rt + 2) r) else .next s

end Sys2Proof.Machine
end

