-- ==== Sys2Proof/Machine/FrameCode.lean ====
section
/-! DEFINITION. The frame timing unit outside the kerf (R31 to R44, R53 to R58, R62 to R70, R319 to R323): marks and references,
local done, the barrier, dowels, the watchdog. -/

namespace Sys2Proof.Machine

/-! ### Schedule (R33, R38, R40, R54, R64, R65) -/

/-- 100 microseconds in RT periods: no frame is shorter (R31). -/
def minFrameRt : Nat := 10000

/-- The change of the domain that takes effect in frame `f`, if one does. -/
def State.changeAt (s : State) (f : Nat) : Option DomainChange := s.frame.changes.find? (fun c => c.frame == f)

/-- The kerf that the module's or the domain's own schedule gives next: frame and RT edge (R33, R38, R40, R78). -/
def State.scheduledKerf (s : State) : Option (Nat × Nat) :=
  let n := s.frame.number + 1
  match s.changeAt n with
  | some c => if c.time ≠ 0 then some (n, c.time) else s.frame.go.orElse (fun _ => s.frame.anchor.map (fun a =>
      (n, a.2 + (n - a.1) * (s.frame.modes.frameLengthUs * 100))))
  | none =>
    match s.frame.modes.cadence with
    | .fixed => s.frame.anchor.map (fun a => (n, a.2 + (n - a.1) * (s.frame.modes.frameLengthUs * 100)))
    | .barrier => s.frame.go

/-- The go dowel by which a module joins under BARRIER cadence: from its parent-to-be, or its own where it is to be the root (R64). -/
def State.joinGo (s : State) (j : PendingJoin) : Option (Nat × Nat) :=
  match j.dom.parent with
  | some _ => s.frame.joinGo
  | none => s.frame.go

/-- The next kerf: an accepted join under FIXED cadence replaces own kerfs less than 100 microseconds before `JOIN_TIME`; under
BARRIER the joining go dowel does (R64, R65). -/
def State.nextKerf (s : State) : Option (Nat × Nat) :=
  match s.frame.pendingJoin with
  | none => s.scheduledKerf
  | some j =>
    match j.modes.cadence with
    | .fixed =>
      match s.scheduledKerf with
      | some k => if k.2 + minFrameRt ≤ j.joinTime then some k else some (j.joinFrame, j.joinTime)
      | none => some (j.joinFrame, j.joinTime)
    | .barrier =>
      match s.joinGo j with
      | some g =>
        if j.joinFrame ≤ g.1 then
          match s.scheduledKerf with
          | some k => if k.2 + minFrameRt ≤ g.2 then some k else some g
          | none => some g
        else s.scheduledKerf
      | none => s.scheduledKerf

/-- The RT edge at which a scheduled kerf starts: no frame is shorter than 100 microseconds (R31). -/
def State.kerfEdge (s : State) (rt : Nat) : Nat :=
  if s.frame.anyKerf then max rt (s.frame.rtBase + (s.frame.kerf.strobe + 100 * rcUs - s.frame.rtAt + rcRt - 1) / rcRt) else rt

/-- A kerf strobe falls on this pc or an earlier one and has not been handled: what a later step of R683 does waits for it (R29). -/
def State.strobeDue (s : State) : Bool :=
  !s.frame.frozen && s.nextKerf.elim false (fun k => decide (s.frame.timeOfRt (s.kerfEdge k.2) / rcPc ≤ s.now / rcPc))

/-- The next kerf is the first of the domain being joined. -/
def State.joins (s : State) (k : Nat × Nat) : Bool :=
  match s.frame.pendingJoin with
  | none => false
  | some j =>
    match j.modes.cadence with
    | .fixed => k.2 == j.joinTime
    | .barrier => decide (j.joinFrame ≤ k.1) && s.joinGo j == some k

/-- The own FIXED schedule is anchored to RT at a lock: the first edge that is a multiple of 100,000, after the lock and at least
100 microseconds after the previous kerf, or after the unit's start (R33). -/
def State.anchorOwn (s : State) : State :=
  let f := s.frame
  let prev := if f.anyKerf then f.kerf.strobe else f.startedAt
  let low := max (s.rt + 1) (f.edgeAt (prev + 100 * rcUs))
  let edge := (low + 99999) / 100000 * 100000
  { s with frame := { f with anchor := some (f.number + 1, edge) } }

/-! ### Marks and references (R34 to R37) -/

/-- Whether a mark word's preamble and check are correct (R34, R35). -/
def markValid (w : BitVec 64) : Bool :=
  let v := w.toNat
  v % 256 == 0xB1 && bitsOf v 48 16 == (crc32c (leBytes 5 (bitsOf v 8 40))).toNat % 65536

/-- `MARK_NUMBER`. -/
def markNumber (w : BitVec 64) : Nat := bitsOf w.toNat 8 40

/-- The `LEAVE` dowel that names the frame from which the module no longer counts (R67, R320). -/
def State.sendLeave (s : State) (f : Nat) : State :=
  match s.frame.domain with
  | none => s
  | some d => s.dowelToParent { kind := 4, relay := false, member := d.memberIndex, domainId := d.id, frame := f, startRt := 0, jobId := 0 }

/-- A forced leave (R68): the fault, halt dowels for every running job, and the leave at the next kerf. The kerf in which a commanded leave
sends its dowel has passed: the dowel goes at once (DEDUCED). -/
def State.forceLeave (s : State) : State :=
  if s.frame.forcedLeave then s
  else
    let s1 := ((s.raise .hd FC.forcedLeave noUnit 0).haltAllJobs).sendLeave (s.frame.number + 1)
    { s1 with frame := { s1.frame with forcedLeave := true } }

/-- RT takes a mark's value at its edge (R35). What counts of a reference is whether it was lost since this lock (R37; DEDUCED, log
entry 21). -/
def State.lockRt (s : State) (n : Nat) : State :=
  ({ s with frame := { s.frame with rtBase := n * 100000, rtAt := s.now, rtLocked := true, lastMark := some n,
                                    lastDisagreeing := none, refALost := false, refBLost := false } } : State).runOnReference

/-- Holdover ends; its time is counted (R675). -/
def State.endHoldover (s : State) : State :=
  match s.frame.holdoverSince with
  | none => s
  | some h => (({ s with frame := { s.frame with holdoverSince := none } } : State).runOnReference).bump 0x97A ((s.now - h) / rcUs)

/-- A valid mark on a reference that has not been lost (R35, R36). A FIXED schedule that a forced leave hands to the module keeps its anchor
in the new RT: a kerf that this puts in the past comes as soon as R31 allows (DESIGN CHOICE: R33 anchors again only outside a domain). -/
def State.activeMark (s : State) (n : Nat) : State :=
  let f := s.frame
  if !f.rtLocked then
    if f.lastMark.map (· + 1) = some n then
      let s1 := s.lockRt n
      if s1.frame.domain.isSome then s1
      else match s1.frame.modes.cadence with
        | .fixed => s1.anchorOwn
        | .barrier => s1
    else { s with frame := { f with lastMark := some n } }
  else if s.rt = n * 100000 then { s with frame := { f with lastMark := some n, lastDisagreeing := none } }
  else if f.lastDisagreeing.map (· + 1) = some n then
    let s1 := ((s.lockRt n).raise .hd FC.markMismatch noUnit 0).bump 0x97C 1
    if s1.frame.domain.isSome then s1.forceLeave
    else match s1.frame.modes.cadence with
      | .fixed => s1.anchorOwn
      | .barrier => s1
  else ({ s with frame := { f with lastDisagreeing := some n, marksIgnored := f.marksIgnored + 1 } } : State).bump 0x97B 1

/-- A valid mark on a reference that is lost: it has returned if its edges have been present for 1 ms and the mark agrees with RT;
in holdover the unit changes over to it (R37). -/
def State.returningMark (s : State) (b : Bool) (n edgesRc : Nat) : State :=
  let f := s.frame
  if rcMs ≤ edgesRc ∧ f.rtLocked ∧ s.rt = n * 100000 then
    let s1 : State := { s with frame := if b then { f with refBLost := false } else { f with refALost := false } }
    let s2 := s1.raise .hd FC.refRestored noUnit 0
    if f.activeRef.isNone then
      let s3 := s2.endHoldover
      { s3 with frame := { s3.frame with activeRef := some (b2n b) } }
    else s2
  else s

/-- A mark word is received whole on FRAME_REF_A, or on FRAME_REF_B if `b`; its mark edge is at `t`, and the reference's edges have
been present for `edgesRc` root cycles (R34 to R37). -/
def execFrameMark (t : Nat) (b : Bool) (word : BitVec 64) (edgesRc : Nat) (s : State) : Outcome :=
  let s := s.upTo t
  let f := s.frame
  if !markValid word then .next (s.bump 0x97B 1)
  else
    let n := markNumber word
    let s1 : State := { s with frame := { f with lastMarkAt := s.now, markMissing := false } }
    .next (if (if b then f.refBLost else f.refALost) then s1.returningMark b n edgesRc else s1.activeMark n)

/-- No valid mark for 3 ms (R36): the fault is raised once. -/
def execMarkMissing (t : Nat) (s : State) : Outcome :=
  let s := s.upTo t
  if s.frame.lastMarkAt + 3 * rcMs ≤ s.now ∧ !s.frame.markMissing then
    .next (({ s with frame := { s.frame with markMissing := true } } : State).raiseCond .hd FC.markMissing noUnit 0)
  else .next s

/-- Three edges of the active reference are missing (R37): changeover to the other if it is usable, else holdover. Three missing edges of
the other reference mark that one lost (DEDUCED, log entry 21). -/
def execReferenceLost (t : Nat) (b : Bool) (s : State) : Outcome :=
  let s := s.upTo t
  let f := s.frame
  if f.activeRef = some (b2n b) then
    let lost := if b then { f with refBLost := true } else { f with refALost := true }
    let otherLost := if b then f.refALost else f.refBLost
    if otherLost then
      .next ((({ s with frame := { lost with activeRef := none, holdoverSince := some s.now } } : State).runOnOscillator).raiseCond .hd
        FC.refHoldover noUnit 0)
    else
      .next ((({ s with frame := { lost with activeRef := some (1 - b2n b) } } : State).raise .hd FC.refChangeover noUnit 0).bump
        0x979 1)
  else .next { s with frame := if b then { f with refBLost := true } else { f with refALost := true } }

/-- 20 ms of holdover with no reference returned: the module leaves its domain at the next kerf (R37, R68). -/
def execHoldoverExpiry (t : Nat) (s : State) : Outcome :=
  let s := s.upTo t
  match s.frame.holdoverSince with
  | some h =>
    if h + 20 * rcMs ≤ s.now ∧ s.frame.domain.isSome ∧ !s.frame.forcedLeave then .next s.forceLeave else .next s
  | none => .next s

/-! ### Done, go and the barrier (R41, R42, R53, R54, R320) -/

/-- The children that count in the frame that runs (R53, R67). -/
def State.countedChildren (s : State) : List Nat :=
  match s.frame.domain with
  | none => []
  | some d => d.children.filter (fun c => s.frame.childLeaves.all (fun l => l.1 != c || decide (s.frame.number < l.2)))

/-- The start time of the next kerf as the root's go dowel gives it: RT at sending, 180 ns after the last input, plus the margin,
rounded up; never less than 100 microseconds after the current kerf (R40, R53, R54). -/
def State.goStart (s : State) (marginNs : Nat) : Nat :=
  let f := s.frame
  max (f.edgeAt (s.now + rcOfNs 180 + rcOfNs marginNs)) (f.edgeAt (f.kerf.strobe + 100 * rcUs))

/-- The declaration that the module opens as the root of a domain under BARRIER cadence: the next frame on its own count is not before
`JOIN_FRAME`, so that its own `GO` is the first of the domain (R64; DEDUCED). -/
def FrameState.opens (f : FrameState) : Option PendingJoin :=
  match f.domain, f.pendingJoin with
  | none, some j =>
    if j.modes.cadence = .barrier ∧ j.dom.parent = none ∧ j.joinFrame ≤ f.number + 1 then some j else none
  | _, _ => none

/-- A `GO` goes to the children, and to those of a tree position that holds from its frame on (R64, R66, R320). -/
def State.goDown (s : State) (d : Dowel) : State :=
  match s.frame.domain with
  | none => s
  | some dom =>
    let joining := match s.frame.pendingTree with
      | some t => if t.frame ≤ d.frame then t.children.filter (fun c => !dom.children.contains c) else []
      | none => []
    s.dowelToChildrenOf { dom with children := dom.children ++ joining } d

/-- The root of a domain about to be opened sends its first `GO`, once it has reached local done (R64). -/
def State.openDomain (s : State) (j : PendingJoin) : State :=
  let f := s.frame
  if f.ownDone ∧ !f.donePassed then
    let g := s.goStart j.dom.releaseMarginNs
    ({ s with frame := { f with donePassed := true, go := some (f.number + 1, g) } } : State).dowelToChildrenOf j.dom
      { kind := 2, relay := false, member := j.dom.memberIndex, domainId := j.dom.id, frame := f.number + 1, startRt := g, jobId := 0 }
  else s

/-- All inputs of this node have come: `DONE` goes to the parent, or the root sends `GO` (R42, R53, R54, R320). -/
def State.passDone (s : State) : State :=
  let f := s.frame
  match f.opens with
  | some j => s.openDomain j
  | none =>
  if f.modes.cadence = .barrier ∧ f.ownDone ∧ !f.donePassed ∧ s.countedChildren.all (fun c => f.childrenDone.contains c) then
    let s1 : State := { s with frame := { f with donePassed := true } }
    match f.domain with
    | none => { s1 with frame := { s1.frame with go := some (f.number + 1, s.goStart 0) } }
    | some d =>
      match d.parent with
      | some _ =>
        s1.dowelToParent { kind := 1, relay := false, member := d.memberIndex, domainId := d.id, frame := f.number, startRt := 0,
                           jobId := 0 }
      | none =>
        let g := s.goStart d.releaseMarginNs
        ({ s1 with frame := { s1.frame with go := some (f.number + 1, g) } } : State).goDown
          { kind := 2, relay := false, member := d.memberIndex, domainId := d.id, frame := f.number + 1, startRt := g, jobId := 0 }
  else s

/-- The module reaches local done for the frame (R41, R42). -/
def execLocalDone (t : Nat) (s : State) : Outcome :=
  let s := s.upTo t
  if s.localDone ∧ !s.frame.ownDone ∧ s.frame.anyKerf then
    .next (({ s with frame := { s.frame with ownDone := true, ownDoneAt := s.now } } : State).passDone)
  else .next s

/-- The largest declared length among the classes run in the frame, in microseconds; none when no partition runs one (R44, R57). -/
def State.longestClass (s : State) : Option Nat :=
  allPartitions.foldl (fun m p =>
    match s.partJig p, s.classOf p with
    | some j, some c =>
      match j.jig.classes.find? (fun r => r.id == c) with
      | some r => some (max (m.getD 0) r.lengthUs)
      | none => m
    | _, _ => m) none

/-- Partitions whose job runs in the frame. -/
def State.frameJobs (s : State) : List Nat := allPartitions.filter (fun p => s.jobRuns p)

/-- The barrier watchdog (R57): halts for the jobs that are not done, or for all if all are. -/
def execBarrierWatchdog (t : Nat) (s : State) : Outcome :=
  let s := s.upTo t
  let f := s.frame
  let factor := f.domain.elim 32 (·.watchdogFactor)
  let l := s.longestClass.getD 8000000
  if f.modes.cadence = .barrier ∧ f.anyKerf ∧ !f.watchdogFired ∧ f.kerf.strobe + l * rcUs * factor / 16 ≤ s.now then
    let late := s.frameJobs.filter (fun p => !s.partitionDone p)
    let s1 := (({ s with frame := { f with watchdogFired := true } } : State).raise .hd FC.barrierWatchdog noUnit 0).bump 0x974 1
    .next (s1.haltJobsOf (if late.isEmpty then s.frameJobs else late))
  else .next s

/-! ### Dowels received (R320, R322, R323) -/

/-- What this module is to a token. -/
inductive DowelRole where
  | fromParent
  | fromChild (c : Nat)
  /-- It stands in for the sender and passes the token on to the parent. -/
  | passUp
  /-- It stands in for members and passes the parent's token on to them. -/
  | passDown
  | stranger
deriving DecidableEq, Repr

/-- The role a token finds (R320, R322). -/
def State.dowelRole (s : State) (src : DowelFrom) (d : Dowel) : DowelRole :=
  let children := match s.frame.domain with
    | some x => x.children
    | none => []
  match src with
  | .parent => if d.relay && !s.fabric.standingFor.isEmpty then .passDown else .fromParent
  | .member n =>
    let through := s.fabric.relayed.find? (fun r => r.2 == n)
    if d.relay && s.fabric.standIn == some n && s.fabric.relaying then .fromParent
    else if d.relay && d.member != n && children.contains d.member then .fromChild d.member
    else if d.relay && d.member != n && through.isSome then .fromChild (through.elim n (·.1))
    else if d.relay && (d.member == n || s.fabric.standingFor.contains n) then .passUp
    else if children.contains n then .fromChild n
    else .stranger

/-- The token leaves those received and not yet handled; a relayed one is remembered (R322). -/
def State.takeDowel (s : State) (src : DowelFrom) (d : Dowel) : State :=
  let f := s.fabric
  let seen := { f with dowelsIn := match f.dowelsIn.find? (fun x => x.2 == d) with
    | some x => f.dowelsIn.erase x
    | none => f.dowelsIn }
  match src, s.dowelRole src d with
  | .member n, .fromChild c =>
    if c = n ∨ !d.relay then { s with fabric := seen }
    else { s with fabric := { seen with relayed := (c, n) :: seen.relayed.filter (fun r => r.1 != c) } }
  | .member n, .passUp =>
    { s with fabric := { seen with standingFor := if seen.standingFor.contains n then seen.standingFor else n :: seen.standingFor } }
  | _, _ => { s with fabric := seen }

/-- A stand-in passes a token on (R322). -/
def State.relayDowel (s : State) (r : DowelRole) (d : Dowel) : State :=
  match r with
  | .passUp => s.dowelToParent { d with relay := true }
  | .passDown => s.fabric.standingFor.foldl (fun s m =>
      match s.linkTo m with
      | some q => s.dowelOut q.1 q.2 { d with relay := true }
      | none => s) s
  | _ => s

/-- The token's domain is the module's (R320); a module that joins takes its new domain's go dowel (R64). -/
def State.dowelKnown (s : State) (d : Dowel) : Bool :=
  (match s.frame.domain with | some x => x.id == d.domainId | none => false) ||
  (match s.frame.pendingJoin with | some j => j.dom.id == d.domainId && d.kind == 2 | none => false)

/-- A token is taken from those received, checked for its domain, and handled by its role (R320). -/
def State.dowel (s : State) (src : DowelFrom) (d : Dowel) (t : Nat) (f : State → DowelRole → State) : Outcome :=
  let s := (s.upTo t).takeDowel src d
  if !s.dowelKnown d then .next (s.raise .hd FC.dowelForeign noUnit 0)
  else
    let r := s.dowelRole src d
    .next ((f s r).relayDowel r d)

/-- A `DONE` from a child (R320): one for a frame that has passed is discarded. -/
def execDowelDone (src : DowelFrom) (tok : Dowel) (t : Nat) (s : State) : Outcome :=
  s.dowel src tok t (fun s r =>
    match r with
    | .fromChild c =>
      if tok.frame = s.frame.number ∧ !s.frame.childrenDone.contains c then
        ({ s with frame := { s.frame with childrenDone := c :: s.frame.childrenDone } } : State).passDone
      else s
    | _ => s)

/-- A `GO` from the parent (R320, R323): passed to the children; the next kerf starts on the edge `START_RT`, or on the next edge if that one
has passed. -/
def execDowelGo (src : DowelFrom) (tok : Dowel) (t : Nat) (s : State) : Outcome :=
  s.dowel src tok t (fun s r =>
    match r with
    | .fromParent =>
      let late := decide (s.frame.timeOfRt tok.startRt < s.now)
      let start := if late then s.rt + 1 else tok.startRt
      let lateness := fun (x : State) => if late then x.raise .hd FC.goLate noUnit 0 else x
      match s.frame.domain with
      | some _ =>
        if tok.frame ≤ s.frame.number then s
        else lateness (({ s with frame := { s.frame with go := some (tok.frame, start) } } : State).goDown tok)
      | none =>
        match s.frame.pendingJoin with
        | some j =>
          if tok.frame < j.joinFrame then s
          else lateness (({ s with frame := { s.frame with joinGo := some (tok.frame, start) } } : State).dowelToChildrenOf j.dom tok)
        | none => s
    | _ => s)

/-- A halt dowel passed down to every child, once (R320). -/
def State.haltDown (s : State) (tok : Dowel) : State :=
  if s.fabric.haltsDown.contains tok.jobId then s
  else ({ s with fabric := { s.fabric with haltsDown := tok.jobId :: s.fabric.haltsDown } } : State).dowelToChildren tok

/-- A `HALT` (R58, R320): passed up, at the root down to every child, from the parent on to every child; its job is halted here. -/
def execDowelHalt (src : DowelFrom) (tok : Dowel) (t : Nat) (s : State) : Outcome :=
  s.dowel src tok t (fun s r =>
    match r with
    | .fromChild _ => (s.haltJob tok.jobId).passHalt { tok with relay := false }
    | .fromParent => (s.haltJob tok.jobId).haltDown tok
    | _ => s)

/-- A `LEAVE` from a child: it no longer counts from `LEAVE_FRAME` on; the token goes no further (R67, R320). -/
def execDowelLeave (src : DowelFrom) (tok : Dowel) (t : Nat) (s : State) : Outcome :=
  s.dowel src tok t (fun s r =>
    match r with
    | .fromChild c => { s with frame := { s.frame with childLeaves := (c, tok.frame) :: s.frame.childLeaves } }
    | _ => s)

/-- A `RELAY_NOTICE`, or any relayed token: the parent sends that child's tokens through the stand-in (R322). -/
def execRelayNotice (src : DowelFrom) (tok : Dowel) (t : Nat) (s : State) : Outcome :=
  s.dowel src tok t (fun s _ => s)

end Sys2Proof.Machine
end

