-- ==== Sys2Proof/Machine/FuseOps.lean ====
section
/-! DEFINITION. The fuse image as the module uses it (R546 to R551): the values the manual states for every shipped module; every other
byte is the module's own. -/

namespace Sys2Proof.Machine

/-- The groups of the fuse image: offset and size (R547). The reserved range 0x0780 is no group. -/
def fuseGroups : List (Nat × Nat) :=
  [(0, 64), (0x40, 64), (0x80, 128), (0x100, 64), (0x140, 64), (0x180, 128), (0x200, 512), (0x400, 64), (0x440, 64), (0x480, 768),
   (0x800, 1024), (0xC00, 5120)]

/-- Bytes of the identity and security groups that the manual fixes (R548): ordering code, stepping, reserved bytes. -/
def fuseIdentity : SMap Bytes :=
  [(0x10, [0x41, 0x53, 0x4D, 0x2D, 0x37, 0x32, 0x30, 0x30] ++ zeros 8), (0x20, [0xB0]), (0x21, zeros 3), (0x34, zeros 8),
   (0x71, zeros 11)]

/-- Bytes of the protection groups that the manual fixes (R549). -/
def fuseProtection : SMap Bytes :=
  [(0x80, leBytes 2 2800), (0x82, leBytes 2 3000), (0x84, [10]), (0x85, [60]), (0x86, leBytes 2 1500), (0x88, leBytes 2 300),
   (0x8A, [15]), (0x8B, [90]),
   (0x8C, ([6000, 6800, 8800, 9200, 9600] ++ [460, 700, 3600, 560, 440, 950, 900, 1100]).flatMap (leBytes 2)), (0xA6, zeros 10),
   (0xB0, ([1050, 1050, 1050, 1050, 1000, 1250, 1250, 1250, 1250, 2000, 1200, 650, 2000, 3700, 1050, 3700] : List Nat).flatMap (leBytes 2)),
   (0xD0, [45, 45, 45, 45, 45, 35, 35, 35, 35, 18, 45, 35, 14, 14, 25, 14]),
   (0xE0, [125, 85, 30, 125, 115, 140, 12, 4]), (0xE8, zeros 20)] ++
  [(0x100, leBytes 2 2850), (0x102, leBytes 2 1800),
   (0x104, ([2700, 2800, 2050, 2000, 1900, 550, 600, 650, 0x10000 - 200, 0x10000 - 300, 50] : List Nat).flatMap (leBytes 2)), (0x11A, leBytes 2 2500), (0x11C, zeros 32),
   (0x140, [950, 1050, 1180, 1030, 1250, 1050, 450].flatMap (leBytes 2)), (0x14E, zeros 46)] ++
  [(0x180, leBytes 2 4000), (0x182, leBytes 2 900), (0x184, [1000, 1000, 1000, 1000].flatMap (leBytes 2)),
   (0x190, leBytes 2 1090), (0x19E, leBytes 2 6000), (0x1A0, zeros 92)]

/-- Base levels of class `c`, code numbers 0 to 63, packed two to a byte, low nibble first (R547). -/
def reactionBytes (c : Nat) : Bytes :=
  (List.range 32).map (fun i => BitVec.ofNat 8 (baseLevel (c * 256 + 2 * i) + 16 * baseLevel (c * 256 + 2 * i + 1)))

/-- `REACTION_TABLE` (R547) without its CRC. -/
def reactionTable : Bytes := ((List.range 12).flatMap (fun c => reactionBytes (c + 1))) ++ zeros 124

/-- The byte of a table of fixed ranges at offset `o`, if it lies in one. -/
def fixedByte : SMap Bytes → Nat → Option Byte
  | [], _ => none
  | (a, b) :: r, o => if a ≤ o ∧ o < a + b.length then b[o - a]? else fixedByte r o

/-- A byte of the fuse image before its group's CRC. -/
def fuseBody (o : Nat) : Byte :=
  match fixedByte (fuseIdentity ++ fuseProtection) o with
  | some b => b
  | none => if 0x200 ≤ o ∧ o < 0x400 then reactionTable.getD (o - 0x200) 0 else Config.fuse o

/-- The group an offset lies in. -/
def fuseGroupOf (o : Nat) : Option (Nat × Nat) := fuseGroups.find? (fun g => decide (g.1 ≤ o) && decide (o < g.1 + g.2))

/-- `n` bytes of the image from `o`, each group's last four bytes its CRC-32C (R546); the reserved range is zero. -/
def fuseByte (o : Nat) : Byte :=
  match fuseGroupOf o with
  | none => 0
  | some g =>
    if o < g.1 + g.2 - 4 then fuseBody o
    else (leBytes 4 (crc32c ((List.range (g.2 - 4)).map (fun i => fuseBody (g.1 + i)))).toNat).getD (o - (g.1 + g.2 - 4)) 0

def fuseBytes (o n : Nat) : Bytes := (List.range n).map (fun i => fuseByte (o + i))

/-- `MODULE_SERIAL` (R548). -/
def moduleSerial : Bytes := fuseBytes 0 16
/-- Factory test mode (R551). -/
def testMode : Bool := !bitAt (fuseByte 0x70).toNat 0

end Sys2Proof.Machine
end

