-- ==== Sys2Proof/Machine/MailOps.lean ====
section
/-! DEFINITION. Mailbox slots, requests, checks, journal and responses (R569 to R571, R584 to R597). Slots are numbered as R585 orders
them: 0 PCIe MBP, 1 to 16 MB0 to MB15, 17 Ethernet MBP, 18 I3C. -/

namespace Sys2Proof.Machine

/-! ### Slots -/

def State.slot (s : State) (k : Nat) : MailSlot := SMap.get s.mp.slots k MailSlot.empty
def State.setSlot (s : State) (k : Nat) (v : MailSlot) : State :=
  { s with mp := { s.mp with slots := SMap.set s.mp.slots k v MailSlot.empty } }

/-- Status codes (R595). -/
def stOk : Nat := 0
def stBusy : Nat := 1
def stBadCode : Nat := 2
def stBadLength : Nat := 3
def stRange : Nat := 4
def stState : Nat := 5
def stDenied : Nat := 6
def stVersion : Nat := 7
def stTimeout : Nat := 8
def stStale : Nat := 9
def stFuseLimit : Nat := 10

/-- The privileged mailbox: its PCIe and its Ethernet slot. -/
def slotMbp (k : Nat) : Bool := k == 0 || k == 17
/-- MB0 to MB15. -/
def slotMbk (k : Nat) : Bool := decide (1 ≤ k) && decide (k ≤ 16)
/-- The partition whose mailbox a slot is. -/
def slotPartition (k : Nat) : Nat := k - 1

/-- Where a command is accepted (R597): PCIe MBP only, MBP, MBP and MBk, or all slots. -/
inductive Via where
  | pcieOnly
  | mbp
  | mbpMbk
  | all
deriving DecidableEq, Repr

def Via.accepts (v : Via) (k : Nat) : Bool :=
  match v with
  | .pcieOnly => k == 0
  | .mbp => slotMbp k
  | .mbpMbk => slotMbp k || slotMbk k
  | .all => true

/-- `SOURCE` of a journal entry (R569). -/
def slotSource (k : Nat) : Nat := if k = 0 then 0 else if k = 17 then 1 else if k = 18 then 2 else k + 2

/-- Bytes `off` to `off + n - 1` of a PCIe slot's window. -/
def MailSlot.windowBytes (m : MailSlot) (off n : Nat) : Bytes := (List.range n).map (fun i => SMap.get m.window (off + i) 0)

/-- Bytes put into a PCIe slot's window. -/
def MailSlot.putWindow (m : MailSlot) (off : Nat) (b : Bytes) : MailSlot := { m with window := SMap.setRun m.window off b 0 }

/-- A request becomes ready: it stands behind those already ready, and by slot among those of the same pc (R585). -/
def readyInsert (pc k : Nat) : List (Nat × Nat) → List (Nat × Nat)
  | [] => [(k, pc)]
  | x :: r => if pc = x.2 ∧ k < x.1 then (k, pc) :: x :: r else x :: readyInsert pc k r

/-- A request is ready in slot `k`. -/
def State.requestReady (s : State) (k : Nat) (r : Bytes) (from_ : Nat × Nat) : State :=
  let s1 := s.setSlot k { s.slot k with request := some r, silent := false, replyTo := from_ }
  { s1 with mp := { s1.mp with readyOrder := readyInsert (s.now / rcPc) k s1.mp.readyOrder } }

/-- Whether a message's `MSG_CRC` is right (R586). -/
def msgCrcGood (b : Bytes) : Bool := rd b 28 4 == (crc32c (b.take 28 ++ b.drop 32)).toNat

/-! ### Who serves (R560, R572, R583) -/

/-- A management processor in the ACTIVE role holds control and does not coast. -/
def State.mpServes (s : State) : Bool :=
  s.mp.coastSince.isNone &&
  (match s.mp.owner with
   | some 0 => decide (s.mp.mpA.role = .active)
   | some _ => decide (s.mp.mpB.role = .active)
   | none => false)

/-- The RECOVERY program serves (R583). -/
def State.recoveryServes (s : State) : Bool := decide (s.mp.mpA.role = .recovery)

/-- Commands of the RECOVERY program (R583). -/
def recoveryCommands : List Nat := [0x0A01, 0x0601, 0x0602, 0x0101, 0x0102, 0x0103]

/-- The codes of the command index (R597). -/
def commandIndex : List Nat :=
  [0x0101, 0x0102, 0x0103, 0x0104, 0x0105, 0x0106, 0x0110, 0x0111, 0x0201, 0x0202, 0x0203, 0x0204, 0x0301, 0x0302, 0x0303, 0x0304,
   0x0305, 0x0401, 0x0402, 0x0403] ++
  [0x0501, 0x0502, 0x0503, 0x0504, 0x0505, 0x0506, 0x0507, 0x0601, 0x0602, 0x0603, 0x0604, 0x0605, 0x0701, 0x0702, 0x0703, 0x0704,
   0x0801, 0x0802, 0x0803, 0x0804, 0x0901, 0x0902, 0x0903, 0x0904, 0x0A01, 0x0A02]

/-! ### Responses (R586, R587, R590, R592) -/

/-- The bytes of a response to request `r`: status, flags beside `DONE`, and the frame in which it was carried out. -/
def responseBytes (r : Bytes) (crc : Bool) (status fl frame : Nat) (payload : Bytes) : Bytes :=
  let head := leBytes 2 (rd r 0 2) ++ leBytes 1 (rd r 2 1) ++ leBytes 1 status ++ leBytes 4 (rd r 4 4) ++
    leBytes 2 payload.length ++ leBytes 2 (2 + fl) ++ zeros 4 ++ leBytes 8 (frame % 2 ^ 48) ++ zeros 4
  head ++ leBytes 4 (if crc then (crc32c (head ++ payload)).toNat else 0) ++ payload

/-- A slot whose messages carry `MSG_CRC`. -/
def slotCrc (k : Nat) : Bool := decide (17 ≤ k)

/-- A stored response returned again with `REPLAYED` set (R593). -/
def replayed (k : Nat) (b : Bytes) : Bytes :=
  let head := b.take 10 ++ leBytes 2 (rd b 10 2 ||| 4) ++ (b.drop 12).take 16
  head ++ leBytes 4 (if slotCrc k then (crc32c (head ++ b.drop 32)).toNat else 0) ++ b.drop 32

/-- A response is placed where its requester finds it, and the slot is free. -/
def State.respond (s : State) (k : Nat) (resp : Bytes) : State :=
  let m := s.slot k
  let m1 := { m with request := none, silent := false }
  let s0 : State := { s with mp := { s.mp with readyOrder := s.mp.readyOrder.filter (fun x => x.1 != k) } }
  if k ≤ 16 then
    let s1 := s0.setSlot k (m1.putWindow 0 resp)
    if m.silent then
      -- the cause is set, no message is sent (R588)
      if k = 0 then { s1 with host := { s1.host with pfIntStatus := s1.host.pfIntStatus ||| 1 } }
      else s1.setVf (slotPartition k) { s1.vf (slotPartition k) with intStatus := (s1.vf (slotPartition k)).intStatus ||| 2 }
    else if k = 0 then s1.pfEvent 0
    else s1.vfEvent (slotPartition k) 1
  else if k = 17 then
    let s1 := s0.setSlot k m1
    { s1 with mp := { s1.mp with sent := { port := m.replyTo.1, dest := m.replyTo.2, data := resp } :: s1.mp.sent } }
  else s0.setSlot k { m1 with response := some resp }

/-- Status answered without a payload. -/
def State.refuse (s : State) (k : Nat) (r : Bytes) (status fl : Nat) : State :=
  let s1 := s.respond k (responseBytes r (slotCrc k) status fl s.frame.number [])
  s1.bump 0xA1B 1

/-! ### Journal (R569 to R571) -/

/-- Bytes of an entry in the store (R569). -/
def JournalEntry.size (e : JournalEntry) : Nat := (32 + e.request.length + e.response.length + 63) / 64 * 64

/-- Bytes the journal's entries take. -/
def journalUsed (j : List JournalEntry) : Nat := j.foldl (fun n e => n + e.size) 0

def journalSize : Nat := 262144

/-- Entries that the journal keeps: those after the lowest mark of the good slots (R571). -/
def MgmtState.keptJournal (m : MgmtState) : List JournalEntry :=
  let marks := (if m.image0.good then [m.image0.mark] else []) ++ (if m.image1.good then [m.image1.mark] else [])
  match marks with
  | [] => m.journal
  | a :: r => m.journal.filter (fun e => decide (r.foldl min a < e.seq))

/-- A command and its response join the journal; a journal more than half full makes an image due at once (R567, R570). -/
def State.journal (s : State) (k : Nat) (r resp : Bytes) : State :=
  let e : JournalEntry := { seq := s.mp.jseq + 1, source := slotSource k, complete := true, request := r, response := resp,
                            frame := s.frame.number % 2 ^ 48, good := true }
  let j := s.mp.keptJournal ++ [e]
  let m := { s.mp with journal := j, jseq := e.seq, copyDue := s.mp.copyDue || decide (journalSize < 2 * journalUsed j) }
  let s1 := ({ s with mp := m } : State).bump 0xA20 1
  s1.setSlot k { s1.slot k with last := some (r, resp) }

/-! ### Commands -/

/-- What a command's own section answers from step 8 of R594 on: a refusal, which changes nothing, or a status with the state it
leaves and a payload. -/
inductive Reply where
  | refused (status : Nat)
  | done (status : Nat) (s : State) (payload : Bytes)

/-- A command of the index (R597): code, slots, whether a payload has the command's length, whether the request changes state, and
what it does with a slot and a payload. -/
structure Cmd where
  code : Nat
  via : Via
  lengthOk : Bytes → Bool
  changes : Nat → Bytes → Bool
  act : State → Nat → Bytes → Reply

/-- Step 2 of R594: status of a bad header, 0 for a good one. -/
def headerStatus (r : Bytes) : Nat :=
  if 4064 < rd r 8 2 then stBadLength
  else if rd r 3 1 ≠ 0 ∨ rd r 10 2 / 2 ≠ 0 ∨ !zeroAt r 12 4 ∨ !zeroAt r 16 8 ∨ !zeroAt r 24 4 then stRange
  else stOk

/-- A request without its `MSG_CRC`, as R593 compares it. -/
def comparable (r : Bytes) : Bytes := r.take 28 ++ r.drop 32

/-- A command past step 7 is carried out: refused, or journalled if it changes state, and answered (R569, R570, R594). -/
def State.carryOut (s : State) (k : Nat) (c : Cmd) (r : Bytes) : State :=
  let chg := c.changes k (r.drop 32)
  let room := fun (resp : Bytes) =>
    let e : JournalEntry := { seq := 0, source := 0, complete := true, request := r, response := resp, frame := 0, good := true }
    decide (journalUsed s.mp.keptJournal + e.size ≤ journalSize)
  let full : State :=
    let s1 : State := { s with mp := { s.mp with copyDue := true } }
    (s1.refuse k r stBusy 0).bump 0xA27 1
  match c.act s k (r.drop 32) with
  | .refused st =>
    if st = stBusy then (s.refuse k r stBusy 0).bump 0xA27 1
    else
      let resp := responseBytes r (slotCrc k) st 0 s.frame.number []
      if !chg then (s.respond k resp).bump 0xA1B 1
      else if room resp then ((s.journal k r resp).respond k resp).bump 0xA1B 1
      else full
  | .done st s1 payload =>
    let resp := responseBytes r (slotCrc k) st 0 s.frame.number payload
    if !chg then s1.respond k resp
    else if room resp then (s1.journal k r resp).respond k resp
    else full

/-- Steps 4 to 7 of R594, then the command itself. -/
def State.checkAndRun (s : State) (k : Nat) (c : Cmd) (r : Bytes) : State :=
  if !c.via.accepts k || (s.recoveryServes && (k != 0 || !recoveryCommands.contains c.code)) then s.refuse k r stDenied 0
  else if 0 < rd r 2 1 then s.refuse k r stVersion 8
  else if !c.lengthOk (r.drop 32) then s.refuse k r stBadLength 0
  else
    match (if c.changes k (r.drop 32) then (s.slot k).last else none) with
    | some l =>
      if rd l.1 4 4 = rd r 4 4 then
        if comparable l.1 = comparable r then (s.respond k (replayed k l.2)).bump 0xA1C 1
        else s.refuse k r stRange 0
      else s.carryOut k c r
    | none => s.carryOut k c r

/-- Requests at the head of those ready whose code is in no row of the index are answered (R594, steps 2 and 3). -/
def State.answerUnknown (s : State) : List (Nat × Nat) → State
  | [] => s
  | x :: rest =>
    match (s.slot x.1).request with
    | some r =>
      if commandIndex.contains (rd r 0 2) then s
      else
        let st := headerStatus r
        ((s.refuse x.1 r (if st = stOk then stBadCode else st) 0).bump (0xA08 + x.1) 1).answerUnknown rest
    | none => s

/-- Unknown commands are answered as soon as they are first in order and a processor serves. -/
def State.settleUnknown (s : State) : State := if s.mpServes || s.recoveryServes then s.answerUnknown s.mp.readyOrder else s

/-- The request of slot `k`, where it is the first ready one and has code `code`. -/
def State.firstReady (s : State) (k code : Nat) : Option Bytes :=
  match s.mp.readyOrder with
  | x :: _ =>
    if x.1 = k then
      match (s.slot k).request with
      | some r => if rd r 0 2 = code then some r else none
      | none => none
    else none
  | [] => none

/-- The processor in control carries out command `c` from slot `k` at time `t` (R585). The moment is not otherwise fixed: none is carried out
before a kerf strobe that is due in its pc, so that the strobe samples nothing accepted in that pc (R29, R683). -/
def State.serve (s : State) (c : Cmd) (k t : Nat) : Outcome :=
  let s := s.onEdge t 7
  if (s.mpServes || s.recoveryServes) && !s.strobeDue then
    match s.firstReady k c.code with
    | some r =>
      let st := headerStatus r
      let s1 := if st = stOk then s.checkAndRun k c r else s.refuse k r st 0
      .next ((s1.bump (0xA08 + k) 1).settleUnknown)
    | none => .next s
  else .next s

/-- A payload of exactly `n` bytes. -/
def exactly (n : Nat) (b : Bytes) : Bool := b.length == n
/-- A command that changes no state. -/
def never (_ : Nat) (_ : Bytes) : Bool := false
/-- A command that always changes state. -/
def always (_ : Nat) (_ : Bytes) : Bool := true

/-! ### Transports -/

/-- `GO`: the request in the window of PCIe slot `k` becomes ready (R587). -/
def State.pcieGo (s : State) (k : Nat) : State :=
  let m := s.slot k
  let n := min (leNat (m.windowBytes 8 2)) 4064
  (s.requestReady k (m.windowBytes 0 (32 + n)) (0, 0)).settleUnknown

/-- The host's writes to the window of PCIe slot `k` (R587): ignored and counted while a request is in progress; the 64-bit write
of the word at offset 8 with `GO` and without `DONE` makes the request ready. None where a narrower write touches that word. -/
def State.windowWrite (s : State) (k off : Nat) (b : Bytes) : Option State :=
  let m := s.slot k
  if m.request.isSome then some (s.setSlot k { m with ignoredWrites := m.ignoredWrites + 1 })
  else if off < 12 ∧ 8 < off + b.length ∧ !(off = 8 ∧ b.length = 8) then none
  else
    let s1 := s.setSlot k (m.putWindow off b)
    if off = 8 ∧ rd b 2 2 % 4 = 1 then some (s1.pcieGo k) else some s1

end Sys2Proof.Machine
end

