-- ==== Sys2Proof/Machine/CellOps.lean ====
section
/-! DEFINITION. The cell stack: the estimator's tables and quantities, anchors, rests, the blob and the reports (R413 to R433, R436,
R437). Voltages are in 0.1 mV as measured and in mV as predicted. -/

namespace Sys2Proof.Machine

/-! ### Numbers -/

/-- A quantity in whole units, to the nearest, a half upward (DESIGN CHOICE: the manual names no rounding of reported values). -/
def units (x : Rat) : Int := (x + 1 / 2).floor

/-- An unsigned field of `n` bytes that stops at its ends. -/
def leUnits (n : Nat) (x : Rat) : Bytes := leBytes n (min (units x).toNat (256 ^ n - 1))

/-- A signed field of `n` bytes that stops at its ends. -/
def leSigned (n : Nat) (x : Rat) : Bytes :=
  leInt n (max (-(128 * 256 ^ (n - 1) : Int)) (min (units x) (128 * 256 ^ (n - 1) - 1)))

/-- The absolute value of a real. -/
def absRat (x : Rat) : Rat := if x < 0 then -x else x

/-- The square root that the firmware forms (R427): its own value where that is right to 2^-32 of the radicand, else the root of
the radicand in units of 2^-32. -/
def rootOf (x : Rat) : Rat :=
  let r := Config.root x
  if 0 ≤ r ∧ absRat (r * r - x) * 4294967296 ≤ x then r
  else (Nat.sqrt (x * 18446744073709551616).floor.toNat : Rat) / 4294967296

/-- Root cycles as seconds. -/
def secOf (rc : Nat) : Rat := (rc : Rat) / 7200000000

/-- The mean of a list; `d` for none. -/
def meanRat (l : List Rat) (d : Rat) : Rat := if l.isEmpty then d else (l.foldl (· + ·) 0) / (l.length : Rat)

/-! ### Tables (R415, R416) -/

/-- Temperature band of a temperature in 0.1 degree. -/
def tempBand (t : Int) : Nat := if t < 0 then 0 else min 7 (t.toNat / 100 + 1)

/-- Rate band of a current in mA. -/
def rateBand (ma : Nat) : Nat :=
  if ma < 2000 then 0 else if ma < 5000 then 1 else if ma < 10000 then 2 else if ma < 15000 then 3 else if ma < 22000 then 4 else 5

/-- Open-circuit voltage in mV of a fill, by linear interpolation between the points of the band's curve. -/
def ocvAt (curve : List Rat) (band : Nat) (fill : Rat) : Rat :=
  if fill < 0 ∨ 1 < fill then Config.beyondOcv band fill
  else
    let k := min 19 (fill * 20).floor.toNat
    let a := curve.getD k 0
    a + (curve.getD (k + 1) 0 - a) * (fill * 20 - k)

/-- The first segment from number `k` on of a curve that holds voltage `v`: its fill and its slope in mV per unit of fill. -/
def fillIn : List Rat → Nat → Rat → Option (Rat × Rat)
  | a :: b :: r, k, v =>
    if (a ≤ v ∧ v ≤ b) ∨ (b ≤ v ∧ v ≤ a) then
      if a = b then some ((k : Rat) / 20, 0) else some (((k : Rat) + (v - a) / (b - a)) / 20, (b - a) * 20)
    else fillIn (b :: r) (k + 1) v
  | _, _, _ => none

/-- The inversion of R427: fill and slope of an open-circuit voltage in mV. -/
def fillOf (curve : List Rat) (band : Nat) (v : Rat) : Rat × Rat :=
  (fillIn curve 0 v).getD (Config.beyondFill band v, Config.beyondSlope band v)

/-- The curve of a band. -/
def CellState.curve (c : CellState) (band : Nat) : List Rat := c.ocv.getD band []

/-- Temperature of cell `i` in 0.1 degree: that of its pair (R408). -/
def CellState.tempOf (c : CellState) (i : Nat) : Int := c.scan.therms.getD (i / 2) 0

/-- Mean resistance entry in micro-ohm. -/
def CellState.r1At (c : CellState) (tBand rBand : Nat) : Rat := c.r1.getD (6 * tBand + rBand) 0

def CellState.cell (c : CellState) (i : Nat) : CellEst := c.cells.getD i CellEst.blank

/-- Fill of a cell (R413). -/
def CellEst.fill (e : CellEst) : Rat := if e.capacity = 0 then 0 else e.charge / e.capacity
/-- Cell SOC in points (R413). -/
def CellEst.soc (e : CellEst) : Rat := e.charge / 90

/-- The voltage in mV predicted for cell `i` at stack current `ma` (R416). -/
def CellState.predicted (c : CellState) (i : Nat) (ma : Int) : Rat :=
  let b := tempBand (c.tempOf i)
  ocvAt (c.curve b) b (c.cell i).fill - (ma : Rat) * c.r1At b (rateBand ma.natAbs) / 1000000

/-- The loaded stack voltage in mV predicted at a current (R416). -/
def CellState.loadedMv (c : CellState) (ma : Nat) : Rat :=
  (List.range 48).foldl (fun v i => v + c.predicted i ma) 0

/-- Least element by a measure, its index with it. -/
def leastBy (f : Nat → Rat) : List Nat → Option Nat
  | [] => none
  | i :: r => match leastBy f r with
    | none => some i
    | some j => if f j < f i then some j else some i

/-- Stack SOC (R413): the lowest cell SOC. -/
def CellState.stackSoc (c : CellState) : Rat :=
  match leastBy (fun i => (c.cell i).soc) (List.range 48) with
  | some i => (c.cell i).soc
  | none => 0

/-- State of health in percent (R413). -/
def CellState.soh (c : CellState) : Rat :=
  if c.capacityBol = 0 then 0
  else match leastBy (fun i => (c.cell i).capacity) (List.range 48) with
    | some i => 100 * (c.cell i).capacity / c.capacityBol
    | none => 0

/-! ### Acknowledgement -/

/-- The slot of a class is empty and no record of it is on its way: what waited for an acknowledgement may end (R534, R544). -/
def State.classQuiet (s : State) (cls : Nat) : Bool :=
  (SMap.get s.fc.slots cls emptySlot).recs.isEmpty &&
  s.fc.raised.all (fun r => r.msg.code / 256 != cls || baseLevel r.msg.code == 1)

/-! ### Rests (R425 to R428) -/

/-- A rest ends: `P_target` restarts from the measured bus draw (R426). -/
def State.endRest (s : State) : State :=
  { s with cells := { s.cells with rest := none, ticket := none }, shim := { s.shim with target := (s.shim.meter.busDraw : Rat) } }

/-- A rest is aborted (R428): a fault unless by command. -/
def State.abortRest (s : State) (fault : Bool) : State :=
  match s.cells.rest with
  | none => s
  | some r =>
    if r.complete then s
    else if fault then (s.endRest.raise .pwc FC.restFailed noUnit 0).bump 0xAB0 1 else s.endRest

/-- A threshold of R408 acts: a rest is aborted, a capture gives no measurement (R417, R428). -/
def State.thresholdActs (s : State) : State :=
  let s1 := s.abortRest true
  match s1.cells.capture with
  | some c => { s1 with cells := { s1.cells with capture := some { c with acted := true } } }
  | none => s1

/-! ### Anchors (R420 to R423, R427) -/

/-- A cell learns its capacity at an anchor from each earlier anchor whose fill differs by 0.30 or more (R423). -/
def CellEst.learn (e : CellEst) : CellEst :=
  let f := e.fill
  let c := e.anchors.reverse.foldl (fun (c : Rat) a =>
    let df := f - a.1
    if (3 : Rat) / 10 ≤ absRat df then c + ((e.counted - a.2) / df - c) / 4 else c) e.capacity
  { e with capacity := c }

/-- The cell keeps the anchor. -/
def CellEst.keepAnchor (e : CellEst) : CellEst := { e with anchors := (e.fill, e.counted) :: e.anchors }

/-- An anchor (R420, R423), with `u` before its correction: capacities learn, `REST_WANTED` clears, `SOH_LOW` is raised. -/
def State.anchor (s : State) (uBefore : Rat) : State :=
  let c := s.cells
  let cells := c.cells.map (fun e => (if uBefore < 3 then e.learn else e).keepAnchor)
  let c1 := { c with cells := cells, restWanted := false, lastAnchor := s.now, throughput := 0 }
  let low := decide (c1.soh < (80 : Rat))
  let s1 := ({ s with cells := { c1 with sohLow := low } } : State).bump 0xAB1 1
  if low && !c.sohLow then s1.raiseCond .pwc FC.sohLow noUnit (units (c1.soh * 100)).toNat else s1

/-- Every cell's charge shifts by the same correction (R421, R422). -/
def CellState.shift (c : CellState) (dq : Rat) : CellState :=
  { c with cells := c.cells.map (fun e => { e with charge := e.charge + dq }) }

/-- A cell corrected from its open-circuit voltage in mV, with its own new uncertainty (R427). -/
def CellState.restCell (c : CellState) (i : Nat) (mv : Rat) : CellEst × Rat :=
  let e := c.cell i
  let b := tempBand (c.tempOf i)
  let f := fillOf (c.curve b) b mv
  let socOcv := f.1 * e.capacity / 90
  -- slope in mV per point of SOC
  let slope := absRat (if e.capacity = 0 then 0 else f.2 * 90 / e.capacity)
  if slope = 0 then (e, c.u)
  else
    let uo := 2 / slope
    let w := c.u * c.u / (c.u * c.u + uo * uo)
    let soc := e.soc + w * (socOcv - e.soc)
    ({ e with charge := soc * 90 }, c.u * uo / rootOf (c.u * c.u + uo * uo))

/-- The correction at the end of a rest (R425 item 4, R427). -/
def State.restCorrection (s : State) : State :=
  let c := s.cells
  let r := (List.range 48).map (fun i =>
    c.restCell i (meanRat ((c.cell i).restReadings.map (fun v => (v : Rat) / 10)) 0))
  let u := r.foldl (fun m x => max m x.2) 0
  ({ s with cells := { c with cells := r.map (·.1), u := u } } : State).anchor c.u

/-! ### Reports and the blob (R431, R436, R437, R439) -/

/-- `CELL_CAP`: C = (50 + 0.25 x value) % of C_BOL. -/
def CellState.capCode (c : CellState) (e : CellEst) : Bytes :=
  leUnits 1 (if c.capacityBol = 0 then 0 else (100 * e.capacity / c.capacityBol - 50) * 4)

/-- Index of the lowest and of the highest cell voltage of the last scan, among the cells of slices that are not lost. -/
def CellState.known (c : CellState) : List Nat :=
  (List.range 48).filter (fun i => !(c.slices.getD (i / 8) Slice.reset).lost)
def CellState.volt (c : CellState) (i : Nat) : Nat := c.scan.volts.getD i 0
def CellState.lowest (c : CellState) : Option Nat := leastBy (fun i => (c.volt i : Rat)) c.known
def CellState.highest (c : CellState) : Option Nat := leastBy (fun i => -(c.volt i : Rat)) c.known

/-- Some cell bleeds. -/
def CellState.balancing (c : CellState) : Bool := c.slices.any (fun x => x.switches != 0)

/-- `CELL_FLAGS` (R436). -/
def CellState.flagBits (c : CellState) : Nat :=
  flags [c.enumerated && c.slices.all (fun x => !x.lost), c.restorePending, c.probation.isSome, c.restWanted, c.rest.isSome,
         c.capture.isSome, !c.chargeInhibit.isEmpty, !c.dischargeInhibit.isEmpty, c.balancing]

/-- Whole seconds since the last anchor. -/
def CellState.anchorAge (c : CellState) (now : Nat) : Nat := (((now : Int) - c.lastAnchor) / (rcSec : Int)).toNat

/-- The response of `CELL_GET_STATUS` as of this scan (R436). -/
def State.cellStatus (s : State) : Bytes :=
  let c := s.cells
  let lo := c.lowest
  let hi := c.highest
  let ts := c.scan.therms
  let tMin := ts.foldl min (ts.getD 0 0)
  let tMax := ts.foldl max (ts.getD 0 0)
  leUnits 2 (c.reported * 100) ++ leUnits 2 (c.stackSoc * 100) ++ leUnits 2 (c.u * 100) ++ leUnits 2 (c.soh * 100) ++
  leBytes 2 c.flagBits ++ leBytes 1 c.restoreResult ++ zeros 1 ++
  leUnits 2 ((lo.elim 0 c.volt : Nat) / 10) ++ leUnits 2 ((hi.elim 0 c.volt : Nat) / 10) ++
  leBytes 1 (lo.elim 0 (· + 1)) ++ leBytes 1 (hi.elim 0 (· + 1)) ++ leInt 2 tMin ++ leInt 2 tMax ++
  leBytes 2 (c.chargeCeiling / 100) ++ leBytes 2 (c.dischargeCeiling / 100) ++ leUnits 2 (c.r1At 3 2) ++
  leBytes 4 (c.anchorAge s.now) ++ leUnits 4 c.throughput ++
  leBytes 4 (c.ticket.elim 0 (·.1)) ++ leBytes 8 (c.ticket.elim 0 (·.2))

/-- The response of `CELL_GET_CELLS` as of this scan (R437). -/
def CellState.cellsReport (c : CellState) : Bytes :=
  leBytes 4 c.scanCount ++ zeros 4 ++
  (List.range 48).flatMap (fun i =>
    leBytes 2 (c.volt i) ++ leUnits 2 ((c.cell i).soc * 100) ++ c.capCode (c.cell i) ++
    leBytes 1 (flags [(c.cell i).bled, c.lowest == some i, c.highest == some i]) ++ zeros 2) ++
  (List.range 24).flatMap (fun i => leInt 2 (c.scan.therms.getD i 0)) ++
  (List.range 6).flatMap (fun i => leInt 2 (c.scan.dies.getD i 0)) ++ zeros 4

/-- The blob of R431 as of this scan. -/
def State.cellBlob (s : State) : Bytes :=
  let c := s.cells
  let b := leBytes 4 0x314C4543 ++ leBytes 1 1 ++ zeros 1 ++ leUnits 2 (c.u * 100) ++ moduleSerial ++ slice c.packSerial 0 16 ++
    leBytes 8 (s.rt / 100000 % 2 ^ 48) ++ c.cells.flatMap (fun e => leUnits 2 (e.soc * 100)) ++ c.cells.flatMap c.capCode ++
    (List.range 48).flatMap (fun i => leUnits 1 (c.r1.getD i 0 / 20)) ++
    leBytes 4 (c.anchorAge s.now) ++ leUnits 4 c.throughput ++ zeros 4
  b ++ leBytes 4 (crc32c b).toNat

/-- The reports are formed at a scan. -/
def State.cellReports (s : State) : State :=
  { s with cells := { s.cells with statusBytes := s.cellStatus, cellsBytes := s.cells.cellsReport, blob := s.cellBlob } }

end Sys2Proof.Machine
end

