-- ==== Sys2Proof/Machine/PlanOps.lean ====
section
/-! DEFINITION. Energy plans as the power controller uses them (R93 to R95, R359, R360): power and energy of a frame at a frequency
state, by partition and summed. Times in a frame are counted from its kerf strobe, in microseconds. -/

namespace Sys2Proof.Machine

/-- `POWER_W` of a segment at state `f` (R94): of F1 unless the plan is per state. -/
def Plan.powerAt (p : Plan) (g : PlanSegment) (f : Nat) : Nat := g.powerW.getD (if p.perState then f else 1) 0

/-- Segments of a class plan at state `f`: end, from the end of the kerf, in microseconds, and power (R95 items 1 and 3). -/
def ClassPlan.segs (c : ClassPlan) (f : Nat) : List (Rat × Nat) :=
  c.plan.segments.map (fun g => ((g.endPermyriad : Rat) * (c.bodyTime.getD f 0 : Nat) / 1000000, c.plan.powerAt g f))

/-- Power at `t` after the end of the kerf; the end of a segment belongs to the next (R95). -/
def segPower : List (Rat × Nat) → Rat → Nat
  | [], _ => 0
  | [(_, w)], _ => w
  | (e, w) :: r, t => if t < e then w else segPower r t

/-- Energy in microjoule from `t0` to `stop`, both from the end of the kerf: the last segment goes on to the end. -/
def segEnergy : List (Rat × Nat) → Rat → Rat → Rat
  | [], _, _ => 0
  | [(_, w)], t0, stop => if t0 < stop then (w : Rat) * (stop - t0) else 0
  | (e, w) :: r, t0, stop =>
    if stop ≤ t0 then 0
    else if stop ≤ e then (w : Rat) * (stop - t0)
    else (w : Rat) * (max 0 (e - t0)) + segEnergy r (max t0 e) stop

/-- Power of the first and of the last segment. -/
def segFirst (l : List (Rat × Nat)) : Nat := match l with | [] => 0 | x :: _ => x.2
def segLast (l : List (Rat × Nat)) : Nat := (l.getLast?).elim 0 (·.2)

/-- Energy in microjoule of a frame of class plan `c` of `len` microseconds at state `f`: the kerf at the first segment's power, then
the body (R95 items 1 to 3). -/
def ClassPlan.energy (c : ClassPlan) (f : Nat) (len : Rat) : Rat :=
  let l := c.segs f
  (segFirst l : Rat) * min 4 len + segEnergy l 0 (len - 4)

/-- The plan of class `c` in the PWC. -/
def State.planOf (s : State) (c : Nat) : Option ClassPlan := SMap.get s.jigs.planStore c none

/-- `IDLE_W` that a partition without a running sequence still contributes (R95 item 4). -/
def State.haltedIdle (s : State) (p : Nat) : Nat := SMap.get s.jigs.haltedIdleW p 0

/-- Energy in microjoule of partition `p` in the frame `n` ahead (R95). -/
def State.partEnergy (s : State) (p n f : Nat) (len : Rat) : Rat :=
  match s.workAhead p n with
  | .run c => (s.planOf c).elim 0 (fun q => q.energy f len)
  | .idle => ((s.partJig p).elim 0 (·.jig.idleW) : Nat) * len
  | .atEnd => 0
  | .nothing => (s.haltedIdle p : Rat) * len

/-- The largest `LENGTH_US` among the classes run in the frame `n` ahead. -/
def State.longestAhead (s : State) (n : Nat) : Option Nat :=
  allPartitions.foldl (fun m p => match (s.workAhead p n).cls.bind s.planOf with
    | some q => some (max (m.getD 0) q.lengthUs)
    | none => m) none

/-- len(f) of R371 in microseconds; `last` is the length of the last frame. -/
def State.lenAhead (s : State) (n : Nat) (last : Rat) : Rat :=
  match s.frame.modes.cadence with
  | .fixed => (s.frame.modes.frameLengthUs : Rat)
  | .barrier => (s.longestAhead n).elim last (fun u => (u : Rat))

/-- E_plan of the frame `n` ahead, in microjoule (R95 item 6, R371). -/
def State.planEnergy (s : State) (n f : Nat) (last : Rat) : Rat :=
  allPartitions.foldl (fun e p => e + s.partEnergy p n f (s.lenAhead n last)) 0

/-- The segments that partition `p` runs in this frame; a constant draw is one segment. -/
def State.partSegs (s : State) (p f : Nat) : List (Rat × Nat) :=
  match s.workAhead p 0 with
  | .run c => (s.planOf c).elim [] (fun q => q.segs f)
  | .idle => [(0, (s.partJig p).elim 0 (·.jig.idleW))]
  | .atEnd => []
  | .nothing => [(0, s.haltedIdle p)]

/-- Planned power of the module at `t` microseconds after the end of the kerf (R95). -/
def State.planPowerAt (s : State) (t : Rat) : Nat :=
  allPartitions.foldl (fun w p => w + segPower (s.partSegs p s.frame.kerf.sampled) t) 0

/-- Planned power during the kerf, and after the last boundary. -/
def State.planFirst (s : State) : Nat := allPartitions.foldl (fun w p => w + segFirst (s.partSegs p s.frame.kerf.sampled)) 0
def State.planLast (s : State) : Nat := allPartitions.foldl (fun w p => w + segLast (s.partSegs p s.frame.kerf.sampled)) 0

/-- End of the kerf of this frame (R45, R50). -/
def State.kerfEndTime (s : State) : Nat := s.frame.kerf.strobe + 28800 + s.frame.kerf.extTime

/-- Planned power now. -/
def State.planNow (s : State) : Nat :=
  if s.now < s.kerfEndTime then s.planFirst else s.planPowerAt ((s.now - s.kerfEndTime : Nat) / (7200 : Rat))

/-- Insert a moment into a rising list without repeats. -/
def insertMoment (x : Rat) : List Rat → List Rat
  | [] => [x]
  | y :: r => if x < y then x :: y :: r else if x = y then y :: r else y :: insertMoment x r

/-- The moments, from the end of the kerf, at which some partition passes from one segment to the next (R359). -/
def State.planBoundaries (s : State) : List Rat :=
  allPartitions.foldl (fun l p => ((s.partSegs p s.frame.kerf.sampled).dropLast).foldl (fun l x => insertMoment x.1 l) l) []

/-- A partition's jig runs in the frame (R371). -/
def State.jigsRun (s : State) : Bool := allPartitions.any (fun p => s.jobRuns p)

/-- Planned mean draw in W of what partition `p` does in a frame: class or idle (R372), at state `f`. -/
def State.meanDraw (s : State) (p : Nat) (w : FrameWork) (f : Nat) : Rat :=
  match w with
  | .run c => (s.planOf c).elim 0 (fun q =>
      let len : Rat := match s.frame.modes.cadence with
        | .fixed => (s.frame.modes.frameLengthUs : Rat)
        | .barrier => (q.lengthUs : Rat)
      if len = 0 then 0 else q.energy f len / len)
  | .idle => ((s.partJig p).elim 0 (·.jig.idleW) : Nat)
  | _ => 0

end Sys2Proof.Machine
end

