-- ==== Sys2Proof/Machine/ShimOps.lean ====
section
/-! DEFINITION. The shim stage's quantities and actions (R357 to R391): windows, limits, leases, policies, ISLAND, converters, the
slow law and the supply limit. -/

namespace Sys2Proof.Machine

/-! ### Reason codes of R374 and R509 -/

def rsInputLimit : Nat := 9
def rsStorageHeadroom : Nat := 7
def rsStorageSoc : Nat := 8
def rsRampEnvelope : Nat := 13
def rsEstimatorUncertain : Nat := 14

/-! ### Windows (R370) -/

/-- The ISLAND in force was entered on bus loss or bus over-voltage (R383). -/
def ShimState.busIsland (h : ShimState) : Bool := decide (h.policy = .island) && decide (h.islandCause = .busLoss)

/-- Low and high edge of the window in force. -/
def ShimState.low (h : ShimState) : Nat :=
  if h.busIsland then 10 else if h.narrow then max h.limits.lowPct 30 else h.limits.lowPct
def ShimState.high (h : ShimState) : Nat := if h.narrow then min h.limits.highPct 70 else h.limits.highPct

/-- The narrow window begins at u of 10.0 points and ends below 8.0 (R370). -/
def State.settleNarrow (s : State) : State :=
  let u := s.cells.u
  { s with shim := { s.shim with narrow := if (10 : Rat) ≤ u then true else if u < (8 : Rat) then false else s.shim.narrow } }

/-- The commanded target limited to the window shrunk by 5 points at each end (R370). -/
def ShimState.effective (h : ShimState) : Rat :=
  max ((h.low : Rat) + 5) (min ((h.high : Rat) - 5) (h.targetPct : Rat))

/-- Reported state of charge in points (R418). -/
def State.soc (s : State) : Rat := s.cells.reported

/-! ### Leases and limits (R369, R371, R378, R380, R391) -/

/-- The envelope R (R369). -/
def ShimState.envelope (h : ShimState) : Nat :=
  match h.lease with
  | some l => l.ramp
  | none => h.lastRamp.getD h.ramp

/-- IMPORT_MAX (R374). -/
def ShimState.importMax (h : ShimState) : Nat := min 2800 h.limits.importW

/-- IMPORT_CEILING (R371). -/
def ShimState.importCeiling (h : ShimState) : Nat :=
  match h.lease with
  | some l => min l.ceilingW h.importMax
  | none => (h.lastCeiling.elim h.importMax (fun c => min c h.importMax))

def Policy.number (p : Policy) : Nat :=
  match p with
  | .flatten => 0 | .follow => 1 | .island => 2 | .lend => 3

/-- A policy is permitted: FLATTEN always, the others by the valid lease (R375). -/
def ShimState.permits (h : ShimState) (p : Policy) : Bool :=
  match p with
  | .flatten => true
  | _ => h.lease.elim false (fun l => bitAt l.allowed p.number)

/-- EXPORT_LIMIT (R371, R378), before what the bus voltage leaves of it. -/
def ShimState.exportLimit (h : ShimState) : Nat :=
  match h.policy, h.lease with
  | .lend, some l => min l.exportW h.limits.exportW
  | _, _ => 0

/-! ### Policies and ISLAND (R375 to R383, R386, R390) -/

/-- The module is in ISLAND by bus loss or a stopped input converter, whatever is commanded. -/
def ShimState.forced (h : ShimState) : Bool := decide (h.islandCause = .busLoss) || decide (h.islandCause = .protection)

/-- A policy enters into force. Leaving FOLLOW, `P_target` starts from the measured bus draw (R381). -/
def State.setPolicy (s : State) (p : Policy) : State :=
  let h := s.shim
  { s with shim := { h with policy := p, islandCause := if p = .island then .commanded else .notIsland,
                            target := if h.policy = .follow ∧ p ≠ .follow then (h.meter.busDraw : Rat) else h.target } }

/-- The module enters ISLAND at once (R383, R390). On the loss of the bus `P_target` is set to 0; where a protection has stopped the input
converter it falls at R, and the difference counts as an excursion (R361, R377). -/
def State.forceIsland (s : State) (c : IslandCause) : State :=
  { s with shim := { s.shim with policy := .island, islandCause := c, target := if c = .busLoss then 0 else s.shim.target, goal := 0,
                                 islandFloorRaised := false } }

/-- A policy that no valid lease permits falls to FLATTEN (R381). -/
def State.dropPolicy (s : State) : State := (s.setPolicy .flatten).raise .pwc FC.policyDropped noUnit 0

/-- A forced ISLAND ends: the last commanded policy if a valid lease permits it, else FLATTEN (R386); `P_target` rises from where it is. -/
def State.leaveIsland (s : State) : State :=
  s.setPolicy (if s.shim.permits s.shim.commanded then s.shim.commanded else .flatten)

/-! ### Converters (R363, R390, R532, R533, R614) -/

/-- The input converter stops; a stop by a protection is held until its fault is acknowledged. -/
def State.stopInput (s : State) (code : Option Nat) : State :=
  { s with shim := { s.shim with input := { s.shim.input with running := false, stoppedBy := code.orElse (fun _ => s.shim.input.stoppedBy) } } }

/-- The input converter opens its input isolation. -/
def State.openIsolation (s : State) : State := { s with shim := { s.shim with isolationOpen := true } }

/-- The storage converter stops. -/
def State.stopStorage (s : State) (code : Option Nat) (openSwitch : Bool) : State :=
  { s with shim := { s.shim with stackSwitchOpen := s.shim.stackSwitchOpen || openSwitch,
                                 storage := { s.shim.storage with running := false, stoppedBy := code.orElse (fun _ => s.shim.storage.stoppedBy) } } }

/-- The storage converter runs with the stack switch closed. -/
def State.startStorage (s : State) : State :=
  { s with shim := { s.shim with stackSwitchOpen := false, storage := { s.shim.storage with running := true, stoppedBy := none } } }

/-- A converter holds the intermediate bus (R23). -/
def State.ibusHeld (s : State) : Bool := s.shim.input.running || s.shim.storage.running

/-! ### The floors of R377, R378 and R385 -/

/-- A new reported state of charge is compared with the floors: the policy becomes FLATTEN from the next kerf. -/
def State.settleFloors (s : State) : State :=
  let h := s.shim
  match h.policy, h.islandCause with
  | .island, .commanded =>
    if s.soc ≤ (h.low : Rat) ∧ !h.floorChange then
      ({ s with shim := { h with floorChange := true } } : State).raise .pwc FC.islandFloor noUnit (units (s.soc * 100)).toNat
    else s
  | .island, .busLoss =>
    if s.soc ≤ 10 ∧ !h.islandFloorRaised then
      ({ s with shim := { h with islandFloorRaised := true } } : State).raise .pwc FC.islandFloor noUnit (units (s.soc * 100)).toNat
    else s
  | .lend, _ =>
    match h.lease with
    | some l =>
      if s.soc ≤ (l.floorPct : Rat) ∧ !h.floorChange then
        ({ s with shim := { h with floorChange := true } } : State).raise .pwc FC.lendFloor noUnit (units (s.soc * 100)).toNat
      else s
    | none => s
  | _, _ => s

/-- End of discharge in ISLAND entered on bus loss (R385). -/
def State.exhaust (s : State) : State :=
  if s.shim.busIsland && s.shim.exhaustedAt.isNone then
    ({ s with shim := { s.shim with exhaustedAt := some s.now } } : State).raiseCond .pwc FC.islandExhausted noUnit 0
  else s

/-! ### The slow law (R371, R372) -/

/-- A partition other than `p` runs a jig in the frame `n` ahead. -/
def State.othersRun (s : State) (p n : Nat) : Bool :=
  allPartitions.any (fun q => q != p && (match s.workAhead q n with | .run _ => true | .idle => true | _ => false))

/-- dP of a scheduled step that has not entered (R372); `plain` is P_avg without steps. The END step of the last jig uses the present
P_avg for that at the kerf of E - 1 (DEDUCED). -/
def State.stepDelta (s : State) (x : ShimStep) (plain : Rat) : Rat :=
  let n := x.frame - s.frame.number
  if x.atEnd then (if s.othersRun x.partition n then -x.delta else s.shim.base - plain)
  else if s.othersRun x.partition n then x.delta else x.delta - s.shim.base

/-- The moment from which a step is in P_goal: |dP| / 2R before its frame, at most 300 s; under BARRIER cadence none (R371, R372). -/
def State.stepDue (s : State) (x : ShimStep) (dp : Rat) : Bool :=
  match s.frame.modes.cadence, s.frame.anchor with
  | .fixed, some a =>
    let t := s.frame.timeOfRt (a.2 + (x.frame - a.1) * (s.frame.modes.frameLengthUs * 100))
    let lead := min (absRat dp / (2 * (s.shim.envelope : Rat))) 300
    decide ((t : Rat) ≤ (s.now : Rat) + lead * 7200000000)
  | _, _ => decide (x.frame ≤ s.frame.number + 2)

/-- The steps of this kerf (R371, R372): those of jigs that are gone and those whose frame has come within the plans are removed, those
due enter; a step stays in through the kerf at which its frame is N + 2 (DEDUCED). -/
def State.settleSteps (s : State) (plain : Rat) : State :=
  let keep := s.shim.steps.filter (fun x => decide (s.frame.number + 2 ≤ x.frame) && !x.withdrawn)
  let now := keep.map (fun x =>
    if x.entered then x
    else
      let dp := s.stepDelta x plain
      if s.stepDue x dp then (if x.atEnd && !s.othersRun x.partition (x.frame - s.frame.number) then { x with entered := true }
        else { x with delta := dp, entered := true }) else x)
  { s with shim := { s.shim with steps := now } }

/-- What the entered steps add to P_avg: the END step of the last jig takes P_avg to P_base. -/
def State.stepsSum (s : State) (plain : Rat) : Rat :=
  s.shim.steps.foldl (fun a x =>
    if !x.entered then a
    else if x.atEnd && !s.othersRun x.partition (x.frame - s.frame.number) then a + (s.shim.base - plain)
    else a + x.delta) 0

/-- P_avg without steps (R371); `last` is the length of the last frame in microseconds. -/
def State.plainAverage (s : State) (last : Rat) : Rat :=
  if s.jigsRun then
    let f := s.frame.kerf.sampled
    let d := s.planEnergy 0 f last + s.planEnergy 1 f last + s.planEnergy 2 f last
    let l := s.lenAhead 0 last + s.lenAhead 1 last + s.lenAhead 2 last
    (if l = 0 then 0 else d / l) + s.shim.err
  else s.shim.base

/-- P_soc (R371); suspended during a rest (R426). -/
def State.socPower (s : State) : Rat :=
  if s.cells.rest.isSome then 0
  else
    let h := s.shim
    let near := decide (s.soc < (h.low : Rat) + 10) || decide ((h.high : Rat) - 10 < s.soc)
    let tau : Rat := if near then (h.tau : Rat) / 4 else (h.tau : Rat)
    (h.tEff - s.soc) * 9936 / tau

/-- goal_for_policy (R375). -/
def State.policyGoal (s : State) (x : Rat) : Rat :=
  let h := s.shim
  match h.policy with
  | .flatten => x
  | .follow => x
  | .island => 0
  | .lend =>
    match h.lease with
    | some l => if (l.floorPct : Rat) < s.soc then -(l.exportW : Rat) else x
    | none => x

/-- The slow law at t = 0 of a kerf (R371). P_err and P_base first; then P_goal. -/
def State.slowLaw (s : State) (last : Rat) : State :=
  let h := s.shim
  let run := s.jigsRun
  let h1 := { h with tEff := h.effective,
                     errors := if run then h.errors else [],
                     err := if run then max (-1000) (min 1000 (meanRat h.errors 0)) else 0,
                     base := if run then h.base else meanRat (h.loads.map (fun x => (x : Rat))) h.base }
  let s1 : State := { s with shim := h1 }
  let plain := s1.plainAverage last
  let s2 := s1.settleSteps plain
  let avg := plain + s2.stepsSum plain
  let goal := s2.policyGoal (avg + s2.socPower)
  { s2 with shim := { s2.shim with avg := avg, pSoc := s2.socPower,
                                   goal := max (-(s2.shim.exportLimit : Rat)) (min goal (s2.shim.importCeiling : Rat)) } }

/-! ### The supply limit and F0 (R374, R385, R387, R426) -/

/-- The stack-current limit for discharge in mA: set limit and the cell monitor's ceiling (R365, R409). -/
def State.dischargeMa (s : State) : Nat := min (s.shim.limits.stackDa * 100) s.cells.dischargeCeiling

/-- Discharge is inhibited by R365; below the floor of an ISLAND on bus loss only the cells and the stack voltage inhibit it. -/
def State.dischargeBarred (s : State) : Bool :=
  decide (s.shim.meter.stackMv < 96000) || !s.cells.dischargeInhibit.isEmpty ||
  (!s.shim.busIsland && decide (s.soc ≤ (s.shim.low : Rat)))

/-- The three terms of T in W (R374): power, stack current, state of charge. -/
def State.currentTerm (s : State) : Rat :=
  (98 : Rat) / 100 * ((s.dischargeMa : Rat) / 1000) * (s.cells.loadedMv s.dischargeMa / 1000)
def State.socTerm (s : State) (lenUs : Rat) : Rat :=
  if lenUs = 0 then 0 else (s.soc - (s.shim.low : Rat)) * 9936 * 1000000 / lenUs

/-- T, and whether it is set by the SOC term or by the stack current (R374, R385). -/
def State.storageTerm (s : State) (lenUs : Rat) : Rat × Bool × Bool :=
  let c := s.currentTerm
  if s.shim.exhaustedAt.isSome ∨ !s.shim.storage.running then (0, false, false)
  else if s.shim.busIsland ∧ s.soc ≤ 10 then
    if s.dischargeBarred then (0, true, false) else (min 600 (max 0 c), true, false)
  else
    let e := s.socTerm lenUs
    if s.dischargeBarred then (0, decide (s.soc ≤ (s.shim.low : Rat)), false)
    else if e ≤ c ∧ e ≤ 3000 then (max 0 e, true, false)
    else if c ≤ 3000 then (max 0 c, false, true)
    else (3000, false, false)

/-- B and the reason (R374). -/
def State.busTerm (s : State) (bySoc byCurrent : Bool) : Rat × Nat :=
  let h := s.shim
  let full : Rat := h.importMax
  let own : Rat := if h.policy = .follow then full else h.target
  if h.policy = .island then (0, if bySoc then rsStorageSoc else rsStorageHeadroom)
  else if bySoc ∧ h.narrow ∧ h.limits.lowPct < h.low then (own, rsEstimatorUncertain)
  else if bySoc then (own, rsStorageSoc)
  else if byCurrent ∧ h.policy ≠ .lend then (full, rsStorageHeadroom)
  else if h.policy = .follow then (full, rsInputLimit)
  else if h.policy = .lend then (h.target, rsStorageHeadroom)
  else if h.target < full then (h.target, rsRampEnvelope)
  else (full, rsInputLimit)

/-- S and its reason for the frame of `lenUs` microseconds (R374, R426), in whole watts downward (DESIGN CHOICE). -/
def State.supplyLimit (s : State) (lenUs : Rat) : Nat × Nat :=
  if s.cells.rest.isSome then (s.shim.importMax, rsInputLimit)
  else
    let t := s.storageTerm lenUs
    let b := s.busTerm t.2.1 t.2.2
    ((max 0 (b.1 + t.1)).floor.toNat, b.2)

/-- The supply limit and the permission of F0 at a kerf (R374, R375, R387, R389). -/
def State.settleSupply (s : State) (last : Rat) : State :=
  let x := s.supplyLimit (s.lenAhead 0 last)
  let len := s.lenAhead 0 last
  let draw := if len = 0 then 0 else s.planEnergy 0 0 last / len
  let h := s.shim
  let soc := decide ((20 : Rat) ≤ s.soc) || (h.f0Permitted && decide ((35 : Rat) / 2 ≤ s.soc))
  let fits := decide (draw ≤ (x.1 : Rat))
  let policy := decide (h.policy = .flatten) || decide (h.policy = .follow)
  { s with shim := { h with supply := x.1, supplyReason := x.2, f0Permitted := policy && soc && fits && !h.headroom,
                            f0Reason := if !soc then rsStorageSoc else if h.headroom then rsStorageHeadroom else x.2 } }

/-! ### The converters (R357, R358, R361 to R365, R376, R388, R390) -/

/-- A converter's own limit in W: 3,000, or 2,000 while its heat sink is hot (R357, R390). -/
def Converter.cap (c : Converter) : Int := if c.hot then 2000 else 3000

/-- What the input converter can import at a bus voltage in mV (R362, R364, R390): below 680 V its current limit of 4.6 A binds. `short` asks
for short-term import, which needs an import limit of 2,800 W, the setting, and an allowance. -/
def ShimState.importLimit (h : ShimState) (busMv : Nat) (short : Bool) : Int :=
  let own : Int := if short && h.limits.shortImport && !h.shortExhausted && h.importMax == 2800 then 3000 else h.importMax
  let amps : Int := if busMv < 680000 then Config.inputLimitW busMv else 3000
  min (min own amps) h.input.cap

/-- What the input converter can import now: at most 500 W while the module is STARTING (R611). -/
def State.importNow (s : State) (busMv : Nat) (short : Bool) : Int :=
  if s.mod.mode = .starting then min 500 (s.shim.importLimit busMv short) else s.shim.importLimit busMv short

/-- What the input converter can export (R362, R363, R378): under LEND with the bus present, at or above 680 V, less from 880 V on, nothing
from 920 V on. -/
def ShimState.exportNow (h : ShimState) (busMv : Nat) : Int :=
  if !h.busPresent ∨ busMv < 680000 ∨ 920000 ≤ busMv then 0
  else
    let band : Int := if busMv < 880000 then 1500 else 1500 * (920000 - busMv) / 40000
    min (min (h.exportLimit : Int) band) h.input.cap

/-- Power at the intermediate bus that the stack current limit leaves for discharge (R366, R388). -/
def State.currentLimitW (s : State) (stackMv : Nat) : Int := ((98 * s.dischargeMa * stackMv / 100000000 : Nat) : Int)

/-- What the storage converter can deliver (R365, R385, R390). -/
def State.dischargeMax (s : State) (stackMv : Nat) : Int :=
  let h := s.shim
  if !h.storage.running || decide (stackMv < 96000) || s.dischargeBarred then 0
  else min (min h.storage.cap (s.currentLimitW stackMv)) (if h.busIsland && decide (s.soc ≤ 10) then 600 else 3000)

/-- Charge is barred (R365): above 132 V, at or above the high edge, or by the cell monitor. -/
def State.chargeBarred (s : State) (stackMv : Nat) : Bool :=
  decide (132000 < stackMv) || decide ((s.shim.high : Rat) ≤ s.soc) || !s.cells.chargeInhibit.isEmpty

/-- What the storage converter can take (R365, R390, R409): at an efficiency of 0.98 as in discharge (DEDUCED). -/
def State.chargeMax (s : State) (stackMv : Nat) : Int :=
  let h := s.shim
  if !h.storage.running || s.chargeBarred stackMv then 0
  else min h.storage.cap ((min (h.limits.stackDa * 100) s.cells.chargeCeiling * stackMv / 980000 : Nat) : Int)

/-- What flows in an interval: bus draw, storage output, whether the input converter's floor or ceiling acts or it stands at a limit, whether
storage stands at its current limit, and the intermediate bus voltage. -/
structure ShimFlow where
  busDraw : Int
  storageW : Int
  acts : Bool
  limited : Bool
  ibusMv : Nat
deriving DecidableEq, Repr

/-- An integer within bounds. -/
def clampInt (lo hi x : Int) : Int := max lo (min hi x)

/-- `P_target` with the error of power mode, within 2 percent or 20 W (R368). -/
def targetDraw (target : Rat) (error : Int) : Int :=
  let tol : Int := max 20 (absRat target / 50).floor
  let e := clampInt (-tol) tol error
  (if e < 0 then target.ceil else target.floor) + e

/-- The flow of an interval (R358, R361, R376, R388, R390): the converter that is the voltage source carries the load, the other delivers its
command, with its floor and ceiling where the source has reached a limit. What neither can hold shows in the intermediate bus voltage. -/
def State.powerFlow (s : State) (x : ShimInputs) : ShimFlow :=
  let h := s.shim
  let load : Int := x.load
  let dis := s.dischargeMax x.stackMv
  let chg := s.chargeMax x.stackMv
  let exp := h.exportNow x.busMv
  let atCurrent := fun (w : Int) => decide (0 < dis) && w == dis && decide (dis < 3000) && dis == s.currentLimitW x.stackMv
  let flow := fun (draw store : Int) (acts held : Bool) =>
    ({ busDraw := draw, storageW := store, acts := acts, limited := atCurrent store,
       ibusMv := if draw + store ≠ load then x.ibusMv else if held then (if load < draw then 51500 else 48500) else 50000 } : ShimFlow)
  if !h.input.running then flow 0 (clampInt (-chg) dis load) false false
  else if !h.storage.running then
    let draw := clampInt (-exp) (s.importNow x.busMv (decide (h.policy = .follow))) load
    flow draw 0 (draw != load) false
  else if h.policy = .follow then
    -- the input converter is the source; storage holds -P_soc, and its floor and ceiling cover what the source cannot
    let imp := s.importNow x.busMv true
    let want := clampInt (-chg) dis (clampInt (-500) 500 (units (-h.pSoc)))
    let store := if imp < load - want then min dis (load - imp) else if load - want < -exp then max (-chg) (load + exp) else want
    flow (clampInt (-exp) imp (load - store)) store false (store != want)
  else
    let imp := s.importNow x.busMv false
    let cmd := clampInt (-exp) imp h.target.floor
    let draw := if cmd = h.target.floor then clampInt (-exp) imp (targetDraw h.target x.error) else cmd
    if dis < load - draw then
      let more := min (s.importNow x.busMv true) (load - dis)
      flow (max draw more) dis true true
    else if load - draw < -chg then flow (max (-exp) (load + chg)) (-chg) true true
    else flow draw (load - draw) (cmd != h.target.floor) false

end Sys2Proof.Machine
end

