-- ==== Sys2Proof/Machine/PowerOps.lean ====
section
/-! DEFINITION. Loss of power and cold start: what stays and what is lost (R23, R231, R429, R539, R565, R605, R607, R608, R613, R614,
R631). -/

namespace Sys2Proof.Machine

/-- Tier 3 keeps its contents, every other memory loses them (R231, R246). -/
def MemState.onlyTier3 (m : MemState) : MemState :=
  let l := m.lose 0 0x40000000000
  { MemState.reset with cells := l.cells, lost := l.lost, losses := l.losses, poison := l.poison, latent := l.latent,
                        t3SparePermille := m.t3SparePermille, t3Programmed := m.t3Programmed, t3Refusing := m.t3Refusing,
                        t3WearWarned := m.t3WearWarned, t3WearLimited := m.t3WearLimited }

/-- Everything that a cold start loses (R539, R565, R335): flash, Tier 3, the levels at the connector and the record of what the module
has sent stay. -/
def State.coldClear (s : State) : State :=
  { State.reset with
      now := s.now, free := s.free, pending := s.pending, pins := s.pins, mem := s.mem.onlyTier3,
      host := { HostState.reset with msix := s.host.msix, hostWrites := s.host.hostWrites, aer := s.host.aer },
      mp := { MgmtState.reset with bank0 := s.mp.bank0, bank1 := s.mp.bank1, bootA := s.mp.bootA, bootB := s.mp.bootB,
                                   sent := s.mp.sent },
      cells := { CellState.reset with packRecord := s.cells.packRecord, trims := s.cells.trims },
      clocks := { ClockState.reset with calibrationInvalid := s.clocks.calibrationInvalid, pwcTrims := s.clocks.pwcTrims } }

/-- Always-on power is lost (R613): the next power-up is a cold start. The bus and its capacitance stand as they do. -/
def State.powerLost (s : State) : State :=
  let c := s.coldClear
  { c with shim := { c.shim with busPresent := s.shim.busPresent, busDead := s.shim.busDead, capacitanceMv := s.shim.capacitanceMv } }

/-- The processors and every PWC domain but the fault and always-on domains have lost their supply: the start supply carries no
more (R23, R608). What they keep stands until they boot again (DEDUCED). -/
def State.processorsLost (s : State) : State :=
  if s.mod.processorsUp then
    let m := s.mp
    { s with mod := { s.mod with processorsUp := false },
             mp := { m with owner := none, coastSince := if m.owner.isSome then some s.now else m.coastSince, copying := none,
                            mpA := { m.mpA with role := .none }, mpB := { m.mpB with role := .none } } }
  else s

/-- A processor begins to boot from a bank. -/
def Processor.boot (p : Processor) (bank : Nat) : Processor := { p with role := .booting, bank := bank }

/-- All PWC domains are powered, and both processors begin to boot from the banks of the boot record (R561, R581, R611). -/
def State.processorsBoot (s : State) : State :=
  { s with mod := { s.mod with processorsUp := true },
           mp := { s.mp with mpA := s.mp.mpA.boot s.mp.bootA, mpB := s.mp.mpB.boot s.mp.bootB } }

/-- After a converter has started or stopped (R23, R611, R613): the processors boot once the intermediate bus is held; with neither
converter running it falls, and with the bus lost as well so does always-on power. -/
def State.settlePower (s : State) : State :=
  if !s.mod.powered then s
  else if s.ibusHeld then (if s.mod.processorsUp then s else s.processorsBoot)
  else if s.shim.busDead then s.powerLost
  else s.processorsLost

end Sys2Proof.Machine
end

