-- ==== Sys2Proof/Machine/ShimCode.lean ====
section
/-! DEFINITION. The shim stage's events and mailbox commands (R357 to R397). -/

namespace Sys2Proof.Machine

/-! ### The 50 microsecond step (R361, R363 to R368, R371) -/

/-- `P_target` moves toward `P_goal` by at most R x 50 microseconds (R367). -/
def moveToward (x goal step : Rat) : Rat :=
  if x < goal then min goal (x + step) else max goal (x - step)

/-- The step's excursion (R361): count, energy in J over the interval, the fault once per frame. A protection that has stopped the input
converter counts as long as `P_target`, which falls at R, still expects import. -/
def State.settleExcursion (s : State) (acts : Bool) : State :=
  let h := s.shim
  let stopped := h.input.stoppedBy.isSome && decide ((0 : Rat) < h.target)
  let d := absRat ((h.meter.busDraw : Rat) - h.target)
  if h.policy ≠ .follow ∧ (acts ∨ stopped) ∧ d ≠ 0 then
    let e := h.excursionEnergy + d / 20000
    let s1 : State := { s with shim := { h with excursion := true, excursionCount := min (h.excursionCount + 1) 0xFFFFFFFF,
                                                excursionEnergy := e - ((e * 1000000).floor : Rat) / 1000000,
                                                excursionRaised := true } }
    let s2 := (s1.bump 0xA70 1).bump 0xA71 (e * 1000000).floor.toNat
    if h.excursionRaised then s2 else s2.raise .pwc FC.envelopeExcursion noUnit 0
  else { s with shim := { h with excursion := false } }

/-- `HEADROOM` (R366): storage discharges at its stack-current limit below 3,000 W; cleared after 1 ms without; F0 is withdrawn
(R387). -/
def State.settleHeadroom (s : State) (limited : Bool) : State :=
  let h := s.shim
  if limited && decide (h.meter.storageW < 3000) then
    let s1 : State := { s with shim := { h with headroom := true, headroomAt := s.now, headroomRaised := true,
                                                f0Permitted := false, f0Reason := rsStorageHeadroom } }
    if h.headroomRaised then s1 else s1.raise .pwc FC.headroom noUnit h.meter.storageW.toNat
  else if h.headroom ∧ h.headroomAt + rcMs ≤ s.now then { s with shim := { h with headroom := false } }
  else s

/-- Short-term import is counted by the millisecond over 60 s (R364); its allowance is 10 s of them. -/
def State.settleShortImport (s : State) : State :=
  let h := s.shim
  let ms := s.now / rcMs
  let above := decide ((2800 : Int) < h.meter.busDraw) && h.shortImport.head? != some ms
  let l := (if above then ms :: h.shortImport else h.shortImport).filter (fun m => decide (ms < m + 60000))
  let s1 : State := { s with shim := { h with shortImport := l, shortExhausted := decide (10000 ≤ l.length) } }
  if above then s1.bump 0xA76 1 else s1

/-- The governor core takes the load as P_M: blocks of 50 microseconds, a mean of each millisecond, 60 s of those (R473, R495). -/
def GovState.takeLoad (g : GovState) (loadW : Nat) (ms : Bool) : GovState :=
  let l := (loadW * 1000 :: g.power).take 20
  { g with power := l, powerMs := if ms then ((l.foldl (· + ·) 0 / l.length) :: g.powerMs).take 60000 else g.powerMs }

/-- Loads and plan errors are sampled (R371). -/
def State.settleSamples (s0 : State) : State :=
  let s : State := { s0 with gov := s0.gov.takeLoad s0.shim.meter.load (decide (s0.now % rcMs < 50 * rcUs)) }
  let h := s.shim
  let e := if s.jigsRun ∧ s.now % rcMs < 50 * rcUs then
      (((h.meter.load : Rat) - (s.planNow : Rat)) :: h.errors).take 1000 else h.errors
  { s with shim := { h with loads := (h.meter.load :: h.loads).take 20000, errors := e } }

/-- The counters of the step (R675): energies in microjoule and times, 50 microseconds each. -/
def State.shimCounters (s : State) : State :=
  let h := s.shim
  let m := h.meter
  let n := fun (x : Int) => x.toNat * 50
  let b := fun (s : State) (i : Nat) (on : Bool) => if on then s.bump i 50 else s
  let s1 := (((s.bump 0xA6C (n m.busDraw)).bump 0xA6D (n (-m.busDraw))).bump 0xA6E (n m.storageW)).bump 0xA6F (n (-m.storageW))
  b (b (b (b s1 0xA72 h.headroom) 0xA73 (decide (h.policy = .island))) 0xA74 (decide (h.policy = .lend))) 0xA75
    s.mp.coastSince.isSome

/-- A step of the shim controller, every 50 microseconds (R361, R366, R367): `raw` holds what its sensors report, from which the converters'
roles and limits give the flow. In a commanded ISLAND the input converter stops when `P_target` reaches 0 (R377). -/
def execShimTargetStep (t : Nat) (raw : ShimInputs) (s : State) : Outcome :=
  let s := s.upTo t
  let x := { raw with busMv := (s.pwcReading cvBus raw.busMv).toNat, stackMa := s.pwcReading cvStack raw.stackMa }
  let h := s.shim
  let target : Rat := moveToward h.target h.goal ((h.envelope : Rat) / 20000)
  let stop : Bool := decide (h.policy = Policy.island) && decide (h.islandCause = IslandCause.commanded) && decide (target ≤ (0 : Rat))
  let s1 : State := { s with shim := { h with target := target,
                                              input := { h.input with running := h.input.running && !stop } } }
  let f := s1.powerFlow x
  let m : ShimMeter := { busDraw := f.busDraw, storageW := f.storageW, load := x.load, busMv := x.busMv, stackMv := x.stackMv,
                         stackMa := x.stackMa, ibusMv := f.ibusMv }
  let s2 : State := { s1 with shim := { s1.shim with meter := m } }
  .next (((((s2.settleExcursion f.acts).settleHeadroom f.limited).settleShortImport).settleSamples).shimCounters)

/-- A segment boundary of the plan (R359, R360): the planned change is added to the voltage source's current command. -/
def execFeedForwardStep (t : Nat) (s : State) : Outcome :=
  let s := s.upTo t
  let h := s.shim
  match s.planBoundaries[h.nextSegment]? with
  | none => .next s
  | some b =>
    if h.noFeedForward ∨ ((s.now : Rat) < (s.kerfEndTime : Rat) + b * 7200) then .next s
    else
      let before := if h.nextSegment = 0 then s.planFirst else s.planPowerAt ((s.planBoundaries.getD (h.nextSegment - 1) 0))
      .next { s with shim := { h with nextSegment := h.nextSegment + 1,
                                      feedForward := h.feedForward + ((s.planPowerAt b : Rat) - (before : Rat)) } }

/-- The allowance of R364 is used up: import is limited to 2,800 W until the window holds less than 10 s of it. -/
def execShortImportExhausted (t : Nat) (s : State) : Outcome :=
  let s := s.upTo t
  let l := s.shim.shortImport.filter (fun m => decide (s.now / rcMs < m + 60000))
  .next { s with shim := { s.shim with shortImport := l, shortExhausted := decide (10000 ≤ l.length) } }

/-! ### Leases (R369, R371, R382) -/

/-- Leases past their time end (R380, R382). The valid one's envelope and ceiling are kept; where no later grant has renewed it, the policy
falls at the next kerf. A grant that expires before it becomes valid has replaced the earlier lease all the same, and becomes valid no more
(DEDUCED). -/
def State.expireLeases (s : State) : State :=
  let h := s.shim
  let over_ := fun (l : Lease) => decide (l.expires ≤ s.now)
  let dropped := h.pendingLease.elim false over_
  let ended := h.lease.elim false over_ || (dropped && h.lease.isSome)
  let h1 := if dropped then { h with pendingLease := none } else h
  let h2 := match h1.lease with
    | some l => if ended then { h1 with lease := none, lastRamp := some l.ramp, lastCeiling := some l.ceilingW } else h1
    | none => h1
  if (ended || dropped) && h2.pendingLease.isNone then
    (({ s with shim := { h2 with leaseExpired := true } } : State).bump 0xA79 1).raise .pwc FC.leaseExpired noUnit 0
  else { s with shim := h2 }

/-- `LEASE_EXPIRY` (R382). -/
def execLeaseExpiry (t : Nat) (s : State) : Outcome := .next (s.upTo t).expireLeases

/-! ### The bus (R362, R363, R383 to R386, R610, R611, R613, R615) -/

/-- The bus is lost or too high: ISLAND at once, a rest aborted with storage running again at once (R383, R428). -/
def State.busGone (s : State) (code : Nat) (open_ dead : Bool) : State :=
  if s.shim.busPresent then
    let resting := s.cells.rest.isSome
    let s1 := ((s.abortRest true).stopInput none).forceIsland .busLoss
    let s2 : State := { s1 with shim := { s1.shim with busPresent := false, busDead := dead, busReturned := false,
                                                       isolationOpen := s1.shim.isolationOpen || open_, exhaustedAt := none } }
    let s3 := if resting ∧ s2.shim.storage.stoppedBy.isNone ∧ !s2.shim.stackSwitchOpen then s2.startStorage else s2
    ((s3.bump 0xA7A 1).raiseCond .pwc code noUnit (s.shim.meter.busMv / 100)).settlePower
  else if open_ then
    -- over-voltage of a bus that is not present: whatever of the input converter runs stops, and the isolation opens
    let s1 := s.stopInput none
    let s2 : State := { s1 with shim := { s1.shim with isolationOpen := true, precharging := none } }
    let s3 := if s.shim.input.running then s2.forceIsland .busLoss else s2
    (s3.raiseCond .pwc code noUnit (s.shim.meter.busMv / 100)).settlePower
  else ({ s with shim := { s.shim with busDead := s.shim.busDead || dead } } : State).settlePower

/-- The bus has stood below 600 V for 50 microseconds (R362). -/
def execBusLoss (t : Nat) (s : State) : Outcome := .next ((s.upTo t).busGone FC.busLoss false true)

/-- The bus has stood above 960 V for 10 microseconds (R362): the input isolation opens as well. -/
def execBusOvervoltage (t : Nat) (s : State) : Outcome := .next ((s.upTo t).busGone FC.busOvervoltage true false)

/-- The bus has stood within 680 to 920 V for 1.0 s (R362); the input capacitance stands at `capMv`. Below 400 V a precharge is
wanted (R615). -/
def execBusPresent (t capMv : Nat) (s : State) : Outcome :=
  let s := s.upTo t
  let h := s.shim
  let back := decide (h.islandCause = .busLoss)
  .next { s with shim := { h with busPresent := true, busDead := false, capacitanceMv := capMv, busReturned := h.busReturned || back },
                 mod := { s.mod with prechargeWanted := s.mod.prechargeWanted || (back && decide (capMv < 400000)) } }

/-- Precharge begins (R363, R610, R611, R615): at cold start after hold-off and token, with EMERGENCY_STOP_N high; after a bus
return once the kerf has taken it up, on a high sample of TRAY_START. -/
def execPrechargeStart (t : Nat) (s : State) : Outcome :=
  let s := s.upTo t
  let m := s.mod
  let cold := m.powered && m.fuseOk && !m.ended && m.holdOffDone && decide (m.token = .granted) && !m.prechargeStarted &&
    s.pins.emergencyStopN && s.pins.trayStart && !s.shim.input.running
  let again := m.prechargeWanted && !s.shim.busReturned && s.shim.busPresent && s.pins.trayStart
  if s.shim.precharging.isNone && s.shim.input.stoppedBy.isNone && (cold || again) then
    .next (({ s with shim := { s.shim with precharging := some s.now, isolationOpen := false },
                     mod := { m with prechargeStarted := true } } : State).bump 0xA7B 1)
  else .next s

/-- The input capacitance has reached 95 % of the bus voltage within 200 ms, TRAY_START being high (R363): at cold start the input converter
starts as voltage source; after a bus return the next kerf takes it up. A precharge whose TRAY_START has fallen stands still, and its 200 ms
go on (DEDUCED). -/
def execPrechargeComplete (t capMv : Nat) (s : State) : Outcome :=
  let s := s.upTo t
  match s.shim.precharging with
  | none => .next s
  | some b =>
    if s.now ≤ b + 200 * rcMs ∧ s.pins.trayStart then
      let h := { s.shim with precharging := none, capacitanceMv := capMv }
      if s.mod.prechargeWanted then
        .next { s with shim := { h with busReturned := true }, mod := { s.mod with prechargeWanted := false } }
      else .next ({ s with shim := { h with input := { h.input with running := true } } } : State).settlePower
    else .next s

/-- Precharge has not reached 95 % in 200 ms (R363): it stops, the converter stays off, and a cold start ends. -/
def execPrechargeFail (t : Nat) (s : State) : Outcome :=
  let s := s.upTo t
  match s.shim.precharging with
  | none => .next s
  | some b =>
    if b + 200 * rcMs ≤ s.now then
      let cold := !s.mod.prechargeWanted
      .next (({ s with shim := { s.shim with precharging := none },
                       mod := { s.mod with prechargeWanted := false, ended := s.mod.ended || cold } } : State).raise .pwc
        FC.prechargeFail noUnit (s.shim.capacitanceMv / 100))
    else .next s

/-! ### Protections (R385, R390, R525, R532) -/

/-- A stopped input converter puts the module into ISLAND (R390). -/
def State.islandByProtection (s : State) : State :=
  if s.shim.busIsland then s else s.forceIsland .protection

/-- Input over-current: the input converter stops. -/
def execInputOvercurrent (t : Nat) (s : State) : Outcome :=
  let s := s.upTo t
  .next (((s.stopInput (some FC.inputOvercurrent)).islandByProtection.raise .pwc FC.inputOvercurrent noUnit 0).settlePower)

/-- Stack over-current: the storage converter stops and the stack switch opens. -/
def execStorageOvercurrent (t : Nat) (s : State) : Outcome :=
  let s := s.upTo t
  .next (((s.stopStorage (some FC.storageOvercurrent) true).raise .pwc FC.storageOvercurrent noUnit
    (s.shim.meter.stackMa.natAbs / 10)).settlePower)

/-- Intermediate bus over-voltage: both converters stop. -/
def execIbusOvervoltage (t : Nat) (s : State) : Outcome :=
  let s := s.upTo t
  .next (((((s.stopInput (some FC.ibusOvervoltage)).stopStorage (some FC.ibusOvervoltage) false).islandByProtection).raise .pwc
    FC.ibusOvervoltage noUnit 0).settlePower)

/-- Intermediate bus under-voltage: the shim does nothing; no fault while both converters are stopped (R525). -/
def execIbusUndervoltage (t : Nat) (s : State) : Outcome :=
  let s := s.upTo t
  if s.ibusHeld then .next (s.raiseCond .pwc FC.ibusUndervoltage noUnit 0) else .next s

/-- A converter's heat sink at 95 degrees: its power is limited to 2,000 W until below 90 (R390). -/
def execConverterHot (t : Nat) (storage : Bool) (s : State) : Outcome :=
  let s := s.upTo t
  let h := s.shim
  if (if storage then h.storage.hot else h.input.hot) then .next s
  else
    let h1 := if storage then { h with storage := { h.storage with hot := true } } else { h with input := { h.input with hot := true } }
    .next (({ s with shim := h1 } : State).raiseCond .pwc FC.converterHot noUnit 0)

/-- A converter's heat sink at 110 degrees: that converter stops. -/
def execConverterOvertemp (t : Nat) (storage : Bool) (s : State) : Outcome :=
  let s := s.upTo t
  let s1 := if storage then s.stopStorage (some FC.converterOvertemp) false
    else (s.stopInput (some FC.converterOvertemp)).islandByProtection
  .next ((s1.raiseCond .pwc FC.converterOvertemp noUnit 0).settlePower)

/-- 5 ms after the first `IBUS_OVERVOLTAGE` the input converter restarts once, as voltage source, if the bus is present (R532); with it the
ISLAND of R390 ends. -/
def execInputRestartAfterOv (t : Nat) (s : State) : Outcome :=
  let s := s.upTo t
  if s.fc.ibusOvSeen ∧ s.shim.busPresent ∧ s.shim.input.stoppedBy = some FC.ibusOvervoltage ∧ s.fc.ovRestartDue then
    let s1 : State := { s with fc := { s.fc with ovRestartDue := false },
                               shim := { s.shim with input := { s.shim.input with running := true, stoppedBy := none } } }
    .next ((if s1.shim.islandCause = .protection then s1.leaveIsland else s1).settlePower)
  else .next s

/-- At most 5 s after `ISLAND_EXHAUSTED` the storage converter stops (R385). -/
def execStorageFinalStop (t : Nat) (s : State) : Outcome :=
  let s := s.upTo t
  if s.shim.exhaustedAt.isSome ∧ s.shim.busIsland then .next ((s.stopStorage (some FC.islandExhausted) false).settlePower)
  else .next s

/-! ### Commands (R393 to R397) -/

/-- Remaining milliseconds of the valid lease. -/
def State.leaseMs (s : State) : Nat := s.shim.lease.elim 0 (fun l => (l.expires - s.now) / rcMs)

/-- Time to the island floor at the present load and state of charge in s (R394). With no load the manual gives no value: a free
value. -/
def State.islandTime (s : State) : Nat :=
  if s.soc ≤ 10 then 0
  else if s.shim.meter.load = 0 then Config.freeNat 40 s.free % 2 ^ 32
  else min ((s.soc - 10) * 9936 / (s.shim.meter.load : Rat)).floor.toNat 0xFFFFFFFF

/-- `SHIM_FLAGS` (R394). -/
def State.shimFlags (s : State) : Nat :=
  let h := s.shim
  flags [h.busPresent, h.headroom, h.excursion, h.lease.isSome, h.narrow, !s.mpServes, h.storage.running, h.input.running,
         !h.shortExhausted]

/-- The response of `SHIM_GET_STATUS` (R394). -/
def State.shimStatus (s : State) : Bytes :=
  let h := s.shim
  let m := h.meter
  leBytes 1 h.policy.number ++ leBytes 1 h.commanded.number ++ leBytes 2 s.shimFlags ++
  leUnits 2 (s.soc * 100) ++ leUnits 2 (s.cells.u * 100) ++ leUnits 2 (h.tEff * 100) ++ leBytes 1 h.low ++ leBytes 1 h.high ++
  leSigned 2 h.target ++ leSigned 2 h.goal ++ leSigned 2 m.busDraw ++ leSigned 2 m.storageW ++ leBytes 2 (min m.load 65535) ++
  leBytes 2 h.envelope ++ leBytes 2 (min (m.busMv / 100) 65535) ++ leBytes 2 (min (m.stackMv / 10) 65535) ++
  leSigned 2 ((m.stackMa : Rat) / 10) ++ leBytes 2 (min h.supply 65535) ++ leBytes 1 h.supplyReason ++ zeros 1 ++
  leSigned 2 h.err ++ leBytes 4 h.lastLeaseId ++ leBytes 4 s.leaseMs ++ leBytes 4 h.excursionCount ++ leBytes 4 s.islandTime ++
  zeros 12

def shimGetStatus : Cmd :=
  { code := 0x0201, via := .all, lengthOk := exactly 0, changes := never, act := fun s _ _ => .done stOk s s.shimStatus }

/-- A frame field of eight bytes: upper bits reserved, 0 for the next kerf, else at least `ahead` frames ahead; none out of range. -/
def State.applyFrame (s : State) (b : Bytes) (off ahead : Nat) : Option Nat :=
  let f := rd b off 8
  if f = 0 then some (s.frame.number + 1)
  else if f < 2 ^ 48 ∧ s.frame.number + ahead ≤ f then some f
  else none

/-- A response naming a frame. -/
def frameReply (f : Nat) : Bytes := leBytes 8 (f % 2 ^ 48)

/-- A policy by number. -/
def Policy.ofNumber (n : Nat) : Option Policy :=
  match n with
  | 0 => some .flatten | 1 => some .follow | 2 => some .island | 3 => some .lend | _ => none

def within0 (v lo hi : Nat) : Bool := v == 0 || (decide (lo ≤ v) && decide (v ≤ hi))

def shimSetPolicy : Cmd :=
  { code := 0x0202, via := .mbp, lengthOk := exactly 16, changes := always,
    act := fun s _ b =>
      let p := rd b 0 1
      match s.applyFrame b 8 1 with
      | none => .refused stRange
      | some f =>
        if !((decide (p ≤ 3) || p == 0xFF) && within0 (rd b 1 1) 20 85 && within0 (rd b 2 2) 1 2000 && within0 (rd b 4 2) 60 3600 &&
            zeroAt b 6 2) then .refused stRange
        else
          let pol := Policy.ofNumber p
          if pol.elim false (fun q => !s.shim.permits q) then .refused stState
          else
            let c : PolicyChange := { frame := f, policy := pol, targetPct := if rd b 1 1 = 0 then none else some (rd b 1 1),
                                      ramp := if rd b 2 2 = 0 then none else some (rd b 2 2),
                                      tau := if rd b 4 2 = 0 then none else some (rd b 4 2) }
            .done stOk { s with shim := { s.shim with changes := s.shim.changes ++ [c], commanded := pol.getD s.shim.commanded } }
              (frameReply f) }

def shimGrantLease : Cmd :=
  { code := 0x0203, via := .mbp, lengthOk := exactly 16, changes := always,
    act := fun s _ b =>
      let a := rd b 6 1
      let lend := bitAt a 3
      let ok := rd b 0 4 != 0 && decide (1 ≤ rd b 4 2) && decide (rd b 4 2 ≤ 2000) && bitAt a 0 && decide (a < 16) &&
        (if lend then decide (20 ≤ rd b 7 1) && decide (rd b 7 1 ≤ 85) else rd b 7 1 == 0) &&
        (if lend then decide (1 ≤ rd b 8 2) && decide (rd b 8 2 ≤ 1500) else rd b 8 2 == 0) &&
        decide (rd b 10 2 ≤ 2800) && decide (100 ≤ rd b 12 2) && decide (rd b 12 2 ≤ 10000) && zeroAt b 14 2
      if !ok then .refused stRange
      else
        let l : Lease := { id := rd b 0 4, ramp := rd b 4 2, allowed := a, floorPct := rd b 7 1, exportW := rd b 8 2,
                           ceilingW := rd b 10 2, expires := s.now + rd b 12 2 * rcMs }
        .done stOk (({ s with shim := { s.shim with pendingLease := some l } } : State).bump 0xA78 1)
          (leSigned 2 s.shim.target ++ zeros 2 ++ leBytes 4 (rd b 12 2)) }

/-- A field of `SHIM_SET_LIMITS`: its "no change" value, the range below its fused value, and the fused value (R391, R397). -/
def shimSetLimits : Cmd :=
  { code := 0x0204, via := .mbp, lengthOk := exactly 16, changes := always,
    act := fun s _ b =>
      let imp := rd b 0 2
      let exp := rd b 2 2
      let cur := rd b 4 2
      let lo := rd b 6 1
      let hi := rd b 7 1
      let short := rd b 8 1
      let n := s.shim.nextLimits
      let l : ShimLimits := { importW := if imp = 0 then n.importW else imp, exportW := if exp = 0xFFFF then n.exportW else exp,
                              stackDa := if cur = 0 then n.stackDa else cur, lowPct := if lo = 0 then n.lowPct else lo,
                              highPct := if hi = 0 then n.highPct else hi,
                              shortImport := if short = 0xFF then n.shortImport else short == 1 }
      -- step 8: values too tight, reserved fields, a window below 20 points; step 9: values looser than the fuses
      let range := (imp == 0 || decide (100 ≤ imp)) && (cur == 0 || decide (10 ≤ cur)) && decide (lo ≤ 45) &&
        (hi == 0 || decide (55 ≤ hi)) && (decide (short ≤ 1) || short == 0xFF) && zeroAt b 9 7 &&
        decide (l.lowPct + 20 ≤ l.highPct)
      let fuse := decide (imp ≤ 2800) && (exp == 0xFFFF || decide (exp ≤ 1500)) && decide (cur ≤ 300) && (lo == 0 || decide (15 ≤ lo)) &&
        decide (hi ≤ 90)
      if !range then .refused stRange
      else if !fuse then .refused stFuseLimit
      else .done stOk { s with shim := { s.shim with nextLimits := l } } [] }

def execShimGetStatus (slot : Fin 19) (t : Nat) (s : State) : Outcome := s.serve shimGetStatus slot t
def execShimSetPolicy (slot : Fin 19) (t : Nat) (s : State) : Outcome := s.serve shimSetPolicy slot t
def execShimGrantLease (slot : Fin 19) (t : Nat) (s : State) : Outcome := s.serve shimGrantLease slot t
def execShimSetLimits (slot : Fin 19) (t : Nat) (s : State) : Outcome := s.serve shimSetLimits slot t

/-! ### The kerf (R359, R379 to R381, R386, R390, R391) -/

/-- Step 1 of R379: the bus has returned, or a converter that a protection stopped runs again. -/
def State.shimBusState (s : State) : State :=
  let h := s.shim
  if h.busReturned then
    if s.mod.prechargeWanted then { s with shim := { h with busReturned := false } }
    else if h.input.stoppedBy.isSome then
      -- a protection still holds the input converter: the ISLAND of R390 goes on
      { s with shim := { h with busReturned := false, exhaustedAt := none, islandCause := .protection } }
    else
      let s1 := s.leaveIsland
      { s1 with shim := { s1.shim with busReturned := false, exhaustedAt := none, isolationOpen := false,
                                       input := { s1.shim.input with running := true } } }
  else s

/-- A converter stopped by a protection restarts at a kerf once its class slot is empty and its condition gone (R390, R544). -/
def State.restartConverters (s : State) : State :=
  let free := s.classQuiet 3 && s.classQuiet 4 && !s.mod.fatal
  let h := s.shim
  let s1 := if h.storage.stoppedBy.isSome && free && !h.busIsland && !s.fc.auxMode then
      ({ s with shim := { h with storage := { h.storage with stoppedBy := none }, stackSwitchOpen := false } } : State) else s
  let s2 := if s1.shim.input.stoppedBy.isSome && free && s1.shim.busPresent && !s1.fc.auxMode then
      let s2 : State := { s1 with shim := { s1.shim with isolationOpen := false,
                                                         input := { s1.shim.input with stoppedBy := none, running := true } } }
      if s2.shim.islandCause = .protection then s2.leaveIsland else s2
    else s1
  if !s2.shim.storage.running && s2.shim.storage.stoppedBy.isNone && !s2.shim.stackSwitchOpen && s2.cells.rest.isNone then s2.startStorage
  else s2

/-- Steps 2 and 3 of R379: expiry, then a lease accepted before t = 0 (R380 to R382). -/
def State.shimLeases (s0 : State) : State :=
  let s := s0.expireLeases
  let h := s.shim
  let s1 := if h.leaseExpired then
      let s1 : State := { s with shim := { h with leaseExpired := false } }
      if h.forced then s1 else s1.setPolicy .flatten
    else s
  match s1.shim.pendingLease with
  | none => s1
  | some l =>
    let s2 : State := { s1 with shim := { s1.shim with lease := some l, pendingLease := none, lastLeaseId := l.id } }
    if s2.shim.forced || s2.shim.permits s2.shim.policy then s2 else s2.dropPolicy

/-- Step 4 of R379: one commanded change whose frame has come. -/
def State.shimCommand (s : State) (c : PolicyChange) : State :=
  let h := s.shim
  let s1 : State := { s with shim := { h with targetPct := c.targetPct.getD h.targetPct, ramp := c.ramp.getD h.ramp,
                                              tau := c.tau.getD h.tau } }
  match c.policy with
  | none => s1
  | some p =>
    if !s1.shim.permits p then s1.raise .pwc FC.policyDropped noUnit 0
    else if s1.shim.forced then s1
    else s1.setPolicy p

/-- Step 5 of R379: the floor changes detected in the previous frame. -/
def State.shimFloors (s : State) : State :=
  if s.shim.floorChange then
    let s1 : State := { s with shim := { s.shim with floorChange := false } }
    if !s1.shim.forced && (decide (s1.shim.policy = .island) || decide (s1.shim.policy = .lend)) then s1.setPolicy .flatten else s1
  else s

/-- Outside ISLAND an input converter that a commanded ISLAND stopped runs again (R377). -/
def State.resumeInput (s : State) : State :=
  let h := s.shim
  if h.policy ≠ .island ∧ !h.input.running ∧ h.input.stoppedBy.isNone ∧ h.busPresent ∧ !h.isolationOpen ∧ !s.mod.prechargeWanted then
    { s with shim := { h with input := { h.input with running := true } } }
  else s

/-- A granted rest begins or its ticket is discarded; a complete rest ends (R425). -/
def State.restAtKerf (s : State) : State :=
  let s1 := match s.cells.rest with
    | some r => if r.complete then s.endRest else s
    | none => s
  match s1.cells.ticket with
  | none => s1
  | some t =>
    if s1.cells.rest.isSome ∨ t.2 ≠ s1.frame.number then s1
    else if s1.shim.busPresent ∧ (s1.shim.policy = .flatten ∨ s1.shim.policy = .follow) ∧ !s1.cells.restorePending ∧
        s1.cells.chargeInhibit.isEmpty ∧ s1.cells.dischargeInhibit.isEmpty then
      let c := { s1.cells with
        rest := some { ticket := t.1, began := s1.now, quietSince := none, complete := false },
        cells := s1.cells.cells.map (fun e => { e with restReadings := [] }), capture := none,
        slices := s1.cells.slices.map (fun x => { x with switches := 0 }) }
      (({ s1 with cells := c } : State).stopStorage none false).bump 0xAAF 1
    else (({ s1 with cells := { s1.cells with ticket := none } } : State).raise .pwc FC.restFailed noUnit 0).bump 0xAB0 1

/-- Steps 2 to 5 of R379. -/
def State.policyChanges (s0 : State) : State :=
  let s1 := s0.shimLeases
  let due := s1.shim.changes.filter (fun c => decide (c.frame ≤ s1.frame.number))
  let s2 : State := { s1 with shim := { s1.shim with changes := s1.shim.changes.filter (fun c => decide (s1.frame.number < c.frame)) } }
  (due.foldl (fun s c => s.shimCommand c) s2).shimFloors

/-- The shim stage at t = 0 of a kerf: its changes in the order of R379, those of leases and policy only once no control passes any more
(R373), then the supply limit (R374, R387). `last` is the length of the
last frame in microseconds; `plan` says that the announcement of this frame reached the PWC (R27). -/
def State.shimChanges (s : State) (plan : Bool) (last : Rat) : State :=
  let s0 : State := { s with shim := { s.shim with limits := s.shim.nextLimits, excursionRaised := false, headroomRaised := false,
                                                   feedForward := 0, nextSegment := 0, noFeedForward := s.gov.vrAlert || !plan } }
  let s1 := s0.shimBusState.restartConverters
  ((if s1.mpServes then s1.policyChanges else s1).resumeInput.restAtKerf.settleNarrow).settleSupply last

/-- Then the goal: the slow law at the sampled state (R371), unless control is passing (R373) or the announcement has not come, which
keeps the target of the previous frame (R27). -/
def State.shimGoal (s : State) (plan : Bool) (last : Rat) : State :=
  let s1 :=
    if !plan then
      (({ s with shim := { s.shim with goal := s.shim.target } } : State).raise .pwc FC.planLate noUnit 0).bump 0xA77 1
    else if s.mpServes then s.slowLaw last
    else s
  if s1.shim.forced then { s1 with shim := { s1.shim with goal := 0 } } else s1

/-- At each of the 16 array start times the change between frames is fed forward by a sixteenth (R359). -/
def State.feedForwardStart (s : State) : State :=
  if s.shim.noFeedForward then s
  else { s with shim := { s.shim with feedForward := s.shim.feedForward + ((s.planFirst : Rat) - s.shim.lastPlanW) / 16 } }

end Sys2Proof.Machine
end

