-- ==== Sys2Proof/Machine/CellCode.lean ====
section
/-! DEFINITION. The cell stack's events and mailbox commands (R398 to R440). -/

namespace Sys2Proof.Machine

/-! ### Inhibits (R401, R408 to R410, R421, R422, R430, R667), by number -/

def inhHigh : Nat := 1
def inhLimitHigh : Nat := 2
def inhEndDischarge : Nat := 3
def inhLow : Nat := 4
def inhLimitLow : Nat := 5
def inhTemp55 : Nat := 6
def inhTemp60 : Nat := 7
def inhOvertemp : Nat := 8
def inhCold20 : Nat := 9
def inhCold30 : Nat := 10
def inhEndCharge : Nat := 11
def inhRestore : Nat := 12
def inhEnumeration : Nat := 13
def inhCalibration : Nat := 14
def inhImbalance : Nat := 15
/-- Slice k. -/
def inhSlice (k : Nat) : Nat := 20 + k

/-- Add a reason to the inhibits named. -/
def CellState.inhibit (c : CellState) (id : Nat) (chg dis : Bool) : CellState :=
  { c with chargeInhibit := if chg && !c.chargeInhibit.contains id then id :: c.chargeInhibit else c.chargeInhibit,
           dischargeInhibit := if dis && !c.dischargeInhibit.contains id then id :: c.dischargeInhibit else c.dischargeInhibit }

/-- Take a reason from both inhibits. -/
def CellState.permit (c : CellState) (id : Nat) : CellState :=
  { c with chargeInhibit := c.chargeInhibit.filter (· != id), dischargeInhibit := c.dischargeInhibit.filter (· != id) }

def CellState.inhibited (c : CellState) (id : Nat) : Bool := c.chargeInhibit.contains id || c.dischargeInhibit.contains id

/-- Consecutive scans for which a threshold has held. -/
def CellState.held (c : CellState) (id : Nat) : Nat := SMap.get c.persist id 0
def CellState.hold (c : CellState) (id : Nat) (met : Bool) : CellState :=
  { c with persist := SMap.set c.persist id (if met then c.held id + 1 else 0) 0 }

/-- One row of R408 at a scan: `met` for `n` consecutive scans takes the action and raises the fault once; the inhibit ends with
`clear` and, after a CRITICAL fault, only once its slot is empty (R409). -/
def State.cellLimit (s : State) (id code n unit detail : Nat) (met clear chg dis ack : Bool) : State :=
  let c := s.cells
  if c.inhibited id then
    if clear && (!ack || s.classQuiet 4) then { s with cells := (c.permit id).hold id false } else { s with cells := c.hold id met }
  else
    let c1 := c.hold id met
    if n ≤ c1.held id ∧ met then
      let s1 : State := { s with cells := (c1.inhibit id chg dis).hold id false }
      (s1.raiseMsg .pwc { code := code, unit := unit, scope := 0xFF, detail := detail, cond := true }).thresholdActs
    else { s with cells := c1 }

/-! ### Trims (R666) -/

/-- The trim of a reference of slice `k` at a die temperature in 0.1 degree, in units of 10 µV: ten bands, the first around -25 degrees. -/
def CellState.trim (c : CellState) (k ref : Nat) (t : Int) : Rat :=
  bandValue (fun i => (c.trims.getD (20 * k + 10 * ref + i) 0 : Rat)) 10 (t + 250)

/-- A reading in 0.1 mV as slice `k` sends it, its trim applied. DESIGN CHOICE: the trim of the first reference is added, and the sum
rounded to the nearest step. -/
def CellState.corrected (c : CellState) (k : Nat) (t : Int) (raw : Nat) : Nat := (units ((raw : Rat) + c.trim k 0 t / 10)).toNat

/-- The corrected references of slice `k` agree within 2 mV (R401, R410, R666). -/
def CellState.refsAgree (c : CellState) (k : Nat) (inp : ScanInput) : Bool :=
  let t := inp.scan.dies.getD k 0
  let r := inp.refs.getD k (0, 0)
  decide (absRat ((r.1 : Rat) + c.trim k 0 t - ((r.2 : Rat) + c.trim k 1 t)) ≤ 200)

/-! ### The passes of a scan (R403) -/

/-- Slices read and lost (R410). -/
def State.scanSlice (s : State) (inp : ScanInput) (k : Nat) : State :=
  let c := s.cells
  let x := c.slices.getD k Slice.reset
  let unread := inp.unread.any (fun i => i.val == k)
  let bad := !c.refsAgree k inp && !unread
  let y := { x with unread := if unread then x.unread + 1 else 0, goodScans := if unread || bad then 0 else x.goodScans + 1,
                    lastCommand := if unread then x.lastCommand else s.now }
  let put := fun (s : State) (v : Slice) => ({ s with cells := { s.cells with slices := setNth s.cells.slices k v } } : State)
  if !x.lost && (bad || decide (5 ≤ y.unread)) then
    let s1 := put s { y with lost := true, selfTestFailed := bad }
    let s2 : State := { s1 with cells := s1.cells.inhibit (inhSlice k) true true }
    s2.raiseCond .pwc (if bad then FC.sliceSelftest else FC.sliceLost) (0x100 + k) 0
  else if x.lost && decide (10 ≤ y.goodScans) && s.classQuiet 4 then
    let s1 := put s { y with lost := false, selfTestFailed := false }
    { s1 with cells := s1.cells.permit (inhSlice k) }
  else put s y

/-- A thermistor of slice temperatures `t` (four, in 0.1 degree) is treated as failed (R408); a neighbour at the end of the slice has
no second neighbour, so only its range is checked (DEDUCED). -/
def thermBad (t : List Int) (j : Nat) : Bool :=
  let x := t.getD j 0
  let range := decide (x < -400) || decide (1250 < x)
  let far := fun (i : Nat) => decide (100 < (x - t.getD i 0).natAbs)
  range || (decide (0 < j) && decide (j < 3) && far (j - 1) && far (j + 1))

/-- The value used for a failed thermistor: the higher neighbour plus 5 K; a neighbour that has failed itself lends none while
another is good (DEDUCED). -/
def thermUsed (t : List Int) (j : Nat) : Int :=
  if !thermBad t j then t.getD j 0
  else
    let near := [j - 1, j + 1].filter (fun i => decide (i < 4) && i != j)
    let good := near.filter (fun i => !thermBad t i)
    let use := if good.isEmpty then near else good
    match use.map (fun i => t.getD i 0) with
    | [] => t.getD j 0
    | a :: r => r.foldl max a + 50

/-- The readings join the state, failed thermistors replaced and reported; the cells of a slice that cannot be read keep their last
readings. -/
def State.scanReadings (s : State) (inp : ScanInput) : State :=
  let c := s.cells
  let skip := fun (k : Nat) => inp.unread.any (fun i => i.val == k)
  let volts := (List.range 48).map (fun i => if skip (i / 8) then c.volt i
    else c.corrected (i / 8) (inp.scan.dies.getD (i / 8) 0) (inp.scan.volts.getD i 0))
  let raw := fun (k : Nat) => (List.range 4).map (fun j => inp.scan.therms.getD (4 * k + j) 0)
  let therms := (List.range 24).map (fun i => if skip (i / 4) then c.scan.therms.getD i 0 else thermUsed (raw (i / 4)) (i % 4))
  let bad := (List.range 24).filter (fun i => !skip (i / 4) && thermBad (raw (i / 4)) (i % 4))
  let dies := (List.range 6).map (fun k => if skip k then c.scan.dies.getD k 0 else inp.scan.dies.getD k 0)
  let s1 : State := { s with cells := { c with
    scan := { volts := volts, currentMa := s.pwcReading cvStack inp.scan.currentMa, therms := therms, dies := dies }, badTherms := bad,
    scanCount := c.scanCount + 1 } }
  (bad.filter (fun i => !c.badTherms.contains i)).foldl (fun s i =>
    s.raiseCond .pwc FC.thermistorFault (2 * i + 1) (inp.scan.therms.getD i 0 % 2 ^ 32).toNat) s1

/-- Ceilings of charge and discharge (R408), from the stack-current limit. -/
def State.scanCeilings (s : State) (hi lo : Nat) : State :=
  let lim := s.shim.limits.stackDa * 100
  let chg := if hi < 27000 then lim else lim * (27500 - hi) / 500
  let dis := if 20500 < lo then lim else min lim (lim * (lo - 19500) / 1000)
  let s1 : State := { s with cells := { s.cells with chargeCeiling := chg, dischargeCeiling := dis } }
  if chg < lim ∨ dis < lim then s1.thresholdActs else s1

/-- End of charge (R421). -/
def State.scanEndOfCharge (s : State) (hiIx : Nat) (hi : Nat) : State :=
  let c := s.cells.hold inhEndCharge (decide (27400 ≤ hi) && decide (-125 < s.cells.scan.currentMa))
  if c.inhibited inhEndCharge then
    if decide (s.soc ≤ c.endChargeAt.getD 0 - 2) then { s with cells := { c.permit inhEndCharge with endChargeAt := none } }
    else { s with cells := c }
  else if 6000 ≤ c.held inhEndCharge then
    let e := c.cell hiIx
    let c1 := (c.shift (e.capacity - e.charge)).inhibit inhEndCharge true false
    let s1 := ({ s with cells := { c1 with u := 1, endChargeAt := some s.soc } } : State).anchor c.u
    (s1.raise .pwc FC.endOfCharge (hiIx + 1) hi).bump 0xAB5 1
  else { s with cells := c }

/-- End of discharge (R408, R422). -/
def State.scanEndOfDischarge (s : State) (loIx : Nat) (lo : Nat) : State :=
  let c := s.cells.hold inhEndDischarge (decide (lo ≤ 20000))
  if c.inhibited inhEndDischarge then
    if decide ((90 : Rat) ≤ c.endDischargeTaken.getD 0) && decide (20500 ≤ lo) then
      { s with cells := { c.permit inhEndDischarge with endDischargeTaken := none } }
    else { s with cells := c }
  else if 200 ≤ c.held inhEndDischarge then
    let c1 := (c.shift (-(c.cell loIx).charge)).inhibit inhEndDischarge false true
    let s1 := ({ s with cells := { c1 with u := 2, endDischargeTaken := some 0 } } : State).anchor c.u
    (((s1.raise .pwc FC.endOfDischarge (loIx + 1) lo).bump 0xAB6 1).thresholdActs).exhaust
  else { s with cells := c }

/-- The thresholds of R408. -/
def State.scanThresholds (s : State) : State :=
  let c := s.cells
  match c.highest, c.lowest with
  | some h, some l =>
    let hi := c.volt h
    let lo := c.volt l
    let hot := leastBy (fun i => -(c.tempOf i : Rat)) c.known
    let cold := leastBy (fun i => (c.tempOf i : Rat)) c.known
    let tMax := hot.elim 0 c.tempOf
    let tMin := cold.elim 0 c.tempOf
    let hu := h + 1
    let lu := l + 1
    let tu := hot.elim noUnit (· + 1)
    let cu := cold.elim noUnit (· + 1)
    let d := fun (x : Int) => (x % 2 ^ 32).toNat
    let s1 := s.scanCeilings hi lo
    let s2 := s1.cellLimit inhHigh FC.cellHigh 2 hu hi (decide (28000 ≤ hi)) (decide (hi < 27500)) true false false
    let s3 := s2.cellLimit inhLimitHigh FC.cellLimitHigh 1 hu hi (decide (28500 ≤ hi)) (decide (hi < 28500)) true true true
    let s4 := s3.cellLimit inhLow FC.cellLow 2 lu lo (decide (lo ≤ 19000)) (decide (20500 ≤ lo)) false true false
    let s5 := s4.cellLimit inhLimitLow FC.cellLimitLow 1 lu lo (decide (lo ≤ 18000)) (decide (18000 < lo)) true true true
    let s6 := s5.cellLimit inhTemp55 FC.cellTempHigh 10 tu (d tMax) (decide (550 ≤ tMax)) (decide (tMax < 500)) true false false
    let s7 := s6.cellLimit inhTemp60 FC.cellTempHigh 10 tu (d tMax) (decide (600 ≤ tMax)) (decide (tMax < 550)) true true false
    let s8 := s7.cellLimit inhOvertemp FC.cellOvertemp 2 tu (d tMax) (decide (650 ≤ tMax)) (decide (tMax < 650)) true true true
    let s9 := s8.cellLimit inhCold20 FC.cellTempLow 10 cu (d tMin) (decide (tMin ≤ -200)) (decide (-150 < tMin)) true false false
    let s10 := s9.cellLimit inhCold30 FC.cellTempLow 10 cu (d tMin) (decide (tMin ≤ -300)) (decide (-250 < tMin)) true true false
    let spread := decide (500 < hi - lo) && decide (c.scan.currentMa.natAbs ≤ 50)
    let c11 := s10.cells.hold inhImbalance spread
    let begins := decide (100 ≤ c11.held inhImbalance) && !c11.imbalance
    let s11 : State := { s10 with cells := { c11 with imbalance := if spread then c11.imbalance || begins else false } }
    let s12 := if begins then s11.raiseCond .pwc FC.imbalance noUnit 0 else s11
    (s12.scanEndOfDischarge l lo).scanEndOfCharge h hi
  | _, _ => s

/-- The bleed charge of the cycle that ends: 200 mA for 8.0 ms in every cell that bled (R403, R411, R414). -/
def CellState.bleedCharge (c : CellState) : CellState :=
  { c with cells := (List.range 48).map (fun i =>
      let e := c.cell i
      let on := bitAt (c.slices.getD (i / 8) Slice.reset).switches (i % 8)
      { e with bled := on, charge := if on then e.charge - 16 / 10000 else e.charge,
               counted := if on then e.counted - 16 / 10000 else e.counted }) }

/-- The estimator at a scan (R418 to R420): reported state of charge, uncertainty, `REST_WANTED`; it waits while no processor has
control (R414). -/
def State.scanEstimate (s : State) : State :=
  if !s.mpServes then s
  else
    let c := s.cells
    let dt := secOf (s.now - c.lastScan)
    let moved := c.reported + c.countedScan / 90
    let est := c.stackSoc
    let most := dt / 5
    let rep := if moved < est then min est (moved + most) else max est (moved - most)
    let u := min 25 (c.u + 4 / 1000 * c.countedAbs / 90 + 3 / 10 * dt / 3600)
    let want := c.restWanted || decide ((5 : Rat) ≤ u) || decide (c.lastAnchor + (8 * 3600 * rcSec : Nat) ≤ (s.now : Int))
    { s with cells := { c with reported := rep, u := u, restWanted := want, throughput := c.throughput + c.countedAbs,
                               countedScan := 0, countedAbs := 0, lastScan := s.now } }

/-- The rest at a scan (R425 items 3 and 4). -/
def State.scanRest (s : State) : State :=
  match s.cells.rest with
  | none => s
  | some r =>
    if r.complete then s
    else
      let quiet := decide (s.cells.scan.currentMa.natAbs ≤ 50)
      let since := if quiet then some (r.quietSince.getD s.now) else none
      let cells := (List.range 48).map (fun i =>
        let e := s.cells.cell i
        { e with restReadings := (s.cells.volt i :: e.restReadings).take 10 })
      let s1 : State := { s with cells := { s.cells with cells := cells, rest := some { r with quietSince := since } } }
      match since with
      | some q =>
        if q + 120 * rcSec ≤ s.now then
          let s2 := s1.restCorrection
          { s2 with cells := { s2.cells with rest := some { r with quietSince := since, complete := true } } }
        else s1
      | none => s1

/-- The probation of a restore (R433): the mean of |measured - predicted| in mV from 60 s on. -/
def State.scanProbation (s : State) : State :=
  match s.cells.probation with
  | none => s
  | some p =>
    let c := s.cells
    let sum := (List.range 48).foldl (fun a i => a + absRat ((c.volt i : Rat) / 10 - c.predicted i c.scan.currentMa)) p.2.1
    let n := p.2.2 + 48
    if p.1 + 60 * rcSec ≤ s.now ∧ 15 < sum / (n : Rat) then
      (({ s with cells := { c with probation := none, u := 15, restoreResult := 4 } } : State).raise .pwc FC.restoreRejected noUnit 0).bump 0xAB9 1
    else if p.1 + 600 * rcSec ≤ s.now then { s with cells := { c with probation := none, restoreResult := 2 } }
    else { s with cells := { c with probation := some (p.1, sum, n) } }

/-- The mask of the next cycle (R411), by slice. -/
def CellState.remark (c : CellState) : CellState :=
  let low := c.stackSoc
  let cells := c.cells.map (fun e =>
    let d := e.soc - low
    { e with marked := if (1 / 2 : Rat) < d then true else if d ≤ (1 / 5 : Rat) then false else e.marked })
  { c with cells := cells,
           nextMask := (List.range 6).map (fun k => flags ((List.range 8).map (fun j => (cells.getD (8 * k + j) CellEst.blank).marked))) }

/-- The bleed switches close by the mask received in the previous cycle (R403), unless R412 or a capture (R407) holds them open. -/
def State.scanBleed (s : State) (unread : List (Fin 6)) : State :=
  let c := s.cells
  let barred := c.rest.isSome || c.capture.isSome || decide (s.mod.mode = .parked) || c.restorePending
  let slices := (List.range 6).map (fun k =>
    let x := c.slices.getD k Slice.reset
    let t := c.scan.dies.getD k 0
    let off := barred || decide (900 ≤ t) || (decide (800 ≤ t) && c.oddScan)
    if unread.any (fun i => i.val == k) then x
    else { x with switches := if off then 0 else c.nextMask.getD k 0 })
  { s with cells := { c with slices := slices, oddScan := !c.oddScan } }

/-- The counters of a scan (R675): the throughput counts whole coulombs; the time of an inhibit is that since the last scan. -/
def State.scanCounters (s : State) (inp : ScanInput) : State :=
  let c := s.cells
  let s1 := (List.range 48).foldl (fun s i => if (s.cells.cell i).bled then s.bump (0xA7C + i) 8 else s) s
  let s2 := ((s1.bump 0xAAC 1).bump 0xAB4 inp.unread.length)
  let s3 := if c.chargeInhibit.isEmpty && c.dischargeInhibit.isEmpty then s2 else s2.bump 0xAB7 ((s.now - c.lastScan) / rcMs)
  let s4 := s3.bumpWhole 0xAB2 c.throughput (c.throughput + c.countedAbs)
  match c.lowest, c.highest with
  | some l, some h => (s4.trough 0xABA (c.volt l / 10)).peak 0xABB (c.volt h / 10)
  | _, _ => s4

/-- A scan cycle (R403): readings, thresholds, estimator, bleed mask, reports. -/
def State.scanCycle (s : State) (inp : ScanInput) : State :=
  let s0 : State := { s with cells := s.cells.bleedCharge }
  let s1 := (List.range 6).foldl (fun s k => s.scanSlice inp k) s0
  let s2 := (((s1.scanReadings inp).scanCounters inp).scanThresholds).scanEstimate
  let s3 := (s2.scanRest.scanProbation).scanBleed inp.unread
  let s4 : State := if s3.mpServes then { s3 with cells := s3.cells.remark } else s3
  s4.cellReports.settleNarrow.settleFloors

/-! ### Events -/

/-- The scan period: once per second in STANDBY, else 10 ms (R403, R404). -/
def State.scanPeriod (s : State) : Nat := if s.mod.mode = .standby then rcSec else 10 * rcMs

/-- A scan cycle, none before its period is over and none while the slices sleep (R403, R404). While a capture is armed the voltages and
the current that the sender gives are those of the capture tick that R407 names. -/
def execCellScan (t : Nat) (inp : ScanInput) (s : State) : Outcome :=
  let s := s.upTo t
  if s.cells.enumerated ∧ !s.cells.asleep ∧ s.cells.scannedAt + s.scanPeriod ≤ s.now then
    .next (({ s with cells := { s.cells with scannedAt := s.now } } : State).scanCycle inp)
  else .next s

/-- 150 s have passed since the kerf of a rest without 120 s of rest (R428). -/
def execRestTimeout (t : Nat) (s : State) : Outcome :=
  let s := s.upTo t
  match s.cells.rest with
  | some r => if r.began + 150 * rcSec ≤ s.now then .next (s.abortRest true) else .next s
  | none => .next s

/-- A capture is armed (R405): the plans forecast a step of `stepMa` for the coming kerf. -/
def execCaptureArm (t stepMa : Nat) (s : State) : Outcome :=
  let s := s.upTo t
  let c := s.cells
  let due : Bool := match s.frame.modes.cadence with
    | .fixed => (match s.nextKerf with
      | some k => s.frame.timeOfRt k.2 == s.now + 35 * rcMs / 10
      | none => false)
    | .barrier => s.frame.ownDone
  let barred := !c.enumerated || c.asleep || c.rest.isSome || c.capture.isSome || c.restorePending || decide (s.mod.mode = .parked) ||
    c.scan.dies.any (fun d => decide (900 ≤ d)) || c.lastCapture.elim false (fun x => decide (s.now < x + 100 * rcMs))
  if due ∧ 6000 ≤ stepMa ∧ !barred then
    .next { s with cells := { c with capture := some { armedAt := s.now, strobe := none, acted := false }, lastCapture := some s.now,
                                     slices := c.slices.map (fun x => { x with switches := 0 }) } }
  else .next s

/-- The tick of the ring that ends at or before the strobe, its latest, and the one that ends nearest to the strobe plus 1.0 ms. -/
def tickBefore (ring : List CaptureTick) (strobe : Nat) : Option CaptureTick :=
  (ring.filter (fun x => decide (x.start + 720000 ≤ strobe))).foldl (fun b x => match b with
    | some y => if y.start < x.start then some x else some y
    | none => some x) none
def tickAfter (ring : List CaptureTick) (strobe : Nat) : Option CaptureTick :=
  let far := fun (x : CaptureTick) => ((x.start + 720000 : Int) - (strobe + rcMs : Int)).natAbs
  ring.foldl (fun b x => match b with
    | some y => if far x < far y then some x else some y
    | none => some x) none

/-- Currents that agree within 0.5 A. -/
def agree (l : List Int) : Bool := l.all (fun a => l.all (fun b => decide ((a - b).natAbs ≤ 500)))

/-- The resistance measurement of a capture (R406, R417): the mean of the 48 cells in micro-ohm, with the step's rate band. -/
def captureMeasure (ring : List CaptureTick) (armedAt strobe : Nat) : Option (Rat × Nat) :=
  match tickBefore ring strobe, tickAfter ring strobe with
  | some a, some b =>
    let di := b.currentMa - a.currentMa
    let before := (ring.filter (fun x => decide (x.start ≤ a.start) && decide (a.start ≤ x.start + 1440000))).map (·.currentMa)
    let after := (ring.filter (fun x => decide (strobe + 3 * rcMs / 10 ≤ x.start) && decide (x.start ≤ b.start))).map (·.currentMa)
    let covered := decide (((b.start + 720000 : Int) - (strobe + rcMs : Int)).natAbs ≤ 360000)
    if armedAt + 15 * rcMs / 10 ≤ a.start ∧ covered ∧ 5000 ≤ di.natAbs ∧ before.length = 3 ∧ agree before ∧ agree after then
      -- 0.1 mV over mA is 10^5 micro-ohm
      let r := meanRat ((List.range 48).map (fun i =>
        -(((b.volts.getD i 0 : Int) - (a.volts.getD i 0 : Int) : Int) : Rat) * 100000 / (di : Rat))) 0
      some (r, rateBand ((a.currentMa.natAbs + b.currentMa.natAbs) / 2))
    else none
  | _, _ => none

/-- A capture moves its entry of the resistance table (R417). -/
def State.learnResistance (s : State) (r : Rat) (rate : Nat) : State :=
  let c := s.cells
  let mean := meanRat ((List.range 48).map (fun i => (c.tempOf i : Rat))) 0
  let k := 6 * tempBand mean.floor + rate
  let old := c.r1.getD k 0
  let r1 := setNth c.r1 k (old + (r - old) / 16)
  let high := decide (2 * c.r1Factory.getD 20 0 < r1.getD 20 0)
  let s1 : State := { s with cells := { c with r1 := r1, resistanceHigh := high } }
  if high && !c.resistanceHigh then s1.raiseCond .pwc FC.resistanceHigh noUnit (units (r1.getD 20 0)).toNat else s1

/-- The capture stops 1.2 ms after the strobe and its ring is read (R406, R417). -/
def execCaptureRead (t : Nat) (ring : List CaptureTick) (s : State) : Outcome :=
  let s := s.upTo t
  match s.cells.capture with
  | some c =>
    match c.strobe with
    | some k =>
      if k + 12 * rcMs / 10 ≤ s.now then
        -- ticks from 1.5 ms after arming on, the last 32 of them (R406)
        let kept := ring.filter (fun x => decide (c.armedAt + 15 * rcMs / 10 ≤ x.start) && decide (x.start + 720000 ≤ k + 12 * rcMs / 10))
        let ring := (kept.drop (kept.length - 32)).map (fun (x : CaptureTick) => { x with
          currentMa := s.pwcReading cvStack x.currentMa, volts := (List.range 48).map (fun i =>
          s.cells.corrected (i / 8) (s.cells.scan.dies.getD (i / 8) 0) (x.volts.getD i 0)) })
        let s1 := ({ s with cells := { s.cells with capture := none, captureRing := ring } } : State).bump 0xAAD 1
        if c.acted then .next s1
        else match captureMeasure ring c.armedAt k with
          | some m => .next ((s1.learnResistance m.1 m.2).bump 0xAAE 1)
          | none => .next s1
      else .next s
    | none => .next s
  | none => .next s

/-- Under BARRIER cadence a capture whose kerf has not come within 20 ms is cancelled (R405). -/
def execCaptureCancel (t : Nat) (s : State) : Outcome :=
  let s := s.upTo t
  match s.cells.capture with
  | some c =>
    if c.strobe.isNone ∧ c.armedAt + 20 * rcMs ≤ s.now ∧ s.frame.modes.cadence = .barrier then
      .next { s with cells := { s.cells with capture := none } }
    else .next s
  | none => .next s

/-- A slice without a valid command for 25 ms opens its bleed switches (R399). -/
def execSliceCommandTimeout (k : Fin 6) (t : Nat) (s : State) : Outcome :=
  let s := s.upTo t
  let x := s.cells.slices.getD k Slice.reset
  if x.lastCommand + 25 * rcMs ≤ s.now then
    .next { s with cells := { s.cells with slices := setNth s.cells.slices k { x with switches := 0 } } }
  else .next s

/-- The pack identity store passes (R400, R401). -/
def PackIdentity.good (p : PackIdentity) : Bool :=
  p.crcOk && p.chemistryOk && p.cellCount == 48 && p.sliceCount == 6 && p.ratedMah == 2500 && decide (3125 ≤ p.bolMah)

/-- The bytes of a pack record. DESIGN CHOICE: R14 gives no layout: the serial at byte 0, the CRC-32C of bytes 0 to 59 at byte 60. -/
def packRecordOf (serial : Bytes) : Bytes :=
  let b := slice serial 0 16 ++ zeros 44
  b ++ leBytes 4 (crc32c b).toNat

/-- The pack record as the flash gives it, with the bits it has lost. -/
def CellState.recordRead (c : CellState) (flips : List (Fin 512)) : Option Bytes :=
  c.packRecord.map (fun b => flips.foldl (fun b i => setNth b (i.val / 8) (nth b (i.val / 8) 0 ^^^ BitVec.ofNat 8 (2 ^ (i.val % 8)))) b)

/-- The serial that a pack record holds: none where it was never written or fails its CRC (R14). -/
def recordSerial (b : Option Bytes) : Option Bytes :=
  b.bind (fun b => if crcGood b 0 60 then some (slice b 0 16) else none)

/-- The estimator as enumeration leaves it (R430): each cell's fill by the inversion of R427, u 15.0, `RESTORE_PENDING`. The pack record
is rewritten where it does not hold this serial; one that fails its CRC holds none (R14, DEDUCED). -/
def State.startEstimator (s : State) (p : PackIdentity) (inp : ScanInput) (flips : List (Fin 512)) : State :=
  let record := s.cells.recordRead flips
  let same := recordSerial record == some (slice p.serial 0 16)
  let c0 := { s.cells with
    enumerated := true, asleep := false, packSerial := p.serial, capacityBol := (p.bolMah : Rat) * 36 / 10,
    ocv := p.ocv.map (fun r => r.map (fun v => (v : Rat))), r1 := p.r1.map (fun v => (v : Rat)),
    r1Factory := p.r1.map (fun v => (v : Rat)), packRecord := if same then record else some (packRecordOf p.serial),
    packChanged := !same,
    slices := List.replicate 6 { Slice.reset with lastCommand := s.now } }
  let s1 := ({ s with cells := c0 } : State).scanReadings inp
  let c := s1.cells
  let cells := (List.range 48).map (fun i =>
    let b := tempBand (c.tempOf i)
    { CellEst.blank with capacity := c.capacityBol,
                         charge := (fillOf (c.curve b) b ((c.volt i : Rat) / 10)).1 * c.capacityBol })
  let c1 := { c with cells := cells, u := 15, restorePending := true, lastScan := s.now, scannedAt := s.now, lastTick := s.now, lastAnchor := s.now }
  let c2 := (({ c1 with reported := c1.stackSoc } : CellState).inhibit inhRestore true true)
  (({ s1 with cells := c2 } : State).scanThresholds).cellReports.settleNarrow

/-- The self-test of slice `k` fails (R401 step 3): its references differ, a sense wire is broken, or a thermistor is out of range. -/
def CellState.selfTestFails (c : CellState) (r : ChainRead) (k : Nat) : Bool :=
  !c.refsAgree k r.first || r.wireBad.any (fun i => i.val == k) ||
  (List.range 4).any (fun j =>
    let x := r.first.scan.therms.getD (4 * k + j) 0
    decide (x < -400) || decide (1250 < x))

/-- The chain is enumerated (R401): from the south port, else from the north; identities, self-tests, pack identity, first scan. A
failure inhibits both directions until the next cold start; the restore that R616 waits for is pending all the same (DEDUCED from R430, log
entry 22). -/
def execChainEnumeration (t : Nat) (r : ChainRead) (s : State) : Outcome :=
  let s := s.upTo t
  let fail := fun (s : State) (code unit : Nat) =>
    (({ s with cells := { (s.cells.inhibit inhEnumeration true true).inhibit inhRestore true true with
                            enumFailed := true, u := 15, restorePending := true } } : State).raise .pwc code unit 0)
  if s.cells.enumerated ∨ s.cells.enumFailed ∨ !s.mod.processorsUp then .next s
  else if !r.southOk ∧ !r.northOk then .next (fail (s.bump 0xAB3 1) FC.chainEnumFail noUnit)
  else
    let s1 := if r.southOk then s
      else (({ s with cells := { s.cells with northOnly := true } } : State).raise .pwc FC.chainReversed noUnit 0).bump 0xAB3 1
    match (List.range 6).find? (s.cells.selfTestFails r) with
    | some k => .next (fail s1 FC.sliceSelftest (0x100 + k))
    | none =>
      if !r.pack.good then .next (fail s1 FC.packIdInvalid noUnit)
      else if !r.first.unread.isEmpty then .next (fail s1 FC.chainEnumFail noUnit)
      else .next (s1.startEstimator r.pack r.first r.recordFlips)

/-- The stack current is counted into every cell's charge (R414), with each slice's own supply current; the time since the last tick is
50 microseconds. -/
def execChargeCountTick (t : Nat) (currentMa : Int) (s : State) : Outcome :=
  let s := s.upTo t
  let c := s.cells
  let currentMa := s.pwcReading cvStack currentMa
  if c.enumerated ∧ !c.asleep then
    let dt := secOf (s.now - c.lastTick)
    let dq : Rat := (currentMa : Rat) / 1000 * dt
    let own := fun (k : Nat) => (min (Config.sliceSupply k) 2000 : Nat) * dt / 1000000
    let cells := (List.range 48).map (fun i =>
      let e := c.cell i
      { e with charge := e.charge - dq - own (i / 8), counted := e.counted - dq - own (i / 8) })
    .next { s with cells := { c with cells := cells, lastTick := s.now, countedScan := c.countedScan - dq,
                                     countedAbs := c.countedAbs + absRat dq,
                                     endDischargeTaken := c.endDischargeTaken.map (fun q => q + max 0 (-dq)) } }
  else .next s

/-! ### Commands (R435 to R440) -/

def cellGetStatus : Cmd :=
  { code := 0x0301, via := .all, lengthOk := exactly 0, changes := never, act := fun s _ _ => .done stOk s (slice s.cells.statusBytes 0 48) }

def cellGetCells : Cmd :=
  { code := 0x0302, via := .mbpMbk, lengthOk := exactly 0, changes := never,
    act := fun s _ _ => .done stOk s (slice s.cells.cellsBytes 0 456) }

def cellGrantRest : Cmd :=
  { code := 0x0303, via := .mbp, lengthOk := exactly 16, changes := always,
    act := fun s _ b =>
      let cancel := bitAt (rd b 4 1) 0
      let f := rd b 8 8
      let n := s.frame.number
      if rd b 0 4 = 0 ∨ 1 < rd b 4 1 ∨ !zeroAt b 5 3 ∨ (if cancel then f ≠ 0 else (2 ^ 48 ≤ f ∨ f < n + 2)) then .refused stRange
      else
        let c := s.cells
        if cancel then
          if c.ticket.isNone then .refused stState
          else
            let s1 := s.abortRest false
            .done stOk { s1 with cells := { s1.cells with ticket := none } } (frameReply 0)
        else if c.ticket.isSome ∨ c.rest.isSome ∨ s.shim.policy = .island ∨ s.shim.policy = .lend ∨ c.restorePending ∨ !c.enumerated then
          .refused stState
        else .done stOk { s with cells := { c with ticket := some (rd b 0 4, f) } } (frameReply f) }

def cellSaveState : Cmd :=
  { code := 0x0304, via := .mbp, lengthOk := exactly 0, changes := never,
    act := fun s _ _ => if s.cells.restorePending ∨ !s.cells.enumerated then .refused stState else .done stOk s s.cells.blob }

/-- The module becomes ACTIVE once the staged start is complete and the restore has answered (R616). -/
def State.settleActive (s : State) : State :=
  if s.mod.mode = .starting ∧ s.mod.railsDone ∧ s.mod.restored then
    { s with mod := { s.mod with mode := .active, phase := 4, since := s.now, changes := min (s.mod.changes + 1) 0xFFFFFFFF } }
  else s

/-- A restore has answered (R430): both inhibits of `RESTORE_PENDING` end and the storage converter starts. -/
def State.restoreDone (s : State) (result : Nat) : State :=
  let c := { s.cells.permit inhRestore with restorePending := false, restoreResult := result }
  let s1 : State := { s with cells := c, mod := { s.mod with restored := true } }
  let s2 := if s1.shim.storage.stoppedBy.isNone ∧ !c.enumFailed then s1.startStorage else s1
  (({ s2 with shim := { s2.shim with target := (s2.shim.meter.busDraw : Rat) } } : State).bump 0xAB8 1).settleNarrow.settleActive

/-- Step 1 of R432: magic, format, reserved fields, CRC. -/
def blobGood (b : Bytes) : Bool :=
  rd b 0 4 == 0x314C4543 && rd b 4 1 == 1 && zeroAt b 5 1 && decide (rd b 40 8 < 2 ^ 48) && zeroAt b 248 4 && crcGood b 0 252

/-- Steps 2 to 4 of R432 and the pack check of R14: 0 passes, else the reason of R440. -/
def State.blobReason (s : State) (b : Bytes) : Nat :=
  let age : Int := ((s.rt / 100000 : Nat) : Int) - ((rd b 40 6 : Nat) : Int)
  if s.cells.packChanged then 4
  else if age < -1000 then 2
  else if 86400000 < age then 1
  else if slice b 8 16 ≠ moduleSerial then 3
  else if slice b 24 16 ≠ slice s.cells.packSerial 0 16 then 4
  else 0

/-- The estimator takes a blob over (R432); u stays at or below 25 points (R419, DEDUCED). -/
def State.adoptBlob (s : State) (b : Bytes) : State :=
  let c := s.cells
  let ageMs : Int := ((s.rt / 100000 : Nat) : Int) - ((rd b 40 6 : Nat) : Int)
  let cells := (List.range 48).map (fun i =>
    { c.cell i with charge := (rd b (48 + 2 * i) 2 : Rat) * 9 / 10,
                    capacity := (50 + (rd b (144 + i) 1 : Rat) / 4) / 100 * c.capacityBol })
  let since := rd b 240 4 * rcSec
  { s with cells := { c with
      cells := cells, r1 := (List.range 48).map (fun i => (rd b (192 + i) 1 : Rat) * 20),
      u := min 25 ((rd b 6 2 : Rat) / 100 + 3 / 10 * ((max 0 ageMs : Int) : Rat) / 3600000),
      lastAnchor := (s.now : Int) - (since : Nat), throughput := (rd b 244 4 : Rat), probation := some (s.now, 0, 0) } }

def cellRestoreState : Cmd :=
  { code := 0x0305, via := .mbp, lengthOk := exactly 264, changes := always,
    act := fun s _ b =>
      let none_ := bitAt (rd b 0 1) 0
      let blob := b.drop 8
      let reply := fun (s : State) (r why : Nat) => leBytes 1 r ++ leBytes 1 why ++ leUnits 2 (s.cells.u * 100) ++ zeros 4
      if 1 < rd b 0 1 ∨ !zeroAt b 1 7 ∨ (none_ ∧ blob.any (· != 0)) ∨ (!none_ ∧ !s.cells.packChanged ∧ !blobGood blob) then .refused stRange
      else if !s.cells.restorePending ∨ (!none_ ∧ !s.frame.rtLocked) then .refused stState
      else
        let why := if none_ then 5 else s.blobReason blob
        if why = 0 then
          let s1 := (s.adoptBlob blob).restoreDone 1
          .done stOk s1 (reply s1 0 0)
        else
          let s1 := ((s.restoreDone 3).raise .pwc FC.restoreRejected noUnit 0).bump 0xAB9 1
          .done stStale s1 (reply s1 1 why) }

def execCellGetStatus (slot : Fin 19) (t : Nat) (s : State) : Outcome := s.serve cellGetStatus slot t
def execCellGetCells (slot : Fin 19) (t : Nat) (s : State) : Outcome := s.serve cellGetCells slot t
def execCellGrantRest (slot : Fin 19) (t : Nat) (s : State) : Outcome := s.serve cellGrantRest slot t
def execCellSaveState (slot : Fin 19) (t : Nat) (s : State) : Outcome := s.serve cellSaveState slot t
def execCellRestoreState (slot : Fin 19) (t : Nat) (s : State) : Outcome := s.serve cellRestoreState slot t

end Sys2Proof.Machine
end

