-- ==== Sys2Proof/Machine/StopOps.lean ====
section
/-! DEFINITION. Stops of rails and of the compute dies, and what each loses (R152, R231, R441, R442, R460 to R463, R504, R505, R605,
R606, R673). -/

namespace Sys2Proof.Machine

/-! ### The rails (R441) -/

def railPhases (r : Nat) : Nat := nth [40, 40, 40, 40, 12, 6, 6, 6, 6, 2, 4, 2, 1, 2, 8, 2] r 0
/-- Rating in A. -/
def railRating (r : Nat) : Nat := nth [1000, 1000, 1000, 1000, 300, 120, 120, 120, 120, 20, 100, 40, 8, 16, 120, 16] r 0
/-- Phase limit in mA, and over-voltage threshold in microvolts. -/
def railPhaseLimit (r : Nat) : Nat :=
  nth [45000, 45000, 45000, 45000, 45000, 35000, 35000, 35000, 35000, 18000, 45000, 35000, 14000, 14000, 25000, 14000] r 0
def railOverUv (r : Nat) : Nat :=
  nth [1050000, 1050000, 1050000, 1050000, 1000000, 1250000, 1250000, 1250000, 1250000, 2000000, 1200000, 650000, 2000000, 3700000,
       1050000, 3700000] r 0
/-- Setpoint range in mV. -/
def railLow (r : Nat) : Nat :=
  nth [550, 550, 550, 550, 750, 1050, 1050, 1050, 1050, 1750, 1000, 450, 1750, 3200, 850, 3200] r 0
def railHigh (r : Nat) : Nat :=
  nth [950, 950, 950, 950, 900, 1150, 1150, 1150, 1150, 1850, 1100, 550, 1850, 3400, 950, 3400] r 0
/-- Class L: 16 phases or more. -/
def railClassL (r : Nat) : Bool := decide (16 ≤ railPhases r)
/-- Off in STANDBY. -/
def railStandbyOff (r : Nat) : Bool := decide (r < 4) || r == 14 || r == 15

/-- The step of R460 that stops a rail: 0 VCORE, 1 group 3, 2 group 2, 3 group 1, 4 the fixed-ratio stage. -/
def stopStep (r : Nat) : Nat := nth [0, 0, 0, 0, 2, 1, 1, 1, 1, 3, 2, 1, 3, 2, 1, 3, 4] r 4

/-- Every rail, and the VCORE rails. -/
def allRails : List Nat := List.range 17
def coreRails : List Nat := [0, 1, 2, 3]

def State.rail (s : State) (r : Nat) : Rail := SMap.get s.rails.rails r Rail.reset
def State.setRail (s : State) (r : Nat) (v : Rail) : State :=
  { s with rails := { s.rails with rails := SMap.set s.rails.rails r v Rail.reset } }

/-- The rail runs or is starting. -/
def Rail.live (r : Rail) : Bool := decide (r.mode = .on) || decide (r.mode = .starting)

/-! ### What a stopped rail takes with it -/

/-- The `IDLE` flits of each path that is up are counted: a flit leaves every 2.56 ns, and what was no other flit was an `IDLE` one (R289,
R675). -/
def State.settleIdle (s : State) : State :=
  (List.range 32).foldl (fun s port =>
    let l := s.link (port / 2)
    let p := l.path (port % 2)
    let n := (s.now - p.upAt) * 125 / 2304
    if p.live && decide (p.flitCount < n) then
      (s.setLink (port / 2) (l.setPath (port % 2) { p with flitCount := n })).bump (0x732 + 8 * port) (n - p.flitCount)
    else s) s

/-- The counters of a die are folded before its rails stop in an orderly stop or under R460 (R673); an immediate stop loses them and
counts the loss. -/
def State.foldAll (s : State) : State :=
  let s := s.settleIdle
  { s with ob := { s.ob with local32 := [],
                             values := s.ob.local32.foldl (fun m kv => SMap.modify m kv.1 0 (fun v => (v + kv.2) % 2 ^ 56)) s.ob.values } }

/-- The counters that a compute die accumulates itself: of its arrays, clusters, movers, entry store and bench. -/
def counterOnDie (n i : Nat) : Bool :=
  (decide (i < 0x080) && i / 32 == n) || (decide (0x090 ≤ i) && decide (i < 0x490) && (i - 0x090) / 256 == n) ||
  (decide (0x4A0 ≤ i) && decide (i < 0x6A0) && (i - 0x4A0) / 128 == n) ||
  (decide (0x6A0 ≤ i) && decide (i < 0x6C0) && (i - 0x6A0) / 8 == n) ||
  (decide (0x6C0 ≤ i) && decide (i < 0x6D0) && (i - 0x6C0) / 4 == n) ||
  (decide (0xABC ≤ i) && decide (i < 0xAEC) && (i - 0xABC) / 12 == n)

/-- An immediate stop loses the increments of a die (R673). -/
def State.loseCounts (s : State) (n : Nat) : State :=
  if s.ob.local32.any (fun kv => counterOnDie n kv.1) then
    let s1 : State := { s with ob := { s.ob with local32 := SMap.drop s.ob.local32 (counterOnDie n) } }
    s1.bump 0xBFF 1
  else s

/-- A compute die without VCORE loses its bench, planes, foot banks and thread state, and what its movers had not handed on (R152,
R178, R231, R504). -/
def State.dieLost (s : State) (n : Nat) : State :=
  let s0 := s.dropAccesses (fun x => x.die == n)
  let s1 := (List.range 4).foldl (fun s a => s.setArray (4 * n + a) (s.array (4 * n + a)).lose) s0
  let s2 : State := { s1 with
    lanes := { s1.lanes with clusters := SMap.drop s1.lanes.clusters (fun c => c / 64 == n) },
    qf := { s1.qf with movers := SMap.drop s1.qf.movers (fun k => k / 32 == n) },
    mem := s1.mem.lose (benchBase n) (benchBase n + benchSize) }
  { s2 with mem := { s2.mem with held := s2.mem.held.filter (fun h => match h.who with
    | .mover k => k / 32 != n
    | .host _ => true) } }

/-- Every path of the fabric goes down without a fault (R525, R618). -/
def State.pathsDown (s : State) : State :=
  let down := fun (p : Path) =>
    { Path.cold with state := PathState.down, neighbour := p.neighbour, serial := p.serial, delayNs := p.delayNs,
                     replays := p.replays, fecUncorrected := p.fecUncorrected }
  (List.range 16).foldl (fun s k =>
    let l := s.link k
    s.setLink k { l with pathA := down l.pathA, pathB := down l.pathB, streamA := Stream.start, streamB := Stream.start,
                         level := [0, 0], resumeOwn := false, resumePeer := false, skew := false }) s

/-- The hub die without VHUB: its links are down and what is under way in it is gone; the frame count stands (R32, R33). Partition records,
bindings and route tables stay, since only a cold start and PARKED lose them (R303, R605). -/
def State.hubLost (s0 : State) : State :=
  let s := s0.pathsDown
  let h := s.host
  let f := s.fabric
  { s with
    jigs := JigState.reset, qf := QueueState.reset,
    fabric := { f with relayed := [], standingFor := [], relaying := false, endpoints := [], toForward := [], toRelease := [], dowelsIn := [],
                       haltsUp := [], haltsDown := [], lateRaised := false },
    host := { HostState.reset with records := h.records, enabled := h.enabled, active := h.active, msix := h.msix,
                                   hostWrites := h.hostWrites, aer := h.aer },
    frame := { FrameState.reset with number := s.frame.number, frozen := true },
    pins := { s.pins with clkreqN := true, wakeN := true }, mod := { s.mod with wakeSince := none } }

/-- What the loss of a rail takes away. -/
def State.railLost (s : State) (r : Nat) : State :=
  if r < 4 then s.dieLost r
  else if r = 4 then s.hubLost
  else if r ≤ 8 then
    (List.range 4).foldl (fun s i =>
      let b := 0x10000000000 + (4 * (r - 5) + i) * 0x1000000000
      { s with mem := s.mem.lose b (b + 0xC00000000) }) s
  else if r = 9 then { s with mem := s.mem.lose 0x10000000000 0x20000000000 }
  else if r = 10 ∨ r = 11 ∨ r = 12 then { s with mem := s.mem.lose 0x20000000000 0x38000000000 }
  else if r = 14 ∨ r = 15 then s.pathsDown
  else s

/-- A rail stops: its pulses end (R460), it loses power-good, and what it supplied is lost. -/
def State.stopRail (s : State) (r : Nat) (m : RailMode) : State :=
  let v := s.rail r
  let s1 := s.setRail r { v with mode := m, good := false, goodSince := none, steadySince := none, vref := 0, truncating := false,
                                 phases := v.phases.map (fun p => { Phase.idle with stopped := p.stopped }) }
  if v.live then s1.railLost r else s1

/-- Rails stop without a fault: each that runs becomes off. -/
def State.stopRails (s : State) (l : List Nat) : State :=
  l.foldl (fun s r => if (s.rail r).live then s.stopRail r .off else s) s

/-- A stop by R460 begins: the rails `only`, step 0 to step `last`, each 1.0 ms after the one before. -/
def State.beginStop (s : State) (only : List Nat) (last : Nat) : State :=
  { s with rails := { s.rails with stopNext := some 0, stopLast := last, stopOnly := only, stopAt := s.now } }

/-- A staged start waits again at its VCORE0 event (R623, R624). -/
def State.pauseStart (s : State) : State :=
  if s.rails.startAt.isSome ∧ 5 < s.rails.startStep then { s with rails := { s.rails with startStep := 5 } } else s

/-! ### Stops of the compute dies (R504 to R508) -/

/-- Causes of a stop, by number. -/
def stopThermal : Nat := 1
def stopFlow : Nat := 2
def stopPll : Nat := 3
def stopFault : Nat := 4
def stopState : Nat := 5

def addCause (l : List Nat) (c : Nat) : List Nat := if l.contains c then l else c :: l

/-- The compute dies are off. -/
def State.diesOff (s : State) : State :=
  let s := s.rootsStop
  { s with gov := { s.gov with stop := .stopped, diesOn := false, running := 5, f0Since := none,
                               f0Past := (s.gov.f0Since.map (fun a => (a, s.now))).toList ++ s.gov.f0Past,
                               dies := s.gov.dies.map (fun d => { d with pacing := 0, paceBefore := 0, preset := 0, stretching := none,
                                                                         powerMw := 0, currentMa := 0, sampled := d.sampled }) },
           rails := { s.rails with startedRails := s.rails.startedRails.filter (fun r => decide (4 ≤ r)) } }

/-- The orderly stop begins (R504): nothing further issues, a halt dowel for every running job; the pacing floor of 64 acts at the next
update (R480). Dies that do not run yet are stopped at once, and the staged start waits. -/
def State.orderlyStop (s : State) (cause : Nat) : State :=
  let g := { s.gov with stopCauses := addCause s.gov.stopCauses cause }
  match g.stop with
  | .running =>
    ({ s with gov := { g with stop := .stopping s.now, learning := { g.learning with spoiled := true } } } : State).haltJobsOf s.runningJobs
  | .stopped => (({ s with gov := g } : State).stopRails coreRails).pauseStart
  | _ => { s with gov := g }

/-- The immediate stop (R505): clocks and VCORE at once; Tier 1, not in self-refresh while the dies ran, is lost (R606). -/
def State.immediateStop (s : State) (cause : Nat) : State :=
  let g := { s.gov with stopCauses := addCause s.gov.stopCauses cause }
  let s1 : State := { s with gov := g }
  let clocked := s.diesClocked
  let s2 := if clocked then (s1.haltJobsOf s.runningJobs) else s1
  let s3 := if clocked then
      let s3 := (List.range 4).foldl (fun s n => s.loseCounts n) s2
      { s3 with mem := s3.mem.lose 0x10000000000 0x20000000000,
                gov := { s3.gov with learning := { s3.gov.learning with spoiled := true } } }
    else s2
  ((s3.stopRails coreRails).diesOff).pauseStart

end Sys2Proof.Machine
end

