-- ==== Sys2Proof/Machine/RailOps.lean ====
section
/-! DEFINITION. The core regulators' quantities: setpoints, banks, on-times, ready state (R444 to R454, R464). Voltages are in
microvolts, currents in mA; an on-time step is an eighth of a root cycle. -/

namespace Sys2Proof.Machine

/-! ### Setpoints (R441, R450, R452, R454) -/

/-- Fused voltage of VCORE `n` at state `f`, and of VHUB, in mV (R547). -/
def vcoreFused (n f : Nat) : Nat := leNat (fuseBytes (0x400 + 2 * (6 * n + f)) 2)
def vhubFused : Nat := leNat (fuseBytes 0x430 2)

/-- Setpoint of VCORE `n` at state `f` under the trim of the rail (R450). -/
def Rail.coreUv (r : Rail) (n f : Nat) : Int := ((vcoreFused n f : Int) + nth r.trim f 0) * 1000

/-- Setpoint of a rail other than VCORE. -/
def Rail.otherUv (r : Rail) (k : Nat) : Int :=
  if k = 4 then ((vhubFused : Int) + nth r.trim 1 0) * 1000
  else ((max (railLow k) (min (railHigh k) (Config.railSetpoint k)) : Nat) : Int) * 1000

/-- The state whose voltages the VCORE rails hold: the higher of running and armed (R452). -/
def GovState.voltState (g : GovState) : Nat := min g.volted g.armed

/-- The setpoint that a rail's rules give now. -/
def State.setpointOf (s : State) (k : Nat) : Int :=
  if k < 4 then (s.rail k).coreUv k s.gov.voltState else (s.rail k).otherUv k

/-- A rail takes a setpoint; its steady time starts again when the setpoint moves (R453). -/
def Rail.take (r : Rail) (uv : Int) : Rail :=
  if r.setpoint = uv then r else { r with setpoint := uv, steadySince := none }

/-- The running rails follow their setpoints (R452, R454). -/
def State.settleSetpoints (s : State) : State :=
  (List.range 16).foldl (fun s k => if (s.rail k).live then s.setRail k ((s.rail k).take (s.setpointOf k)) else s) s

/-- VCORE `n` is ready for state `f` (R453): reference at its voltage, and within 10 mV of it for 5 microseconds. -/
def State.railReady (s : State) (n f : Nat) : Bool :=
  let r := s.rail n
  r.live && decide (r.vref = (r.coreUv n f : Rat)) && decide (r.setpoint = r.coreUv n f) &&
    r.steadySince.elim false (fun a => decide (a + 5 * rcUs ≤ s.now))

/-- The ready state of the module (R453): the highest that every VCORE rail is ready for; where a rail stands at no state's voltage, the
state that runs (DEDUCED). -/
def State.readyState (s : State) : Nat :=
  ((List.range 6).find? (fun f => coreRails.all (fun n => s.railReady n f))).getD s.gov.running

/-! ### Banks (R447, R547) -/

/-- A bank from its 34 bytes: `SHARE_GAIN`, `COEFF`, `U_LIMIT`, `OVERSHOOT_MV`, `UNDERSHOOT_MV`. -/
def Bank.ofBytes (b : Bytes) : Bank :=
  { shareGain := rd b 0 2, coeff := (List.range 7).map (fun i => rdInt b (2 + 4 * i) 4), uLimit := rd b 30 2,
    overshootMv := rd b 32 1, undershootMv := rd b 33 1 }

/-- Whether every field of a bank is in the range of R447. -/
def Bank.inRange (b : Bank) : Bool :=
  b.coeff.all (fun c => decide (-16777216 ≤ c) && decide (c ≤ 16777215)) && decide (b.uLimit ≤ 36000) &&
    decide (10 ≤ b.overshootMv) && decide (b.overshootMv ≤ 60) && decide (10 ≤ b.undershootMv) && decide (b.undershootMv ≤ 60)

/-- The FACTORY bank of a rail. -/
def factoryBank (k : Nat) : Bank := Bank.ofBytes (fuseBytes (0x480 + 40 * k) 34)

/-- The bank a rail runs on. -/
def State.bank (s : State) (k : Nat) : Bank := (s.rail k).active.getD (factoryBank k)

/-! ### Compensator (R446) -/

/-- A number taken as a whole one; between two, the manual names no rounding. -/
def pick (up : Rat → Bool) (x : Rat) : Int := if x = (x.floor : Rat) then x.floor else x.floor + (if up x then 1 else 0)

/-- The error in units of 0.25 mV. -/
def errorOf (vref : Rat) (vsense : Int) : Int := pick Config.errorUp ((vref - (vsense : Rat)) / 250)

/-- The sum of products of two lists. -/
def dot (a b : List Int) : Int := (List.zipWith (· * ·) a b).foldl (· + ·) 0

/-- u[n] from e[n] to e[n-3] and u[n-1] to u[n-3]. -/
def Bank.output (b : Bank) (e u : List Int) : Int :=
  let raw := (dot (b.coeff.take 4) e - dot (b.coeff.drop 4) u) / 65536
  max (-(b.uLimit : Int)) (min (b.uLimit : Int) raw)

/-! ### On-times (R444, R445, R456) -/

/-- Steps in a period, in the least on-time and in the least off-time. -/
def periodSteps : Nat := 72000
def leastOn : Nat := 1152
def leastOff : Nat := 2304

/-- T_ff in steps. -/
def feedForwardSteps (vref : Rat) (vin : Nat) : Rat := if vin = 0 then 0 else 72000 * vref / (vin : Rat)

/-- T_on in steps (R445): limited above, none below the least on-time. -/
def onTime (b : Bank) (vref : Rat) (u : Int) (vin : Nat) (iAvg iP : Int) : Nat :=
  let ff := feedForwardSteps vref vin
  let x := ff + (u : Rat) + (b.shareGain : Rat) / 256 * (((iAvg - iP : Int) : Rat) / 1000)
  let n := (pick Config.onUp (min x (ff + (b.uLimit : Rat)))).toNat
  let n1 := min n (periodSteps - leastOff)
  if n1 < leastOn then 0 else n1

def Rail.phase (r : Rail) (p : Nat) : Phase := r.phases.getD p Phase.idle
def Rail.setPhase (r : Rail) (p : Nat) (v : Phase) : Rail := { r with phases := setNth r.phases p v }

/-- Phases that fault reports have stopped (R464). -/
def Rail.failed (r : Rail) : Nat := (r.phases.filter (·.stopped)).length

/-- The rating of a rail in A after `k` of a class L rail's 40 phases have stopped (R464). -/
def derated (r k : Nat) : Nat := if railClassL r then railRating r * (40 - k) / 40 else railRating r

/-- Output of the fixed-ratio stage in microvolts, from the intermediate bus in mV and its own output current in mA (R442). -/
def frOut (ibusMv frMa : Nat) : Nat := ibusMv * 250 - 4 * frMa

/-- The instance of a record that names a rail as a whole, or one of its phases (R536). -/
def railUnit (k : Nat) : Nat := k * 256 + 0xFF
def phaseUnit (k p : Nat) : Nat := k * 256 + p

/-! ### The staged start (R458, R611, R616) -/

/-- A staged start begins. -/
def State.beginStart (s : State) : State :=
  { s with rails := { s.rails with startAt := some s.now, startStep := 0, startedRails := [], startFailed := false } }

/-- Times of its events, in microseconds: FR, check, groups 1 to 3, VCORE0 to VCORE3, completion. -/
def startTimeUs (k : Nat) : Nat := nth [0, 2000, 2100, 3200, 4300, 5400, 6400, 7400, 8400, 9100] k 9100

/-- Rails an event starts; RECOVERY starts no optical rail (R626). -/
def startGroup (recovery : Bool) (k : Nat) : List Nat :=
  match k with
  | 0 => [16]
  | 2 => if recovery then [9, 12] else [9, 12, 15]
  | 3 => [4, 10, 13]
  | 4 => if recovery then [] else [5, 6, 7, 8, 11, 14]
  | 5 => [0] | 6 => [1] | 7 => [2] | 8 => [3]
  | _ => []

/-- The rails that must have power-good at an event. -/
def startNeeds (recovery : Bool) (k : Nat) : List Nat := (List.range k).flatMap (fun i => startGroup recovery i)

/-- The reference rise per sample of a rail that starts, in microvolts: 1.0 ms for a group, 1 mV per microsecond for VCORE. -/
def startRate (r : Nat) (uv : Int) : Rat := if r < 4 then 1000 * 300 / 7200 else (uv : Rat) * 300 / 7200000

/-- The frame timing unit starts with HD (R33, R35): RT counts from 0, the first kerf is due 1,000 microseconds later. -/
def State.startHub (s : State) : State :=
  let f := s.frame
  ({ s with frame := { f with frozen := false, startedAt := s.now, anyKerf := false, rtBase := 0, rtAt := s.now, rtLocked := false,
                              lastMarkAt := s.now, anchor := some (f.number + 1, 100000) } } : State).runOnOscillator

/-- Every port begins to train (R290). -/
def State.trainPorts (s : State) : State :=
  let on := fun (p : Path) => if p.state = .down then { p with state := PathState.training, trainAt := s.now } else p
  (List.range 16).foldl (fun s k => let l := s.link k; s.setLink k { l with pathA := on l.pathA, pathB := on l.pathB }) s

/-- A rail starts; a rail that a fault stopped waits for its acknowledgement (R461, R463). -/
def State.startRail (s : State) (r : Nat) : State :=
  let v := s.rail r
  if v.live then s
  else if v.mode ≠ .off ∧ !s.classQuiet 2 then s
  else
    let uv := if r < 4 then v.coreUv r 5 else if r = 16 then 0 else v.otherUv r
    let fresh := (List.range (railPhases r)).map (fun p => { Phase.idle with stopped := (v.phase p).stopped })
    let s1 := s.setRail r { v with mode := .starting, good := false, setpoint := uv, goodSince := none, startedAt := s.now, vref := 0, startSlope := startRate r uv,
                                   vsense := 0, phases := fresh, pastE := [0, 0, 0], pastU := [0, 0, 0], lowLatched := false, steadySince := none, truncating := false }
    let s2 : State := { s1 with rails := { s1.rails with startedRails := r :: s1.rails.startedRails } }
    if r = 4 then s2.startHub else if r = 14 then s2.trainPorts else s2

/-- VHUB reaches power-good: the module asks for REFCLK, and on leaving PARKED asserts WAKE_N (R621, R642). -/
def State.hubGood (s : State) : State :=
  { s with pins := { s.pins with clkreqN := false, wakeN := s.pins.wakeN && !s.mod.wakeDue },
           mod := { s.mod with wakeSince := if s.mod.wakeDue then some s.now else s.mod.wakeSince, wakeDue := false } }

/-- A live rail reaches power-good. -/
def State.railGood (s : State) (r : Nat) : State :=
  let v := s.rail r
  let s1 := s.setRail r { v with mode := .on, good := true, startSlope := 0 }
  if r = 4 ∧ v.mode = .starting then s1.hubGood else s1

end Sys2Proof.Machine
end

