-- ==== Sys2Proof/Machine/RailCode.lean ====
section
/-! DEFINITION. The core regulators' events and mailbox commands (R441 to R472). -/

namespace Sys2Proof.Machine

/-! ### Samples and pulses (R445, R446, R451, R453, R455, R456) -/

/-- A voltage sample, in units of 0.25 mV (R446, R451, R453, R458): the reference moves one sample's step, the compensator runs; a rail
within 3 % of its setpoint for 100 microseconds has power-good, which it keeps until an under-voltage (R461) or its stop (DEDUCED). -/
def execVoltageSample (r : Fin 16) (code : Nat) (t : Nat) (s : State) : Outcome :=
  let s := s.upTo t
  let v := s.rail r
  if !v.live then .next s
  else
    let step : Rat := if v.mode = .starting then v.startSlope else 10000 * 300 / 7200
    let vref := moveToward v.vref (v.setpoint : Rat) step
    let sense : Int := s.pwcReading r (250 * code)
    let b := s.bank r
    let e := errorOf vref sense
    let u := b.output (e :: v.pastE) v.pastU
    let near := decide (vref = (v.setpoint : Rat)) && decide ((sense - v.setpoint).natAbs ≤ 10000)
    let since := if (sense - v.setpoint).natAbs * 100 ≤ 3 * v.setpoint.natAbs then some (v.goodSince.getD s.now) else none
    let s1 := s.setRail r { v with vref := vref, vsense := sense, pastE := (e :: v.pastE).take 3, pastU := (u :: v.pastU).take 3,
                                   steadySince := if near then some (v.steadySince.getD s.now) else none, goodSince := since }
    .next (if !v.good ∧ since.elim false (fun a => decide (a + 100 * rcUs ≤ s.now)) then s1.railGood r else s1)

/-- Phase `p` of an n-phase rail begins its periods 9,000 p / n root cycles after phase 0 (R444). -/
def Rail.inTurn (v : Rail) (r p now : Nat) : Bool := decide ((now - v.startedAt) % 9000 = 9000 * p / railPhases r)

/-- A phase begins its period (R444, R445, R455, R461): `iAvg` and `iP` are the mean phase current and the phase's own in mA, `ibusMv` and
`frMa` the intermediate bus and the fixed-ratio stage's output current (R442), `limitAt` the step at which the phase current reaches its
limit. The last voltage sample before this command is the first of its period (DEDUCED). -/
def execPwmPeriodStart (r : Fin 16) (p : Fin 40) (iAvg iP : Int) (ibusMv frMa : Nat) (limitAt : Option Nat) (t : Nat) (s : State) : Outcome :=
  let s := s.upTo t
  let v := s.rail r
  let x := v.phase p
  if !v.live ∨ railPhases r ≤ p.val ∨ x.stopped ∨ !v.inTurn r p s.now then .next s
  else
    let vin := frOut ibusMv frMa
    let n := onTime (s.bank r) v.vref (nth v.pastU 0 0) vin iAvg iP
    let cut := limitAt.elim false (fun k => decide (k < n))
    let on := if v.truncating then 0 else if cut then limitAt.getD 0 else n
    let s1 : State := { s with rails := { s.rails with frOutput := vin } }
    let s2 := s1.setRail r (v.setPhase p { x with began := s.now, endsAt := 8 * s.now + on, onSteps := on, extraGiven := false,
                                                  skipped := v.truncating,
                                                  limited := if cut && !v.truncating then x.limited + 1 else 0,
                                                  uneven := if 3 * railPhaseLimit r < 10 * (iP - iAvg).natAbs then x.uneven + 1 else 0 })
    .next (if cut && !v.truncating then s2.bump (0xA28 + 4 * r.val + 3) 1 else s2)

/-- The voltage exceeds the reference by `OVERSHOOT_MV` (R455): every pulse ends, and none begins. -/
def execOvershootTrip (r : Fin 16) (uv t : Nat) (s : State) : Outcome :=
  let s := s.upTo t
  let v := s.rail r
  if !v.live ∨ (uv : Rat) < v.vref + 1000 * (s.bank r).overshootMv then .next s
  else
    .next ((s.setRail r { v with truncating := true, truncatedInBlock := true,
                                 truncateCount := min (v.truncateCount + 1) 0xFFFFFFFF,
                                 phases := v.phases.map (fun x => { x with endsAt := min x.endsAt (8 * s.now) }) }).bump
      (0xA28 + 4 * r.val + 1) 1)

/-- The voltage is below the reference plus `OVERSHOOT_MV` / 2 again. -/
def execOvershootClear (r : Fin 16) (uv t : Nat) (s : State) : Outcome :=
  let s := s.upTo t
  let v := s.rail r
  if (uv : Rat) < v.vref + 500 * (s.bank r).overshootMv then .next (s.setRail r { v with truncating := false }) else .next s

/-- The extra pulse of R456 for one phase: T_ff + `U_LIMIT` or less at the phase limit, after the least off-time of the pulse before and
early enough for that before the phase's next period. -/
def Phase.extra (x : Phase) (now : Nat) (steps : Nat) : Phase :=
  let start := max (8 * now) (if x.onSteps = 0 then 0 else x.endsAt + leastOff)
  let last := 8 * x.began + periodSteps - leastOff
  let stop := min (start + steps) last
  if x.stopped ∨ 8 * now < x.endsAt ∨ x.extraGiven ∨ stop < start + leastOn then x
  else { x with endsAt := stop, onSteps := stop - start, extraGiven := true }

/-- The voltage falls below the reference by `UNDERSHOOT_MV` (R456, R457); `limits` gives the phases whose current reaches the phase limit
in the extra pulse, with the step at which it does. -/
def execUndershootTrip (r : Fin 16) (uv ibusMv frMa : Nat) (limits : List (Fin 40 × Nat)) (t : Nat) (s : State) : Outcome :=
  let s := s.upTo t
  let v := s.rail r
  if !v.live ∨ v.vref - 1000 * (s.bank r).undershootMv < (uv : Rat) then .next s
  else
    let steps := (pick Config.onUp (feedForwardSteps v.vref (frOut ibusMv frMa))).toNat + (s.bank r).uLimit
    let most := fun (p : Nat) => (limits.find? (fun x => x.1.val == p)).elim steps (fun x => min steps x.2)
    let phases := (v.phases.zip (List.range v.phases.length)).map (fun x => x.1.extra s.now (most x.2))
    let given := (List.zipWith (fun a b => b2n (a != b)) v.phases phases).foldl (· + ·) 0
    .next ((s.setRail r { v with truncating := false, undershotInBlock := true, phases := phases }).bump (0xA28 + 4 * r.val + 2) given)

/-! ### Protections (R442, R449, R461 to R465) -/

/-- A rail stops on its own fault. -/
def State.faultRail (s : State) (r code unit : Nat) : State :=
  if (s.rail r).live then (s.stopRail r .stoppedFault).raise .pwc code unit 0 else s

/-- A power stage reports a fault (R464): the phase stays stopped; a class S rail stops, a class L rail from the fifth on. -/
def execPhaseFail (r : Fin 16) (p : Fin 40) (t : Nat) (s : State) : Outcome :=
  let s := s.upTo t
  let v := s.rail r
  if railPhases r ≤ p.val ∨ (v.phase p).stopped ∨ !v.live then .next s
  else
    let v1 := v.setPhase p { Phase.idle with stopped := true }
    let s1 := (s.setRail r v1).raise .pwc FC.phaseFail (phaseUnit r p) 0
    .next (if railClassL r ∧ v1.failed ≤ 4 then s1 else s1.stopRail r .stoppedFault)

/-- A phase has been held at its limit for 100 periods. -/
def execPhaseLimiting (r : Fin 16) (p : Fin 40) (t : Nat) (s : State) : Outcome :=
  let s := s.upTo t
  if (s.rail r).live ∧ 100 ≤ ((s.rail r).phase p).limited then .next (s.raise .pwc FC.phaseLimiting (phaseUnit r p) 0) else .next s

/-- A stage at 125 degrees (R461, R465); it asserts VR_ALERT_N and re-arms below 115, its condition lasting until then (DEDUCED). The
line's own change is an event of its own (R508). -/
def execStageHot (r : Fin 16) (p : Fin 40) (t : Nat) (s : State) : Outcome :=
  let s := s.upTo t
  let v := s.rail r
  if v.hotStages.contains p.val then .next s
  else .next ((s.setRail r { v with hotStages := p.val :: v.hotStages }).raiseCond .pwc FC.stageHot (phaseUnit r p) 1250)

/-- The rail's current of 10 microseconds, in mA, stands above 125 % of its rating, derated by stopped phases (R461, R464). -/
def execRailOvercurrent (r : Fin 16) (ma t : Nat) (s : State) : Outcome :=
  let s := s.upTo t
  if 1250 * derated r (s.rail r).failed < ma then .next (s.faultRail r FC.railOvercurrent (railUnit r)) else .next s

/-- The rail's voltage of 20 microseconds stands below 85 % of its reference: power-good is lost. A stopped rail raises no fault (R525). -/
def execRailUndervoltage (r : Fin 16) (uv t : Nat) (s : State) : Outcome :=
  let s := s.upTo t
  let v := s.rail r
  if v.live ∧ 100 * (uv : Rat) < 85 * v.vref then
    .next ((s.setRail r { v with good := false, goodSince := none, steadySince := none }).raiseCond .pwc FC.railUndervoltage (railUnit r) 0)
  else .next s

/-- The rail exceeds its over-voltage threshold (R441, R462, R463): a class S rail stops, a class L rail latches its low-side switches. -/
def execRailOvervoltage (r : Fin 16) (uv t : Nat) (s : State) : Outcome :=
  let s := s.upTo t
  if uv ≤ railOverUv r then .next s else
  let s1 := s.stopRail r (if railClassL r then .latched else .stoppedFault)
  let s2 := if railClassL r then s1.setRail r { s1.rail r with lowLatched := true } else s1
  .next (s2.raiseCond .pwc FC.railOvervoltage (railUnit r) 0)

/-- The fixed-ratio stage stops, and every rail it feeds with it (R442). -/
def State.stopFr (s : State) : State := s.stopRails (allRails.reverse)

/-- A class S rail still over-voltage 10 microseconds after it stopped: the fixed-ratio stage stops (R462). -/
def execRailOvFrStop (r : Fin 16) (uv t : Nat) (s : State) : Outcome :=
  let s := s.upTo t
  if !railClassL r ∧ (s.rail r).mode = .stoppedFault ∧ railOverUv r < uv then .next s.stopFr else .next s

/-- A phase differs from the mean by more than 30 % of the phase limit for 1 ms. -/
def execCurrentImbalance (r : Fin 16) (p : Fin 40) (t : Nat) (s : State) : Outcome :=
  let s := s.upTo t
  if (s.rail r).live ∧ 800 ≤ ((s.rail r).phase p).uneven then .next (s.raiseCond .pwc FC.currentImbalance (phaseUnit r p) 0) else .next s

/-- The fixed-ratio stage above 380 A for 2 microseconds (R442). -/
def execFrOvercurrent (t : Nat) (s : State) : Outcome :=
  let s := s.upTo t
  if (s.rail 16).live then
    .next (((s.stopRail 16 .stoppedFault).stopFr).raise .pwc FC.frOvercurrent (railUnit 16) 0)
  else .next s

/-- Its output below 11.5 V for 20 microseconds. -/
def execFrUndervoltage (t : Nat) (s : State) : Outcome :=
  let s := s.upTo t
  if (s.rail 16).live then .next (s.raiseCond .pwc FC.frUndervoltage (railUnit 16) 0) else .next s

/-- A 50 microsecond block within 100 ms of a change of bank, with the peak-to-peak voltage it had (R449): 20 bad ones in a row return
the rail to FACTORY. -/
def execRippleBlockCheck (r : Fin 16) (peakToPeakUv : Nat) (t : Nat) (s : State) : Outcome :=
  let s := s.upTo t
  let v := s.rail r
  if v.watchUntil < s.now ∨ !v.live then .next (s.setRail r { v with badBlocks := 0 })
  else
    let n := if 25000 < peakToPeakUv then v.badBlocks + 1 else 0
    if n < 20 then .next (s.setRail r { v with badBlocks := n })
    else .next ((s.setRail r { v with badBlocks := 0, watchUntil := s.now + 100 * rcMs, active := none }).raise .pwc FC.compReverted (railUnit r) 0)

/-! ### Telemetry (R466, R467) -/

/-- The mean of a list of block or millisecond values, rounded down. -/
def meanVip (l : List Vip) : Vip :=
  if l.isEmpty then Vip.zero
  else { uv := (l.map (·.uv)).foldl (· + ·) 0 / l.length, ma := (l.map (·.ma)).foldl (· + ·) 0 / l.length,
         mw := (l.map (·.mw)).foldl (· + ·) 0 / l.length }

/-- A rail takes a block mean: every 20th block gives the mean of a millisecond and of a second. -/
def Rail.addBlock (v : Rail) (b : Vip) (tempDc : Int) (ms : Bool) (now : Nat) : Rail :=
  let blocks := (b :: v.blocks).take 20
  let m := meanVip blocks
  let means := if ms then (m :: v.means).take 1000 else v.means
  let fresh := v.peakResetDue || !v.peakAny
  { v with block := b, blocks := blocks, mean1ms := if ms then m else v.mean1ms, means := means,
           mean1s := if ms then meanVip means else v.mean1s, stageTempDc := tempDc,
           hotStages := if tempDc < 1150 then [] else v.hotStages,
           lastTruncated := v.truncatedInBlock, lastUndershot := v.undershotInBlock, truncatedInBlock := false,
           undershotInBlock := false,
           peakVMin := if fresh then b.uv else min v.peakVMin b.uv, peakIMax := if fresh then b.ma else max v.peakIMax b.ma,
           peakPMax := if fresh then b.mw else max v.peakPMax b.mw, peakAny := true, peakResetDue := false,
           peakResetAt := if v.peakResetDue then now else v.peakResetAt }

/-- The governor core takes a VCORE block for learning (R466, R484): blocks of the frame body. -/
def State.learnBlock (s : State) (r mw : Nat) : State :=
  let g := s.gov
  if r < 4 ∧ !s.frame.kerf.active ∧ s.frame.anyKerf then
    let l := g.learning
    { s with gov := { g with learning := { l with powerSum := setNth l.powerSum r (nth l.powerSum r 0 + mw),
                                                  blocks := if r = 0 then l.blocks + 1 else l.blocks } } }
  else s

/-- A block of 50 microseconds ends for a rail (R466), at an RT edge that is a multiple of 5,000 where RT runs: its mean voltage and current,
and its hottest stage; `pwcDc` is the temperature of the PWC's die, whose band gives the converters' trims from then on (R667). -/
def execTelemetryBlock (r : Fin 17) (rawUv rawMa : Nat) (tempDc pwcDc : Int) (t : Nat) (s : State) : Outcome :=
  let s := s.upTo t
  if !s.frame.frozen ∧ !s.onRtMultiple 5000 then .next s else
  let s : State := { s with clocks := { s.clocks with pwcTempDc := pwcDc } }
  let uv := (s.pwcReading (cvTelemetryV r) rawUv).toNat
  let ma := (s.pwcReading (cvTelemetryI r) rawMa).toNat
  let b : Vip := { uv := uv, ma := ma, mw := uv * ma / 1000000 }
  let ms := decide (s.rt / 5000 % 20 = 0)
  let s1 := (s.setRail r ((s.rail r).addBlock b (if r.val = 16 then 0 else tempDc) ms s.now)).bump (0xA28 + 4 * r.val) (b.mw / 20)
  .next (s1.learnBlock r b.mw)

/-! ### Start and stop (R458 to R460, R462, R611, R613) -/

/-- The compute dies start at F5 (R458, R663): their clocks run, and what stopped them is over. -/
def State.diesStart (s : State) : State :=
  let g := s.gov
  let lost := g.flowLossSince.elim 0 (fun a => s.now - a)
  let key := 16 * 0 + 0x0A
  { s with gov := { g with diesOn := true, stop := .running, running := 5, volted := 5, armed := 5, ready := 5, stopCauses := [], flowLossSince := none,
                           throttle := if lost = 0 then g.throttle else SMap.modify g.throttle key 0 (· + lost),
                           dies := (g.dies.take 4).map (fun d => { d with pacing := 0, paceBefore := 0, preset := 0,
                                                                          stretching := none, stretchNs := 0, pacedAt := s.now }) ++
                             g.dies.drop 4 },
           clocks := { s.clocks with dies := List.replicate 4 { DieClock.start with root := rootStart (tick * s.now) (statePeriod 5) } } }

/-- The staged start is complete (R458): the dies run at F5; a STARTING module waits for its restore, one that leaves STANDBY is
ACTIVE (R616, R619). -/
def State.startComplete (s : State) : State :=
  let s1 := s.diesStart
  let s2 : State := { s1 with rails := { s1.rails with startAt := none, startStep := 0, startedRails := [] },
                              mod := { s1.mod with railsDone := true, phase := if s1.mod.mode = .starting then 3 else s1.mod.phase } }
  if s2.mod.mode = .standby then
    { s2 with mod := { s2.mod with mode := .active, since := s2.now, changes := min (s2.mod.changes + 1) 0xFFFFFFFF } }
  else s2.settleActive

/-- The start fails at a rail (R459): what it started stops by the order of R460. -/
def State.startFails (s : State) (r : Nat) : State :=
  let l := s.rails.startedRails
  let s1 : State := { s with rails := { s.rails with startAt := none, startStep := 0, startFailed := true } }
  (s1.raise .pwc FC.startTimeout (railUnit r) 0).beginStop l 4

/-- An event of the staged start goes ahead; at the second one the output of the fixed-ratio stage is checked. -/
def State.startEvent (s : State) (k frUv : Nat) (shorts : List (Fin 16 × Fin 40)) : State :=
  let rec_ := decide (s.mod.mode = .recovery)
  let s0 := if k ≠ 1 then s
    else if 12000000 ≤ frUv ∧ frUv ≤ 13000000 then s.railGood 16
    else s.setRail 16 { s.rail 16 with good := false }
  match (startNeeds rec_ k).find? (fun r => !(s0.rail r).good) with
  | some r => s0.startFails r
  | none =>
    if k = 9 ∨ (rec_ ∧ k = 4) then
      if rec_ then { s0 with rails := { s0.rails with startAt := none, startStep := 0, startedRails := [] } } else s0.startComplete
    else
      let bad := if k = 1 then shorts.filter (fun x => !railClassL x.1 && decide (x.2.val < railPhases x.1) && !(s0.rail x.1).live) else []
      let s1 := bad.foldl (fun s x =>
        (s.setRail x.1 { s.rail x.1 with mode := .stoppedFault }).raise .pwc FC.hsShort (phaseUnit x.1 x.2) 0) s0
      let s2 := (startGroup rec_ k).foldl (fun s r => s.startRail r) s1
      { s2 with rails := { s2.rails with startStep := k + 1 },
                mod := { s2.mod with phase := if s2.mod.mode = .starting then 1 else s2.mod.phase } }

/-- Die-to-die links that have put a redundant lane in place as they trained (R668, R670): dies 0 to 3, the hub 4. -/
def State.lanesRepaired (s : State) (l : List (Fin 5)) : State :=
  l.foldl (fun s n => s.raise (Source.ofDie n) FC.d2dLaneRepaired noUnit 0) s

/-- A timed point of the staged start (R458, R459, R462, R613), with the output of the fixed-ratio stage, the switch nodes found shorted and the dies whose links have repaired a lane. VCORE0 waits for FLOW_OK, and the later events move with it. -/
def execStagedStartEvent (frUv : Nat) (shorts : List (Fin 16 × Fin 40)) (repaired : List (Fin 5)) (t : Nat) (s : State) : Outcome :=
  let s := s.upTo t
  let k := s.rails.startStep
  match s.rails.startAt with
  | none => .next s
  | some a =>
    if s.now < a + startTimeUs k * rcUs ∨ s.mod.mode = .safe ∨ s.mod.mode = .parked then .next s
    else if k = 5 then
      if s.gov.flowLow then .next { s with mod := { s.mod with phase := if s.mod.mode = .starting then 2 else s.mod.phase } }
      else
        .next (({ s with rails := { s.rails with startAt := some (s.now - startTimeUs 5 * rcUs) } } : State).lanesRepaired repaired
          |>.startEvent k frUv shorts)
    else .next ((s.lanesRepaired repaired).startEvent k frUv shorts)

/-- The step of R460 that stops a rail; in STANDBY both optical rails stop 1.0 ms after VCORE (R618). -/
def State.stepOf (s : State) (r : Nat) : Nat := if s.mod.mode = .standby ∧ r = 15 then 1 else stopStep r

/-- The next step of a stop by R460, 1.0 ms after the one before. -/
def execRailStopStep (t : Nat) (s : State) : Outcome :=
  let s := s.upTo t
  match s.rails.stopNext with
  | none => .next s
  | some k =>
    if s.now < s.rails.stopAt + k * rcMs then .next s
    else
      let l := s.rails.stopOnly.filter (fun r => s.stepOf r == k)
      let s1 := (s.foldAll.stopRails l)
      let s2 : State := { s1 with rails := { s1.rails with stopNext := if k < s1.rails.stopLast then some (k + 1) else none } }
      .next (if l.any (fun r => decide (r < 4)) then s2.diesOff else s2)

/-! ### The kerf (R448, R453, R454) -/

/-- At t = 0 of a kerf a rail takes over the bank and the trim of its frame. -/
def Rail.kerf (v : Rail) (n now : Nat) : Rail :=
  let v1 := match v.change with
    | some c =>
      if c.1 ≤ n then
        { v with change := none, active := if c.2 then none else v.staging, staging := none, watchUntil := now + 100 * rcMs, badBlocks := 0 }
      else v
    | none => v
  match v1.trimPending with
  | some x => if x.1 ≤ n then { v1 with trim := x.2, trimPending := none } else v1
  | none => v1

/-- The rails at t = 0 of a kerf; CR reports the ratings of the VCORE rails (R464). -/
def State.railKerf (s : State) : State :=
  let s1 := (List.range 16).foldl (fun s r => s.setRail r ((s.rail r).kerf s.frame.number s.now)) s
  { s1 with gov := { s1.gov with rated := coreRails.map (fun r => derated r (s.rail r).failed) } }

/-! ### Commands (R469 to R472) -/

/-- `RAIL_STATE`. -/
def RailMode.number (m : RailMode) : Nat :=
  match m with
  | .off => 0 | .starting => 1 | .on => 2 | .stoppedFault => 3 | .latched => 4

def Vip.bytes (v : Vip) : Bytes := leBytes 4 v.uv ++ leBytes 4 v.ma ++ leBytes 4 v.mw

/-- The response of `REG_GET_TELEMETRY` (R470). -/
def State.railReport (s : State) (r : Nat) : Bytes :=
  let v := s.rail r
  let fr := decide (r = 16)
  let n := railPhases r
  leBytes 1 r ++ leBytes 1 (n - v.failed) ++ leBytes 1 n ++ leBytes 1 v.mode.number ++
  leBytes 2 (if fr then 0 else flags [v.lastTruncated, v.lastUndershot, !v.hotStages.isEmpty, v.active.isNone, v.change.isSome,
    decide (0 < v.failed)]) ++
  (if fr then zeros 2 else leInt 2 v.stageTempDc) ++ leBytes 4 (if fr then 0 else v.setpoint.toNat) ++ v.block.bytes ++
  v.mean1ms.bytes ++ v.mean1s.bytes ++ leBytes 4 v.peakVMin ++ leBytes 4 v.peakIMax ++ leBytes 4 v.peakPMax ++
  leBytes 4 (min ((s.now - v.peakResetAt) / rcMs) 0xFFFFFFFF) ++ leBytes 4 v.truncateCount ++ zeros 4

def regGetTelemetry : Cmd :=
  { code := 0x0401, via := .mbpMbk, lengthOk := exactly 4, changes := fun k _ => slotMbp k,
    act := fun s k b =>
      let r := rd b 0 1
      if 16 < r ∨ !zeroAt b 1 3 then .refused stRange
      else .done stOk (if slotMbp k then s.setRail r { s.rail r with peakResetDue := true } else s) (s.railReport r) }

def regSetCompensator : Cmd :=
  { code := 0x0402, via := .mbp, lengthOk := exactly 48, changes := always,
    act := fun s _ b =>
      let r := rd b 0 1
      let factory := bitAt (rd b 1 1) 0
      let bank := Bank.ofBytes ((b.drop 2).take 34)
      match s.applyFrame b 40 1 with
      | none => .refused stRange
      | some f =>
        if 15 < r ∨ 1 < rd b 1 1 ∨ !zeroAt b 36 4 ∨ (factory ∧ !zeroAt b 2 34) ∨ (!factory ∧ !bank.inRange) then .refused stRange
        else
          let v := s.rail r
          .done stOk (s.setRail r { v with staging := if factory then none else some bank, change := some (f, factory) }) (frameReply f) }

def regSetTrim : Cmd :=
  { code := 0x0403, via := .mbp, lengthOk := exactly 16, changes := always,
    act := fun s _ b =>
      let r := rd b 0 1
      let trim := (List.range 6).map (fun i => rdInt b (2 + i) 1)
      let low := if r < 4 then (List.range 6).any (fun f => decide ((vcoreFused r f : Int) + nth trim f 0 < (railLow r : Int)))
        else decide ((vhubFused : Int) + nth trim 1 0 < (railLow r : Int))
      match s.applyFrame b 8 1 with
      | none => .refused stRange
      | some f =>
        if 4 < r ∨ !zeroAt b 1 1 ∨ trim.any (fun x => decide (x < -50)) ∨
            (r = 4 ∧ [0, 2, 3, 4, 5].any (fun i => decide (nth trim i 0 ≠ 0))) ∨ low then .refused stRange
        else if trim.any (fun x => decide (0 < x)) then .refused stFuseLimit
        else
          let v := s.rail r
          .done stOk (s.setRail r { v with trimPending := some (f, trim) }) (frameReply f) }

def execRegGetTelemetry (slot : Fin 19) (t : Nat) (s : State) : Outcome := s.serve regGetTelemetry slot t
def execRegSetCompensator (slot : Fin 19) (t : Nat) (s : State) : Outcome := s.serve regSetCompensator slot t
def execRegSetTrim (slot : Fin 19) (t : Nat) (s : State) : Outcome := s.serve regSetTrim slot t

end Sys2Proof.Machine
end

