-- ==== Sys2Proof/Machine/GovOps.lean ====
section
/-! DEFINITION. The governor's quantities: clock rates, stretch time, throttle counts, predictions, the choice of the frequency state,
limits, peaks, temperatures (R473 to R503, R508 to R510, R656, R661). Powers in W, currents in A, times in root cycles. -/

namespace Sys2Proof.Machine

/-! ### Clock rates and lengthened time (R477, R482, R483, R656, R661) -/

/-- Multiplier of the distributed reference at a state: 0.1 GHz units of the root (R656). -/
def stateMult (f : Nat) : Nat := nth [80, 72, 66, 60, 48, 36] f 36

/-- The state that a die's root PLL holds; the reserve clock is that of F5 (R656, R662). -/
def DieClock.rootState (d : DieClock) : Nat :=
  if d.reserve then 5 else ((if d.running = 0 then d.pll0 else d.pll1).getD 5)

def State.die (s : State) (n : Nat) : DieGov := s.gov.dies.getD n DieGov.reset
/-- The governor's part of a die changes. -/
def State.setDie (s : State) (n : Nat) (d : DieGov) : State := { s with gov := { s.gov with dies := setNth s.gov.dies n d } }

/-- A die's pacing count becomes `m`: its root follows at the next group (R477). -/
def State.setPacing (s : State) (n m : Nat) : State :=
  let d := s.die n
  let s1 := s.setDie n { d with pacing := m }
  if m = d.pacing then s1 else s1.changeRoot n (fun c => c.setPace (tick * s.now) m)

/-- The part of a span of `t` root cycles that lengthened cycles add, against the same cycles at the state run (R483, R661): droop
stretch doubles each cycle, pacing lengthens m of 64. -/
def lengthened (t : Nat) (root run m : Nat) (stretch : Bool) : Rat :=
  let fx : Rat := stateMult root
  let fs : Rat := stateMult run
  max 0 ((t : Rat) * (1 - (if stretch then fx / 2 else fx * 64 / (64 + m)) / fs))

/-- Whether lengthened time belongs to the frame's stretch time: from the end of the kerf to local done (R483). -/
def State.stretchCounts (s : State) : Bool := s.frame.anyKerf && !s.frame.kerf.active && !s.frame.ownDone

/-- A die's clock account is brought up to now: the time since the last account at its pacing count and stretch. -/
def State.settleClock (s : State) (n : Nat) : State :=
  let d := s.die n
  let t := s.now - d.pacedAt
  let on := s.diesClocked
  let root := (s.dieClock n).rootState
  let x := if on then lengthened t root s.gov.running d.pacing d.stretching.isSome else 0
  let ns := x * 5 / 36
  let s1 := s.setDie n { d with pacedAt := s.now, stretchNs := if s.stretchCounts then d.stretchNs + ns else d.stretchNs }
  if ¬ on ∨ t = 0 then s1
  else s1.bumpWhole ((if d.stretching.isSome then 0xABC else 0xABD) + 12 * n) d.stretchNs (d.stretchNs + ns)

/-- The accounts of the four compute dies, and the time at the state that runs (R675). -/
def State.settleClocks (s : State) : State :=
  let s1 := coreRails.foldl (fun s n => s.settleClock n) s
  let us := (s.now - s.gov.stateSince) / rcUs
  let s2 := if s1.diesClocked then coreRails.foldl (fun s n => s.bump (0xABC + 12 * n + 6 + s.gov.running) us) s1 else s1
  { s2 with gov := { s2.gov with stateSince := s2.now - (s2.now - s2.gov.stateSince) % rcUs } }

/-! ### F0 time (R493, R494) -/

/-- The pacing count in effect: pacing is suspended in a kerf (R479). -/
def State.pacingNow (s : State) (n : Nat) : Nat := if s.frame.kerf.active then 0 else (s.die n).pacing

/-- The dies run at F0 with m below 8: a die that does so counts for all (DEDUCED). -/
def State.atF0 (s : State) : Bool :=
  s.diesClocked && decide (s.gov.running = 0) && coreRails.any (fun n => decide (s.pacingNow n < 8))

/-- The interval at F0 opens or closes. -/
def State.settleF0 (s : State) : State :=
  let g := s.gov
  match g.f0Since, s.atF0 with
  | none, true => { s with gov := { g with f0Since := some s.now } }
  | some a, false =>
    { s with gov := { g with f0Since := none,
                             f0Past := ((a, s.now) :: g.f0Past).filter (fun x => decide (s.now < x.2 + 60 * rcSec)) } }
  | _, _ => s

/-- Time at F0 within the 60 s that end at `t`, the interval that runs going on until then. -/
def State.f0Time (s : State) (t : Nat) : Nat :=
  let lo := t - 60 * rcSec
  let part := fun (a b : Nat) => min b t - max a lo
  (s.gov.f0Past.map (fun x => part x.1 x.2)).foldl (· + ·) 0 + s.gov.f0Since.elim 0 (fun a => part a t)

/-! ### Throttle reasons (R509, R510) -/

def rsClamp : Nat := 1
def rsQuota : Nat := 2
def rsRailCurrent : Nat := 3
def rsDroop : Nat := 4
def rsThermal : Nat := 5
def rsPeakTime : Nat := 6
def rsFlowLoss : Nat := 10
def rsVrAlert : Nat := 11
def rsFixedFrequency : Nat := 12

/-- Root cycles added to a reason of scope 0, the module, or p + 1. -/
def State.throttleAdd (s : State) (scope reason rc : Nat) : State :=
  { s with gov := { s.gov with throttle := SMap.modify s.gov.throttle (16 * scope + reason) 0 (· + rc) } }

/-- Partitions that own an array or a cluster on a die (R478, R509). -/
def State.partitionsOnDie (s : State) (n : Nat) : List Nat :=
  s.host.enabled.filter (fun p => bitsOf (rd (s.record p) 0 2) (4 * n) 4 != 0 || rd (s.record p) (32 + 8 * n) 8 != 0)

/-- Partitions that hold a running job. -/
def State.partitionsRunning (s : State) : List Nat := allPartitions.filter (fun p => s.jobRuns p)

/-- A microsecond of pacing on a die counts for a reason, once in each scope however many dies pace in it (DEDUCED). -/
def State.paceCount (s : State) (reason : Nat) (scopes : List Nat) : State :=
  let us := s.now / rcUs
  let s1 := scopes.foldl (fun s k =>
    let key := 16 * k + reason
    if SMap.get s.gov.pacedAtUs key 0 = us + 1 then s
    else { s.throttleAdd k reason rcUs with gov := { (s.throttleAdd k reason rcUs).gov with
             pacedAtUs := SMap.set s.gov.pacedAtUs key (us + 1) 0 } }) s
  { s1 with gov := { s1.gov with pacedReasons := if s1.gov.pacedReasons.contains reason then s1.gov.pacedReasons
                                                 else reason :: s1.gov.pacedReasons } }

/-- Rank of a reason where caps tie (R510); lower comes first. -/
def reasonRank (r : Nat) : Nat :=
  ([10, 11, 5, 3, 6, 8, 14, 7, 9, 13, 1, 2, 4, 12].findIdx? (· == r)).getD 99

/-- The primary reason among reasons with their caps (R510). -/
def primaryOf (l : List (Nat × Nat)) : Nat :=
  (l.foldl (fun (b : Option (Nat × Nat)) x =>
    match b with
    | none => some x
    | some y => if y.2 < x.2 ∨ (y.2 = x.2 ∧ reasonRank x.1 < reasonRank y.1) then some x else some y) none).elim 0 (·.1)

/-! ### Predictions (R484 to R487) -/

/-- k_F in thousandths, as fused (R486, R549). -/
def scaleMilli (f : Nat) : Nat := leNat (fuseBytes (0x192 + 2 * f) 2)
def scaleOf (f : Nat) : Rat := (scaleMilli f : Rat) / 1000

/-- P_rest in W (R473). -/
def State.restW (s : State) : Rat := (s.gov.restMw : Rat) / 1000

/-- 1.3 x power over the setpoint at a state. -/
def State.peakOf (s : State) (n f : Nat) (w : Rat) : Rat :=
  let uv := (s.rail n).coreUv n f
  if uv ≤ 0 then 0 else 13 / 10 * w * 1000000 / (uv : Rat)

/-- The largest planned power of a class plan at a state, an F1 plan scaled by k_F (R486). -/
def ClassPlan.largest (c : ClassPlan) (f : Nat) : Rat :=
  (c.plan.segments.map (fun g => if c.plan.perState then (g.powerW.getD f 0 : Rat) else (g.powerW.getD 1 0 : Rat) * scaleOf f)).foldl
    max 0

/-- The 1 ms mean of P_M in W. -/
def State.meanPowerW (s : State) : Rat := meanRat (s.gov.power.map (fun x => (x : Rat))) 0 / 1000

/-- Mean powers and peak currents of the four VCORE rails for a module class at a state, from the entry or the first source that has
them; `n` is how many frames ahead the frame lies (R486). -/
def State.predict (s : State) (cls n f : Nat) : List Rat × List Rat :=
  match SMap.get s.gov.entries (8 * cls + f) none with
  | some e => (e.power, e.current)
  | none =>
    let all := fun (w : Rat) => (List.replicate 4 w, coreRails.map (fun k => s.peakOf k f w))
    let hint := (s.planOf cls).elim 0 (·.hintPackageW)
    if hint ≠ 0 then all ((hint : Rat) * scaleOf f / 4)
    else
      let plans := allPartitions.filterMap (fun p => (s.workAhead p n).cls.bind s.planOf)
      let plan : Rat := if plans.isEmpty then s.meanPowerW else (plans.map (fun c => c.largest f)).foldl (· + ·) 0
      all ((plan - s.restW) / (109 / 100 * 4))

/-- Sum of a list. -/
def sumRat (l : List Rat) : Rat := l.foldl (· + ·) 0

/-- The module power that a prediction gives. -/
def State.totalOf (s : State) (p : List Rat) : Rat := 109 / 100 * sumRat p + s.restW

/-! ### Limits (R474) -/

/-- I_lim,n in A. -/
def State.railLimit (s : State) (n : Nat) : Rat := min ((nth s.gov.settings.railCurrent n 1000 : Nat) : Rat) ((nth s.gov.rated n 1000 : Nat) : Rat)

/-- The limits of the frame at the selected state, from the values of t = 0. -/
def State.computeLimits (s : State) (f : Nat) : GovLimits :=
  let g := s.gov
  let sup := s.shim.supply
  let m := min g.settings.clampM (min sup 4000)
  let p := (s.predict g.moduleClass 0 f).1
  let tot := sumRat p
  let share := fun (n : Nat) => if tot = 0 then Config.evenShare n else nth p n 0 / tot
  let rest := fun (n : Nat) => max 50 (share n * ((m : Rat) - s.restW) / (109 / 100))
  let clamp := fun (n : Nat) => ((nth g.settings.clampDie n 900 : Nat) : Rat)
  { module := m, dies := coreRails.map (fun n => min (clamp n) (rest n)), railA := coreRails.map (fun n => s.railLimit n),
    parts := allPartitions.foldl (fun l k =>
      let c := SMap.get g.settings.clampPart k 0
      let q := SMap.get g.settings.quota k 0
      let v : Rat := if q ≠ 0 ∧ g.quotaActive.contains k then
          (if c = 0 then (q : Rat) * 9 / 10 else min (c : Rat) ((q : Rat) * 9 / 10)) else (c : Rat)
      SMap.set l k v 0) [],
    supply := sup, supplyReason := s.shim.supplyReason,
    dieReasons := coreRails.map (fun n =>
      if clamp n ≤ rest n ∨ min g.settings.clampM 4000 ≤ sup then rsClamp else s.shim.supplyReason) }

/-! ### Choosing the state (R489 to R493) -/

/-- The fastest state at which a limit is met, else F5. -/
def fastest (ok : Nat → Bool) : Nat := ((List.range 6).find? ok).getD 5

/-- Hottest node of a die; T_d (R499), in 0.1 degree. -/
def DieGov.hot (d : DieGov) : Rat := d.nodes.foldl max (d.nodes.getD 0 0)
def DieGov.temp (d : DieGov) : Rat := if d.diodeValid then max (d.diodeGood : Rat) d.hot else d.hot + 50

/-- A throttle of the die holds, by its own temperature or by a stack (R500, R501). -/
def DieGov.throttled (d : DieGov) : Bool := d.throttle || d.stackThrottle

/-- A throttle of a compute die holds. -/
def State.anyThrottle (s : State) : Bool := coreRails.any (fun n => (s.die n).throttled)

/-- F0 is admitted at a kerf at `t` for a frame of `len` microseconds (R493 items 1, 2 and 4). -/
def State.peakOk (s : State) (t : Nat) (lenUs : Nat) : Bool :=
  (s.gov.dies.all (fun d => decide (d.temp < (1050 : Rat)))) && decide (s.gov.thermalCap = 0) && !s.anyThrottle &&
    decide (s.f0Time t + lenUs * rcUs ≤ 6 * rcSec)

/-- The caps of R489 for a class `n` frames ahead whose kerf is at `t`: reason and cap. -/
def State.caps (s : State) (cls n t : Nat) : List (Nat × Nat) :=
  let g := s.gov
  let len := match s.frame.modes.cadence with
    | .fixed => s.frame.modes.frameLengthUs
    | .barrier => (s.longestAhead n).getD 0
  let p := fun (f : Nat) => s.predict cls n f
  let clampM := min g.settings.clampM 4000
  [(rsClamp, fastest (fun f => decide (s.totalOf (p f).1 ≤ (clampM : Rat)) &&
      coreRails.all (fun k => decide (nth (p f).1 k 0 ≤ ((nth g.settings.clampDie k 900 : Nat) : Rat))))),
   (s.shim.supplyReason, fastest (fun f => decide (s.totalOf (p f).1 ≤ (s.shim.supply : Rat)))),
   (rsRailCurrent, fastest (fun f => coreRails.all (fun k => decide (nth (p f).2 k 0 ≤ s.railLimit k)))),
   (rsPeakTime, if s.peakOk t len then 0 else 1),
   (s.shim.f0Reason, if s.shim.f0Permitted then 0 else 1),
   (rsPeakTime, if g.boostBlocked then 1 else 0),
   (rsThermal, g.thermalCap),
   (rsVrAlert, g.vrCap)]

/-- U (R489): F0 where the module class has `BOOST_USEFUL`. -/
def State.useful (s : State) (cls : Nat) : Nat := if (s.planOf cls).elim false (fun c => bitAt c.hintFlags 0) then 0 else 1

/-- The slowest of some caps. -/
def slowest (u : Nat) (l : List (Nat × Nat)) : Nat := l.foldl (fun m x => max m x.2) u

/-- The slowest state whose body time equals that at `f` (R490). -/
def ClassPlan.stall (c : ClassPlan) (f : Nat) : Nat :=
  (List.range 6).foldl (fun b g => if f ≤ g ∧ c.bodyTime.getD g 0 = c.bodyTime.getD f 0 then max b g else b) f

/-- The preset of R491: the smallest m that meets clamps, supply and rail current with predictions scaled by 64 / (64 + m). -/
def State.presetOf (s : State) (cls n f : Nat) : Nat :=
  let g := s.gov
  let p := s.predict cls n f
  let clampM := min (min g.settings.clampM 4000) s.shim.supply
  ((List.range 65).find? (fun (m : Nat) =>
    let k : Rat := 64 / (64 + (m : Rat))
    decide (109 / 100 * sumRat p.1 * k + s.restW ≤ (clampM : Rat)) &&
      coreRails.all (fun i => decide (nth p.1 i 0 * k ≤ ((nth g.settings.clampDie i 900 : Nat) : Rat)) &&
        decide (nth p.2 i 0 * k ≤ s.railLimit i)))).getD 64

/-- The state selected for a class `n` frames ahead whose kerf is at `t`, with the reasons that count and their caps (R489 to R491,
R509): under FIXED_FREQUENCY heat and the alert count against `FIXED_STATE` (DEDUCED). -/
def State.selectState (s : State) (cls n t : Nat) : Nat × List (Nat × Nat) :=
  let caps := s.caps cls n t
  let u := s.useful cls
  let open_ := slowest u caps
  match s.frame.modes.clampMode with
  | .opportunistic =>
    let st := match s.planOf cls with
      | some c => if bitAt c.hintFlags 1 then c.stall open_ else open_
      | none => open_
    (st, caps.filter (fun x => decide (u < x.2)))
  | .fixedFrequency =>
    let fs := max 1 s.frame.modes.fixedState
    let st := max fs (max s.gov.thermalCap s.gov.vrCap)
    let counted := [(rsThermal, s.gov.thermalCap), (rsVrAlert, s.gov.vrCap)].filter (fun x => decide (fs < x.2))
    (st, if open_ < fs then counted ++ [(rsFixedFrequency, fs)] else counted)

/-- 60 s mean of P_M in W (R495). -/
def State.mean60 (s : State) : Rat := meanRat (s.gov.powerMs.map (fun x => (x : Rat))) 0 / 1000

/-! ### Pacing floors (R480, R660) -/

/-- m_floor of a die. -/
def State.paceFloor (s : State) (n : Nat) : Nat :=
  let d := s.die n
  let run := s.gov.running
  let heat := if d.throttled then (if 1 ≤ run ∧ run ≤ 4 then 16 else 32) else 0
  let stop := match s.gov.stop with
    | .stopping _ => 64
    | _ => 0
  max (max (if s.gov.f0Floor then 8 else 0) heat) (max stop (s.dieClock n).emulation)

/-! ### Learning (R487) -/

/-- One value of an entry moved an eighth of the way, or taken over on the first frame. -/
def eighth (old new_ : Rat) : Rat := old + (new_ - old) / 8

/-- The frame that ends teaches the entry of its class at the state it ran, unless it is spoiled. -/
def State.learnFrame (s : State) (bodyUs : Nat) : State :=
  let g := s.gov
  let l := g.learning
  let paced := l.pacedUs.any (fun x => decide (bodyUs < 10 * x))
  let s0 : State := { s with gov := { g with learning := FrameLearning.none } }
  if l.spoiled ∨ paced ∨ l.blocks = 0 ∨ !s.diesClocked then s0
  else
    let key := 8 * g.moduleClass + g.running
    let p := coreRails.map (fun n => ((nth l.powerSum n 0 : Nat) : Rat) / (l.blocks : Rat) / 1000)
    let i := coreRails.map (fun n => ((nth l.peak n 0 : Nat) : Rat) / 1000)
    let e : Learned := match SMap.get g.entries key none with
      | none => { power := p, current := i, count := 1 }
      | some e => { power := List.zipWith eighth e.power p,
                    current := List.zipWith (fun a b => if a < b then b else eighth a b) e.current i, count := min 255 (e.count + 1) }
    { s0 with gov := { s0.gov with entries := SMap.set g.entries key (some e) none } }

/-- The entries of a jig's class range are cleared at its start frame (R485). -/
def State.clearEntries (s : State) (base count : Nat) : State :=
  { s with gov := { s.gov with entries := SMap.drop s.gov.entries (fun k => decide (8 * base ≤ k) && decide (k < 8 * (base + count))) } }

end Sys2Proof.Machine
end

