-- ==== Sys2Proof/Machine/GovCode.lean ====
section
/-! DEFINITION. The governor's events and mailbox commands (R473 to R522). -/

namespace Sys2Proof.Machine

/-! ### Pacing (R478 to R480) -/

/-- P_n in mW: the rail's current times its setpoint (R473). -/
def State.paceMw (s : State) (n ma : Nat) : Nat := ma * (s.rail n).setpoint.toNat / 1000000

/-- The quantities that pace a die against their limits, in mW and mA: reason, value, limit, scopes that count it (R478, R509). -/
def State.paceTerms (s : State) (n ma : Nat) (partMw : List (Fin 16 × Nat)) : List (Nat × Rat × Rat × List Nat) :=
  let l := s.gov.limits
  let here := 0 :: (s.partitionsOnDie n).map (· + 1)
  [(nth l.dieReasons n rsClamp, (s.paceMw n ma : Rat), nth l.dies n 900 * 1000, here),
   (rsRailCurrent, (ma : Rat), nth l.railA n 1000 * 1000, here)] ++
  (partMw.filter (fun x => (s.partitionsOnDie n).contains x.1.val && decide (SMap.get l.parts x.1 0 ≠ 0))).map (fun x =>
    (if s.gov.quotaActive.contains x.1.val then rsQuota else rsClamp, (x.2 : Rat), SMap.get l.parts x.1 0 * 1000, [0, x.1.val + 1]))

/-- Pacing of a die adjusted at a 1 microsecond update. -/
def State.pace (s : State) (n ma : Nat) (partMw : List (Fin 16 × Nat)) : State :=
  let d := s.die n
  let floor := s.paceFloor n
  let terms := s.paceTerms n ma partMw
  let above := terms.filter (fun x => decide (x.2.2.1 < x.2.1))
  let near := terms.filter (fun x => decide (97 * x.2.2.1 < 100 * x.2.1))
  let m := if !above.isEmpty then min 64 (d.pacing + 4) else if near.isEmpty then d.pacing - 1 else d.pacing
  let m1 := max floor m
  let binding := if !above.isEmpty then above else if floor < m1 then near else []
  let l := s.gov.learning
  let s1 := (s.setDie n { d with powerMw := s.paceMw n ma, currentMa := ma }).setPacing n m1
  let s2 : State := { s1 with gov := { s1.gov with learning := { l with
    peak := setNth l.peak n (max (nth l.peak n 0) ma),
    pacedUs := if floor < m1 then setNth l.pacedUs n (nth l.pacedUs n 0 + 1) else l.pacedUs } } }
  let s3 := binding.foldl (fun s x => s.paceCount x.1 x.2.2.2) s2
  let here := 0 :: (s.partitionsOnDie n).map (· + 1)
  let s4 := if d.throttled then s3.paceCount rsThermal here else s3
  let s5 := if s.gov.f0Floor then s4.paceCount rsPeakTime here else s4
  ((s5.peak (0xAC0 + 12 * n) (s.paceMw n ma / 1000)).peak (0xAC1 + 12 * n) (ma / 1000))

/-- A 1 microsecond update of a slice, from the end of a kerf to the next (R478): the 10 microsecond mean current of its VCORE rail, and
the power of each partition over the last 10 microseconds. The updates fall on RT edges that are multiples of 100 (R473). -/
def execPacingUpdate (n : Fin 4) (ma : Nat) (partMw : List (Fin 16 × Nat)) (t : Nat) (s : State) : Outcome :=
  let s := s.upTo t
  if s.diesClocked ∧ !s.frame.kerf.active ∧ s.onRtMultiple 100 then .next (((s.settleClock n).pace n ma partMw).settleF0) else .next s

/-- 6.0 s of F0 stand in the window inside a frame (R494): floor 8 on every die until the next kerf. -/
def execF0TimeExhausted (t : Nat) (s : State) : Outcome :=
  let s := s.upTo t
  if s.gov.running = 0 ∧ s.diesClocked ∧ !s.frame.kerf.active ∧ 6 * rcSec ≤ s.f0Time s.now ∧ !s.gov.f0Floor then
    .next { s with gov := { s.gov with f0Floor := true, pacedReasons := if s.gov.pacedReasons.contains rsPeakTime then s.gov.pacedReasons
                                                                        else rsPeakTime :: s.gov.pacedReasons } }
  else .next s

/-! ### Droop (R481, R482) -/

/-- The fused droop threshold of a die in half percent, and the one in force (R481). -/
def droopFused (n : Nat) : Nat := (fuseByte (0x18C + n)).toNat
def State.droop (s : State) (n : Nat) : Nat := (nth s.gov.settings.droop n none).getD (droopFused n)

/-- The sense voltage stands below the threshold (1 - d) x setpoint (R481), or above the recovery threshold (1 - d + 0.5 %) x setpoint
(R482). -/
def State.droops (s : State) (n uv : Nat) : Bool := decide (200 * (uv : Int) < (200 - (s.droop n : Int)) * (s.rail n).setpoint)
def State.recovers (s : State) (n uv : Nat) : Bool := decide ((201 - (s.droop n : Int)) * (s.rail n).setpoint < 200 * (uv : Int))

/-- How long a forced switch waits for the stretch-busy line: 900 ns (R508). -/
def vrWait : Nat := 6480

/-- The sense voltage of a die, `uv`, falls below its threshold: its root is stretched, from the first to the fifth root edge on (which one is a
free value: R482 bounds it alone). -/
def execDroopCrossing (n : Fin 4) (uv t : Nat) (s : State) : Outcome :=
  let s := s.upTo t
  let d := s.die n
  if s.diesClocked ∧ d.stretching.isNone ∧ s.droops n uv then
    let x := (s.settleClock n).draw 7
    let s1 := x.2.changeRoot n (fun c => c.slowDown (tick * s.now) (x.1 % 5 + 1))
    .next (s1.setDie n { s1.die n with stretching := some s.now })
  else .next s

/-- The stretch-busy line has fallen while a forced switch to the reserve clock still waits for it: it is made now (R508). -/
def State.endForcedWait (s : State) : State :=
  if s.gov.vrAlert ∧ s.now < s.gov.vrAlertSince + vrWait ∧ coreRails.all (fun n => (s.die n).stretching.isNone) then
    s.switchRoots (tick * s.now) false
  else s

/-- 32 PLL periods above the recovery threshold, `uv` being the lowest voltage in them: the stretch ends, and its extra time counts as DROOP
(R482, R509). -/
def execStretchEnd (n : Fin 4) (uv t : Nat) (s : State) : Outcome :=
  let s := s.upTo t
  let d := s.die n
  match d.stretching with
  | none => .next s
  | some a =>
    if !s.recovers n uv ∨ tick * (s.now - a) < 32 * (s.dieClock n).heldPeriod then .next s else
    let s1 := (s.settleClock n).changeRoot n (fun c => c.speedUp (tick * s.now))
    let extra := (s.now - a) / 2
    let s2 := (0 :: (s.partitionsOnDie n).map (· + 1)).foldl (fun s k => s.throttleAdd k rsDroop extra) s1
    let g := s2.gov
    let s3 := ({ s2 with gov := { g with pacedReasons := if g.pacedReasons.contains rsDroop then g.pacedReasons
                                                         else rsDroop :: g.pacedReasons } } : State).setDie n
      { s2.die n with stretching := none }
    .next (s3.endForcedWait)

/-! ### Heat (R497 to R503) -/

/-- The stop at the shutdown threshold (R503): orderly with 1 ms or more to 125 degrees, else immediate. -/
def State.shutdownStop (s : State) (n : Nat) : State :=
  let d := s.die n
  let rise := d.hot - d.hottest.getD 20 (d.hottest.getLast?.getD d.hot)
  if rise ≤ 0 ∨ rise ≤ 1250 - d.temp then s.orderlyStop stopThermal
  else (s.immediateStop stopThermal).raise .pwc FC.stopImmediate n 0

/-- T_d of a die compared with the thresholds (R501); 5 K lower while its diode is invalid. -/
def State.heatThresholds (s : State) (n : Nat) : State :=
  let d := s.die n
  let t := d.temp
  let o : Rat := if d.diodeValid then 0 else 50
  let detail := (units t % 65536).toNat
  let w := decide (950 - o ≤ t) || (d.warn && decide (900 - o ≤ t))
  let th := decide (1050 - o ≤ t) || (d.throttle && decide (1000 - o ≤ t))
  let sd := decide (1180 - o ≤ t) || (d.shutdown && !(decide (t < 1030 - o) && s.classQuiet 1))
  let s1 := s.setDie n { d with warn := w, throttle := th, shutdown := sd,
                                fast := if 870 ≤ t then true else if t < 850 then false else d.fast }
  let s2 := if w && !d.warn then s1.raiseCond .pwc FC.dieWarn n detail else s1
  let s3 := if th && !d.throttle then s2.raiseCond .pwc FC.dieThrottle n detail else s2
  if sd && !d.shutdown then (s3.raiseCond .pwc FC.dieShutdown n detail).shutdownStop n else s3

/-- A diode sample in 0.1 degree (R497 to R499). The first after cold start sets the model, whose starting point the manual does not
give (DESIGN CHOICE). -/
def execDiodeSample (n : Fin 5) (v : Int) (t : Nat) (s : State) : Outcome :=
  let s := s.upTo t
  let d0 := s.die n
  let inRange := decide (-400 ≤ v) && decide (v ≤ 1500)
  let d1 := if !d0.sampled && inRange then { d0 with sampled := true, nodes := List.replicate 64 (v : Rat), diodeGood := v } else d0
  let diff := (v : Rat) - d1.nodes.getD 63 0
  let good := inRange && decide (absRat diff ≤ 150)
  let apart := decide (80 ≤ absRat diff) && decide (absRat diff ≤ 150)
  let since := if apart then some (d1.divergedSince.getD s.now) else none
  let lasts := since.elim false (fun a => decide (a + rcSec ≤ s.now))
  let run := if good then d1.validRun + 1 else 0
  let d2 := { d1 with diode := v, diodeGood := if good then v else d1.diodeGood, validRun := run,
                      nodes := if good then d1.nodes.map (fun x => x + diff / 4) else d1.nodes,
                      diodeValid := if good then d1.diodeValid || decide (1000 ≤ run) else false,
                      divergedSince := since, divergedRaised := apart && (d1.divergedRaised || lasts) }
  let s1 := s.setDie n d2
  let s2 := if good then s1
    else
      let s2 := if n.val < 4 then s1.bump (0xABE + 12 * n) 1 else s1
      if d1.diodeValid then s2.raiseCond .pwc FC.diodeFault n (v % 65536).toNat else s2
  let s3 := if lasts && !d1.divergedRaised then s2.raise .pwc FC.modelDiverged n 0 else s2
  let s4 := if n.val < 4 then s3.peak (0xABF + 12 * n) (units (s3.die n).temp).toNat else s3
  .next (s4.heatThresholds n)

/-- The coolant temperature that the model uses (R498, R645). -/
def State.coolantUsed (s : State) : Int := if s.fc.inputOutOfRange.contains 14 then 450 else s.gov.coolant

/-- One step of 50 microseconds of a node (R498), from the temperatures at its start. -/
def nodeStep (n i : Nat) (temps : List Rat) (heatUj : Rat) (coolant : Int) : Rat :=
  let ti := temps.getD i 0
  let flow := (List.range 64).foldl (fun a j => a + Config.conductance n i j * (temps.getD j 0 - ti)) 0
  let w := flow + Config.coolantConductance n i * ((coolant : Rat) - ti)
  ti + (heatUj / 100000 + w / 20000) / Config.heatCapacity n i

/-- A die's model advances. -/
def State.heatDie (s : State) (n : Nat) (heat : List Rat) : State :=
  let d := s.die n
  let nodes := (List.range 64).map (fun i => nodeStep n i d.nodes (heat.getD i 0) s.coolantUsed)
  let d1 := { d with nodes := nodes, heat := [] }
  let s1 := s.setDie n { d1 with hottest := (d1.hot :: d1.hottest).take 21 }
  let s2 := if n < 4 then s1.peak (0xABF + 12 * n) (units (s1.die n).temp).toNat else s1
  s2.heatThresholds n

/-- The 50 microsecond update of the thermal models (R498), with the energy in microjoule given to each node of HD in the step. -/
def execThermalModelUpdate (hubHeat : List Nat) (t : Nat) (s : State) : Outcome :=
  let s := s.upTo t
  .next ((List.range 5).foldl (fun s n =>
    s.heatDie n (if n = 4 then hubHeat.map (fun x => (x : Rat)) else (s.die n).heat)) s)

/-- A Tier 1 stack's temperature (R500). -/
def execStackTempRead (k : Fin 16) (v : Int) (t : Nat) (s : State) : Outcome :=
  let s := s.upTo t
  let g := s.gov
  let n := k.val / 4
  let temps := setNth g.stackTemps k v
  let warm := if 1000 ≤ v then (if g.stackWarm.contains k.val then g.stackWarm else k.val :: g.stackWarm)
    else if v < 950 then g.stackWarm.filter (· != k.val) else g.stackWarm
  let cool := (List.range 4).all (fun i => decide (temps.getD (4 * n + i) 0 < 950))
  let s1 : State := { s with gov := { g with stackTemps := temps, stackWarm := warm } }
  let d := s1.die n
  let s2 := s1.setDie n { d with stackThrottle := if 1000 ≤ v then true else if cool then false else d.stackThrottle }
  if 1000 ≤ v ∧ !g.stackWarm.contains k.val then .next (s2.raiseCond .pwc FC.stackWarm n (v % 65536).toNat) else .next s2

/-- The coolant inlet temperature (R500, R645 input 14): the mean of the last four samples. -/
def execCoolantRead (v : Int) (t : Nat) (s : State) : Outcome :=
  let s := s.upTo t
  let g := s.gov
  let l := (v :: g.coolantSamples).take 4
  let m := l.foldl (fun (a b : Int) => a + b) 0 / (l.length : Int)
  let bad := decide (m < -100) || decide (800 < m)
  let was := s.fc.inputOutOfRange.contains 14
  let hot := decide (450 < m) && !bad
  let since := if hot then some (g.coolantHotSince.getD s.now) else none
  let lasts := since.elim false (fun a => decide (a + rcSec ≤ s.now))
  let s1 : State := { s with
    gov := { g with coolant := m, coolantSamples := l, coolantHotSince := since, coolantRaised := hot && (g.coolantRaised || lasts) },
    fc := { s.fc with inputOutOfRange := if bad then (if was then s.fc.inputOutOfRange else 14 :: s.fc.inputOutOfRange)
                                         else s.fc.inputOutOfRange.filter (· != 14) } }
  let s2 := if bad && !was then s1.raiseCond .pwc FC.inputOutOfRange noUnit 14 else s1
  .next (if lasts && !g.coolantRaised then s2.raiseCond .pwc FC.coolantHot noUnit (m % 65536).toNat else s2)

/-! ### Stops and restart (R504 to R507) -/

/-- The clocks of the compute dies stop (R504): every issued transfer has completed, or 500 microseconds have passed and what no tier
has taken is lost. -/
def execOrderlyStopClocks (t : Nat) (s : State) : Outcome :=
  let s := s.upTo t
  match s.gov.stop with
  | .stopping a =>
    let drained := s.qf.movers.all (fun kv => kv.2.active.isEmpty)
    if drained ∨ a + 500 * rcUs ≤ s.now then
      let s1 := (s.benchNow.settleClocks).foldAll.rootsStop
      .next ({ s1 with gov := { s1.gov with stop := .clocksOff s.now },
                       qf := { s1.qf with movers := s1.qf.movers.map (fun kv => (kv.1, { kv.2 with active := [] })) } } : State).settleF0
    else .next s
  | _ => .next s

/-- 1 microsecond later VCORE0 to VCORE3 stop, and bench is lost. -/
def execOrderlyStopRails (t : Nat) (s : State) : Outcome :=
  let s := s.upTo t
  match s.gov.stop with
  | .clocksOff a => if a + rcUs ≤ s.now then .next (((s.foldAll.stopRails coreRails).diesOff).pauseStart) else .next s
  | _ => .next s

/-- FLOW_OK has been low for 200 microseconds (R506, R526). While no die runs or starts there is nothing to stop and no fault (DEDUCED). -/
def execFlowLoss (t : Nat) (s : State) : Outcome :=
  let s := s.onEdge t 1
  let s1 : State := { s with gov := { s.gov with flowLow := true }, pins := { s.pins with flowOk := false } }
  if s.diesClocked ∨ coreRails.any (fun n => (s.rail n).live) then
    let s2 : State := { s1 with gov := { s1.gov with flowLossSince := some (s1.gov.flowLossSince.getD s.now) } }
    .next ((s2.raiseCond .pwc FC.flowLoss noUnit 0).orderlyStop stopFlow)
  else .next s1

/-- FLOW_OK has been high for 1.0 s (R507). -/
def execFlowRestored (t : Nat) (s : State) : Outcome :=
  let s := s.onEdge t 1
  .next { s with gov := { s.gov with flowLow := false, stopCauses := s.gov.stopCauses.filter (· != stopFlow) },
                 pins := { s.pins with flowOk := true } }

/-- The highest level among the records in class slots (R529). -/
def State.levelInForce (s : State) : Nat :=
  s.fc.slots.foldl (fun m kv => kv.2.recs.foldl (fun m r => max m r.level) m) 0

/-- What stopped the dies has gone (R507). -/
def State.stopOver (s : State) : Bool :=
  s.levelInForce < 4 && s.fc.raised.all (fun r => decide (baseLevel r.msg.code < 4)) && !s.gov.flowLow &&
    (!s.gov.stopCauses.contains stopThermal || s.gov.dies.all (fun d => decide (d.temp < (1030 : Rat)) && !d.shutdown))

/-- At the first kerf at which the cause is gone and the reaction acknowledged, the dies restart from the VCORE0 event (R507, R624). -/
def execDieRestart (t : Nat) (s : State) : Outcome :=
  let s := s.upTo t
  if s.mod.mode = .active ∧ s.gov.stop = .stopped ∧ s.rails.startAt.isNone ∧ s.rails.stopNext.isNone ∧ s.frame.kerf.active ∧ s.stopOver then
    .next { s with rails := { s.rails with startAt := some (s.now - startTimeUs 5 * rcUs), startStep := 5, startedRails := [],
                                           startFailed := false } }
  else .next s

/-! ### VR_ALERT_N (R508, R662) -/

/-- VR_ALERT_N is asserted: every compute die runs on the reserve clock, its root from now, or while a die stretches from 900 ns on, unless
the stretch ends before (R508). A switch that the kerf still had due is not made (DEDUCED). -/
def execVrAlertNAssert (t : Nat) (s : State) : Outcome :=
  let s := s.onEdge t 1
  if s.gov.vrAlert then .next s
  else
    let s1 := s.settleClocks
    let g := s1.gov
    let busy := coreRails.any (fun n => (s.die n).stretching.isSome)
    .next ((({ s1 with
      frame := { s1.frame with kerf := { s1.frame.kerf with switchDue := false } },
      gov := { g with vrAlert := true, vrAlertSince := s.now, vrHold := true, vrCap := 5, running := if s.diesClocked then 5 else g.running,
                      learning := { g.learning with spoiled := true } },
      shim := { s1.shim with noFeedForward := true },
      clocks := { s1.clocks with dies := s1.clocks.dies.map (fun d => { d with reserve := true }) } } : State).switchRoots
      (tick * (if busy then s.now + vrWait else s.now)) busy).settleF0)

/-- It is released: the time counts, and the cap rises from the next kerf on (R508, R509). -/
def execVrAlertNRelease (t : Nat) (s : State) : Outcome :=
  let s := s.onEdge t 1
  if s.gov.vrAlert then
    let d := s.now - s.gov.vrAlertSince
    let s1 := (0 :: s.partitionsRunning.map (· + 1)).foldl (fun s k => s.throttleAdd k rsVrAlert d) s
    .next { s1 with gov := { s1.gov with vrAlert := false } }
  else .next s

/-! ### Quotas and energy (R496, R511, R512) -/

/-- Each partition's mean power over 1,000 ms (R496). -/
def execQuotaMeanUpdate (t : Nat) (s : State) : Outcome :=
  let s := s.upTo t
  let g := s.gov
  let step := fun (m : SMap (List Nat) × SMap Nat) (p : Nat) =>
    let e := SMap.get g.energy p 0
    let d := e - SMap.get g.energyAt p 0
    (SMap.set m.1 p ((d :: SMap.get m.1 p []).take 1000) [], SMap.set m.2 p e 0)
  let r := allPartitions.foldl step (g.partMeans, g.energyAt)
  .next { s with gov := { g with partMeans := r.1, energyAt := r.2 } }

/-- The mean power of a partition over the last 1,000 ms in W. -/
def GovState.partMean (g : GovState) (p : Nat) : Rat := meanRat ((SMap.get g.partMeans p []).map (fun x => (x : Rat))) 0 / 1000

/-- The nodes a unit covers (R498). -/
def unitNodes (u : Nat) : List Nat :=
  match u / 4096 with
  | 0 => (List.range 4).map (fun q => 4 * (u % 4) + q)
  | 1 => (List.range 4).map (fun q => 16 + 4 * (u % 64 / 16) + q)
  | _ => [44, 45, 46, 47]

/-- Die `n` of step 1 and 2 of R511: unit energies scaled to its measured energy, in nJ, and the base energy. -/
def dieUnits (est : List (Nat × Nat)) (n e : Nat) : List (Nat × Rat) × Rat :=
  let l := est.filter (fun x => sectionOfUnit x.1 == n && decide (x.1 / 4096 < 3))
  let sum := (l.map (fun x => x.2)).foldl (· + ·) 0
  let k : Rat := if e < sum then (e : Rat) / (sum : Rat) else 1
  (l.map (fun x => (x.1, (x.2 : Rat) * k)), if e < sum then 0 else ((e - sum : Nat) : Rat))

/-- Amounts of a table multiplied by a factor. -/
def addAmount (m : SMap Rat) (p : Nat) (v : Rat) : SMap Rat := SMap.modify m p 0 (· + v)

/-- Amounts by partition, 16 unattributed, from the units of a die and its base energy (R511 step 2). -/
def State.dieAmounts (s : State) (n : Nat) (m : SMap Rat) (u : List (Nat × Rat) × Rat) : SMap Rat :=
  let own := u.1.foldl (fun (m : SMap Rat) x => addAmount m ((s.ownerOfUnit x.1).getD 16) x.2) []
  let here := s.host.enabled.filter (fun p => (s.partitionsOnDie n).contains p || (s.moversOf p).any (fun k => k / 32 == n))
  let tot := sumRat (here.map (fun p => SMap.get own p 0))
  let m1 := own.foldl (fun m kv => addAmount m kv.1 kv.2) m
  if tot = 0 then addAmount m1 16 u.2
  else here.foldl (fun m p => addAmount m p (u.2 * SMap.get own p 0 / tot)) m1

/-- The heat of a die's nodes in microjoule (R498). -/
def dieHeat (n : Nat) (u : List (Nat × Rat) × Rat) : List Rat :=
  (List.range 64).map (fun i =>
    let own := u.1.foldl (fun a x => if (unitNodes x.1).contains i then a + x.2 / 4 else a) 0
    (own + u.2 * Config.baseShare n i) / 1000)

/-- The slice of die `n` counts the estimates of its arrays and clusters (R19, R511 step 1). -/
def sliceCount (est : List (Nat × Nat)) (n : Nat) (m : SMap Nat) : SMap Nat :=
  (est.filter (fun x => sectionOfUnit x.1 == n && decide (x.1 / 4096 < 2))).foldl (fun m x => SMap.modify m x.1 0 (· + x.2)) m

/-- The energy of a block of 50 microseconds (R511, R512): estimates of units in nJ by unit reference, measured energy of each die in nJ
and of the module in microjoule, energies of queues in microjoule. -/
def execEnergyAttribution (est : List (Nat × Nat)) (dieNj : List Nat) (moduleUj : Nat) (queues : List (Fin 4416 × Nat)) (t : Nat)
    (s : State) : Outcome :=
  let s := s.upTo t
  let us := coreRails.map (fun n => dieUnits est n (nth dieNj n 0))
  let raw := (List.zip coreRails us).foldl (fun m x => s.dieAmounts x.1 m x.2) ([] : SMap Rat)
  let core : Rat := 109 / 100 * ((nth dieNj 0 0 + nth dieNj 1 0 + nth dieNj 2 0 + nth dieNj 3 0 : Nat) : Rat) / 1000
  let a := fun (p : Nat) => 109 / 100 * SMap.get raw p 0 / 1000
  let tot := sumRat (allPartitions.map a)
  let rest := (moduleUj : Rat) - core
  let part := fun (p : Nat) => (a p + (if tot = 0 then 0 else rest * a p / tot)).floor.toNat
  let sum := (allPartitions.map part).foldl (· + ·) 0
  let g := s.gov
  let e1 := allPartitions.foldl (fun m p => SMap.modify m p 0 (· + part p)) g.energy
  let e2 := SMap.modify e1 16 0 (· + (moduleUj - sum))
  let q := queues.foldl (fun m x => if (s.queue x.1).declared then SMap.modify m x.1 0 (· + x.2) else m) g.queueEnergy
  let s1 : State := { s with gov := { g with energy := e2, queueEnergy := q } }
  .next ((List.zip coreRails us).foldl (fun s x => s.setDie x.1 { s.die x.1 with
    heat := dieHeat x.1 x.2, unitNj := sliceCount est x.1 (s.die x.1).unitNj }) s1)

/-! ### Commands (R515 to R522) -/

/-- The frame at whose kerf a setting takes effect (R29). -/
def State.nextFrame (s : State) : Nat := s.frame.number + 1

/-- A temperature in 0.1 degree as two bytes. -/
def tempBytes (x : Rat) : Bytes := leSigned 2 x

/-- The response of `GV_GET_STATUS` (R516); the limits are those computed at the last kerf. -/
def State.govStatus (s : State) : Bytes :=
  let g := s.gov
  let any := fun (f : DieGov → Bool) => g.dies.any f
  leBytes 1 g.running ++ leBytes 1 g.armed ++ leBytes 1 g.ready ++ leBytes 1 g.primary ++
  leBytes 2 (flags [s.shim.f0Permitted, g.boostBlocked, g.vrAlert, !s.diesClocked, any DieGov.throttled, any (fun d => !d.diodeValid),
    decide (s.frame.modes.clampMode = .fixedFrequency), any (·.fast)]) ++
  leBytes 2 g.nextLimits.module ++ leBytes 2 g.nextLimits.supply ++ leBytes 2 (min (nth g.power 0 0 / 1000) 65535) ++ leUnits 2 s.mean60 ++
  leBytes 2 (min (s.f0Time s.now / rcMs) 65535) ++ coreRails.flatMap (fun n => leUnits 2 (nth g.nextLimits.dies n 0)) ++
  coreRails.flatMap (fun n => leUnits 2 ((s.rail n).block.mw / 1000)) ++ coreRails.flatMap (fun n => leBytes 1 (s.pacingNow n)) ++
  g.dies.flatMap (fun d => tempBytes d.temp) ++ leInt 2 g.coolant ++ leBytes 2 g.moduleClass ++ zeros 2 ++ leBytes 4 g.lastStretchNs ++
  zeros 8

def gvGetStatus : Cmd :=
  { code := 0x0501, via := .all, lengthOk := exactly 0, changes := never, act := fun s _ _ => .done stOk s s.govStatus }

/-- The next setting of a field whose 0 means no change. -/
def keep0 (old new_ : Nat) : Nat := if new_ = 0 then old else new_

def gvSetClamp : Cmd :=
  { code := 0x0502, via := .mbp, lengthOk := exactly 48, changes := always,
    act := fun s _ b =>
      let m := rd b 0 2
      let d := fun (n : Nat) => rd b (4 + 2 * n) 2
      let p := fun (k : Nat) => rd b (16 + 2 * k) 2
      let x := s.gov.nextSettings
      if !zeroAt b 2 2 ∨ !zeroAt b 12 4 ∨ (m ≠ 0 ∧ m < 100) ∨ coreRails.any (fun n => d n != 0 && decide (d n < 50)) ∨
          allPartitions.any (fun k => p k != 0 && p k != 0xFFFF && !(decide (10 ≤ p k) && decide (p k ≤ 4000))) then .refused stRange
      else if 4000 < m ∨ coreRails.any (fun n => decide (900 < d n)) then .refused stFuseLimit
      else
        let y := { x with clampM := keep0 x.clampM m, clampDie := coreRails.map (fun n => keep0 (nth x.clampDie n 900) (d n)),
                          clampPart := allPartitions.foldl (fun c k =>
                            if p k = 0 then c else SMap.set c k (if p k = 0xFFFF then 0 else p k) 0) x.clampPart }
        .done stOk { s with gov := { s.gov with nextSettings := y } } (frameReply s.nextFrame) }

def gvSetQuota : Cmd :=
  { code := 0x0503, via := .mbp, lengthOk := exactly 40, changes := always,
    act := fun s _ b =>
      let p := fun (k : Nat) => rd b (2 * k) 2
      let x := s.gov.nextSettings
      if !zeroAt b 32 8 ∨ allPartitions.any (fun k => p k != 0 && p k != 0xFFFF && !(decide (10 ≤ p k) && decide (p k ≤ 4000))) then
        .refused stRange
      else
        let y := { x with quota := allPartitions.foldl (fun c k =>
          if p k = 0 then c else SMap.set c k (if p k = 0xFFFF then 0 else p k) 0) x.quota }
        .done stOk { s with gov := { s.gov with nextSettings := y } } (frameReply s.nextFrame) }

def gvSetLimits : Cmd :=
  { code := 0x0504, via := .mbp, lengthOk := exactly 16, changes := always,
    act := fun s _ b =>
      let d := fun (n : Nat) => rd b n 1
      let a := fun (n : Nat) => rd b (4 + 2 * n) 2
      let x := s.gov.nextSettings
      if !zeroAt b 12 4 ∨ coreRails.any (fun n => (d n != 0 && decide (d n < 4)) || (a n != 0 && decide (a n < 100))) then
        .refused stRange
      else if coreRails.any (fun n => decide (droopFused n < d n) || decide (nth s.gov.rated n 1000 < a n)) then .refused stFuseLimit
      else
        let y := { x with droop := coreRails.map (fun n => if d n = 0 then nth x.droop n none else some (d n)),
                          railCurrent := coreRails.map (fun n => keep0 (nth x.railCurrent n 1000) (a n)) }
        .done stOk { s with gov := { s.gov with nextSettings := y } } (frameReply s.nextFrame) }

/-- A throttle counter in microseconds, with what counts now and has not ended (R509). -/
def State.throttleUs (s : State) (scope reason : Nat) : Nat :=
  let g := s.gov
  let live := if reason = rsVrAlert ∧ g.vrAlert then s.now - g.vrAlertSince
    else if reason = rsFlowLoss then g.flowLossSince.elim 0 (fun a => s.now - a) else 0
  let counts := scope == 0 || (s.jobRuns (scope - 1))
  min ((SMap.get g.throttle (16 * scope + reason) 0 + (if counts then live else 0)) / rcUs) (2 ^ 64 - 1)

def gvGetThrottle : Cmd :=
  { code := 0x0505, via := .mbpMbk, lengthOk := exactly 4, changes := never,
    act := fun s k b =>
      let sc := rd b 0 1
      let p := rd b 1 1
      if 1 < sc ∨ 15 < p ∨ (sc = 0 ∧ p ≠ 0) ∨ !zeroAt b 2 2 then .refused stRange
      else if slotMbk k && (sc == 0 || p != slotPartition k) then .refused stDenied
      else
        let scope := if sc = 0 then 0 else p + 1
        .done stOk s (leBytes 1 sc ++ leBytes 1 p ++ zeros 6 ++
          (List.range 14).flatMap (fun i => leBytes 8 (s.throttleUs scope (i + 1)))) }

/-- A queue declared by a running jig. -/
def State.queueRuns (s : State) (q : Nat) : Bool :=
  let x := s.queue q
  x.declared && s.jobRuns x.partition

def gvGetEnergy : Cmd :=
  { code := 0x0506, via := .mbpMbk, lengthOk := exactly 8, changes := never,
    act := fun s k b =>
      let kind := rd b 0 1
      let first := rd b 2 2
      let n := rd b 4 2
      if 1 < kind ∨ !zeroAt b 1 1 ∨ !zeroAt b 6 2 ∨ (kind = 0 ∧ (first ≠ 0 ∨ n ≠ 0)) ∨
          (kind = 1 ∧ (n < 1 ∨ 252 < n ∨ 4416 < first + n)) then .refused stRange
      else
        let e := s.gov.energy
        let own := fun (p : Nat) => !slotMbk k || p == slotPartition k
        let body := if kind = 0 then
            (List.range 17).flatMap (fun i => leBytes 8 (if own i then SMap.get e i 0 else 0))
          else (List.range n).flatMap (fun i =>
            let q := first + i
            leBytes 2 q ++ zeros 6 ++
              leBytes 8 (if s.queueRuns q && own (s.queue q).partition then SMap.get s.gov.queueEnergy q 0 else 0))
        .done stOk s (zeros 8 ++ body) }

/-- The highest of some nodes. -/
def DieGov.highest (d : DieGov) (l : List Nat) : Rat :=
  match l.map (fun i => d.nodes.getD i 0) with
  | [] => 0
  | a :: r => r.foldl max a

def State.thermalReport (s : State) (n : Nat) : Bytes :=
  let d := s.die n
  let four := fun (f : Nat → Bytes) => if n < 4 then (List.range 4).flatMap f else zeros 8
  let rise := (d.hot - d.hottest.getD 20 (d.hottest.getLast?.getD d.hot)) * 100
  leBytes 1 n ++ leBytes 1 (flags [d.warn, d.throttled, d.shutdown, !d.diodeValid, d.fast]) ++ leInt 2 d.diode ++ tempBytes d.hot ++
  tempBytes d.temp ++ leSigned 2 rise ++ zeros 2 ++
  four (fun a => tempBytes (d.highest [4 * a, 4 * a + 1, 4 * a + 2, 4 * a + 3])) ++
  four (fun g => tempBytes (d.highest [16 + 4 * g, 17 + 4 * g, 18 + 4 * g, 19 + 4 * g])) ++
  four (fun k => leInt 2 (s.gov.stackTemps.getD (4 * n + k) 0)) ++ zeros 4 ++ (List.range 64).flatMap (fun i => tempBytes (d.nodes.getD i 0))

def gvGetThermal : Cmd :=
  { code := 0x0507, via := .all, lengthOk := exactly 4, changes := never,
    act := fun s _ b => if 4 < rd b 0 1 ∨ !zeroAt b 1 3 then .refused stRange else .done stOk s (s.thermalReport (rd b 0 1)) }

def execGvGetStatus (slot : Fin 19) (t : Nat) (s : State) : Outcome := s.serve gvGetStatus slot t
def execGvSetClamp (slot : Fin 19) (t : Nat) (s : State) : Outcome := s.serve gvSetClamp slot t
def execGvSetQuota (slot : Fin 19) (t : Nat) (s : State) : Outcome := s.serve gvSetQuota slot t
def execGvSetLimits (slot : Fin 19) (t : Nat) (s : State) : Outcome := s.serve gvSetLimits slot t
def execGvGetThrottle (slot : Fin 19) (t : Nat) (s : State) : Outcome := s.serve gvGetThrottle slot t
def execGvGetEnergy (slot : Fin 19) (t : Nat) (s : State) : Outcome := s.serve gvGetEnergy slot t
def execGvGetThermal (slot : Fin 19) (t : Nat) (s : State) : Outcome := s.serve gvGetThermal slot t

end Sys2Proof.Machine
end

