-- ==== Sys2Proof/Machine/MoverCode.lean ====
section
/-! DEFINITION. The meanings of the mover, queue and tier commands (R231 to R255, R256 to R287). -/

namespace Sys2Proof.Machine

/-! ### Die-to-die crossings (R670) -/

/-- The die at which the memory of a module address lies: 0 to 3 the compute dies, 4 the hub. -/
def dieOfAddress (a : Nat) : Nat :=
  match (regionOf a).1 with
  | .bench n => n
  | .tier1 k => k / 4
  | _ => 4

/-- Data with 64-bit words that are uncorrectable: those are poison. -/
def spoilWords (bad : List Nat) (d : Data) : Data :=
  (d.zip (List.range d.length)).map (fun y => if bad.contains (y.2 / 8) then none else y.1)

/-- The faults of a crossing to die `n` (R670, R671): `D2D_UNCORRECTED`, and `D2D_CORRECTED` once per frame at most for each die. -/
def State.crossFaults (s : State) (n : Nat) (x : Crossing) : State :=
  let s1 := if x.bad.isEmpty then s else s.raise (Source.ofDie n) FC.d2dUncorrected noUnit 0
  if x.fixed && !s1.mem.correctedRaised.contains (30 + n) then
    ({ s1 with mem := { s1.mem with correctedRaised := (30 + n) :: s1.mem.correctedRaised } } : State).raise (Source.ofDie n)
      FC.d2dCorrected noUnit 0
  else s1

/-- Data that cross from die `a` to die `b` (R670): words with double-bit errors arrive as poison. -/
def State.crossing (s : State) (a b : Nat) (x : Crossing) (d : Data) : Data × State :=
  if a = b then (d, s) else (spoilWords x.bad d, s.crossFaults b x)

/-! ### Movers (R275 to R287) -/

/-- The descriptor that is next of mover `k`'s program issues at time `t`, unless it fails its parity check. -/
def State.issueMover (s : State) (k : Nat) (x : MvDesc) (op t : Nat) (parity : Bool) : Outcome :=
  let s := (s.upTo t).benchTo (dieOfMover k)
  let qc := s.qcOf (dieOfMover k)
  .next (if s.moverOk k x op qc then (if parity then s.moverParity k else s.moverIssue k x qc) else s)

/-- `COPY`: memory to memory (R278, R281). -/
def execMoverCopy (k : Fin 128) (x : MvDesc) (t : Nat) (parity : Bool) (s : State) : Outcome := s.issueMover k x 1 t parity

/-- `PUSH`: rows into queue entries (R278, R281). -/
def execMoverPush (k : Fin 128) (x : MvDesc) (t : Nat) (parity : Bool) (s : State) : Outcome := s.issueMover k x 2 t parity

/-- `PULL`: queue entries into memory (R278, R281). -/
def execMoverPull (k : Fin 128) (x : MvDesc) (t : Nat) (parity : Bool) (s : State) : Outcome := s.issueMover k x 3 t parity

/-- `FILL`: memory with a pattern; it has no source (R278, R282). -/
def execMoverFill (k : Fin 128) (x : MvDesc) (t : Nat) (parity : Bool) (s : State) : Outcome := s.issueMover k x 4 t parity

/-- `END`: issues once every earlier descriptor has completed and sent its signal (R281). -/
def execMoverEnd (k : Fin 128) (t : Nat) (parity : Bool) (s : State) : Outcome :=
  let s := (s.upTo t).benchTo (dieOfMover k)
  let v := s.mover k
  if s.moverRuns k && (s.nextMvDesc k).opcode == 15 && v.active.isEmpty && v.deferred.isEmpty &&
      decide (v.issueQc ≤ s.qcOf (dieOfMover k)) then
    .next (if parity then s.moverParity k else s.setMover k { v with done := true })
  else .next s

/-- A source access takes a granted slot with buffer room (R282). `errs` are the errors it finds in stored data. -/
def execMoverSourceAccess (k : Fin 128) (t : Nat) (errs : List (Nat × Bool)) (s : State) : Outcome :=
  let s := (s.upTo t).benchTo (dieOfMover k)
  match (s.mover k).active.find? (fun i => !i.srcDone) with
  | some i => .next (if s.diesClocked then s.sourceAccess k i errs else s)
  | none => .next s

/-- A destination access takes a usable slot once its bytes are in the buffer (R282, R283); a `PUSH` sends them with a credit. `bad` are
bytes of the access that the buffer has lost (R287), `cross` is the way to a memory of another die (R670); `spare` is the free spare that a Tier 3 write leaves, where it is reported. -/
def execMoverDestAccess (k : Fin 128) (t : Nat) (bad : List Nat) (cross : Crossing) (spare : Option Nat) (s : State) : Outcome :=
  let s := (s.upTo t).benchTo (dieOfMover k)
  match (s.mover k).active.find? (fun i => !i.dstDone) with
  | none => .next s
  | some i =>
    if !s.diesClocked then .next s
    else if i.desc.opcode = 2 then
      if (s.queue i.desc.dataQueue).canSend && decide (512 ≤ i.buffer.length) &&
          (match i.arrival (i.dstPos + 511) with
           | some u => decide (u + 1 ≤ s.qcOf (dieOfMover k))
           | none => false) then
        .next (((s.freeRoom k 512 bad).countEntry k).sendQueue i.desc.dataQueue { data := some (spoil bad (i.buffer.take 512)) })
      else .next s
    else
      match s.destSlot k with
      | none => .next s
      | some y =>
        let x := i.dest
        let c := (((s.freeRoom k x.2 bad).countMover k x.2).takeSlot k y).crossing (dieOfMover k) (dieOfAddress x.1) cross
          (spoil bad (i.destData x.2))
        .next (c.2.destWrite k x.1 c.1 y.instant spare)

/-- A mover descriptor completes after its last destination access; its signal is sent, or waits for a credit (R284). -/
def execMoverComplete (k : Fin 128) (t : Nat) (s : State) : Outcome :=
  let s := (s.upTo t).benchTo (dieOfMover k)
  let v := s.mover k
  match v.active with
  | i :: rest =>
    if i.dstDone && s.diesClocked then
      let s1 := s.setMover k { v with active := rest }
      let q := i.desc.signalQueue
      if q = noQueue ∨ i.orphan ∨ !(s1.queue q).declared then .next s1
      else if (s1.queue q).canSend then .next (s1.sendQueue q signalEntry)
      else .next (s1.setMover k { s1.mover k with deferred := v.deferred ++ [(i.tag, q)] })
    else .next s
  | [] => .next s

/-! ### Queues (R260, R261, R287) -/

/-- A queue's counts fail their parity check: it takes no further sends or receives in the job (R287). -/
def State.queueFails (s : State) (q : Nat) (parity : Bool) : State :=
  if parity then
    let x := s.queue q
    (s.setQueue q { x with failed := true }).raiseFor (Source.ofDie (sectionOfUnit x.consumer)) FC.qfCreditError x.consumer
      (if x.declared then some x.partition else none)
  else s

/-- An entry with words found uncorrectable (R287): the words are poisoned. -/
def spoilEntry (bad : List (Fin 128)) (e : QEntry) : QEntry :=
  match e.data with
  | some d => { data := some ((d.zip (List.range d.length)).map (fun y => if bad.any (fun w => w.val == y.2 / 4) then none else y.1)) }
  | none => e

/-- The data of an entry after a crossing; a signal has none (R670). -/
def State.crossEntry (s : State) (a b : Nat) (x : Crossing) (e : QEntry) : QEntry × State :=
  match e.data with
  | some d => let r := s.crossing a b x d; ({ data := some r.1 }, r.2)
  | none => (e, s)

/-- An entry visible to an Oljan endpoint: its time counts for a reduction (R317). -/
def State.seenAt (s : State) (q : Nat) : State :=
  if q / 256 = 16 then
    let ep := s.endpoint (q % 256)
    s.setEndpoint (q % 256) { ep with seen := ep.seen ++ [s.now] }
  else s

/-- A sent entry becomes visible to its consumer (R260, R261). `cross` is its way between dies (R670), `bad` are its uncorrectable words,
`fixed` tells of corrected ones, `parity` that the queue's counts fail their check. -/
def execQueueEntryVisible (q : Fin 4416) (t : Nat) (cross : Crossing) (bad : List (Fin 128)) (fixed parity : Bool) (s : State) : Outcome :=
  let s := s.upTo t
  let x := s.queue q
  match x.transit with
  | [] => .next (s.queueFails q (parity && x.declared))
  | e :: rest =>
    let hit := !bad.isEmpty && e.data.isSome
    let c := s.crossEntry (sectionOfUnit x.producer) (sectionOfUnit x.consumer) cross e
    let s1 := (c.2.setQueue q { x with transit := rest, visible := x.visible ++ [spoilEntry bad c.1] }).seenAt q
    let s2 := if hit then
        s1.raiseFor (Source.ofDie (sectionOfUnit x.consumer)) FC.qfEntryUncorrected x.consumer (some x.partition)
      else s1
    let s3 := if fixed && decide (sectionOfUnit x.consumer < 4) then s2.bump (0x6A6 + 8 * sectionOfUnit x.consumer) 1 else s2
    .next (s3.queueFails q parity)

/-- A returned credit becomes visible to its producer (R260, R261); a host endpoint tells its function (R353). -/
def execQueueCreditVisible (q : Fin 4416) (t : Nat) (parity : Bool) (s : State) : Outcome :=
  let s := s.upTo t
  let x := s.queue q
  let s1 := if 0 < x.creditsTransit then
      let s1 := s.setQueue q { x with credits := x.credits + 1, creditsTransit := x.creditsTransit - 1 }
      if x.producer / 4096 = 4 then s1.vfEvent (x.producer % 4096 / 4) (2 + x.producer % 4)
      else if x.producer / 4096 = 3 then s1.settleMember (x.producer % 256) else s1
    else s
  .next (s1.queueFails q (parity && x.declared))

/-! ### The tiers (R237 to R248, R253) -/

/-- The qc of die `n` from which the data of a tier at `a`, delivered now, are in a mover's buffer (R283): the first qc edge, and from a
stack of the die 8.0 ns, of another 88.0 ns, from the hub 40.0 ns more. -/
def State.arrivalQc (s : State) (n a : Nat) : Nat :=
  let d := s.dieClock n
  let edge := d.edgeOf (6 * ((d.cycleFrom (tick * s.now) + 5) / 6))
  (d.cycleFrom (edge + pathTicks n a) + 5) / 6

/-- Data of a read reach who asked for them: the mover's buffer, or the host's completions (R283, R343). -/
def State.deliver (s : State) (h : HeldRead) (d : Data) : State :=
  match h.who with
  | .mover k => s.intoBuffer k h.tag d (s.arrivalQc (dieOfMover k) h.address)
  | .host p =>
    let v := s.vf p
    let c : Completion := match d.mapM id with
      | some b => .data b
      | none => .poisoned
    ((s.setVf p { v with completions := v.completions ++ [(h.tag, c)] }).bump (0x989 + 8 * p) 1).bump (0x98B + 8 * p) d.length

/-- Data of a read reach a mover across the dies (R670), or the host at the hub. -/
def State.deliverAcross (s : State) (h : HeldRead) (x : Crossing) (d : Data) : State :=
  match h.who with
  | .mover k =>
    let c := s.crossing (dieOfAddress h.address) (dieOfMover k) x d
    c.2.deliver h c.1
  | .host _ => s.deliver h d

/-- The oldest held read that satisfies `p` is delivered `wait` root cycles after its slot. -/
def State.deliverFirst (s : State) (wait : Nat) (x : Crossing) (p : HeldRead → Bool) : State :=
  match s.mem.held.find? p with
  | none => s
  | some h =>
    let s1 := s.upTo (h.slot + wait)
    ({ s1 with mem := { s1.mem with held := s1.mem.held.erase h } } : State).deliverAcross h x h.data

/-- A Tier 1 stripe read delivers its data 56 mc after its slot (R238). -/
def execT1ReadDeliver (k : Fin 16) (cross : Crossing) (s : State) : Outcome :=
  .next (s.deliverFirst 280 cross (fun h => h.tier == 1 && (regionOf h.address).1 == .tier1 k))

/-- A Tier 2 stripe read delivers its data 108 hc after its slot (R241). -/
def execT2ReadDeliver (cross : Crossing) (s : State) : Outcome := .next (s.deliverFirst 864 cross (fun h => h.tier == 2))

/-- The partition a held read serves. -/
def State.heldFor (s : State) (h : HeldRead) : Option Nat :=
  match h.who with
  | .mover k => s.ownerOfMover k
  | .host p => some p

/-- A Tier 3 sector read is released 108,000 hc after its slot: with its data, or poisoned if it was not read in time (R243, R244). -/
def execT3ReadRelease (missed : Bool) (cross : Crossing) (s : State) : Outcome :=
  match s.mem.held.find? (fun h => h.tier == 3) with
  | none => .next s
  | some h =>
    let s0 := s.upTo (h.slot + 864000)
    let s1 : State := { s0 with mem := { s0.mem with held := s0.mem.held.erase h } }
    let p := s.heldFor h
    if missed then
      let s2 := (((s1.memStatus p (memT3Miss ||| memPoisonRead)).raise .hd FC.t3ReadMiss noUnit 0).bump 0x719 1)
      .next (s2.deliverAcross h cross (List.replicate h.data.length none))
    else
      let s2 := if h.data.any (·.isNone) then s1.memStatus p memPoisonRead else s1
      .next (s2.deliverAcross h cross h.data)

/-- A scrub read of the poison unit at `a`: an error is corrected or poisons the unit; it belongs to no partition (R231, R250,
R253). -/
def State.scrubUnit (s : State) (a : Nat) (err : Option Bool) : State :=
  let u := poisonUnit a
  if s.mem.unitPoisoned u.1 u.2 then s.findPoison u.1
  else match err with
    | some fixed => s.memErrors none [(a, fixed)]
    | none => s

/-- The scrub of a memory moves to the next of its `n` units; a full pass is counted at `counter`. -/
def State.scrubNext (s : State) (key n counter : Nat) : State :=
  let i := SMap.get s.mem.scrubAt key 0
  let s1 : State := { s with mem := { s.mem with scrubAt := SMap.set s.mem.scrubAt key ((i + 1) % n) 0 } }
  if i + 1 = n ∧ counter ≠ 0 then s1.bump counter 1 else s1

/-- A stack enters its refresh window, on an RT edge of value 10k modulo 195, and scrubs one block; in STANDBY the stacks refresh themselves
(R237, R253). -/
def execT1RefreshWindow (k : Fin 16) (t : Nat) (err : Option Bool) (s : State) : Outcome :=
  let s := s.upTo t
  if s.mod.mode = .standby ∨ ¬ s.inRefresh (0x10000000000 + k * 0x1000000000) then .next s
  else
    let s1 : State := { s with mem := { s.mem with refreshing := some (k, s.now + 10 * rcRt) } }
    let a := 0x10000000000 + k * 0x1000000000 + 64 * SMap.get s1.mem.scrubAt (4 + k) 0
    .next ((s1.scrubUnit a err).scrubNext (4 + k) 805306368 0)

/-- The controller reads a stack's temperature: `T1_HOT` at 105 °C, again only after a fall below 100 °C (R239). -/
def execT1TempRead (k : Fin 16) (decic : Int) (s : State) : Outcome :=
  let s1 : State := { s with gov := { s.gov with stackTemps := setNth s.gov.stackTemps k decic } }
  let s2 := s1.peak (0x6D3 + 4 * k) decic.toNat
  if 1050 ≤ decic ∧ !s2.mem.t1Hot.contains k then
    .next (({ s2 with mem := { s2.mem with t1Hot := k :: s2.mem.t1Hot } } : State).raiseCond (Source.ofDie (k / 4)) FC.t1Hot k
      decic.toNat)
  else if decic < 1000 then .next { s2 with mem := { s2.mem with t1Hot := s2.mem.t1Hot.filter (· != k.val) } }
  else .next s2

/-- Reclamation in a write slot that no table grants (R247): bytes it programs, and the free spare it leaves. -/
def execT3Reclamation (bytes : Nat) (spare : Nat) (s : State) : Outcome :=
  .next (((s.bump 0x71D bytes).t3Program bytes).t3Spare (some spare))

/-- A scrub read outside the schedules (R253). -/
def execMemoryScrub (m : ScrubTarget) (err : Option Bool) (s : State) : Outcome :=
  let s := s.benchNow
  match m with
  | .bench n =>
    .next ((s.scrubUnit (benchBase n + 4 * SMap.get s.mem.scrubAt n 0) err).scrubNext n 50331648 (0x6C3 + 4 * n))
  | .tier2 => .next ((s.scrubUnit (0x20000000000 + 64 * SMap.get s.mem.scrubAt 20 0) err).scrubNext 20 25769803776 0x717)
  | .tier3 => .next ((s.scrubUnit (0x40000000000 + 4096 * SMap.get s.mem.scrubAt 21 0) err).scrubNext 21 536870912 0)

end Sys2Proof.Machine
end

