-- ==== Sys2Proof/Machine/CounterCode.lean ====
section
/-! DEFINITION. The performance counters: words, fold, cleared peaks, snapshots, grants and their commands (R672 to R682). -/

namespace Sys2Proof.Machine

def counterCount : Nat := 3072

/-- An index lies in `n` indices from `base`. -/
def inBlock (base n i : Nat) : Bool := decide (base ≤ i) && decide (i < base + n)

/-! ### Words (R676, R677) -/

/-- The word of a counter now: the 56 bits of value and wraps; the governor's counters are mirrored (R676); what the two wait counters of an
entry store count is open. -/
def State.counterWord (s : State) (i : Nat) : Nat :=
  if inBlock 0xAEC 17 i then SMap.get s.gov.energy (i - 0xAEC) 0 % 2 ^ 56
  else if inBlock 0xAFD 238 i then s.throttleUs ((i - 0xAFD) / 14) ((i - 0xAFD) % 14 + 1) % 2 ^ 56
  else if inBlock 0x6A0 32 i ∧ (i % 8 = 4 ∨ i % 8 = 5) then Config.waitQc i s.mod.coldAt s.now % 2 ^ 56
  else s.counter i

/-! ### Peaks (R672, R679) -/

/-- The present value of the quantity whose peak or minimum a counter holds; none for a counter that `CLEAR_PEAKS` leaves. -/
def State.presentOf (s : State) (i : Nat) : Option Int :=
  if inBlock 0x4A0 512 i ∧ i % 4 = 3 then some ((s.mover ((i - 0x4A0) / 4)).used : Int)
  else if inBlock 0x6A0 32 i ∧ i % 8 = 7 then some (s.storeCount ((i - 0x6A0) / 8) : Int)
  else if inBlock 0x6D0 64 i ∧ i % 4 = 3 then some (s.gov.stackTemps.getD ((i - 0x6D0) / 4) 0)
  else if inBlock 0x830 64 i ∧ i % 4 = 1 then
    let l := s.link ((i - 0x830) / 4)
    some (nsOfRc ((l.streamA.earlyAt ++ l.streamB.earlyAt).foldl (fun m x => max m (s.now - x.2)) 0) : Int)
  else if i = 0x977 then some s.frame.status.slackNs
  else if inBlock 0xABC 48 i then
    let d := s.die ((i - 0xABC) / 12)
    match (i - 0xABC) % 12 with
    | 3 => some (units d.temp)
    | 4 => some (d.powerMw / 1000 : Nat)
    | 5 => some (d.currentMa / 1000 : Nat)
    | _ => none
  else if i = 0xABA then s.cells.lowest.map (fun c => (s.cells.volt c / 10 : Nat))
  else if i = 0xABB then s.cells.highest.map (fun c => (s.cells.volt c / 10 : Nat))
  else none

/-- The held peaks and minima among some indices are cleared: each takes the present value of its quantity. -/
def State.clearPeaks (s : State) (l : List Nat) : State :=
  l.foldl (fun s i => match s.presentOf i with | some v => s.level i v | none => s) s

/-! ### Owners and grants (R681) -/

/-- The partition that owns the instance of a counter, or whose own counter it is. -/
def State.counterOwner (s : State) (i : Nat) : Option Nat :=
  if i < 0x080 then s.ownerOfArray (i / 8)
  else if i < 0x090 then some (i - 0x080)
  else if i < 0x490 then s.ownerOfCluster ((i - 0x090) / 4)
  else if i < 0x4A0 then some (i - 0x490)
  else if i < 0x6A0 then s.ownerOfMover ((i - 0x4A0) / 4)
  else if inBlock 0x720 16 i then some (i - 0x720)
  else if inBlock 0x870 256 i then s.ownerOfEndpoint (i - 0x870)
  else if inBlock 0x988 128 i then some ((i - 0x988) / 8)
  else if inBlock 0xAEC 16 i then some (i - 0xAEC)
  else if inBlock 0xB0B 224 i then some ((i - 0xB0B) / 14)
  else none

/-- A counter of a module instance, which a `SHARED` grant covers. -/
def sharedCounter (i : Nat) : Bool :=
  inBlock 0x6A0 128 i || inBlock 0x730 320 i || inBlock 0x970 16 i || inBlock 0xA08 228 i || inBlock 0xAFD 14 i || inBlock 0xBEB 21 i

/-- Whether a grant of partition `p` covers a counter whose owner is `owner`. -/
def granted (g p i : Nat) (owner : Option Nat) : Bool :=
  (bitAt g 0 && owner == some p) || (bitAt g 1 && sharedCounter i)

/-- The word a reader gets: withheld from a partition without a grant for it. -/
def wordFor (k : Nat) (ok : Bool) (w : Nat) : Nat := if slotMbk k && !ok then 2 ^ 63 else w

def State.grantOf (s : State) (k : Nat) : Nat := SMap.get s.ob.grants (slotPartition k) 0

/-! ### Fold and snapshots (R673, R680) -/

/-- The local increments are folded into the authoritative values, every 10 microseconds. -/
def execCounterFold (t : Nat) (s : State) : Outcome := .next (s.upTo t).foldAll

/-- The counter words that are not zero, by index. -/
def State.allWords (s : State) : SMap Nat :=
  (List.range counterCount).filterMap (fun i => let w := s.counterWord i; if w = 0 then none else some (i, w))

/-- The owners of the counters that have one: partition plus one, by index. -/
def State.allOwners (s : State) : SMap Nat :=
  (List.range counterCount).filterMap (fun i => (s.counterOwner i).map (fun p => (i, p + 1)))

/-- A buffer at t = 0 of the kerf of frame `f`: taken, or missed if the count has passed its frame. -/
def State.snapOne (s : State) (f : Nat) (i : Nat) : State :=
  let b := nth s.ob.snaps i Snapshot.none
  let put := fun (s : State) (x : Snapshot) => { s with ob := { s.ob with snaps := setNth s.ob.snaps i x } }
  if b.state ≠ .armed then s
  else if b.frame = f then
    put (s.bump 0xBFC 1) { b with state := .taken, rt := s.rt, words := s.allWords, owners := s.allOwners }
  else if b.frame < f then put (s.bump 0xBFD 1) { b with state := .missed }
  else s

/-- The buffers at the kerf of frame `f`. -/
def State.snapKerf (s : State) (f : Nat) : State := (List.range 4).foldl (fun s i => s.snapOne f i) s

/-- Entry to PARKED: no kerf of an armed frame comes (R680). -/
def State.snapMissed (s : State) : State :=
  (List.range 4).foldl (fun s i =>
    let b := nth s.ob.snaps i Snapshot.none
    if b.state = .armed then
      ({ s with ob := { s.ob with snaps := setNth s.ob.snaps i { b with state := .missed } } } : State).bump 0xBFD 1
    else s) s

/-! ### Commands (R682) -/

def obReadCounters : Cmd :=
  { code := 0x0701, via := .mbpMbk, lengthOk := exactly 8, changes := fun _ b => rd b 4 1 == 1,
    act := fun s k b =>
      let first := rd b 0 2
      let n := rd b 2 2
      if n = 0 ∨ 506 < n ∨ counterCount < first + n ∨ 1 < rd b 4 1 ∨ !zeroAt b 5 3 then .refused stRange
      else if rd b 4 1 = 1 ∧ slotMbk k then .refused stDenied
      else
        let l := (List.range n).map (fun i => first + i)
        let ok := fun i => granted (s.grantOf k) (slotPartition k) i (s.counterOwner i)
        let words := l.map (fun i => wordFor k (ok i) (s.counterWord i))
        let withheld := (words.filter (fun w => decide (2 ^ 63 ≤ w))).length
        let span := s.draw 50
        let s1 := ((span.2.bump 0xBFB 1).bump 0xBFE withheld)
        .done stOk (if rd b 4 1 = 1 then s1.clearPeaks l else s1)
          (leBytes 8 s.rt ++ leBytes 4 (span.1 % 2001) ++ zeros 4 ++ words.flatMap (leBytes 8)) }

def obArmSnapshot : Cmd :=
  { code := 0x0702, via := .mbp, lengthOk := exactly 16, changes := always,
    act := fun s _ b =>
      let i := rd b 0 1
      let f := rd b 8 8
      let cancel := rd b 1 1 == 1
      if 3 < i ∨ 1 < rd b 1 1 ∨ !zeroAt b 2 6 ∨ 2 ^ 48 ≤ f ∨ (if cancel then f ≠ 0 else f < s.frame.number + 2) then .refused stRange
      else if s.mod.mode = .parked then .refused stState
      else
        let x : Snapshot := if cancel then Snapshot.none else { Snapshot.none with state := .armed, frame := f }
        .done stOk { s with ob := { s.ob with snaps := setNth s.ob.snaps i x } } (leBytes 8 f) }

/-- `SNAP_STATE`. -/
def SnapState.number (x : SnapState) : Nat :=
  match x with
  | .empty => 0
  | .armed => 1
  | .taken => 2
  | .missed => 3

def obReadSnapshot : Cmd :=
  { code := 0x0703, via := .mbpMbk, lengthOk := exactly 8, changes := never,
    act := fun s k b =>
      let i := rd b 0 1
      let first := rd b 2 2
      let n := rd b 4 2
      if 3 < i ∨ !zeroAt b 1 1 ∨ n = 0 ∨ 505 < n ∨ counterCount < first + n ∨ !zeroAt b 6 2 then .refused stRange
      else
        let x := nth s.ob.snaps i Snapshot.none
        let l := (List.range n).map (fun i => first + i)
        let ok := fun j => granted (s.grantOf k) (slotPartition k) j
          (let o := SMap.get x.owners j 0; if o = 0 then none else some (o - 1))
        let words := if x.state = .taken then l.map (fun j => wordFor k (ok j) (SMap.get x.words j 0)) else l.map (fun _ => 0)
        let withheld := (words.filter (fun w => decide (2 ^ 63 ≤ w))).length
        .done stOk (s.bump 0xBFE withheld)
          (leBytes 1 x.state.number ++ zeros 7 ++ leBytes 8 x.frame ++ leBytes 8 x.rt ++ words.flatMap (leBytes 8)) }

def obSetGrant : Cmd :=
  { code := 0x0704, via := .mbp, lengthOk := exactly 8, changes := always,
    act := fun s _ b =>
      let p := rd b 0 1
      if 15 < p ∨ 3 < rd b 1 1 ∨ !zeroAt b 2 6 then .refused stRange
      else if !s.host.enabled.contains p then .refused stState
      else .done stOk { s with ob := { s.ob with grants := SMap.set s.ob.grants p (rd b 1 1) 0 } } [] }

def execObReadCounters (slot : Fin 19) (t : Nat) (s : State) : Outcome := s.serve obReadCounters slot t
def execObArmSnapshot (slot : Fin 19) (t : Nat) (s : State) : Outcome := s.serve obArmSnapshot slot t
def execObReadSnapshot (slot : Fin 19) (t : Nat) (s : State) : Outcome := s.serve obReadSnapshot slot t
def execObSetGrant (slot : Fin 19) (t : Nat) (s : State) : Outcome := s.serve obSetGrant slot t

end Sys2Proof.Machine
end

