-- ==== Sys2Proof/Machine/FaultCode.lean ====
section
/-! DEFINITION. The fault collector: arrival, escalation, class slots, log, reactions, FAULT_OUT_N, acknowledgement, and its commands
(R523 to R559). -/

namespace Sys2Proof.Machine

/-! ### Class slots (R536) -/

def State.classSlot (s : State) (c : Nat) : ClassSlot := SMap.get s.fc.slots c emptySlot
def State.setClassSlot (s : State) (c : Nat) (x : ClassSlot) : State :=
  { s with fc := { s.fc with slots := SMap.set s.fc.slots c x emptySlot } }

/-- `LEVEL` of a slot: the highest among its records. -/
def ClassSlot.level (x : ClassSlot) : Nat := x.recs.foldl (fun m r => max m r.level) 0
def ClassSlot.condPresent (x : ClassSlot) : Bool := x.recs.any (·.cond)
/-- `LAST_SEQ` of a slot. -/
def ClassSlot.lastSeq (x : ClassSlot) : Nat := x.recs.getLast?.elim 0 (·.seq)

/-- The level of a code in force: fused, or set by `FC_SET_LEVEL` (R523, R556). -/
def State.levelOf (s : State) (code : Nat) : Nat := SMap.get s.fc.setLevels code (baseLevel code)

/-- The module has recorded no fault in any slot (R537). -/
def FaultState.quiet (f : FaultState) : Bool := f.slots.all (fun kv => kv.2.recs.isEmpty)

/-- A record of level `lv` is escalated by its class slot (R540): an unacknowledged record of MAJOR or higher with a different code from
a different detection. -/
def ClassSlot.escalates (x : ClassSlot) (src : Source) (code lv timePc : Nat) : Bool :=
  (lv == 3 || lv == 4) && !x.ackPending &&
  x.recs.any (fun r => decide (3 ≤ r.level) && r.code != code && !(decide (r.src = src) && decide (timePc < r.timePc + 240)))

/-- Time since cold start in pc (R535). -/
def State.coldPc (s : State) : Nat := (s.now - s.mod.coldAt) / rcPc

/-! ### FAULT_OUT_N (R541) -/

/-- The line is driven low, or released, at time `t`; a release counts the low time (R675). -/
def State.driveOut (s : State) (low : Bool) (t : Nat) : State :=
  let s1 : State := { s with fc := { s.fc with out := { low := low, since := t, waiting := false } } }
  if low then s1 else s1.bump 0xBF5 ((t - s.fc.out.since) / rcUs)

/-- A pulse has ended by now: at 10.5 microseconds at the latest, while no reaction of MAJOR or higher is in force. -/
def State.endPulse (s : State) : State :=
  if s.fc.out.low && decide (s.levelInForce < 3) && decide (s.fc.out.since + 10 * rcUs + rcUs / 2 ≤ s.now) then
    s.driveOut false (s.fc.out.since + 10 * rcUs + rcUs / 2)
  else s

/-- What the line has done by itself up to now: its pulse has ended, and an assertion that waits has taken place at the end of the gap. -/
def State.settleOut (s : State) : State :=
  let s1 := s.endPulse
  let o := s1.fc.out
  if !o.low && o.waiting && decide (o.since + 10 * rcUs ≤ s1.now) then (s1.driveOut true (o.since + 10 * rcUs)).endPulse else s1

/-- A record of MINOR or higher asserts the line: at once, or at the end of the gap; low already, or waiting, it adds nothing. -/
def State.assertOut (s : State) : State :=
  let o := s.fc.out
  if o.low then s
  else if o.since + 10 * rcUs ≤ s.now ∨ o.since = 0 then s.driveOut true s.now
  else { s with fc := { s.fc with out := { o with waiting := true } } }

/-- The level in force has fallen below MAJOR: the line is released, but not less than 10 microseconds after it was driven low. -/
def State.releaseOut (s : State) : State :=
  if s.fc.out.low && decide (s.levelInForce < 3) && decide (s.fc.out.since + 10 * rcUs ≤ s.now) then s.driveOut false s.now else s

/-! ### Reactions (R529 to R534) -/

/-- Times of reactions of MAJOR and CRITICAL level begin and end with the level in force (R675). -/
def State.settleReactionTimes (s : State) : State :=
  let l := s.levelInForce
  let f := s.fc
  let us := fun (o : Option Nat) => o.elim 0 (fun a => (s.now - a) / rcUs)
  let s1 := if l < 3 ∧ f.majorSince.isSome then s.bump 0xBF8 (us f.majorSince) else s
  let s2 := if l < 4 ∧ f.criticalSince.isSome then s1.bump 0xBF9 (us f.criticalSince) else s1
  { s2 with fc := { s2.fc with majorSince := if 3 ≤ l then some (f.majorSince.getD s.now) else none,
                               criticalSince := if 4 ≤ l then some (f.criticalSince.getD s.now) else none } }

/-- The module changes its state (R607). -/
def State.changeMode (s : State) (m : ModState) : State :=
  { s with mod := { s.mod with mode := m, since := s.now, changes := min (s.mod.changes + 1) 0xFFFFFFFF } }

/-- A CRITICAL or FATAL reaction places the module in SAFE (R607, R622, R623). A change that waits for its frame is dropped, and what a
module in STANDBY was starting is not resumed (DEDUCED). -/
def State.enterSafe (s : State) : State :=
  match s.mod.mode with
  | .safe => s
  | .parked => s
  | .recovery => s
  | m =>
    let s1 := (s.changeMode .safe).bump 0xBFA 1
    let s2 : State := { s1 with mod := { s1.mod with prior := some m, scheduled := none } }
    if m = .standby then { s2 with rails := { s2.rails with startAt := none, startStep := 0, startedRails := [] } } else s2.pauseStart

/-- The level in force is below CRITICAL: the module leaves SAFE for the state it came from (R624). A cold start goes on from the point
it had reached. -/
def State.leaveSafe (s : State) : State :=
  match s.mod.mode, s.mod.prior with
  | .safe, some m =>
    if 4 ≤ s.levelInForce ∨ s.mod.fatal then s
    else
      let s1 := s.changeMode m
      { s1 with mod := { s1.mod with prior := none },
                rails := { s1.rails with startAt := s1.rails.startAt.map (fun _ => s1.now - startTimeUs s1.rails.startStep * rcUs) } }
  | _, _ => s

/-- Rail of a REGULATOR record (R536). -/
def railOfUnit (unit : Nat) : Nat := unit / 256

/-- The causes that stop the compute dies at once (R532). -/
def stopsAtOnce (code unit : Nat) : Bool :=
  code == FC.stopImmediate || code == FC.frOvercurrent || (code == FC.railOvervoltage && decide (railOfUnit unit < 4))

/-- The class actions at CRITICAL (R532). -/
def State.classAction (s : State) (code : Nat) : State :=
  match code / 256 with
  | 4 => (s.stopStorage (some code) true).settlePower
  | 3 =>
    if code = FC.ibusOvervoltage then
      if s.fc.ibusOvSeen then { s with fc := { s.fc with ovRestartDue := false } }
      else { s with fc := { s.fc with ibusOvSeen := true, ovRestartDue := true } }
    else s
  | _ => s

/-- The causes after which the input converter does not run in auxiliary mode (R533). -/
def noAux (code : Nat) (secondOv : Bool) : Bool :=
  code == FC.emergencyStop || code == FC.inputOvercurrent || code == FC.busOvervoltage || (code == FC.ibusOvervoltage && secondOv)

/-- Steps 2 to 4 of a FATAL reaction (R533), after the immediate stop. -/
def State.fatalStop (s : State) (code : Nat) (secondOv : Bool) : State :=
  let s1 := (s.beginStop allRails 4).stopStorage (some code) true
  let s2 : State := { s1 with mod := { s1.mod with fatal := true } }
  if s2.shim.busPresent ∧ !noAux code secondOv ∧ !s2.shim.isolationOpen then
    ({ s2 with fc := { s2.fc with auxMode := true }, shim := { s2.shim with input := { s2.shim.input with running := true } } } : State).settlePower
  else ((s2.stopInput (some code)).openIsolation).settlePower

/-- The reaction to a record of a level (R529). -/
def State.react (s : State) (code unit scope lv : Nat) : State :=
  let secondOv := s.fc.ibusOvSeen
  let s1 := if 3 ≤ lv then
      ({ s with fc := { s.fc with haltsDue := s.fc.haltsDue ++ [(scope, s.now + rcUs)] } } : State).abortRest true
    else s
  let s2 := if 4 ≤ lv then
      let s2 := s1.enterSafe
      let s3 := if lv = 5 ∨ stopsAtOnce code unit then s2.immediateStop stopFault else s2.orderlyStop stopFault
      s3.classAction code
    else s1
  if lv = 5 then s2.fatalStop code secondOv else s2

/-! ### Records (R528, R535 to R540) -/

/-- A record joins the log (R538): at most 16 NOTE and MINOR records of a code in a second; the oldest of 256 makes way. -/
def FaultState.logRecord (f : FaultState) (r : FaultRec) (second : Nat) : FaultState :=
  let counts := if f.logSecond = second then f.logCounts else []
  let n := SMap.get counts r.code 0
  if r.level ≤ 2 ∧ 16 ≤ n then { f with logSecond := second, logCounts := counts }
  else
    let full := decide (256 ≤ f.log.length)
    { f with logSecond := second, logCounts := if r.level ≤ 2 then SMap.set counts r.code (n + 1) 0 else counts,
             log := (if full then f.log.tail else f.log) ++ [r],
             logLost := if full then min (f.logLost + 1) 0xFFFFFFFF else f.logLost }

/-- A record of MINOR or higher enters its class slot, and a new one ends `ACK_PENDING` (R536, R537, R543). -/
def FaultState.slotRecord (f : FaultState) (r : FaultRec) : FaultState :=
  if r.level < 2 then f
  else
    let c := r.code / 256
    let x := SMap.get f.slots c emptySlot
    { f with firstSource := if f.quiet then some (r.seq, r.code) else f.firstSource,
             slots := SMap.set f.slots c { recs := x.recs ++ [r], count := min (x.count + 1) 65535, ackPending := false } emptySlot,
             eventsDue := f.eventsDue + 1 }

/-- The record of a fault at level `lv0` before escalation, and its reaction (R528, R540). -/
def State.latch (s0 : State) (src : Source) (m : FaultMsg) (lv0 : Nat) (injected : Bool) : State :=
  let s := s0.settleOut
  let esc := (s.classSlot (m.code / 256)).escalates src m.code lv0 s.coldPc
  let lv := if esc then lv0 + 1 else lv0
  let r : FaultRec :=
    { code := m.code, baseLevel := baseLevel m.code, level := lv, scope := m.scope, escalated := esc, injected := injected,
      cond := m.cond, unit := m.unit, seq := s.fc.nextSeq, detail := m.detail, frame := s.frame.number % 2 ^ 48, timePc := s.coldPc,
      src := src }
  let first := decide (2 ≤ lv) && s.fc.quiet
  let f := (s.fc.slotRecord r).logRecord r (s.coldPc / 240000000)
  let lost := f.logLost - s.fc.logLost
  let s1 := (({ s with fc := { f with nextSeq := (s.fc.nextSeq + 1) % 2 ^ 32 } } : State).bump (0xBEA + lv) 1).bump 0xBF1 lost
  let s2 := if esc then s1.bump 0xBF0 1 else s1
  let s3 := if first then s2.bump 0xBF7 1 else s2
  let s4 := if injected then s3.bump 0xBF4 1 else s3
  let s5 := if 2 ≤ lv then s4.assertOut else s4
  (s5.settleReactionTimes).react m.code m.unit m.scope lv

/-- A raised fault that has arrived is on its way no more. -/
def dropFirst (x : Raised) : List Raised → List Raised
  | [] => []
  | y :: r => if y = x then r else y :: dropFirst x r

/-- The codes the fault collector raises itself (R526). -/
def raisedByFc (code : Nat) : Bool :=
  code == FC.mpCoastTimeout || code == FC.mpNone || (decide (0xA01 ≤ code) && decide (code ≤ 0xA06)) || code / 256 == 12

/-- Place of a fault in the order of arrival within one pc (R527): the collector's own, the PWC units in ascending class, HD, CD0 to CD3. -/
def arrivalRank (src : Source) (code : Nat) : Nat :=
  match src with
  | .pwc => if raisedByFc code then 1 else 2 + code / 256
  | .hd => 300
  | .cd n => 301 + n.val

/-- The die whose fault line carries a message: 4 for HD. -/
def Source.line : Source → Option Nat
  | .cd n => some n.val
  | .hd => some 4
  | .pwc => none

/-- The pc in which a fault raised at `raisedAt` and reported now reaches the collector (R527, R528): a die's message takes 64 pc on its
line, behind the line's last; at most one fault per source and pc, in the order of arrival, a later place taking the next pc. -/
def State.arrivalPc (s : State) (src : Source) (code raisedAt : Nat) : Nat :=
  let pc := match src.line with
    | none => max (s.now / rcPc) (raisedAt / rcPc)
    | some d => max (s.now / rcPc) (max (raisedAt / rcPc) (SMap.get s.fc.lineDone d 0) + 64)
  if s.fc.lastArrival.1 = pc ∧ arrivalRank src code ≤ s.fc.lastArrival.2 then pc + 1 else pc

/-- The first raised fault of a source with a message, as raised. -/
def State.raisedFault (s : State) (src : Source) (msg : FaultMsg) : Raised :=
  (s.fc.raised.find? (fun x => decide (x.src = src) && decide (x.msg = msg))).getD { src := src, msg := msg, raisedAt := 0 }

/-- A fault reaches the collector: its arrival is placed (R527), and it is on its way no more. -/
def State.arrive (s : State) (src : Source) (msg : FaultMsg) : State :=
  let x := s.raisedFault src msg
  let pc := s.arrivalPc src msg.code x.raisedAt
  let s1 := s.onEdge (max s.now (pc * rcPc)) 2
  let f := s1.fc
  { s1 with fc := { f with raised := dropFirst x f.raised, lastArrival := (pc, arrivalRank src msg.code),
                           lineDone := match src.line with | none => f.lineDone | some d => SMap.set f.lineDone d pc 0 } }

/-- A fault reaches the collector (R527, R528): `bad` tells that its message failed its check. -/
def execFaultArrival (src : Source) (msg : FaultMsg) (bad : Bool) (t : Nat) (s : State) : Outcome :=
  let s := s.onEdge t 2
  if !s.mod.powered then .next s
  else
    let s1 := s.arrive src msg
    if bad || baseLevel msg.code == 0 then
      .next (((s1.bump 0xBF6 1).latch .pwc { code := FC.faultMessageBad, unit := noUnit, scope := 0xFF, detail := 0, cond := false }
        (s1.levelOf FC.faultMessageBad) false))
    else .next (s1.latch src msg (s1.levelOf msg.code) false)

/-- HD sends the halt dowels of the reactions that are due, 1.0 microsecond after their faults arrived (R528, R530). -/
def execReactionHaltDowels (t : Nat) (s : State) : Outcome :=
  let s := s.upTo t
  let due := (s.fc.haltsDue.filter (fun h => decide (h.2 ≤ s.now))).map (·.1)
  let jobs := if due.contains 0xFF then s.runningJobs else s.runningJobs.filter (fun p => due.contains p)
  .next (({ s with fc := { s.fc with haltsDue := s.fc.haltsDue.filter (fun h => decide (s.now < h.2)) } } : State).haltJobsOf jobs)

/-- Records of MINOR or higher are signalled to the PF as `FAULT_EVENT` (R542); while the hub has no power no signal is sent. -/
def execFaultEvent (t : Nat) (s : State) : Outcome :=
  let s := s.upTo t
  if s.fc.eventsDue = 0 then .next s
  else
    let s1 : State := { s with fc := { s.fc with eventsDue := 0 } }
    .next (if (s.rail 4).good then s1.pfEvent 2 else s1)

/-- A time of FAULT_OUT_N ends (R541): the pulse or hold after 10 microseconds with no reaction of MAJOR or higher in force, or the gap
before an assertion that waits. -/
def execFaultOutTimer (t : Nat) (s : State) : Outcome := .next ((s.upTo t).settleOut.releaseOut)

/-! ### Conditions and acknowledgement (R524, R543, R544) -/

/-- The reactions above the level in force end (R544): SAFE is left; converters, dies and the loader go on by their own rules. -/
def State.settleReactions (s : State) : State :=
  let f := if s.fc.quiet then { s.fc with firstSource := none } else s.fc
  (((({ s with fc := f } : State).releaseOut).settleReactionTimes).leaveSafe).settleActive

/-- Slots marked `ACK_PENDING` whose records have no condition left are emptied. -/
def State.settleAcks (s : State) : State :=
  ({ s with fc := { s.fc with slots := s.fc.slots.filter (fun kv => !(kv.2.ackPending && !kv.2.condPresent)) } } : State).settleReactions

/-- The module itself still sees the condition of a code: it is present until its own rule ends it. `which` is the input number of
`INPUT_OUT_OF_RANGE`. `STACK_WARM` names a die (R536): its condition is present while any stack of the die is warm (DEDUCED). -/
def State.conditionStands (s : State) (code unit which : Nat) : Bool :=
  if code = FC.dieWarn then (s.die unit).warn
  else if code = FC.dieThrottle then (s.die unit).throttle
  else if code = FC.dieShutdown then (s.die unit).shutdown
  else if code = FC.diodeFault then !(s.die unit).diodeValid
  else if code = FC.stackWarm then s.gov.stackWarm.any (fun k => k / 4 == unit)
  else if code = FC.coolantHot then s.gov.coolantRaised
  else if code = FC.flowLoss then s.gov.flowLow
  else if code = FC.emergencyStop then !s.pins.emergencyStopN
  else if code = FC.refHoldover then s.frame.holdoverSince.isSome
  else if code = FC.markMissing then s.frame.markMissing
  else if code = FC.mpCoastTimeout ∨ code = FC.mpNone then !s.mpServes
  else if code = FC.inputOutOfRange then s.fc.inputOutOfRange.contains which
  else if code = FC.converterHot then s.shim.input.hot || s.shim.storage.hot
  else if code = FC.stageHot then (s.rail (unit / 256)).hotStages.contains (unit % 256)
  else if code = FC.t1Hot then s.mem.t1Hot.contains unit
  else if code = FC.islandExhausted then s.shim.busIsland
  else code == FC.fuseGroupInvalid || code == FC.testModeActive

/-- The condition of a fault has ended (R524, R543): `which` is the input number of `INPUT_OUT_OF_RANGE`; for `CONVERTER_HOT`, 0 tells
that the input converter has cooled below 90 degrees and 1 the storage converter (R390). Its records have no condition any more. -/
def execFaultConditionClear (code unit which t : Nat) (s : State) : Outcome :=
  let s := s.upTo t
  let s0 : State :=
    if code = FC.converterHot then
      { s with shim := if which = 0 then { s.shim with input := { s.shim.input with hot := false } }
                       else { s.shim with storage := { s.shim.storage with hot := false } } }
    else if code = FC.inputOutOfRange ∧ which ≠ 14 then
      { s with fc := { s.fc with inputOutOfRange := s.fc.inputOutOfRange.filter (· != which) } }
    else s
  if s0.conditionStands code unit which then .next s0
  else
    let off := fun (r : FaultRec) =>
      if r.code = code ∧ r.unit = unit ∧ (code ≠ FC.inputOutOfRange ∨ r.detail = which) then { r with cond := false } else r
    .next (({ s0 with fc := { s0.fc with log := s0.fc.log.map off,
                                         slots := s0.fc.slots.map (fun kv => (kv.1, { kv.2 with recs := kv.2.recs.map off })) } } :
      State).settleAcks)

/-! ### Commands (R552 to R559) -/

/-- The 32 bytes of a record (R535). A pc is 25/6 ns. -/
def FaultRec.bytes (r : FaultRec) : Bytes :=
  leBytes 2 r.code ++ leBytes 1 r.baseLevel ++ leBytes 1 r.level ++ leBytes 1 r.scope ++
  leBytes 1 (flags [r.escalated, r.injected, r.cond]) ++ leBytes 2 r.unit ++ leBytes 4 r.seq ++ leBytes 4 r.detail ++
  leBytes 8 r.frame ++ leBytes 8 (r.timePc * 25 / 6)

/-- Sixteen bytes of `FC_GET_SUMMARY` for a class slot (R553). -/
def ClassSlot.bytes (x : ClassSlot) : Bytes :=
  match x.recs.head?, x.recs.getLast? with
  | some a, some b =>
    leBytes 4 a.seq ++ leBytes 4 b.seq ++ leBytes 2 a.code ++ leBytes 2 b.code ++ leBytes 2 x.count ++ leBytes 1 x.level ++
    leBytes 1 (flags [true, x.condPresent, x.ackPending, x.recs.any (·.escalated)])
  | _, _ => zeros 16

def State.faultSummary (s : State) : Bytes :=
  let f := s.fc
  leBytes 4 (f.firstSource.elim 0xFFFFFFFF (·.1)) ++ leBytes 2 (f.firstSource.elim 0 (·.2)) ++ leBytes 1 s.levelInForce ++
  leBytes 1 (flags [f.out.low, testMode]) ++ leBytes 4 f.nextSeq ++ leBytes 4 f.logLost ++
  (List.range 12).flatMap (fun c => (s.classSlot (c + 1)).bytes)

def fcGetSummary : Cmd :=
  { code := 0x0601, via := .all, lengthOk := exactly 0, changes := never, act := fun s _ _ => .done stOk s s.faultSummary }

def fcGetLog : Cmd :=
  { code := 0x0602, via := .mbpMbk, lengthOk := exactly 8, changes := never,
    act := fun s k b =>
      if rd b 4 1 = 0 ∨ 126 < rd b 4 1 ∨ !zeroAt b 5 3 then .refused stRange
      else
        let l := (s.fc.log.filter (fun r => decide (rd b 0 4 ≤ r.seq) && (slotMbp k || r.scope == slotPartition k))).take (rd b 4 1)
        .done stOk s (leBytes 2 l.length ++ zeros 6 ++ l.flatMap FaultRec.bytes) }

/-- What `FC_ACK_FAULTS` finds for a class (R543): 0 acknowledged, 1 stale, 2 pending, 3 fatal. -/
def ClassSlot.ackResult (x : ClassSlot) (expect : Nat) : Nat :=
  if x.recs.isEmpty then 0 else if x.lastSeq ≠ expect then 1 else if x.level = 5 then 3 else if x.condPresent then 2 else 0

def fcAckFaults : Cmd :=
  { code := 0x0603, via := .mbp, lengthOk := exactly 56, changes := always,
    act := fun s _ b =>
      let mask := rd b 0 2
      if 4096 ≤ mask ∨ !zeroAt b 2 6 ∨ (List.range 12).any (fun c => !bitAt mask c && !zeroAt b (8 + 4 * c) 4) then .refused stRange
      else
        let named := (List.range 12).filter (fun c => bitAt mask c)
        let res := fun (c : Nat) => (s.classSlot (c + 1)).ackResult (rd b (8 + 4 * c) 4)
        let maskOf := fun (r : Nat) => flags ((List.range 12).map (fun c => bitAt mask c && res c == r))
        let s1 := named.foldl (fun s c =>
          if res c = 0 then s.setClassSlot (c + 1) emptySlot
          else if res c = 2 then s.setClassSlot (c + 1) { s.classSlot (c + 1) with ackPending := true }
          else s) s
        let s2 := (s1.bump 0xBF2 (named.filter (fun c => res c == 0 || res c == 2)).length).bump 0xBF3
          (named.filter (fun c => res c == 1)).length
        .done (if maskOf 1 = 0 ∧ maskOf 3 = 0 then stOk else stStale) s2.settleReactions
          (leBytes 2 (maskOf 0) ++ leBytes 2 (maskOf 1) ++ leBytes 2 (maskOf 2) ++ leBytes 2 (maskOf 3)) }

def fcSetLevel : Cmd :=
  { code := 0x0604, via := .mbp, lengthOk := exactly 8, changes := always,
    act := fun s _ b =>
      let code := rd b 0 2
      let lv := rd b 2 1
      if baseLevel code = 0 ∨ lv = 0 ∨ 4 < lv ∨ !zeroAt b 3 5 then .refused stRange
      else if lv < baseLevel code then .refused stFuseLimit
      else .done stOk { s with fc := { s.fc with setLevels := SMap.set s.fc.setLevels code lv 0 } } [] }

/-- The source of R527 that raises a code for an instance. -/
def sourceOfCode (code unit : Nat) : Source :=
  match code / 256 with
  | 5 =>
    if code = FC.t2Corrected ∨ code = FC.t2Uncorrected ∨ (FC.t3Uncorrected ≤ code ∧ code ≤ FC.t3WearLimit) then .hd
    else if 0x520 ≤ code then Source.ofDie (sectionOfUnit unit)
    else if 0x100 ≤ unit then Source.ofDie (unit % 256) else Source.ofDie (unit / 4)
  | 6 => .hd
  | 7 => .hd
  | 8 => Source.ofDie (sectionOfUnit unit)
  | 11 => .hd
  | _ => .pwc

def fcInjectFault : Cmd :=
  { code := 0x0605, via := .mbp, lengthOk := exactly 16, changes := always,
    act := fun s _ b =>
      let code := rd b 0 2
      let scope := rd b 3 1
      let lv := if rd b 2 1 = 0 then s.levelOf code else rd b 2 1
      if baseLevel code = 0 ∨ 5 < rd b 2 1 ∨ (15 < scope ∧ scope ≠ 0xFF) ∨ !zeroAt b 6 2 ∨ !zeroAt b 12 4 then .refused stRange
      else if 3 ≤ lv ∧ !testMode then .refused stDenied
      else
        let src := sourceOfCode code (rd b 4 2)
        let esc := (s.classSlot (code / 256)).escalates src code lv s.coldPc
        .done stOk (s.latch src { code := code, unit := rd b 4 2, scope := scope, detail := rd b 8 4, cond := false } lv true)
          (leBytes 4 s.fc.nextSeq ++ leBytes 1 (if esc then lv + 1 else lv) ++ zeros 3) }

/-- The response of `ID_GET_IDENTITY` (R558). `PACK_CHANGED` is R14's. -/
def State.identity (s : State) : Bytes :=
  fuseBytes 0 16 ++ slice s.cells.packSerial 0 16 ++ fuseBytes 0x10 16 ++ fuseBytes 0x20 1 ++
  leBytes 1 s.controller.fwMajor ++ leBytes 1 s.controller.fwMinor ++ leBytes 1 s.controller.capLevel ++ leBytes 1 s.mp.lastOwner ++
  leBytes 1 (flags [testMode, s.cells.packChanged]) ++ leBytes 2 (s.pins.slotId.getD 0) ++ fuseBytes 0x28 12 ++ zeros 12

def idGetIdentity : Cmd :=
  { code := 0x0A01, via := .all, lengthOk := exactly 0, changes := never, act := fun s _ _ => .done stOk s s.identity }

def fuseReadGroup : Cmd :=
  { code := 0x0A02, via := .mbp, lengthOk := exactly 4, changes := never,
    act := fun s _ b =>
      let o := rd b 0 2
      let n := rd b 2 2
      match fuseGroupOf o with
      | none => .refused stRange
      | some g =>
        if o % 64 ≠ 0 ∨ n % 64 ≠ 0 ∨ n = 0 ∨ 4032 < n ∨ g.1 + g.2 < o + n then .refused stRange
        else .done stOk s (leBytes 1 (SMap.get s.fc.fuseCopy g.1 0) ++ zeros 7 ++ fuseBytes o n) }

def execFcGetSummary (slot : Fin 19) (t : Nat) (s : State) : Outcome := s.serve fcGetSummary slot t
def execFcGetLog (slot : Fin 19) (t : Nat) (s : State) : Outcome := s.serve fcGetLog slot t
def execFcAckFaults (slot : Fin 19) (t : Nat) (s : State) : Outcome := s.serve fcAckFaults slot t
def execFcSetLevel (slot : Fin 19) (t : Nat) (s : State) : Outcome := s.serve fcSetLevel slot t
def execFcInjectFault (slot : Fin 19) (t : Nat) (s : State) : Outcome := s.serve fcInjectFault slot t
def execIdGetIdentity (slot : Fin 19) (t : Nat) (s : State) : Outcome := s.serve idGetIdentity slot t
def execFuseReadGroup (slot : Fin 19) (t : Nat) (s : State) : Outcome := s.serve fuseReadGroup slot t

end Sys2Proof.Machine
end

