-- ==== Sys2Proof/Machine/FrameCommands.lean ====
section
/-! DEFINITION. The commands of the frame timing unit (R62 to R70, R75 to R79). -/

namespace Sys2Proof.Machine

/-- The codes of cadence and clamp mode. -/
def cadenceOf (n : Nat) : Cadence := if n = 0 then .fixed else .barrier
def Cadence.number (c : Cadence) : Nat := match c with | .fixed => 0 | .barrier => 1
def clampModeOf (n : Nat) : ClampMode := if n = 0 then .opportunistic else .fixedFrequency
def ClampMode.number (c : ClampMode) : Nat := match c with | .opportunistic => 0 | .fixedFrequency => 1

/-- `FIXED_STATE` agrees with the clamp mode. -/
def fixedStateOk (c : ClampMode) (f : Nat) : Bool :=
  match c with
  | .opportunistic => f == 0
  | .fixedFrequency => decide (1 ≤ f) && decide (f ≤ 5)

/-- The response of `FT_JOIN_DOMAIN` and `FT_SET_DOMAIN` (R76). -/
def joinReply (result level : Nat) : Bytes := leBytes 1 result ++ leBytes 1 level ++ zeros 6

/-- A level above the module's own is refused with its fault (R61, R63, R69). -/
def State.refuseLevel (s : State) : Reply :=
  .done stDenied (s.raise .hd FC.joinRefused noUnit 0) (joinReply 1 s.moduleLevel)

/-! ### FT_JOIN_DOMAIN (R62 to R66, R76) -/

/-- The declaration in a payload. -/
def joinOf (b : Bytes) : PendingJoin :=
  let parent := rd b 32 2
  { dom := { id := rd b 0 4, level := rd b 4 1, memberIndex := rd b 28 2, memberCount := rd b 30 2,
             parent := if parent = 0xFFFF then none else some parent,
             children := (List.range (rd b 34 1)).map (fun i => rd b (40 + 2 * i) 2),
             watchdogFactor := if rd b 35 1 = 0 then 32 else rd b 35 1, releaseMarginNs := rd b 36 4 },
    modes := { cadence := cadenceOf (rd b 5 1), clampMode := clampModeOf (rd b 6 1), fixedState := rd b 7 1, frameLengthUs := rd b 24 4 },
    joinFrame := rd b 8 8, joinTime := rd b 16 8 }

/-- Whether every field of a declaration is in its range. -/
def joinInRange (b : Bytes) : Bool :=
  let j := joinOf b
  let n := j.dom.memberCount
  let fixed := rd b 5 1 == 0
  decide (j.dom.id ≠ 0) && decide (1 ≤ j.dom.level) && decide (rd b 5 1 ≤ 1) && decide (rd b 6 1 ≤ 1) &&
  fixedStateOk j.modes.clampMode j.modes.fixedState && decide (j.joinFrame < 2 ^ 48) && (fixed || j.joinTime == 0) &&
  (if fixed then decide (100 ≤ j.modes.frameLengthUs) && decide (j.modes.frameLengthUs ≤ 8000000) else j.modes.frameLengthUs == 0) &&
  decide (1 ≤ n) && decide (n ≤ 8192) && decide (j.dom.memberIndex < n) && j.dom.parent.all (fun p => decide (p < n)) &&
  decide (rd b 34 1 ≤ 31) && j.dom.children.all (fun c => decide (c < n)) &&
  ((List.range 31).drop (rd b 34 1)).all (fun i => rd b (40 + 2 * i) 2 == 0xFFFF) &&
  (rd b 35 1 == 0 || decide (20 ≤ rd b 35 1)) &&
  (match j.dom.parent with
   | some _ => j.dom.releaseMarginNs == 0
   | none => decide (10 ≤ j.dom.releaseMarginNs) && decide (j.dom.releaseMarginNs ≤ 2400) && j.dom.releaseMarginNs % 10 == 0) &&
  zeroAt b 102 2

/-- A declaration that names the module's own domain keeps its cadence, clamp mode, level and frame length (R66). -/
def State.keepsDomain (s : State) (d : Domain) (j : PendingJoin) : Bool :=
  decide (j.modes.cadence = s.frame.modes.cadence) && decide (j.modes.clampMode = s.frame.modes.clampMode) && j.dom.level == d.level &&
  (j.modes.frameLengthUs == s.frame.modes.frameLengthUs || decide (j.modes.cadence = .barrier))

/-- The members that a declaration makes neighbours in the tree are reached by a trained link (R62, R300). -/
def State.treeTrained (s : State) (d : Domain) : Bool := (d.parent.toList ++ d.children).all (fun m => (s.linkTo m).isSome)

/-- A declaration for the module's own domain replaces its tree position from `JOIN_FRAME` on (R66). -/
def State.acceptTree (s : State) (j : PendingJoin) : Reply :=
  .done stOk { s with frame := { s.frame with pendingTree := some { frame := j.joinFrame, parent := j.dom.parent,
                                                                    children := j.dom.children,
                                                                    releaseMarginNs := j.dom.releaseMarginNs } } }
    (joinReply 0 s.moduleLevel)

/-- A declaration for a new domain (R62, R63); `JOIN_TIME` must lie 5 ms ahead under FIXED cadence. Where the level is too high and another
condition of R62 fails as well, `STATE` is answered and no fault raised; a second declaration accepted while one waits takes its place
(DESIGN CHOICES: neither order nor case is in the manual). -/
def State.acceptJoin (s : State) (j : PendingJoin) : Reply :=
  if j.modes.cadence = .fixed ∧ j.joinTime < s.rt + 500000 then .refused stRange
  else if testMode then .refused stDenied
  else if s.mod.mode ≠ .active ∨ s.frame.domain.isSome ∨ !s.frame.rtLocked ∨ !s.treeTrained j.dom then .refused stState
  else if s.moduleLevel < j.dom.level then s.refuseLevel
  else .done stOk { s with frame := { s.frame with pendingJoin := some j } } (joinReply 0 s.moduleLevel)

def ftJoinDomain : Cmd :=
  { code := 0x0801, via := .mbp, lengthOk := exactly 104, changes := always,
    act := fun s _ b =>
      let j := joinOf b
      if !joinInRange b then .refused stRange
      else match s.frame.domain with
        | some d =>
          if d.id = j.dom.id then (if s.keepsDomain d j then s.acceptTree j else .refused stRange) else s.acceptJoin j
        | none => s.acceptJoin j }

/-! ### FT_LEAVE_DOMAIN (R67, R77) -/

/-- A second command accepted while a leave waits takes its place (DESIGN CHOICE: the manual names no case). -/
def ftLeaveDomain : Cmd :=
  { code := 0x0802, via := .mbp, lengthOk := exactly 16, changes := always,
    act := fun s _ b =>
      let f := if rd b 0 8 = 0 then s.frame.number + 2 else rd b 0 8
      let force := rd b 8 1 == 1
      if 2 ^ 48 ≤ rd b 0 8 ∨ f < s.frame.number + 2 ∨ 1 < rd b 8 1 ∨ !zeroAt b 9 7 then .refused stRange
      else if s.frame.domain.isNone ∨ (!s.runningJobs.isEmpty ∧ !force) then .refused stState
      else
        let s1 := s.haltJobsOf s.runningJobs
        .done stOk { s1 with frame := { s1.frame with leaveFrame := some f } } (leBytes 8 (f - 1)) }

/-! ### FT_SET_DOMAIN (R69, R70, R78) -/

/-- One field after a change. -/
def newer {α : Type} (a b : Option α) : Option α := b.orElse (fun _ => a)

/-- Two changes of one frame: the later command's fields win. -/
def DomainChange.merge (a b : DomainChange) : DomainChange :=
  { frame := a.frame, time := if b.time = 0 then a.time else b.time, frameLengthUs := newer a.frameLengthUs b.frameLengthUs,
    level := newer a.level b.level, cadence := newer a.cadence b.cadence, clampMode := newer a.clampMode b.clampMode,
    fixedState := newer a.fixedState b.fixedState, watchdogFactor := newer a.watchdogFactor b.watchdogFactor }

/-- A change joins those that wait, merged with one of the same frame. -/
def addChange (c : DomainChange) : List DomainChange → List DomainChange
  | [] => [c]
  | x :: r => if x.frame = c.frame then x.merge c :: r else x :: addChange c r

/-- The modes that a change leaves. -/
def Modes.after (m : Modes) (c : DomainChange) : Modes :=
  { cadence := c.cadence.getD m.cadence, clampMode := c.clampMode.getD m.clampMode, fixedState := c.fixedState.getD m.fixedState,
    frameLengthUs := c.frameLengthUs.getD m.frameLengthUs }

/-- The modes of the domain when frame `f` begins, as the changes accepted so far have it. -/
def State.modesAt (s : State) (f : Nat) : Modes :=
  (s.frame.changes.filter (fun c => decide (c.frame ≤ f))).foldl Modes.after s.frame.modes

/-- The change in a payload. -/
def changeOf (b : Bytes) : DomainChange :=
  let opt := fun (off none_ : Nat) => if rd b off 1 = none_ then none else some (rd b off 1)
  let clamp := (opt 22 0xFF).map clampModeOf
  { frame := rd b 0 8, time := rd b 8 8, frameLengthUs := if rd b 16 4 = 0 then none else some (rd b 16 4), level := opt 20 0,
    cadence := (opt 21 0xFF).map cadenceOf, clampMode := clamp,
    fixedState := newer (if clamp = some .opportunistic then some 0 else none) (opt 23 0xFF),
    watchdogFactor := if rd b 24 1 = 0 then none else some (rd b 24 1) }

/-- Whether every field of a change is in its range (R78). -/
def State.changeInRange (s : State) (b : Bytes) : Bool :=
  let m := s.modesAt (rd b 0 8)
  let c := changeOf b
  let n := m.after c
  let retimes := decide (n.cadence ≠ m.cadence) || decide (n.frameLengthUs ≠ m.frameLengthUs)
  decide (c.frame < 2 ^ 48) && decide (s.frame.number + 2 ≤ c.frame) &&
  (rd b 16 4 == 0 || (decide (100 ≤ rd b 16 4) && decide (rd b 16 4 ≤ 8000000))) &&
  (decide (rd b 21 1 ≤ 1) || rd b 21 1 == 0xFF) && (decide (rd b 22 1 ≤ 1) || rd b 22 1 == 0xFF) &&
  (decide (rd b 23 1 ≤ 5) || rd b 23 1 == 0xFF) && (rd b 24 1 == 0 || decide (20 ≤ rd b 24 1)) && zeroAt b 25 7 &&
  fixedStateOk n.clampMode n.fixedState && (decide (c.time ≠ 0) == (decide (n.cadence = .fixed) && retimes)) &&
  (decide (n.cadence = .barrier) || decide (100 ≤ n.frameLengthUs))

/-- The capability level of a jig that runs (R69, R113) lies above `level`. -/
def State.jigAbove (s : State) (level : Nat) : Bool :=
  s.runningJobs.any (fun p => (s.partJig p).elim false (fun j => decide (level < j.jig.capLevel)))

def ftSetDomain : Cmd :=
  { code := 0x0803, via := .mbp, lengthOk := exactly 32, changes := always,
    act := fun s _ b =>
      let m := s.modesAt (rd b 0 8)
      let c := changeOf b
      if !s.changeInRange b then .refused stRange
      else if s.frame.domain.isNone then .refused stState
      else if decide (m.after c ≠ m) && !s.runningJobs.isEmpty then .refused stState
      else if c.level.elim false (fun l => s.jigAbove l) then .refused stState
      else if c.level.elim false (fun l => decide (s.moduleLevel < l)) then s.refuseLevel
      else .done stOk { s with frame := { s.frame with changes := addChange c s.frame.changes } } (joinReply 0 s.moduleLevel) }

/-! ### FT_GET_FRAME_STATUS (R79) -/

/-- The response through slot `k`. A slack or stretch that 32 bits do not hold is given modulo 2^32 (DESIGN CHOICE: R79 names no
saturation). -/
def State.frameStatus (s : State) (k : Nat) : Bytes :=
  let x := s.frame.status
  let halted := if slotMbk k then x.halted.filter (· == slotPartition k) else x.halted
  leBytes 8 (x.frameNumber % 2 ^ 48) ++ leBytes 8 x.kerfRt ++ leBytes 4 x.domainId ++ leBytes 1 x.domainLevel ++
  leBytes 1 x.moduleLevel ++ leBytes 1 x.cadence.number ++ leBytes 1 x.clampMode.number ++ leBytes 1 x.freqState ++
  leBytes 1 x.memberState ++ leBytes 1 x.activeRef ++ zeros 1 ++ leInt 4 x.slackNs ++ leBytes 4 x.stretchNs ++
  leBytes 4 s.frame.lastExtRc ++ leBytes 4 x.overrunCount ++ leBytes 4 x.deferredCount ++
  leBytes 2 (flags (allPartitions.map (fun p => halted.contains p))) ++ zeros 6

def ftGetFrameStatus : Cmd :=
  { code := 0x0804, via := .mbpMbk, lengthOk := exactly 0, changes := never, act := fun s k _ => .done stOk s (s.frameStatus k) }

def execFtJoinDomain (slot : Fin 19) (t : Nat) (s : State) : Outcome := s.serve ftJoinDomain slot t
def execFtLeaveDomain (slot : Fin 19) (t : Nat) (s : State) : Outcome := s.serve ftLeaveDomain slot t
def execFtSetDomain (slot : Fin 19) (t : Nat) (s : State) : Outcome := s.serve ftSetDomain slot t
def execFtGetFrameStatus (slot : Fin 19) (t : Nat) (s : State) : Outcome := s.serve ftGetFrameStatus slot t

end Sys2Proof.Machine
end

