-- ==== Sys2Proof/Machine/HostOps.lean ====
section
/-! DEFINITION. Operations of the host interface that other subsystems share: partition records and their checks (R335 to R339), the traffic
of the aperture that waits in the hub (R340 to R344). -/

namespace Sys2Proof.Machine

/-! ### Partition records (R335, R336) -/

/-- The record of partition `p` as the PF reads it. -/
def State.recordOf (s : State) (p : Nat) : Bytes := slice (SMap.get s.host.records p []) 0 320

/-- A range of granules lies in a memory of `n`. -/
def granulesIn (first count n : Nat) : Bool := decide (first < n) && decide (first + count ≤ n)

/-- Every field of a record is in range and every reserved field is zero (R336). -/
def recordInRange (b : Bytes) : Bool :=
  zeroAt b 2 6 && zeroAt b 24 8 && zeroAt b 138 6 && zeroAt b 248 8 && zeroAt b 296 24 &&
  (List.range 4).all (fun n =>
    granulesIn (rd b (96 + 2 * n) 1) (rd b (97 + 2 * n) 1) 192 && decide (rd b (104 + 2 * n) 2 ≤ 13333) &&
    decide (rd b (112 + 2 * n) 2 < 1024) && decide (rd b (112 + 2 * n) 2 + rd b (120 + 2 * n) 2 ≤ 1024) &&
    decide (rd b (128 + 2 * n) 2 ≤ 8192)) &&
  decide (rd b 136 2 ≤ 4096) &&
  (List.range 16).all (fun k => granulesIn (rd b (144 + 2 * k) 1) (rd b (145 + 2 * k) 1) 192) &&
  granulesIn (rd b 240 2) (rd b 242 2) 1536 && granulesIn (rd b 244 2) (rd b 246 2) 2048 &&
  decide (rd b 256 16 < 2 ^ 125) && decide (rd b 272 16 < 2 ^ 125) && decide (rd b 288 4 < 2 ^ 25) && decide (rd b 292 4 < 2 ^ 25) &&
  decide (rd b 272 16 ≠ 0) && decide (rd b 272 16 &&& rd b 256 16 = rd b 272 16) &&
  decide (rd b 292 4 &&& rd b 288 4 = rd b 292 4)

/-- Two ranges share a member. -/
def rangesMeet (a n b m : Nat) : Bool := decide (0 < n) && decide (0 < m) && decide (a < b + m) && decide (b < a + n)

/-- Two records name a common resource (R336). -/
def recordsMeet (x y : Bytes) : Bool :=
  let mask := fun (off n : Nat) => decide (rd x off n &&& rd y off n ≠ 0)
  mask 0 2 || mask 8 16 || mask 32 32 || mask 64 32 || mask 256 16 || mask 288 4 ||
  (List.range 4).any (fun n =>
    rangesMeet (rd x (96 + 2 * n) 1) (rd x (97 + 2 * n) 1) (rd y (96 + 2 * n) 1) (rd y (97 + 2 * n) 1) ||
    rangesMeet (rd x (112 + 2 * n) 2) (rd x (120 + 2 * n) 2) (rd y (112 + 2 * n) 2) (rd y (120 + 2 * n) 2)) ||
  (List.range 16).any (fun k =>
    rangesMeet (rd x (144 + 2 * k) 1) (rd x (145 + 2 * k) 1) (rd y (144 + 2 * k) 1) (rd y (145 + 2 * k) 1) ||
    mask (176 + 4 * k) 4) ||
  rangesMeet (rd x 240 2) (rd x 242 2) (rd y 240 2) (rd y 242 2) || rangesMeet (rd x 244 2) (rd x 246 2) (rd y 244 2) (rd y 246 2)

/-- The sum of a field over records. -/
def fieldSum (l : List Bytes) (off : Nat) : Nat := l.foldl (fun n b => n + rd b off 2) 0

/-- The shares of records fit benches and stores (R336). -/
def sharesFit (l : List Bytes) : Bool :=
  (List.range 4).all (fun n => decide (fieldSum l (104 + 2 * n) ≤ 13333) && decide (fieldSum l (128 + 2 * n) ≤ 8192)) &&
  decide (fieldSum l 136 ≤ 4096)

/-- `RESULT` of an enable (R336): 0 OK, 2 CONFLICT, 3 RANGE. -/
def State.enableResult (s : State) (p : Nat) : Nat :=
  let b := s.recordOf p
  let others := (s.host.enabled.filter (· != p)).map s.record
  if !recordInRange b then 3
  else if others.any (recordsMeet b) ∨ !sharesFit (b :: others) then 2
  else 0

/-- A `PART_CTRL` command (R336, R337, R339): action 1 ENABLE, 2 DISABLE. -/
def State.partCtrl (s : State) (p action : Nat) : State :=
  let h := s.host
  if h.ctrlPending then { s with host := { h with ctrlResult := 1 } }
  else
    let r := if action = 1 then s.enableResult p
      else if (s.partJig p).isSome then 4
      else if (s.vf p).quiescing then 1
      else 0
    let h1 := { h with ctrlPartition := p, ctrlAction := action, ctrlResult := r }
    if r ≠ 0 then { s with host := h1 }
    else if action = 1 then { s with host := { h1 with ctrlPending := true, ctrlPc := s.now / rcPc, pendingEnable := [p] } }
    else { s with host := { h1 with ctrlPending := true, ctrlPc := s.now / rcPc, pendingDisable := [p] } }

/-! ### Aperture traffic (R334, R340 to R344) -/

/-- The module address of an aperture offset, where one exists (R334). -/
def apertureAddress (x : Nat) : Option Nat :=
  if x < 0x18000000000 ∨ (0x20000000000 ≤ x ∧ x < 0x40000000000) then some (0x20000000000 + x) else none

/-- `APERTURE_DENIED`, at most once per frame for each function (R344). -/
def State.denied (s : State) (p : Nat) : State :=
  let v := s.vf p
  let s1 := s.bump (0x98F + 8 * p) 1
  if v.deniedRaised then s1 else (s1.setVf p { v with deniedRaised := true }).raiseVf FC.apertureDenied p

/-- A completion is returned to the host. -/
def State.complete (s : State) (p n : Nat) (c : Completion) : State :=
  (s.setVf p { s.vf p with completions := (s.vf p).completions ++ [(n, c)] }).bump (0x989 + 8 * p) 1

/-- The TLP is a write. -/
def ApertureTlp.writes (x : ApertureTlp) : Bool := match x.kind with | .write _ _ => true | .read _ _ => false

/-- Bytes of posted writes that the hub holds for a function: those that wait for a slot, and those in sector buffers (R341). -/
def Vf.postedBytes (v : Vf) : Nat :=
  v.accesses.foldl (fun n a => match a.kind with | .write d _ => n + d.length | .read _ _ => n) 0 +
  v.sectors.foldl (fun n c => n + c.bytes.length) 0

/-- Sector buffers in use (R342): a complete sector keeps its buffer until its slot. -/
def Vf.sectorsUsed (v : Vf) : Nat :=
  v.sectors.length + (v.accesses.filter (fun x => x.writes && tierOf x.address == 3)).length

/-- A Tier 3 write joins the assembly of its sector; a sector whose 4,096 bytes have come waits for its slot (R342). -/
def Vf.assemble (v : Vf) (now : Nat) (x : ApertureTlp) (data : Bytes) (enables : List Bool) : Vf :=
  let base := x.address - x.address % 4096
  let old := match v.sectors.find? (fun c => c.address == base) with
    | some c => c
    | none => { seq := x.seq, address := base, bytes := [], firstAt := now }
  let cells := (List.range data.length).foldl (fun m i =>
    if nth enables i true then SMap.set m (x.address % 4096 + i) (data[i]?) none else m) old.bytes
  let others := v.sectors.filter (fun c => c.address != base)
  if cells.length = 4096 then
    { v with sectors := others,
             accesses := v.accesses ++
               [{ seq := old.seq, address := base, kind := .write (cells.map (fun c => c.2.getD 0)) (List.replicate 4096 true) }] }
  else { v with sectors := { old with bytes := cells } :: others }

/-- A TLP can be taken: posted-write room (R341), and for Tier 3 a sector buffer (R342). -/
def Vf.canTake (v : Vf) (x : ApertureTlp) : Bool :=
  match x.kind with
  | .write d _ =>
    decide (v.postedBytes + d.length ≤ 262144) &&
      (decide (tierOf x.address ≠ 3) || v.sectors.any (fun c => c.address == x.address - x.address % 4096) ||
        decide (v.sectorsUsed < 32))
  | .read _ _ => true

/-- A TLP is taken. -/
def Vf.take (v : Vf) (now : Nat) (x : ApertureTlp) : Vf :=
  match x.kind with
  | .write d e => if tierOf x.address = 3 then v.assemble now x d e else { v with accesses := v.accesses ++ [x] }
  | .read _ _ => { v with accesses := v.accesses ++ [x] }

/-- TLPs that the link held back are taken in order while they can be. -/
def takeStalled (now : Nat) (v : Vf) : List ApertureTlp → Vf
  | [] => { v with stalled := [] }
  | x :: r => if v.canTake x then takeStalled now (v.take now x) r else { v with stalled := x :: r }

def Vf.unstall (v : Vf) (now : Nat) : Vf := takeStalled now v v.stalled

/-- A TLP arrives behind those the link holds back. -/
def Vf.arrive (v : Vf) (now : Nat) (x : ApertureTlp) : Vf := ({ v with stalled := v.stalled ++ [x], nextTlp := x.seq + 1 }).unstall now

/-- The accesses that a partition's function has under way are treated as R344 treats those of a disabled partition: writes are dropped,
reads complete as Completer Abort. -/
def State.abortAccesses (s : State) (p : Nat) : State :=
  let v := s.vf p
  let l := v.accesses ++ v.stalled
  let s1 := s.setVf p { v with accesses := [], sectors := [], stalled := [] }
  let s2 := if l.isEmpty && v.sectors.isEmpty then s1 else s1.denied p
  l.foldl (fun s x => match x.kind with | .read n _ => s.complete p n .aborted | .write _ _ => s) s2

end Sys2Proof.Machine
end

