-- ==== Sys2Proof/Machine/HostCode.lean ====
section
/-! DEFINITION. The host interface (R332 to R356): partition set-up, registers, aperture, doorbells, result and queue rings, resets. -/

namespace Sys2Proof.Machine

/-! ### Partition set-up (R335 to R339) -/

/-- `PART_CTRL` with `ACTION` ENABLE (R336). -/
def execPartCtrlEnable (p : Fin 16) (t : Nat) (s : State) : Outcome := .next (((s.onEdge t 7).bump 0x980 1).partCtrl p 1)

/-- `PART_CTRL` with `ACTION` DISABLE (R337). -/
def execPartCtrlDisable (p : Fin 16) (t : Nat) (s : State) : Outcome := .next (((s.onEdge t 7).bump 0x980 1).partCtrl p 2)

/-! ### Doorbells (R345 to R347) -/

/-- A doorbell of partition `p` is dropped. -/
def State.dropDoorbell (s : State) (p : Nat) : State :=
  ((s.setVf p { s.vf p with doorbellDropped := 1 }).raiseVf FC.doorbellDropped p).bump (0x98D + 8 * p) 1

/-- A write to `JIG_DOORBELL` (R345 to R347): `adr` is bits [40:12] of the image's aperture offset. -/
def State.doorbell (s : State) (p adr : Nat) : State :=
  let v := s.vf p
  let s1 := s.bump (0x98C + 8 * p) 1
  if !s.host.enabled.contains p ∨ v.quiescing ∨ 4 ≤ (s.jigs.doorbells.filter (fun d => d.partition == p)).length then
    s1.dropDoorbell p
  else
    { s1 with jigs := { s1.jigs with doorbells := s1.jigs.doorbells ++
        [{ partition := p, address := 0x20000000000 + adr * 4096, after := v.nextTlp }] } }

/-- `JIG_DOORBELL` (R345). -/
def execJigDoorbell (p : Fin 16) (adr : Fin 0x20000000) (t : Nat) (s : State) : Outcome :=
  .next (((s.onEdge t 7).bump (0x988 + 8 * p) 1).doorbell p adr)

/-! ### Host queue endpoints (R350 to R352) -/

/-- The queue that host endpoint `e` feeds or consumes, as the partition's jig declares it. -/
def State.hostQueue (s : State) (e : Nat) (producer : Bool) : Option Nat :=
  match s.partJig (e / 4) with
  | some j => (j.jig.queues.find? (fun q => (if producer then q.producer else q.consumer) == 0x4000 + e)).map (·.id)
  | none => none

/-- A write to the send position of local endpoint `q` (R351): the write that covers byte 511 sends the position as one entry. That of a
disabled partition is treated as an access to its aperture is (R337, R344). -/
def State.sendWindow (s : State) (p q off : Nat) (b : Bytes) : State :=
  if !s.host.enabled.contains p then s.denied p else
  let v := s.vf p
  let h := nth v.hqs q HostQueue.reset
  let h1 := { h with sendBytes := SMap.setRun h.sendBytes off (b.take (512 - off)) 0 }
  let s1 := s.setVf p { v with hqs := setNth v.hqs q h1 }
  if off < 512 ∧ 512 ≤ off + b.length then
    let entry : QEntry := { data := some ((List.range 512).map (fun i => some (SMap.get h1.sendBytes i 0))) }
    match s.hostQueue (4 * p + q) true with
    | some id => if (s1.queue id).canSend then s1.sendQueue id entry else s1.raiseVf FC.hqNoCredit p
    | none => s1.raiseVf FC.hqNoCredit p
  else s1

/-- The host write that covers byte 511 of a send position (R351): its bytes from `off` on. -/
def execHqSendEntry (p : Fin 16) (q : Fin 4) (off : Fin 512) (data : Bytes) (t : Nat) (s : State) : Outcome :=
  .next (((s.upTo t).bump (0x988 + 8 * p) 1).sendWindow p q off data)

/-- `SIZE_LOG2` as it acts: values outside 4 to 12 act as 4 (R348, R350). -/
def ringSize (n : Nat) : Nat := if 4 ≤ n ∧ n ≤ 12 then 2 ^ n else 16

/-- Entries in a ring between its 32-bit head and tail. -/
def ringFill (head tail : Nat) : Nat := (head + 2 ^ 32 - tail % 2 ^ 32) % 2 ^ 32

/-- Bytes written to host memory by DMA, counted as one TLP (R675). -/
def State.dmaWrite (s : State) (f address : Nat) (data : Data) : State :=
  ({ s with host := { s.host with hostWrites := { function := f, address := address, data := data } :: s.host.hostWrites } } :
    State).bump (0x981 + 8 * f) 1

/-- The bytes of an entry as they reach the host's ring (R287, R350): a signal as 512 zero bytes, bad words zero. -/
def hostEntry (e : Option QEntry) : Data :=
  match e with
  | some { data := some d } => d.map (fun b => some (b.getD 0))
  | _ => goodData (zeros 512)

/-- A to-host endpoint writes its oldest visible entry into its ring (R350). -/
def execHqToHostWrite (p : Fin 16) (q : Fin 4) (t : Nat) (s : State) : Outcome :=
  let s := s.upTo t
  let v := s.vf p
  let h := nth v.hqs q HostQueue.reset
  match s.hostQueue (4 * p + q) false with
  | none => .next s
  | some id =>
    if (s.queue id).canReceive && h.enabled && decide (ringFill h.head h.tail < ringSize h.sizeLog2) then
      let s1 := (s.takeQueue id).dmaWrite (p + 1) (h.base + 512 * (h.head % ringSize h.sizeLog2)) (hostEntry (s.queue id).visible.head?)
      let v1 := s1.vf p
      let s2 := s1.setVf p { v1 with hqs := setNth v1.hqs q { h with head := (h.head + 1) % 2 ^ 32 } }
      .next (s2.vfEvent p (2 + q))
    else .next s

/-! ### Load results (R106, R348) -/

/-- The 32 bytes of a load result (R106). -/
def LoadResult.bytes (r : LoadResult) : Bytes :=
  leBytes 1 r.status ++ leBytes 1 r.error ++ leBytes 2 r.sectionIndex ++ leBytes 4 r.itemIndex ++ leBytes 4 r.byteOffset ++
  leBytes 4 r.jobId ++ leBytes 8 r.frame ++ leBytes 1 r.partition ++ zeros 7

/-- The oldest held record of partition `p` is written into its result ring once the ring has room (R348). -/
def execResultRecordWrite (p : Fin 16) (t : Nat) (s : State) : Outcome :=
  let s := s.upTo t
  let v := s.vf p
  match s.jigs.results.find? (fun r => r.partition == p.val) with
  | none => .next s
  | some r =>
    if v.ringEnabled && v.busMaster && decide (ringFill v.resultHead v.resultTail < ringSize v.ringSizeLog2) then
      let s1 : State := { s with jigs := { s.jigs with results := s.jigs.results.erase r } }
      let s2 := s1.dmaWrite (p + 1) (v.ringBase + 32 * (v.resultHead % ringSize v.ringSizeLog2)) (goodData r.bytes)
      .next ((s2.setVf p { s2.vf p with resultHead := (v.resultHead + 1) % 2 ^ 32 }).vfEvent p 0)
    else .next s

/-! ### The aperture (R334, R340 to R344) -/

/-- A posted write to the aperture (R341, R342, R344): in STANDBY, and at an offset without memory, an unsupported request, which drops it
(R334, R618); a payload above 512 bytes is no TLP that the endpoint takes (R332). -/
def execApertureWrite (p : Fin 16) (offset : Nat) (data : Bytes) (enables : List Bool) (t : Nat) (s : State) : Outcome :=
  let s := (s.upTo t).bump (0x988 + 8 * p) 1
  match apertureAddress offset with
  | none => .next s
  | some a =>
    if s.mod.mode = .standby ∨ 512 < data.length then .next s
    else if s.owns p a data.length then
      let v := s.vf p
      .next ((s.setVf p (v.arrive s.now { seq := v.nextTlp, address := a, kind := .write data enables })).bump (0x98A + 8 * p)
        data.length)
    else .next (s.denied p)

/-- A read of the aperture (R334, R343, R344). -/
def execApertureRead (p : Fin 16) (offset length : Nat) (t : Nat) (s : State) : Outcome :=
  let s := (s.upTo t).bump (0x988 + 8 * p) 1
  let v := s.vf p
  let n := v.nextRead
  let s1 := s.setVf p { v with nextRead := n + 1 }
  match apertureAddress offset with
  | none => .next (s1.complete p n .unsupported)
  | some a =>
    if s.mod.mode = .standby then .next (s1.complete p n .unsupported)
    else if s.owns p a length then
      .next (s1.setVf p (({ v with nextRead := n + 1 } : Vf).arrive s.now { seq := v.nextTlp, address := a, kind := .read n length }))
    else .next ((s1.denied p).complete p n .aborted)

/-- The runs of enabled bytes of a write: address and bytes of each. -/
def enabledRuns : Nat → Bytes → List Bool → List (Nat × Bytes)
  | _, [], _ => []
  | a, b :: r, e =>
    let rest := enabledRuns (a + 1) r e.tail
    if e.headD true then
      match rest with
      | (a', x) :: more => if a' = a + 1 then (a, b :: x) :: more else (a, [b]) :: rest
      | [] => [(a, [b])]
    else rest

/-- Accesses from the front that one slot serves: a read alone, or the writes to one stripe (R240, R241). -/
def slotBatch : List ApertureTlp → List ApertureTlp × List ApertureTlp
  | [] => ([], [])
  | x :: r =>
    match x.kind with
    | .read _ _ => ([x], r)
    | .write _ _ =>
      if tierOf x.address = 3 then ([x], r)
      else
        let same := fun (y : ApertureTlp) => y.writes && y.address / 4096 == x.address / 4096
        (x :: r.takeWhile same, r.dropWhile same)

/-- One access in the slot at `instant` (R241 to R246). -/
def State.hostAccess (s : State) (p : Nat) (x : ApertureTlp) (instant : Nat) (errs : List (Nat × Bool)) (spare : Option Nat) : State :=
  match x.kind with
  | .write d e =>
    if tierOf x.address = 3 then s.t3Write (some p) x.address (goodData d) instant spare
    else (enabledRuns x.address d e).foldl (fun s r => s.writeMem r.1 (goodData r.2)) s
  | .read n len => (s.memErrors (some p) errs).tierRead (some p) (.host p) n x.address len instant true

/-- The function's first access takes the slot under way, where the partition's host port holds it and nothing has used it (R340). `errs`
are the errors a read finds, `spare` the free spare that a Tier 3 write leaves, where reported. -/
def execHostSlotAccess (p : Fin 16) (t : Nat) (errs : List (Nat × Bool)) (spare : Option Nat) (s : State) : Outcome :=
  let s := s.upTo t
  let v := s.vf p
  let b := slotBatch v.accesses
  match b.1 with
  | [] => .next s
  | x :: _ =>
    match s.tierSlot x.address x.writes with
    | none => .next s
    | some y =>
      if s.hostGrant p y && s.slotUnused y then
        let s1 := (s.setVf p (({ v with accesses := b.2 } : Vf).unstall s.now)).useSlot y
        let s2 := if x.writes && decide (tierOf x.address ≠ 3) then s1.countTier x.address true true else s1
        .next (b.1.foldl (fun s x => s.hostAccess p x y.instant errs spare) s2)
      else .next s

/-- A sector buffer incomplete 1 ms after its first byte is discarded (R342). -/
def execSectorIncomplete (p : Fin 16) (t : Nat) (s : State) : Outcome :=
  let s := s.upTo t
  let v := s.vf p
  match v.sectors.find? (fun c => decide (c.firstAt + rcMs ≤ s.now)) with
  | some c =>
    .next ((s.setVf p (({ v with sectors := v.sectors.erase c } : Vf).unstall s.now)).raiseVf FC.sectorIncomplete p)
  | none => .next s

/-! ### Resets (R354, R355) -/

/-- A mailbox window of a function that is reset: cleared, unless a request is in progress, which completes without a message
(R354, R588). -/
def State.resetWindow (s : State) (k : Nat) : State :=
  let m := s.slot k
  if m.request.isSome then s.setSlot k { m with silent := true } else s.setSlot k { m with window := [] }

/-- Reads of the aperture of partition `p` that no completion can answer any more. -/
def State.dropReads (s : State) (p : Nat) : State :=
  { s with mem := { s.mem with held := s.mem.held.filter (fun h => h.who != .host p) } }

/-- Doorbells of partition `p` not yet taken up are dropped. -/
def State.dropDoorbells (s : State) (p : Nat) : State :=
  { s with jigs := { s.jigs with doorbells := s.jigs.doorbells.filter (fun d => d.partition != p) } }

/-- The partition reset of R355: a jig not started is abandoned, a running job halted; records of the partition are discarded. -/
def State.partitionReset (s : State) (p : Nat) : State :=
  let s1 := match s.partJig p with
    | some j =>
      match j.phase with
      | .running => s.sendHalt j.jig.jobId
      | _ => s.abandonJig p 3
    | none => s
  { s1 with jigs := { s1.jigs with results := s1.jigs.results.filter (fun r => r.partition != p) } }

/-- A VF after a reset of its function: what its frame and its traffic have come to goes on. -/
def Vf.cleared (v : Vf) (present quiescing : Bool) : Vf :=
  { Vf.reset with present := present, quiescing := quiescing, nextTlp := v.nextTlp, nextRead := v.nextRead,
                  completions := v.completions, deniedRaised := v.deniedRaised }

/-- FLR or removal of the VF of partition `p` (R354, R355). -/
def State.vfReset (s : State) (p : Nat) (stays : Bool) : State :=
  let s1 := (s.setVf p ((s.vf p).cleared stays true)).setMsixOf (p + 1) MsixFn.reset
  (((s1.dropDoorbells p).dropReads p).resetWindow (p + 1)).partitionReset p

/-- `VF_FLR` (R354): by FLR, or by removal. -/
def execVfFlr (p : Fin 16) (removed : Bool) (t : Nat) (s : State) : Outcome := .next ((s.upTo t).vfReset p (!removed))

/-- Every present VF above `n` is removed, absent ones up to `n` appear. -/
def State.setNumVfs (s : State) (n : Nat) : State :=
  allPartitions.foldl (fun s p =>
    if p < n then s.setVf p { s.vf p with present := true }
    else if (s.vf p).present then s.vfReset p false
    else s) s

/-- The PF's registers at reset. `PENDING` returns to 0 with the others, and the enable or disable that waited for a kerf is given up: of a
partition R354 keeps its record and, where it is enabled, its enable (DESIGN CHOICE). -/
def State.pfReset (s : State) : State :=
  (({ s with host := { s.host with pfBusMaster := false, pfIntStatus := 0, pfIntEnable := 0, bars := [], aspmL1 := false, aerStatus := 0,
                                   ctrlPartition := 0, ctrlAction := 0, ctrlResult := 0, ctrlPending := false, pendingEnable := [],
                                   pendingDisable := [] } } : State).setMsixOf 0 MsixFn.reset).resetWindow 0

/-- `PF_FLR` (R354). -/
def execPfFlr (t : Nat) (s : State) : Outcome := .next (((s.upTo t).pfReset).setNumVfs 0)

/-- A VF after a link reset (R354): its registers, its posted writes, sector buffers and reads are gone. -/
def State.vfLinkReset (s : State) (p : Nat) : State :=
  let s1 := (s.setVf p ((s.vf p).cleared false (s.vf p).quiescing)).setMsixOf (p + 1) MsixFn.reset
  ((s1.dropDoorbells p).dropReads p).resetWindow (p + 1)

/-- `LINK_RESET` (R354): PERST_N, a hot reset or link down. -/
def execLinkReset (cause : LinkResetCause) (t : Nat) (s : State) : Outcome :=
  let s := s.upTo t
  let up := s.host.linkUp
  let s1 := allPartitions.foldl (fun s p => s.vfLinkReset p) s.pfReset
  let s2 : State := { s1 with host := { s1.host with linkUp := false, training := decide (cause ≠ .perst),
                                                     rate := { gts := 0, lanes := 0, flit := false } },
                              pins := { s1.pins with perstN := decide (cause ≠ .perst) } }
  .next (if up ∧ cause = .linkDown then s2.raise .hd FC.pcieLinkDown 0 0 else s2)

/-- An uncorrectable error that AER reports as fatal (R356), under bit `bit` of its status. -/
def execPcieUncorrectable (bit : Fin 32) (t : Nat) (s : State) : Outcome :=
  let s := s.upTo t
  .next (({ s with host := { s.host with aer := s.host.aer + 1, aerStatus := s.host.aerStatus ||| 2 ^ bit.val } } : State).raise .hd FC.pcieUncorrectable 0 0)

/-! ### Register writes (R8, R333) -/

/-- A 64-bit write to a PF register. -/
def State.pfRegister (s : State) (off v : Nat) : State :=
  let h := s.host
  if off = 0x100 then
    let a := bitsOf v 4 2
    if a = 1 ∨ a = 2 then s.partCtrl (v % 16) a else s
  else if off = 0x140 then { s with host := { h with pfIntStatus := h.pfIntStatus &&& (7 - v % 8) } }
  else if off = 0x148 then { s with host := { h with pfIntEnable := v % 8 } }
  else if 0x1000 ≤ off ∧ off < 0x3000 ∧ off % 0x200 < 320 then
    let p := (off - 0x1000) / 0x200
    if h.enabled.contains p then s
    else
      let b := s.recordOf p
      let o := off % 0x200
      { s with host := { h with records := SMap.set h.records p (b.take o ++ leBytes 8 v ++ b.drop (o + 8)) [] } }
  else s

/-- A 64-bit write to a VF register. -/
def State.vfRegister (s : State) (p off v : Nat) : State :=
  let f := s.vf p
  if off = 0x00 then s.doorbell p (bitsOf v 12 29)
  else if off = 0x08 then (if bitAt v 8 then s.setVf p { f with doorbellDropped := 0 } else s)
  else if off = 0x10 then s.setVf p { f with ringBase := v / 4096 * 4096 }
  else if off = 0x18 then s.setVf p { f with ringSizeLog2 := v % 16, ringEnabled := bitAt v 4 }
  else if off = 0x28 then s.setVf p { f with resultTail := v % 2 ^ 32 }
  else if off = 0x40 then s.setVf p { f with intStatus := f.intStatus &&& (127 - v % 128) }
  else if off = 0x48 then s.setVf p { f with intEnable := v % 128 }
  else if 0x100 ≤ off ∧ off < 0x200 then
    let q := (off - 0x100) / 0x40
    let h := nth f.hqs q HostQueue.reset
    let o := off % 0x40
    let h1 := if o = 0x00 then { h with base := v / 4096 * 4096 }
      else if o = 0x08 then { h with sizeLog2 := v % 16, enabled := bitAt v 4 }
      else if o = 0x18 then { h with tail := v % 2 ^ 32 }
      else h
    s.setVf p { f with hqs := setNth f.hqs q h1 }
  else s

/-- Vectors of function `f` (R353). -/
def vectorsOf (f : Nat) : Nat := if f = 0 then 3 else 7

/-- A 64-bit write to the MSI-X table of function `f`, at byte `off` of it: an entry holds an address, then data and the mask bit. -/
def State.msixWrite (s : State) (f off v : Nat) : State :=
  let k := off / 16
  if vectorsOf f ≤ k then s
  else
    let m := s.msixOf f
    let e := SMap.get m.table k MsixEntry.reset
    let e1 := if off % 16 = 0 then { e with address := v / 4 * 4 } else { e with data := v % 2 ^ 32, masked := bitAt v 32 }
    (s.setMsixOf f { m with table := SMap.set m.table k e1 MsixEntry.reset }).settleMsix f

/-- Start of the MSI-X table and of the pending bits in BAR0 of function `f`, and the size of BAR0 (R333, R334). -/
def msixBase (f : Nat) : Nat := if f = 0 then 0xFE000 else 0xF000
def pbaBase (f : Nat) : Nat := if f = 0 then 0xFF000 else 0xF800
def bar0Size (f : Nat) : Nat := if f = 0 then 0x100000 else 0x10000

/-- A 64-bit write of `v` to the register at `off` of BAR0 of function `f`: outside the registers it does nothing. -/
def State.registerWrite64 (s : State) (f off v : Nat) : State :=
  if msixBase f ≤ off then (if off < pbaBase f then s.msixWrite f (off - msixBase f) v else s)
  else if f = 0 then s.pfRegister off v
  else s.vfRegister (f - 1) off v

/-- The undefined effect of an access of another size (R334, R587): on the register at each 8-byte word that it touches, none, or that of a
64-bit write of a free value. -/
def State.undefinedWrite (s : State) (f : Nat) (put : State → Nat → Nat → State) : List Nat → State
  | [] => s
  | off :: r =>
    let x := s.draw 9
    let s1 := if x.1 % 2 = 0 then x.2 else put x.2 off (x.1 / 2 % 2 ^ 64)
    s1.undefinedWrite f put r

/-- The 8-byte words that `n` bytes at `off` touch. -/
def wordsTouched (off n : Nat) : List Nat := (List.range ((off + n + 7) / 8 - off / 8)).map (fun i => 8 * (off / 8 + i))

/-- A write to the mailbox window of function `f`: a narrower write of the word of `GO` has undefined effect on it (R587). -/
def State.mailboxWrite (s : State) (f off : Nat) (b : Bytes) : State :=
  match s.windowWrite f off b with
  | some s1 => s1
  | none =>
    (s.setSlot f ((s.slot f).putWindow off b)).undefinedWrite f (fun s o v => (s.windowWrite f o (leBytes 8 v)).getD s) [8]

/-- A write to BAR0 of function `f` (0 the PF, p + 1 a VF). -/
def State.bar0Write (s : State) (f off : Nat) (b : Bytes) : State :=
  if bar0Size f ≤ off then s
  else if 0x8000 ≤ off ∧ off < 0x9000 then s.mailboxWrite f (off - 0x8000) (b.take (0x9000 - off))
  else if f ≠ 0 ∧ 0x1000 ≤ off ∧ off < 0x2000 then
    if off % 0x400 < 512 then s.sendWindow (f - 1) ((off - 0x1000) / 0x400) (off % 0x400) b else s
  else if f = 0 ∧ 0x9000 ≤ off ∧ off < 0x10000 then s
  else if b.length = 8 ∧ off % 8 = 0 then s.registerWrite64 f off (leNat b)
  else s.undefinedWrite f (fun s o v => s.registerWrite64 f o v) (wordsTouched off b.length)

/-- A write to a register that has no row of its own (R8, R333): of the PF (0), or of the VF of partition `f - 1`. A field of configuration
space that carries no function of the module keeps nothing. -/
def execRegisterWrite (f : Fin 17) (space : RegSpace) (data : Bytes) (t : Nat) (s : State) : Outcome :=
  let s := (s.onEdge t 7).bump (0x980 + 8 * f) 1
  let v := leNat data
  .next (match space with
  | .bar0 off => s.bar0Write f off data
  | .busMaster =>
    let s1 : State := if f.val = 0 then { s with host := { s.host with pfBusMaster := v % 2 == 1 } }
      else s.setVf (f - 1) { s.vf (f - 1) with busMaster := v % 2 == 1 }
    s1.settleMsix f
  | .numVfs => if f.val = 0 then s.setNumVfs v else s
  | .bar n =>
    let size := nth [0x100000, 0x10000, 0x40000000000] n 1
    if f.val = 0 then { s with host := { s.host with bars := SMap.set s.host.bars n (v % 2 ^ 64 / size * size) 0 } } else s
  | .msixControl => (s.setMsixOf f { s.msixOf f with enabled := bitAt v 0, masked := bitAt v 1 }).settleMsix f
  | .aspm => if f.val = 0 then { s with host := { s.host with aspmL1 := bitAt v 1 } } else s
  | .aerStatus => if f.val = 0 then { s with host := { s.host with aerStatus := s.host.aerStatus - (s.host.aerStatus &&& v) } } else s
  | .config => s)

/-! ### Register reads (R8, R10, R335, R339, R346, R348, R351, R353) -/

/-- Bit `p` for each partition in a list. -/
def maskOf (l : List Nat) : Nat := flags ((List.range 16).map l.contains)

/-- What a 64-bit read of a PF register gives. -/
def State.pfRead (s : State) (off : Nat) : Nat :=
  let h := s.host
  if off = 0x108 then h.ctrlPartition + 16 * h.ctrlAction + 64 * b2n h.ctrlPending + 256 * h.ctrlResult + 65536 * maskOf h.enabled
  else if off = 0x140 then h.pfIntStatus
  else if off = 0x148 then h.pfIntEnable
  else if 0x1000 ≤ off ∧ off < 0x3000 ∧ off % 0x200 < 320 then rd (s.recordOf ((off - 0x1000) / 0x200)) (off % 0x200) 8
  else 0

/-- Credits that a to-device endpoint shows. -/
def State.hostCredits (s : State) (e : Nat) : Nat := (s.hostQueue e true).elim 0 (fun q => (s.queue q).credits)

/-- What a 64-bit read of a register of the VF of partition `p` gives. -/
def State.vfRead (s : State) (p off : Nat) : Nat :=
  let f := s.vf p
  if off = 0x08 then
    (s.jigs.doorbells.filter (fun d => d.partition == p)).length + 8 * b2n (s.jigs.inHand == some p) +
      16 * b2n (s.partJig p).isSome + 32 * b2n f.quiescing + 256 * f.doorbellDropped
  else if off = 0x10 then f.ringBase
  else if off = 0x18 then
    f.ringSizeLog2 + 16 * b2n f.ringEnabled + 256 * (s.jigs.results.filter (fun r => r.partition == p)).length
  else if off = 0x20 then f.resultHead
  else if off = 0x28 then f.resultTail
  else if off = 0x40 then f.intStatus
  else if off = 0x48 then f.intEnable
  else if 0x100 ≤ off ∧ off < 0x200 then
    let q := (off - 0x100) / 0x40
    let h := nth f.hqs q HostQueue.reset
    let o := off % 0x40
    if o = 0x00 then h.base
    else if o = 0x08 then h.sizeLog2 + 16 * b2n h.enabled
    else if o = 0x10 then h.head
    else if o = 0x18 then h.tail
    else if o = 0x20 then s.hostCredits (4 * p + q)
    else 0
  else 0

/-- What a 64-bit read of the MSI-X table or the pending bits of function `f` gives. -/
def State.msixRead (s : State) (f off : Nat) : Nat :=
  let m := s.msixOf f
  if off = pbaBase f then m.waiting
  else if off < pbaBase f ∧ (off - msixBase f) / 16 < vectorsOf f then
    let e := SMap.get m.table ((off - msixBase f) / 16) MsixEntry.reset
    if (off - msixBase f) % 16 = 0 then e.address else e.data + 2 ^ 32 * b2n e.masked
  else 0

/-- What a 64-bit read of BAR0 of function `f` gives: a WO field and every reserved bit zero, any other field its current value. None where
the manual states no value: in a window while a request is in progress (R587), and in a send window. -/
def State.registerRead (s : State) (f off : Nat) : Option Nat :=
  if 0x8000 ≤ off ∧ off < 0x9000 then
    if (s.slot f).request.isSome then none else some (leNat ((s.slot f).windowBytes (off - 0x8000) 8))
  else if f ≠ 0 ∧ 0x1000 ≤ off ∧ off < 0x2000 then none
  else if msixBase f ≤ off then some (s.msixRead f off)
  else if f = 0 then some (s.pfRead off)
  else some (s.vfRead (f - 1) off)

end Sys2Proof.Machine
end

