-- ==== Sys2Proof/Machine/Parts/Loading.lean ====
section
/-! DEFINITION. What the jig loader finds as it checks an image: its errors, where they lie, the directory (R83, R106, R107). -/

namespace Sys2Proof.Machine

/-- The loader's errors, in the order of their codes 0x01 to 0x20 (R107). -/
inductive LoaderError where
  | badLocation | badMagic | badHeaderCrc | headerReserved | levelUnsupported | levelAboveDomain | partitionMismatch | badJobId
  | partitionBusy | modeMismatch | badStartFrame | badDirectory | badSectionKind | sectionCount | badSectionCrc | recordReserved
  | badClass | classOverlap | badBodyTime | badLength | bodyNoFit | badSequence | badPlan | badQueue | badPlacement | placementRule
  | unitNotOwned | badProgram | unitCapacity | badSlotTable | slotNotOwned | featureAboveLevel
deriving DecidableEq, Repr

/-- A failed check: error, directory index of the section, item, and image offset of the failing field (R106, R687). -/
structure LoadErr where
  error : LoaderError
  section_ : Nat
  item : Nat
  byte : Nat
deriving DecidableEq, Repr

/-- A directory entry (R83). -/
structure Sect where
  index : Nat
  kind : Nat
  unit : Nat
  offset : Nat
  size : Nat
  items : Nat
  crc : Nat
deriving DecidableEq, Repr

/-- What checks of a jig rest on beside its bytes: image address, partition, its record, the module's capability level. -/
structure LoadCtx where
  bytes : Bytes
  address : Nat
  partition : Nat
  record : Bytes
deriving DecidableEq, Repr

end Sys2Proof.Machine
end

