-- ==== Sys2Proof/Machine/LoadCheck.lean ====
section
/-! DEFINITION. The loader's checks of an image up to its placement records: steps 2 and 7 to 14 of R104. -/

namespace Sys2Proof.Machine

/-- The code of an error (R107). -/
def LoaderError.code : LoaderError → Nat
  | .badLocation => 0x01 | .badMagic => 0x02 | .badHeaderCrc => 0x03 | .headerReserved => 0x04 | .levelUnsupported => 0x05
  | .levelAboveDomain => 0x06 | .partitionMismatch => 0x07 | .badJobId => 0x08 | .partitionBusy => 0x09 | .modeMismatch => 0x0A
  | .badStartFrame => 0x0B | .badDirectory => 0x0C | .badSectionKind => 0x0D | .sectionCount => 0x0E | .badSectionCrc => 0x0F
  | .recordReserved => 0x10 | .badClass => 0x11 | .classOverlap => 0x12 | .badBodyTime => 0x13 | .badLength => 0x14
  | .bodyNoFit => 0x15 | .badSequence => 0x16 | .badPlan => 0x17 | .badQueue => 0x18 | .badPlacement => 0x19
  | .placementRule => 0x1A | .unitNotOwned => 0x1B | .badProgram => 0x1C | .unitCapacity => 0x1D | .badSlotTable => 0x1E
  | .slotNotOwned => 0x1F | .featureAboveLevel => 0x20

/-- No section, item or field (R106). -/
def noSection : Nat := 0xFFFF
def noItem : Nat := 0xFFFFFFFF

/-- A check: the next one follows where it holds. -/
def check (ok : Bool) (e : LoaderError) (section_ item byte : Nat) : Except LoadErr Unit :=
  if ok then .ok () else .error { error := e, section_ := section_, item := item, byte := byte }

/-- A check over a list in order. -/
def checkAll {α : Type} (f : α → Except LoadErr Unit) : List α → Except LoadErr Unit
  | [] => .ok ()
  | x :: r => match f x with
    | .error e => .error e
    | .ok _ => checkAll f r

/-- A field lies between two bounds. -/
def within (v lo hi : Nat) : Bool := decide (lo ≤ v) && decide (v ≤ hi)

/-- The first of some byte ranges (offset, length) of the image that is not zero fails as a reserved field. -/
def reservedZero (b : Bytes) (e : LoaderError) (section_ item : Nat) (l : List (Nat × Nat)) : Except LoadErr Unit :=
  checkAll (fun r => check (zeroAt b r.1 r.2) e section_ item r.1) l

/-! ### The header (R82, R685) -/

/-- Step 2. -/
def headerCheck (b : Bytes) : Except LoadErr Unit := do
  let h := fun ok e byte => check ok e noSection noItem byte
  h (rd b 0 4 == 0x0047494A) .badMagic 0
  h (rd b 4 2 == 64) .badMagic 4
  h (crcGood b 0 60) .badHeaderCrc 60
  reservedZero b .headerReserved noSection noItem [(11, 1), (22, 2), (46, 2), (56, 4)]
  h (decide (rd b 32 2 < 4096)) .headerReserved 32
  h (within (rd b 34 2) 1 4096) .headerReserved 34
  h (decide (rd b 32 2 + rd b 34 2 ≤ 4096)) .headerReserved noItem
  h (within (rd b 36 2) 1 4096) .headerReserved 36
  h (within (rd b 38 2) 5 1024) .headerReserved 38
  h (decide (rd b 44 2 ≤ 4000)) .headerReserved 44

/-! ### The directory (R81, R83, R84, R684, R686) -/

/-- Directory entry `i`. -/
def sectAt (b : Bytes) (i : Nat) : Sect :=
  let o := rd b 40 4 + 24 * i
  { index := i, kind := rd b o 2, unit := rd b (o + 2) 2, offset := rd b (o + 4) 4, size := rd b (o + 8) 4,
    items := rd b (o + 12) 4, crc := rd b (o + 16) 4 }

/-- A known kind, the `UNIT_ID` it takes, and whether a jig holds one at most per unit (R84, R265). -/
def kindKnown (k : Nat) : Bool := [1, 2, 3, 4, 5, 0x10, 0x11, 0x12, 0x20].contains k
def resourceKnown (u : Nat) : Bool := [0, 1, 2, 3, 0x10, 0x11, 0x12, 0x13, 0x20, 0x21].contains u
def unitOk (k u : Nat) : Bool :=
  match k with
  | 0x10 => decide (u < 16)
  | 0x11 => decide (0x1000 ≤ u) && decide (u < 0x1100)
  | 0x12 => decide (0x2000 ≤ u) && decide (u < 0x2080)
  | 0x20 => resourceKnown u
  | _ => u == 0xFFFF

/-- Whether `ITEM_COUNT`, and then `SIZE`, agrees with the kind (R684). -/
def itemsOk (b : Bytes) (x : Sect) : Bool :=
  match x.kind with
  | 1 => x.items == rd b 34 2
  | 2 => within x.items 1 65536
  | 3 => x.items == rd b 36 2
  | 4 => decide (1 ≤ x.items)
  | 5 => decide (1 ≤ x.items)
  | 0x20 => decide (1 ≤ x.items)
  | _ => within x.items 1 4096
def sizeOk (x : Sect) : Bool :=
  match x.kind with
  | 1 => x.size == 48 * x.items
  | 2 => x.size == 8 * x.items
  | 3 => x.size == 264 * x.items
  | 4 => x.size == 16 * x.items
  | 5 => x.size == 32 * x.items
  | 0x20 => x.size == 16 + 16 * x.items
  | _ => decide (16 + 16 * x.items ≤ x.size)

/-- The checks of one section in the order of R686, after the sections `before`. DESIGN CHOICE: R687 does not say at which field a
section's bounds and overlaps are reported, nor at which a repeated section is: the model names `OFFSET` for the first two and
`SECTION_KIND` for the last. -/
def sectCheck (b : Bytes) (before : List Sect) (x : Sect) : Except LoadErr Unit := do
  let d := rd b 40 4
  let o := d + 24 * x.index
  let h := fun ok e byte => check ok e x.index noItem byte
  h (kindKnown x.kind) .badSectionKind o
  h (unitOk x.kind x.unit) .badSectionKind (o + 2)
  h (decide (x.size ≠ 0)) .badDirectory (o + 8)
  h (decide (x.offset % 64 = 0) && decide (x.offset + x.size ≤ rd b 24 4)) .badDirectory (o + 4)
  h (decide (64 ≤ x.offset) && !rangesMeet x.offset x.size d (24 * rd b 38 2) &&
    before.all (fun y => !rangesMeet x.offset x.size y.offset y.size)) .badDirectory (o + 4)
  h (itemsOk b x) .badDirectory (o + 12)
  h (sizeOk x) .badDirectory (o + 8)
  h (before.all (fun y => !(y.kind == x.kind && y.unit == x.unit))) .sectionCount o

/-- Every section in directory order; answers the directory. -/
def directoryWalk (b : Bytes) (before : List Sect) : List Nat → Except LoadErr (List Sect)
  | [] => .ok before.reverse
  | i :: r =>
    match sectCheck b before (sectAt b i) with
    | .error e => .error e
    | .ok _ => directoryWalk b (sectAt b i :: before) r

/-- Step 7. -/
def directoryCheck (b : Bytes) : Except LoadErr (List Sect) := do
  let d := rd b 40 4
  check (decide (d % 64 = 0) && decide (64 ≤ d) && decide (d + 24 * rd b 38 2 ≤ rd b 24 4)) .badDirectory noSection noItem 40
  let l ← directoryWalk b [] (List.range (rd b 38 2))
  check ([1, 2, 3, 5].all (fun k => l.any (fun x => x.kind == k))) .sectionCount noSection noItem noItem
  pure l

/-- Step 8: every `SECTION_CRC`. -/
def crcCheck (b : Bytes) (l : List Sect) : Except LoadErr Unit :=
  checkAll (fun x => check ((crc32c ((b.drop x.offset).take x.size)).toNat == x.crc) .badSectionCrc x.index noItem
    (rd b 40 4 + 24 * x.index + 16)) l

/-- The section of a kind that a jig holds once. -/
def sectOf (l : List Sect) (k : Nat) : Sect :=
  (l.find? (fun x => x.kind == k)).getD { index := 0, kind := k, unit := 0, offset := 0, size := 0, items := 0, crc := 0 }

/-! ### Reserved fields (step 9) -/

/-- The reserved fields of item `i` of a section, as (offset, length, mask): the bits of the mask must be zero. -/
def reservedFields (x : Sect) (i : Nat) : List (Nat × Nat × Nat) :=
  match x.kind with
  | 1 => let o := x.offset + 48 * i; [(o, 2, 0xF000), (o + 34, 1, 0xFC), (o + 35, 13, 2 ^ 104 - 1)]
  | 2 => let o := x.offset + 8 * i; [(o + 1, 1, 0xFF)]
  | 3 =>
    let o := x.offset + 264 * i
    [(o + 3, 1, 0xFE), (o + 4, 4, 0xFFFFFFFF)] ++ (List.range 16).map (fun k => (o + 22 + 16 * k, 2, 0xFFFF))
  | 4 => let o := x.offset + 16 * i; [(o + 8, 1, 0xFC), (o + 9, 7, 2 ^ 56 - 1)]
  | 5 => let o := x.offset + 32 * i; [(o + 6, 2, 0xFFFC), (o + 8, 8, 0xFFF0000000000000), (o + 24, 8, 2 ^ 64 - 1)]
  | 0x20 => []
  | _ => let o := x.offset + 16 + 16 * i; [(o + 2, 2, 0xFFFF), (o + 12, 4, 0xFFFFFFFF)]

/-- The reserved fields of a section's own header. -/
def reservedHeader (x : Sect) : List (Nat × Nat × Nat) :=
  match x.kind with
  | 0x10 => [(x.offset + 12, 4, 0xFFFFFFFF)]
  | 0x11 => [(x.offset + 12, 4, 0xFFFFFFFF)]
  | 0x12 => [(x.offset + 12, 4, 0xFFFFFFFF)]
  | 0x20 => [(x.offset + 8, 8, 2 ^ 64 - 1)]
  | _ => []

/-- Bytes with bits that must be zero. -/
def maskZero (b : Bytes) (section_ item : Nat) (l : List (Nat × Nat × Nat)) : Except LoadErr Unit :=
  checkAll (fun r => check (decide (rd b r.1 r.2.1 &&& r.2.2 = 0)) .recordReserved section_ item r.1) l

/-- Step 9: the directory entry, the section's header, and every record. -/
def reservedCheck (b : Bytes) (l : List Sect) : Except LoadErr Unit :=
  checkAll (fun x => do
    let o := rd b 40 4 + 24 * x.index
    maskZero b x.index noItem [(o + 20, 4, 0xFFFFFFFF)]
    maskZero b x.index noItem (reservedHeader x)
    checkAll (fun i => maskZero b x.index i (reservedFields x i)) (List.range x.items)) l

/-! ### Classes and sequence (steps 10 and 11) -/

/-- Class record `i` (R87). -/
def classAt (b : Bytes) (x : Sect) (i : Nat) : ClassRec :=
  let o := x.offset + 48 * i
  { id := rd b o 2 % 4096, planIndex := rd b (o + 2) 2, lengthUs := rd b (o + 4) 4,
    bodyTime := (List.range 6).map (fun k => rd b (o + 8 + 4 * k) 4), hintPackageW := rd b (o + 32) 2, hintFlags := rd b (o + 34) 1 }

/-- The jig requires level 2 and says so, or does not use the feature (R102). -/
def featureOk (b : Bytes) (used : Bool) : Bool := !used || decide (2 ≤ rd b 6 1)

/-- Step 10: rule 6 of R88 from the header, then the records under rules 1 to 5. `overlaps` tells whether the class range meets that
of another partition's jig. -/
def classCheck (b : Bytes) (x : Sect) (overlaps : Bool) : Except LoadErr Unit := do
  check (!overlaps) .classOverlap x.index noItem 32
  let fixed := rd b 7 1 == 0
  let len := rd b 28 4
  let st := if rd b 8 1 = 1 then rd b 9 1 else 1
  checkAll (fun i => do
    let o := x.offset + 48 * i
    let c := classAt b x i
    let h := fun ok e byte => check ok e x.index i byte
    h (c.id == rd b 32 2 + i) .badClass o
    checkAll (fun k => h (decide (nth c.bodyTime k 0 ≠ 0) && (k == 0 || decide (nth c.bodyTime (k - 1) 0 ≤ nth c.bodyTime k 0)))
      .badBodyTime (o + 8 + 4 * k)) (List.range 6)
    h (within c.lengthUs 100 8000000 && (!fixed || c.lengthUs == len)) .badLength (o + 4)
    h (!fixed || decide (400 + nth c.bodyTime st 0 ≤ 100 * len)) .bodyNoFit (o + 8 + 4 * st)
    h (featureOk b (c.hintPackageW != 0)) .featureAboveLevel (o + 32)
    h (featureOk b (c.hintFlags != 0)) .featureAboveLevel (o + 34)) (List.range x.items)

/-- Sequence entry `i` (R90). -/
def seqAt (b : Bytes) (x : Sect) (i : Nat) : SeqEntry :=
  let o := x.offset + 8 * i
  match rd b o 1 with
  | 0 => .run (rd b (o + 2) 2) (rd b (o + 4) 4)
  | 1 => .idle (rd b (o + 4) 4)
  | 2 => .loop (rd b (o + 2) 2) (rd b (o + 4) 4)
  | _ => .stop

/-- The loops of a sequence: index and target. -/
def loopsOf (b : Bytes) (x : Sect) : List (Nat × Nat) :=
  (List.range x.items).filterMap (fun i => match seqAt b x i with | .loop t _ => some (i, t) | _ => none)

/-- Step 11 (R92). -/
def sequenceCheck (b : Bytes) (x : Sect) : Except LoadErr Unit := do
  let loops := loopsOf b x
  checkAll (fun i => do
    let o := x.offset + 8 * i
    let kind := rd b o 1
    let arg := rd b (o + 2) 2
    let count := rd b (o + 4) 4
    let last := i + 1 == x.items
    let h := fun ok byte => check ok .badSequence x.index i byte
    h (decide (kind ≤ 3)) o
    h ((kind == 3 || (kind == 2 && count == 0)) == last) (if kind = 2 then o + 4 else o)
    h (kind != 0 || (decide (rd b 32 2 ≤ arg) && decide (arg < rd b 32 2 + rd b 34 2))) (o + 2)
    h (!(kind == 1 || kind == 3) || arg == 0) (o + 2)
    h (!(kind == 0 || kind == 1) || count != 0) (o + 4)
    h (kind != 3 || count == 0) (o + 4)
    h (kind != 2 || decide (arg < i)) (o + 2)
    h (kind != 2 || loops.all (fun l => !(decide (arg ≤ l.1) && decide (l.1 < i)) || decide (arg ≤ l.2))) (o + 2)
    h (decide ((loops.filter (fun l => decide (l.2 ≤ i) && decide (i ≤ l.1))).length ≤ 4)) noItem) (List.range x.items)

/-! ### Plans (step 12) -/

/-- Plan `i` (R93). -/
def planAt (b : Bytes) (x : Sect) (i : Nat) : Plan :=
  let o := x.offset + 264 * i
  { perState := bitAt (rd b (o + 3) 1) 0,
    segments := (List.range (rd b (o + 2) 1)).map (fun k =>
      { endPermyriad := rd b (o + 8 + 16 * k) 2, powerW := (List.range 6).map (fun f => rd b (o + 10 + 16 * k + 2 * f) 2) }) }

/-- One plan (R93, R94). -/
def planCheck (b : Bytes) (x : Sect) (i : Nat) : Except LoadErr Unit := do
  let o := x.offset + 264 * i
  let n := rd b (o + 2) 1
  let per := bitAt (rd b (o + 3) 1) 0
  let h := fun ok e byte => check ok e x.index i byte
  h (rd b o 2 == i) .badPlan o
  h (within n 1 16) .badPlan (o + 2)
  h (featureOk b per) .featureAboveLevel (o + 3)
  checkAll (fun k => do
    let q := o + 8 + 16 * k
    let e := rd b q 2
    h (within e 1 10000 && (k == 0 || decide (rd b (q - 16) 2 < e)) && (k + 1 != n || e == 10000)) .badPlan q
    checkAll (fun f =>
      let w := rd b (q + 2 + 2 * f) 2
      h (decide (w ≤ 4000) && (per || f == 1 || w == 0)) .badPlan (q + 2 + 2 * f)) (List.range 6)) (List.range n)
  checkAll (fun k => h (zeroAt b (o + 8 + 16 * k) 16) .badPlan (o + 8 + 16 * k)) ((List.range 16).drop n)

/-- Step 12: plans and every `PLAN_INDEX`, in directory order. -/
def plansCheck (b : Bytes) (l : List Sect) : Except LoadErr Unit :=
  checkAll (fun x =>
    if x.kind = 3 then checkAll (planCheck b x) (List.range x.items)
    else if x.kind = 1 then
      checkAll (fun i => check (decide ((classAt b x i).planIndex < rd b 36 2)) .badPlan x.index i (x.offset + 48 * i + 2))
        (List.range x.items)
    else .ok ()) l

/-! ### Queues (step 13) -/

/-- The partition owns a unit (R85, R257). -/
def ownsUnit (c : LoadCtx) (u : Nat) : Bool :=
  let n := u % 4096
  match u / 4096 with
  | 0 => decide (n < 16) && bitAt (rd c.record 0 2) n
  | 1 => decide (n < 256) && bitAt (rd c.record 32 32) n
  | 2 => decide (n < 128) && bitAt (rd c.record 8 16) n
  | 3 => decide (n < 256) && bitAt (rd c.record 64 32) n
  | 4 => decide (n < 64) && n / 4 == c.partition
  | _ => false

/-- A queue number is the partition's (R256, R259). -/
def ownsQueue (c : LoadCtx) (q : Nat) : Bool :=
  if q < 0x1000 then
    let d := q / 1024
    decide (rd c.record (112 + 2 * d) 2 ≤ q % 1024) && decide (q % 1024 < rd c.record (112 + 2 * d) 2 + rd c.record (120 + 2 * d) 2)
  else if q < 0x1100 then bitAt (rd c.record 64 32) (q - 0x1000)
  else decide (q < 0x1140) && (q - 0x1100) / 4 == c.partition

/-- The consumer that a queue number asks for (R256). -/
def consumerOk (q u : Nat) : Bool :=
  if q < 0x1000 then decide (u < 0x3000) && sectionOfUnit u == q / 1024
  else if q < 0x1100 then u == 0x3000 + (q - 0x1000)
  else u == 0x4000 + (q - 0x1100)

/-- Queue declaration `i` (R96). -/
def queueAt (b : Bytes) (x : Sect) (i : Nat) : QueueDecl :=
  let o := x.offset + 16 * i
  { id := rd b o 2, producer := rd b (o + 2) 2, consumer := rd b (o + 4) 2, depth := rd b (o + 6) 2,
    frameLocal := bitAt (rd b (o + 8) 1) 0, fabric := bitAt (rd b (o + 8) 1) 1 }

/-- The declarations of a jig. -/
def queuesOf (b : Bytes) (l : List Sect) : List QueueDecl :=
  let x := sectOf l 4
  (List.range x.items).map (queueAt b x)

/-- Whether an endpoint's binding has the direction that a declaration gives it (R309): 1 consumes, 2 produces. -/
def directionOk (mode : Nat) (consumes : Bool) : Bool :=
  if consumes then [1, 3, 4, 5].contains mode else [2, 4, 5].contains mode

/-- Step 13. `mode` is the mode that an Oljan endpoint is bound to. -/
def queueCheck (c : LoadCtx) (mode : Nat → Nat) (x : Sect) : Except LoadErr Unit := do
  let b := c.bytes
  let all := (List.range x.items).map (queueAt b x)
  checkAll (fun i => do
    let o := x.offset + 16 * i
    let q := queueAt b x i
    let h := fun ok byte => check ok .badQueue x.index i byte
    h (ownsQueue c q.id && (all.take i).all (fun y => y.id != q.id)) o
    h (ownsUnit c q.producer && !(decide (3 ≤ q.producer / 4096) && decide (0x1000 ≤ q.id)) &&
      (q.producer / 4096 != 3 || directionOk (mode (q.producer % 4096)) false) &&
      (decide (q.producer / 4096 < 3) || (all.take i).all (fun y => y.producer != q.producer))) (o + 2)
    h (ownsUnit c q.consumer && consumerOk q.id q.consumer &&
      (q.consumer / 4096 != 3 || directionOk (mode (q.consumer % 4096)) true)) (o + 4)
    h (within q.depth 1 1024) (o + 6)
    h (q.fabric == (q.producer / 4096 == 3 || q.consumer / 4096 == 3)) (o + 8)) (List.range x.items)
  let sum := fun d => ((all.filter (fun q => sectionOfUnit q.consumer == d)).map (·.depth)).foldl (· + ·) 0
  check ((List.range 4).all (fun d => decide (sum d ≤ rd c.record (128 + 2 * d) 2)) && decide (sum 4 ≤ rd c.record 136 2))
    .badQueue x.index noItem noItem

/-! ### Placement (step 14) -/

/-- Placement record `i` (R97). -/
def placementAt (b : Bytes) (x : Sect) (i : Nat) : Placement :=
  let o := x.offset + 32 * i
  { tensor := rd b o 4, tier := rd b (o + 4) 1, format := rd b (o + 5) 1, readOnly := bitAt (rd b (o + 6) 2) 0,
    preloaded := bitAt (rd b (o + 6) 2) 1, address := rd b (o + 8) 8 % 2 ^ 52, size := rd b (o + 16) 8 }

/-- The placements of a jig. -/
def placementsOf (b : Bytes) (l : List Sect) : List Placement :=
  let x := sectOf l 5
  (List.range x.items).map (placementAt b x)

/-- The region of a whole range is one memory, of tier `t` (R98, R228). -/
def rangeInTier (a n t : Nat) : Bool :=
  let r := (regionOf a).1
  decide (0 < n) && r != .reserved && (regionOf (a + n - 1)).1 == r && tierOf a == t

/-- Step 14 (R98, rules 1 to 3 of R254). -/
def placementCheck (s : State) (c : LoadCtx) (x : Sect) : Except LoadErr Unit := do
  let b := c.bytes
  let all := (List.range x.items).map (placementAt b x)
  checkAll (fun i => do
    let o := x.offset + 32 * i
    let r := placementAt b x i
    let h := fun ok e byte => check ok e x.index i byte
    h (decide (r.tensor ≠ 0) && (all.take i).all (fun y => y.tensor != r.tensor)) .badPlacement o
    h (decide (r.tier ≤ 3)) .badPlacement (o + 4)
    h (Format.ofCode r.format).isSome .badPlacement (o + 5)
    h (featureOk b (r.format == 0x0D)) .featureAboveLevel (o + 5)
    h (decide (r.address % 64 = 0)) .badPlacement (o + 8)
    h (decide (r.size % 64 = 0) && decide (r.size ≠ 0)) .badPlacement (o + 16)
    h (rangeInTier r.address r.size r.tier && s.owns c.partition r.address r.size) .badPlacement (o + 8)
    h ((all.take i).all (fun y => !rangesMeet r.address r.size y.address y.size)) .badPlacement (o + 8)
    h (r.tier != 3 || decide (r.address % 4096 = 0)) .placementRule (o + 8)
    h (r.tier != 3 || decide (r.size % 4096 = 0)) .placementRule (o + 16)
    h (!r.preloaded || decide (2 ≤ r.tier)) .placementRule (o + 6)
    h (!rangesMeet r.address r.size c.address (rd b 24 4)) .placementRule (o + 8)) (List.range x.items)

end Sys2Proof.Machine
end

