-- ==== Sys2Proof/Machine/LoadUnits.lean ====
section
/-! DEFINITION. The loader's checks of program sections and slot tables: steps 15 and 16 of R104, with the decoding of array
descriptors (R157 to R162), mover descriptors (R276 to R279) and lane instruction words (R176, R179, R197 to R201). -/

namespace Sys2Proof.Machine

/-! ### What a descriptor is checked against -/

/-- A jig's placements and queues, and the unit whose program is decoded. -/
structure UnitCtx where
  load : LoadCtx
  placements : List Placement
  queues : List QueueDecl
  unit : Nat

/-- A unit's die: its section (R17, R85). -/
def UnitCtx.die (c : UnitCtx) : Nat := sectionOfUnit c.unit

/-- The placement of a tensor number. -/
def UnitCtx.tensor (c : UnitCtx) (t : Nat) : Option Placement := c.placements.find? (fun r => r.tensor == t)

/-- A queue is declared with this unit as producer, or as consumer (R96). -/
def UnitCtx.produces (c : UnitCtx) (q : Nat) : Bool := c.queues.any (fun y => y.id == q && y.producer == c.unit)
def UnitCtx.consumes (c : UnitCtx) (q : Nat) : Bool := c.queues.any (fun y => y.id == q && y.consumer == c.unit)

/-- A tensor lies on the bench of the unit's die. -/
def UnitCtx.onBench (c : UnitCtx) (r : Placement) : Bool :=
  r.tier == 0 && (match (regionOf r.address).1 with | .bench d => d == c.die | _ => false)

/-- A condition, with the error and the byte that its failure reports. -/
abbrev Rule := Bool × LoaderError × Nat
def rule (ok : Bool) (e : LoaderError) (byte : Nat) : Rule := (ok, e, byte)

/-- The first condition of a list that fails: its error and byte. -/
def firstBad (l : List Rule) : Option (LoaderError × Nat) := (l.find? (fun x => !x.1)).map (·.2)

/-- A first failure reported at an item of a section, `o` being the image offset that bytes count from. -/
def report (section_ item o : Nat) (x : Option (LoaderError × Nat)) : Except LoadErr Unit :=
  match x with
  | none => .ok ()
  | some e => .error { error := e.1, section_ := section_, item := item, byte := if e.2 = noItem then noItem else o + e.2 }

/-! ### Array descriptors (R158, R162, R254) -/

/-- The bits each opcode uses, field by field: offset, length, and the mask of bits that may be nonzero (R158). -/
def arrayFieldMask (op : Nat) : List (Nat × Nat × Nat) :=
  let load := op == 1
  let pass := op == 2
  let foot := op == 3
  let drain := op == 4
  let m := fun (u : Bool) (v : Nat) => if u then v else 0
  [(1, 1, m (load || pass) 1), (2, 1, m pass 1 + m drain 12), (3, 1, 0), (4, 2, m (pass || drain) 0x3FF),
   (6, 2, m (pass || foot || drain) 0xFFFF), (8, 2, m load 0xFFFF), (10, 2, m (load || pass || foot || drain) 0xFFFF),
   (12, 2, m (pass || foot || drain) 0xFFFF), (14, 2, 0), (16, 4, m (op != 15) 0xFFFFFFFF), (20, 4, m (load || pass || drain) 0xFFFFFFFF),
   (24, 6, m (op != 15) (2 ^ 48 - 1)), (30, 2, 0), (32, 4, m (op != 15) 0xFFFFFFFF), (36, 2, m (op != 15) 0xFFFF),
   (38, 2, m (op != 15) 0xFFFF), (40, 4, m (foot || drain) 0xFFFFFFFF), (44, 4, m (foot || drain) 0xFFFFFFFF), (48, 80, 0)]

/-- Formats that an opcode accepts for its data tensor (R162). -/
def arrayFormatOk (op : Nat) (f : Format) : Bool :=
  match op with
  | 1 => weightGroup f != 0
  | 2 => weightGroup f != 0 && f != .t2
  | 3 => f == .wa64
  | _ => f == .wa64 || (f != .t2 && f != .e8m0 && f != .raw)

/-- The largest K_P among the groups that accept an activation format at a level (R162). -/
def largestK (a : Format) (level : Nat) : Nat := if decide (2 ≤ level) && pairOk .t2 a then 2048 else kPlane a

/-- Elements a descriptor can touch, counted from the start of its tensor; `k` is what a pass reads of each row (R149, R153 to
R155, R162). -/
def arrayReach (x : ArrayDesc) (k : Nat) : Nat :=
  let runs := if x.opcode = 1 then x.cols else x.rows
  let each := if x.opcode = 1 then x.kUsed else if x.opcode = 2 then k else x.cols
  x.first + (runs - 1) * x.stride + each

/-- One array descriptor against every rule but the order of `END`. `planes` are the formats and K of the planes loaded earlier in the
entry. -/
def arrayDescCheck (c : UnitCtx) (o : Nat) (planes : List (Option (Format × Nat))) : Option (LoaderError × Nat) :=
  let b := c.load.bytes
  let x := arrayDescAt b o
  let level := rd b 6 1
  let used := x.opcode != 15
  let data := c.tensor x.dataTensor
  let scale := c.tensor x.scaleTensor
  let flag := c.tensor x.flagTensor
  let fmt := (data.bind (fun r => Format.ofCode r.format)).getD .raw
  let ro := fun (t : Nat) (r : Option Placement) => t == 0 || !(r.elim false (·.readOnly))
  let own := nth planes x.plane none
  let k := match own with
    | some y => y.2
    | none => largestK fmt level
  let reach := arrayReach x k
  firstBad ([
    -- rules 4 and 5 of R254
    rule (x.opcode != 4 || ro x.dataTensor data) .placementRule 16,
    rule (x.opcode != 4 || ro x.scaleTensor scale) .placementRule 20,
    rule (x.opcode != 4 || ro x.flagTensor flag) .placementRule 40,
    rule (!(used && fmt.blockScaled) || (match data, scale with
      | some r, some q => tierOf r.address == tierOf q.address &&
          (tierOf r.address != 0 || (regionOf r.address).1 == (regionOf q.address).1)
      | _, _ => true)) .placementRule 20,
    rule ([1, 2, 3, 4, 15].contains x.opcode) .badProgram 0] ++
    (arrayFieldMask x.opcode).map (fun y => rule (decide (rd b (o + y.1) y.2.1 &&& (y.2.2 ^^^ (256 ^ y.2.1 - 1)) = 0)) .badProgram y.1) ++ [
    rule (x.opcode != 4 || decide (x.rmode ≤ 1)) .badProgram 2,
    rule (decide (-320 ≤ x.window) && decide (x.window ≤ 320)) .badProgram 4,
    rule (!x.usesFoot || within x.rows 1 1024) .badProgram 6,
    rule (!used || within x.cols 1 512) .badProgram 10,
    rule (!x.usesFoot || (decide (x.footBase ≤ 1023) && decide (x.footBase + x.rows ≤ 1024))) .badProgram 12,
    -- tensors of R162
    rule (!used || data.elim false c.onBench) .badProgram 16,
    rule (x.scaleTensor == 0 || scale.elim false c.onBench) .badProgram 20,
    rule (x.flagTensor == 0 || flag.elim false c.onBench) .badProgram 40,
    rule (!used || arrayFormatOk x.opcode fmt) .badProgram 16,
    rule (x.flagTensor == 0 || flag.elim false (fun r => r.format == 0x10)) .badProgram 40,
    rule (x.flagTensor == 0 || flag.elim false (fun r => decide (x.flagOffset < r.size))) .badProgram 44,
    rule (!used || (x.scaleTensor != 0) == fmt.blockScaled) .badProgram 20,
    rule (x.scaleTensor == 0 || scale.elim false (fun r => r.format == 0x0E)) .badProgram 20,
    rule (!(used && fmt.blockScaled) || decide (x.first % 32 = 0)) .badProgram 24,
    rule (!(used && fmt.blockScaled) || decide (x.stride % 32 = 0)) .badProgram 32,
    rule (!(x.opcode == 4 && fmt.mx) || decide (x.cols % 32 = 0)) .badProgram 10,
    rule (x.opcode != 1 || within x.kUsed 1 (kPlane fmt)) .badProgram 8,
    rule (!used || data.elim false (fun r => decide (fmt.bytesFor reach ≤ r.size))) .badProgram noItem,
    rule (x.scaleTensor == 0 || scale.elim false (fun r => decide ((reach + 31) / 32 ≤ r.size))) .badProgram noItem,
    rule (x.opcode != 2 || own.elim true (fun y => pairOk y.1 fmt)) .badProgram 16,
    rule (x.opcode != 1 || fmt != .t2 || decide (2 ≤ level)) .featureAboveLevel 16,
    rule (x.opcode != 4 || x.rmode != 1 || decide (2 ≤ level)) .featureAboveLevel 2,
    -- queues (R161)
    rule (!used || x.waitQueue == noQueue || c.consumes x.waitQueue) .badQueue 36,
    rule (!used || x.signalQueue == noQueue || c.produces x.signalQueue) .badQueue 38])

/-- The descriptors of one array entry in order; its last, and only its last, is `END` (R157). -/
def arrayEntryCheck (c : UnitCtx) (section_ item base n : Nat) :
    List Nat → List (Option (Format × Nat)) → Except LoadErr Unit
  | [], _ => .ok ()
  | i :: r, planes =>
    let o := base + 128 * i
    let x := arrayDescAt c.load.bytes o
    match report section_ item o (arrayDescCheck c o planes) with
    | .error e => .error e
    | .ok _ =>
      if (x.opcode == 15) != (i + 1 == n) then .error { error := .badProgram, section_ := section_, item := item, byte := o }
      else
        let fmt := (c.tensor x.dataTensor).bind (fun r => Format.ofCode r.format)
        let planes := if x.opcode = 1 then setNth planes x.plane (fmt.map (fun f => (f, x.kUsed))) else planes
        arrayEntryCheck c section_ item base n r planes

/-! ### Mover descriptors (R277 to R279) -/

/-- The bits each opcode uses (R277). -/
def mvFieldMask (op : Nat) : List (Nat × Nat × Nat) :=
  let src := op == 1 || op == 2
  let dst := op == 1 || op == 3 || op == 4
  let q := op == 2 || op == 3
  let used := op != 15
  let m := fun (u : Bool) (v : Nat) => if u then v else 0
  [(1, 1, m used 1), (2, 2, m used 0xFFFF), (4, 2, m used 0xFFFF), (6, 2, m q 0xFFFF), (8, 4, m src 0xFFFFFFFF),
   (12, 4, m dst 0xFFFFFFFF), (16, 8, m src (2 ^ 48 - 1)), (24, 8, m dst (2 ^ 48 - 1)), (32, 4, m used 0xFFFFFFFF),
   (36, 4, m used 0xFFFFFFFF), (40, 4, m src 0xFFFFFFFF), (44, 4, m dst 0xFFFFFFFF), (48, 4, m (op == 4) 0xFFFFFFFF), (52, 12, 0)]

/-- One mover descriptor against every rule of R279 but the order of `END`. -/
def mvDescCheck (c : UnitCtx) (o : Nat) : Option (LoaderError × Nat) :=
  let b := c.load.bytes
  let x := mvDescAt b o
  let op := x.opcode
  let used := op != 15
  let hasSrc := op == 1 || op == 2
  let hasDst := op == 1 || op == 3 || op == 4
  let src := c.tensor x.srcTensor
  let dst := c.tensor x.dstTensor
  let place := fun (r : Placement) => r.tier != 0 || c.onBench r
  let t3 := hasDst && dst.elim false (fun r => r.tier == 3)
  let reach := fun (off stride : Nat) => off + (x.rows - 1) * stride + x.rowBytes
  firstBad ([rule ([1, 2, 3, 4, 15].contains op) .badProgram 0] ++
    (mvFieldMask op).map (fun y => rule (decide (rd b (o + y.1) y.2.1 &&& (y.2.2 ^^^ (256 ^ y.2.1 - 1)) = 0)) .badProgram y.1) ++ [
    rule (!used || within x.rowBytes 64 16777216) .badProgram 32,
    rule (!used || within x.rows 1 16777216) .badProgram 36,
    rule (!hasSrc || src.elim false place) .badProgram 8,
    rule (!hasDst || dst.elim false place) .badProgram 12,
    rule (decide (x.rowBytes % 64 = 0)) .badProgram 32,
    rule (decide (x.srcOffset % 64 = 0)) .badProgram 16,
    rule (decide (x.dstOffset % 64 = 0)) .badProgram 24,
    rule (decide (x.srcStride % 64 = 0)) .badProgram 40,
    rule (decide (x.dstStride % 64 = 0)) .badProgram 44,
    rule (!t3 || decide (x.rowBytes % 4096 = 0)) .badProgram 32,
    rule (!t3 || decide (x.dstOffset % 4096 = 0)) .badProgram 24,
    rule (!t3 || decide (x.dstStride % 4096 = 0)) .badProgram 44,
    rule (!(op == 2 || op == 3) || decide (x.rowBytes % 512 = 0)) .badProgram 32,
    rule (!hasSrc || src.elim false (fun r => decide (reach x.srcOffset x.srcStride ≤ r.size))) .badProgram noItem,
    rule (!hasDst || dst.elim false (fun r => decide (reach x.dstOffset x.dstStride ≤ r.size))) .badProgram noItem,
    rule (!used || x.waitQueue == noQueue || c.consumes x.waitQueue) .badQueue 2,
    rule (!used || x.signalQueue == noQueue || c.produces x.signalQueue) .badQueue 4,
    rule (op != 2 || c.produces x.dataQueue) .badQueue 6,
    rule (op != 3 || c.consumes x.dataQueue) .badQueue 6,
    rule (!hasDst || !(dst.elim false (·.readOnly))) .placementRule 12])

/-- The descriptors of one mover entry in order (R276). -/
def mvEntryCheck (c : UnitCtx) (section_ item base n : Nat) (i : Nat) : Except LoadErr Unit := do
  let o := base + 64 * i
  report section_ item o (mvDescCheck c o)
  check (((mvDescAt c.load.bytes o).opcode == 15) == (i + 1 == n)) .badProgram section_ item o

/-! ### Lane instruction words (R197 to R201) -/

/-- The three forms (R198). -/
inductive LaneForm where
  | reg
  | imm
  | ctl
deriving DecidableEq, Repr

/-- Fields of a word by lowest bit and width (R198). -/
def wGuard : Nat := 0xF00
def wVd : Nat := 0xF000
def wVa : Nat := 0xF0000
def wVb : Nat := 0xF00000
def wVc : Nat := 0xF000000
def wSub : Nat := 0xF0000000
def wFmt : Nat := 0xFF00000000
def wRmode : Nat := 0x30000000000
def wPos : Nat := 0xFC0000000000
def wAux : Nat := 0xFFFF000000000000
def wImm : Nat := 0xFFFFFFFF00000000
def wTarget : Nat := 0x3FF00000000

/-- Form and the mask of the bits that an opcode uses beside `OPCODE` (R204 to R223); none where no table holds the opcode. -/
def laneUse (op : Nat) : Option (LaneForm × Nat) :=
  if op = 0x00 ∨ op = 0x01 then some (.ctl, 0)
  else if op = 0x02 then some (.ctl, 0x100 + wVd + wTarget)
  else if op = 0x03 then some (.ctl, wTarget)
  else if op = 0x04 then some (.ctl, 0x200 + 0xFFFF0000 + wTarget + wAux)
  else if op = 0x05 then some (.ctl, 0x7000)
  else if within op 0x10 0x1E then some (.reg, wGuard + wVd + wVa + wVb)
  else if op = 0x1F then some (.reg, wGuard + wVd + wVa + wVb + wSub)
  else if within op 0x20 0x22 ∨ within op 0x25 0x26 then some (.reg, wGuard + wVd + wVa + wVb)
  else if op = 0x23 ∨ op = 0x24 then some (.reg, wGuard + wVd + wVa + wVb + wVc)
  else if op = 0x27 ∨ op = 0x28 then some (.reg, wGuard + wVd + wVa)
  else if op = 0x30 ∨ op = 0x3B then some (.imm, wGuard + wVd + wImm)
  else if within op 0x31 0x39 ∨ op = 0x3D then some (.imm, wGuard + wVd + wVa + wImm)
  else if op = 0x3A then some (.reg, wGuard + wVd + wVa)
  else if op = 0x3C then some (.reg, wGuard + wVd + wVa + wVb)
  else if op = 0x40 ∨ op = 0x41 ∨ op = 0x43 then some (.reg, wGuard + wVd + wVa + wVb + wSub)
  else if op = 0x42 then some (.imm, wGuard + wVd + wVa + wImm)
  else if op = 0x44 then some (.reg, wGuard + wVd + wVa)
  else if within op 0x50 0x52 then some (.reg, wGuard + wVd + wVa + wVb + wVc + wRmode + wAux)
  else if op = 0x53 then some (.reg, wGuard + wVd + wVa + wFmt + wPos + 0x7000000000000)
  else if op = 0x54 then some (.reg, wGuard + wVd + wVa + wFmt)
  else if op = 0x55 then some (.reg, wGuard + wVd + wVa + wVb + wFmt)
  else if op = 0x56 then some (.reg, wGuard + wVd + wVa + wVb + wVc + wFmt + wRmode + wPos + wAux)
  else if op = 0x60 then some (.reg, wGuard + wVd + wVa + wSub + 0x1C0000000000)
  else if op = 0x61 ∨ op = 0x62 then some (.reg, wGuard + wVd + wVa + 0x1C0000000000 + 0x7F000000000000)
  else if op = 0x63 ∨ op = 0x65 ∨ op = 0x66 then some (.reg, wGuard + wVd + wVa)
  else if op = 0x64 then some (.reg, wGuard + wVd + wVa + wVb)
  else if within op 0x70 0x7A then some (.reg, wGuard + wVd + wVa)
  else if within op 0x80 0x82 then some (.imm, wGuard + wVd + wVa + wImm)
  else if op = 0x83 ∨ op = 0x84 then some (.imm, wGuard + wVd + wVa + wSub + wImm)
  else if op = 0x90 then some (.imm, wVd + 0xFFFF00000000)
  else if op = 0x91 ∨ op = 0x93 then some (.imm, 0xFFFF00000000)
  else if op = 0x92 then some (.imm, wGuard + wVd + 0xFFFF00000000)
  else if op = 0xA0 then some (.reg, wPos + 0x3FF000000000000)
  else if op = 0xA1 then some (.reg, wGuard + wVa + wSub + wPos)
  else if op = 0xA2 then some (.reg, wVa + wPos)
  else if op = 0xA3 then some (.reg, wVa + wVb + wSub + wPos)
  else if op = 0xA4 then some (.reg, wGuard + wVd + wVb + wVc + wFmt + wRmode + wPos + wAux)
  else none

/-- The byte in which the field that holds bit `i` begins (R198, R687). -/
def fieldByte (f : LaneForm) (i : Nat) : Nat :=
  if i < 8 then 0
  else if i < 16 then 1
  else
    match f with
    | .ctl => if i < 32 then 2 else if i < 42 then 4 else if i < 48 then 5 else 6
    | .imm => if i < 24 then 2 else if i < 32 then 3 else 4
    | .reg => if i < 24 then 2 else if i < 32 then 3 else if i < 40 then 4 else if i < 48 then 5 else 6

/-- The lowest set bit of a 64-bit number. -/
def lowestBit (v : Nat) : Nat := ((List.range 64).find? (fun i => bitAt v i)).getD 0

/-- Element width of a format code in a register pair (R211). -/
def laneWidth (fmt : Nat) : Nat := if fmt = 9 ∨ fmt = 10 then 6 else if fmt = 11 then 4 else 8

/-- Highest `SUB` that an opcode accepts (R204 to R222). -/
def subMax (op : Nat) : Nat :=
  match op with
  | 0x1F => 7 | 0x40 => 7 | 0x41 => 9 | 0x43 => 3 | 0x60 => 11 | 0xA1 => 3 | 0xA3 => 1 | _ => 15

/-- One word alone against R198 to R201: the first rule it breaks, with the byte of the failing field. -/
def laneWordBad (w level : Nat) : Option (LoaderError × Nat) :=
  let op := bitsOf w 0 8
  match laneUse op with
  | none => some (.badProgram, 0)
  | some u =>
    let vd := bitsOf w 12 4
    let va := bitsOf w 16 4
    let vb := bitsOf w 20 4
    let sub := bitsOf w 28 4
    let fmt := bitsOf w 32 8
    let rmode := bitsOf w 40 2
    let pos := bitsOf w 42 6
    let aux := bitsOf w 48 16
    let imm := bitsOf w 32 32
    let conv := within op 0x50 0x52 || op == 0x56 || op == 0xA4
    let extra := w &&& ((u.2 + 0xFF) ^^^ (2 ^ 64 - 1))
    let is := fun (l : List Nat) => l.contains op
    firstBad [
      -- ranges
      rule (decide (sub ≤ subMax op)) .badProgram 3,
      rule (!is [0x35, 0x36, 0x37] || decide (imm < 32)) .badProgram 4,
      rule (op != 0x3B || decide (imm ≤ 8)) .badProgram 4,
      rule (op != 0x3D || (decide (-640 ≤ sext 32 imm) && decide (sext 32 imm ≤ 640))) .badProgram 4,
      rule (op != 0x42 || decide (imm < 512)) .badProgram 4,
      rule (!within op 0x40 0x44 || decide (vd < 8)) .badProgram 1,
      rule (!is [0x43, 0x65, 0x66] || decide (va < 8)) .badProgram 2,
      rule (op != 0x43 || decide (vb < 8)) .badProgram 2,
      rule (!within op 0x60 0x62 || decide (1 ≤ pos % 8)) .badProgram 5,
      rule (!is [0x61, 0x62] || decide (aux < 2 ^ (pos % 8))) .badProgram 6,
      rule (op != 0xA0 || (decide (-320 ≤ sext 10 aux) && decide (sext 10 aux ≤ 320))) .badProgram 6,
      rule (op != 0x53 || aux == 0 || (fmt == 0x0D && decide (aux ≤ 4))) .badProgram 6,
      rule (op != 0x04 || within aux 1 65535) .badProgram 6,
      -- unused fields and reserved bits
      rule (extra == 0) .badProgram (fieldByte u.1 (lowestBit extra)),
      rule (op != 0x04 || !bitAt w 9 || bitsOf w 20 12 == 0) .badProgram 2,
      rule (op != 0xA3 || bitAt sub 0 || vb == 0) .badProgram 2,
      rule (!conv || rmode == 1 || (vb == 0 && bitsOf w 24 4 == 0)) .badProgram (if vb = 0 then 3 else 2),
      rule (!conv || rmode == 1 || aux == 0) .badProgram 6,
      -- pairs (R199)
      rule (!(is [0x3C, 0x3D, 0x56, 0x63, 0x64] || (op == 0xA4 && fmt == 0x0F)) || vd % 2 == 0) .badProgram 1,
      rule (!(is [0x3C, 0x3D, 0x53, 0x63] || (op == 0xA1 && sub == 3)) || va % 2 == 0) .badProgram 2,
      rule (op != 0x3C || vb % 2 == 0) .badProgram 2,
      -- formats and rounding
      rule (op != 0x53 || fmt == 0x01 || within fmt 0x05 0x0E) .badProgram 4,
      rule (!is [0x54, 0x55] || within fmt 0x07 0x0C) .badProgram 4,
      rule (op != 0x56 || fmt == 0x01 || within fmt 0x05 0x0C) .badProgram 4,
      rule (op != 0xA4 || within fmt 0x01 0x06 || fmt == 0x0F) .badProgram 4,
      rule (decide (rmode ≤ 1) || u.1 != .reg) .badProgram 5,
      rule (op != 0xA4 || fmt != 0x0F || rmode == 0) .badProgram 5,
      -- positions (R201, R212)
      rule (!is [0x53, 0x56] || decide (pos + laneWidth fmt ≤ 64)) .badProgram 5,
      rule (op != 0x53 || fmt != 0x0D || pos % 8 == 0) .badProgram 5,
      -- trip count
      rule (op != 0x04 || bitAt w 9 || decide (bitsOf w 16 16 ≤ aux)) .badProgram 2,
      rule (!conv || rmode != 1 || decide (2 ≤ level)) .featureAboveLevel 5]

/-- Start and end of every loop among the words of an entry (R223). -/
def laneLoops (ws : List Nat) : List (Nat × Nat) :=
  ((ws.zip (List.range ws.length)).filter (fun y => y.2 != 0 && bitsOf y.1 0 8 == 4)).map (fun y => (y.2, bitsOf y.1 32 10))

/-- The loops that hold word `i` in their bodies, the `LOOPEND` being the body's last word. -/
def loopsAround (loops : List (Nat × Nat)) (i : Nat) : List (Nat × Nat) := loops.filter (fun l => decide (l.1 < i) && decide (i ≤ l.2))

/-- The rules of R179 and R201 that concern word `i`'s place among the words `ws` of its entry. -/
def lanePlaceBad (c : UnitCtx) (ws : List Nat) (i : Nat) : Option (LoaderError × Nat) :=
  let w := nth ws i 0
  let op := bitsOf w 0 8
  let target := bitsOf w 32 10
  let n := ws.length
  let loops := laneLoops ws
  let around := loopsAround loops i
  let q := bitsOf w 32 16
  firstBad [
    rule ((op == 1) == (i + 1 == n)) .badProgram 0,
    rule (!(op == 2 || op == 3) || (decide (i < target) && decide (target < n))) .badProgram 4,
    rule (!(op == 2 || op == 3) || decide (loopsAround loops target = around) || around.any (fun l => l.2 + 1 == target)) .badProgram 4,
    (op != 4 || (decide (i < target) && decide (target < n) && bitsOf (nth ws target 0) 0 8 == 5 &&
      loops.all (fun l => l.1 == i || (l.2 != target && (!(decide (i < l.1) && decide (l.1 < target)) || decide (l.2 < target))))),
      .badProgram, 4),
    rule (op != 4 || decide (around.length < 4)) .badProgram 0,
    rule (op != 5 || loops.any (fun l => l.2 == i)) .badProgram 0,
    rule (!(op == 0x90 || op == 0x91) || c.produces q) .badQueue 4,
    rule (!(op == 0x92 || op == 0x93) || c.consumes q) .badQueue 4]

/-- One cluster entry (R176, R179). -/
def laneEntryCheck (c : UnitCtx) (section_ item base n : Nat) : Except LoadErr Unit := do
  let b := c.load.bytes
  let ws := (List.range n).map (fun i => rd b (base + 8 * i) 8)
  let head := nth ws 0 0
  let bad := fun ok byte => check ok .badProgram section_ item (if byte = noItem then noItem else base + byte)
  bad (within (head % 128) 8 64) 0
  bad (decide (head < 256)) 1
  bad (decide (2 ≤ n)) noItem
  checkAll (fun i => do
    report section_ item (base + 8 * (i + 1)) (laneWordBad (nth ws (i + 1) 0) (rd b 6 1))
    report section_ item (base + 8 * (i + 1)) (lanePlaceBad c ws (i + 1))) (List.range (n - 1))

/-! ### Program sections (R99, R100) -/

/-- Program entry `i` of a section (R99). -/
def progEntryAt (b : Bytes) (x : Sect) (i : Nat) : ProgEntry :=
  let o := x.offset + 16 + 16 * i
  { cls := rd b o 2, offset := rd b (o + 4) 4, length := rd b (o + 8) 4 }

/-- Bytes a unit's store holds, and the unit of length of its entries with the longest one (R100, R157, R276). -/
def storeSize (kind : Nat) : Nat := if kind = 0x10 then 524288 else 65536
def entryGrain (kind : Nat) : Nat := if kind = 0x10 then 128 else if kind = 0x12 then 64 else 8

/-- One program section of step 15. -/
def programCheck (c : LoadCtx) (placements : List Placement) (queues : List QueueDecl) (x : Sect) : Except LoadErr Unit := do
  let b := c.bytes
  let h := fun ok e byte => check ok e x.index noItem byte
  let bodyOffset := rd b (x.offset + 4) 4
  let bodySize := rd b (x.offset + 8) 4
  h (ownsUnit c x.unit) .unitNotOwned noItem
  h (rd b x.offset 2 == x.unit) .badProgram x.offset
  h (rd b (x.offset + 2) 2 == x.items) .badProgram (x.offset + 2)
  h (decide (bodyOffset % 64 = 0) && decide (16 + 16 * x.items ≤ bodyOffset)) .badProgram (x.offset + 4)
  h (bodyOffset + bodySize == x.size) .badProgram (x.offset + 8)
  h (decide (bodySize ≤ storeSize x.kind)) .unitCapacity (x.offset + 8)
  let u : UnitCtx := { load := c, placements := placements, queues := queues, unit := x.unit }
  checkAll (fun i => do
    let e := progEntryAt b x i
    let o := x.offset + 16 + 16 * i
    let g := entryGrain x.kind
    let k := fun ok byte => check ok .badProgram x.index i byte
    k (decide (rd b 32 2 ≤ e.cls) && decide (e.cls < rd b 32 2 + rd b 34 2) &&
      (List.range i).all (fun j => (progEntryAt b x j).cls != e.cls)) o
    k (decide (e.offset + e.length ≤ bodySize)) noItem
    k (decide (e.length % g = 0) && decide (g ≤ e.length) && (x.kind != 0x11 || decide (e.length ≤ 8192))) (o + 8)
    let base := x.offset + bodyOffset + e.offset
    let n := e.length / g
    if x.kind = 0x10 then arrayEntryCheck u x.index i base n (List.range n) [none, none]
    else if x.kind = 0x12 then checkAll (mvEntryCheck u x.index i base n) (List.range n)
    else laneEntryCheck u x.index i base n) (List.range x.items)

/-! ### Slot tables (R265 to R271) -/

/-- Slot entry `i` (R268). -/
def slotAt (b : Bytes) (x : Sect) (i : Nat) : SlotEntry :=
  let o := x.offset + 16 + 16 * i
  { port := rd b o 2, bytes := rd b (o + 2) 2, first := rd b (o + 4) 4, run := rd b (o + 8) 2, count := rd b (o + 10) 2,
    stride := rd b (o + 12) 4 }

/-- The slots an entry grants (R268). -/
def SlotEntry.slots (e : SlotEntry) : List Nat :=
  (List.range e.count).flatMap (fun r => (List.range e.run).map (fun i => e.first + r * e.stride + i))

/-- The period of a resource, and its slots per period (R265). -/
def periodOk (resource period : Nat) : Bool :=
  if resource < 0x10 then within period 1 1048575
  else if resource < 0x20 then period == 2340
  else if resource = 0x20 then period == 384
  else period == 768
def slotsPerPeriod (resource period : Nat) : Nat :=
  if resource < 0x10 then period else if resource < 0x20 then 11232 else if resource = 0x20 then 125 else 25

/-- The unit behind a port (R267): none for a host port or no port. -/
def portUnit (resource port : Nat) : Option Nat :=
  if resource < 0x10 then
    if port < 16 then some (4 * resource + port / 4)
    else if port < 80 then some (0x1000 + 64 * resource + port - 16)
    else if port < 112 then some (0x2000 + 32 * resource + port - 80)
    else none
  else if port < 128 then some (0x2000 + port)
  else none

/-- The partition whose host port a port is. -/
def portHost (resource port : Nat) : Option Nat :=
  if 0x20 ≤ resource ∧ 128 ≤ port ∧ port < 144 then some (port - 128) else none

/-- Minimum charge of a bench port (R269). -/
def minCharge (port : Nat) : Nat :=
  if port < 16 then (match port % 4 with | 0 => 3264 | 1 => 1632 | 2 => 3072 | _ => 1536)
  else if port < 80 then 1024
  else 2048

/-- A slot is one of the partition's on a tier (R335); on a bench every qc is. -/
def slotOwned (c : LoadCtx) (resource s : Nat) : Bool :=
  if resource < 0x10 then true
  else if resource < 0x20 then
    bitAt (rd c.record (176 + 4 * (4 * (resource - 0x10) + s % 4)) 4) (s / 4 % 32)
  else if resource = 0x20 then bitAt (rd c.record 256 16) s
  else bitAt (rd c.record 288 4) s

/-- A slot that the record keeps for the host port (R340). -/
def slotHost (c : LoadCtx) (resource s : Nat) : Bool :=
  if resource = 0x20 then bitAt (rd c.record 272 16) s else if resource = 0x21 then bitAt (rd c.record 292 4) s else false

/-- A Tier 1 slot lies in its stack's refresh window (R271 rule 4). -/
def slotRefresh (resource s : Nat) : Bool :=
  if 0x10 ≤ resource ∧ resource < 0x20 then
    let k := 4 * (resource - 0x10) + s % 4
    decide (144 * k ≤ s / 4) && decide (s / 4 < 144 * k + 144)
  else false

/-- One slot table section of step 16 (R271, R340). -/
def slotCheck (c : LoadCtx) (x : Sect) : Except LoadErr Unit := do
  let b := c.bytes
  let res := x.unit
  let period := rd b (x.offset + 4) 4
  let bench := decide (res < 0x10)
  let all := (List.range x.items).map (slotAt b x)
  let h := fun ok byte => check ok .badSlotTable x.index noItem byte
  h (rd b x.offset 2 == res) x.offset
  h (rd b (x.offset + 2) 2 == 16) (x.offset + 2)
  h (periodOk res period) (x.offset + 4)
  checkAll (fun i => do
    let o := x.offset + 16 + 16 * i
    let e := slotAt b x i
    let k := fun ok er byte => check ok er x.index i byte
    k ((portUnit res e.port).isSome || (portHost res e.port).isSome) .badSlotTable o
    k (if bench then decide (minCharge e.port ≤ e.bytes) else e.bytes == 0) .badSlotTable (o + 2)
    k (decide (1 ≤ e.run)) .badSlotTable (o + 8)
    k (decide (1 ≤ e.count)) .badSlotTable (o + 10)
    k (if e.count = 1 then e.stride == 0 else decide (e.run ≤ e.stride)) .badSlotTable (o + 12)
    k (decide (e.first + (e.count - 1) * e.stride + e.run ≤ slotsPerPeriod res period)) .badSlotTable noItem
    let earlier := all.take i
    k (earlier.all (fun y => (bench && y.port != e.port) || !(e.slots.any (fun z => y.slots.contains z)))) .badSlotTable noItem
    k (!(e.slots.any (fun z => slotOwned c res z && slotHost c res z))) .badSlotTable noItem
    k (!(e.slots.any (slotRefresh res))) .badSlotTable noItem
    k ((portUnit res e.port).elim false (ownsUnit c) || portHost res e.port == some c.partition) .slotNotOwned o
    k (e.slots.all (slotOwned c res)) .slotNotOwned noItem) (List.range x.items)
  check (!bench || (List.range period).all (fun z =>
    decide ((all.map (fun e => if e.slots.contains z then e.bytes else 0)).foldl (· + ·) 0 ≤ rd c.record (104 + 2 * res) 2)))
    .slotNotOwned x.index noItem noItem

/-! ### The jig (R82 to R101) -/

/-- The jig that a checked image holds. -/
def jigOf (b : Bytes) (l : List Sect) : Jig :=
  let cls := sectOf l 1
  let seq := sectOf l 2
  let pl := sectOf l 3
  { capLevel := rd b 6 1, cadence := rd b 7 1, clampMode := rd b 8 1, fixedState := rd b 9 1, frameLengthUs := rd b 28 4,
    jobId := rd b 12 4, startField := rd b 16 6, classBase := rd b 32 2, classCount := rd b 34 2, idleW := rd b 44 2,
    classes := (List.range cls.items).map (classAt b cls), sequence := (List.range seq.items).map (seqAt b seq),
    plans := (List.range pl.items).map (planAt b pl), queues := queuesOf b l, placements := placementsOf b l,
    programs := (l.filter (fun x => decide (0x10 ≤ x.kind) && decide (x.kind ≤ 0x12))).map (fun x =>
      { unit := x.unit, entries := (List.range x.items).map (progEntryAt b x),
        body := slice b (x.offset + rd b (x.offset + 4) 4) (rd b (x.offset + 8) 4) }),
    slots := (l.filter (fun x => x.kind == 0x20)).map (fun x =>
      { resource := x.unit, periodQc := rd b (x.offset + 4) 4, entries := (List.range x.items).map (slotAt b x) }) }

end Sys2Proof.Machine
end

