-- ==== Sys2Proof/Machine/LoaderCode.lean ====
section
/-! DEFINITION. The jig loader (R104 to R113, R345, R349): taking up a doorbell, its checks in order, distribution, the plans on their way
to the PWC and their acknowledgement. -/

namespace Sys2Proof.Machine

/-! ### Modes (R109) -/

/-- The modes that a jig's header names (R82, R109): a BARRIER jig leaves the module's own frame length in place. -/
def Jig.modes (j : Jig) (own : Nat) : Modes :=
  { cadence := if j.cadence = 0 then .fixed else .barrier,
    clampMode := if j.clampMode = 0 then .opportunistic else .fixedFrequency,
    fixedState := j.fixedState, frameLengthUs := if j.cadence = 0 then j.frameLengthUs else own }

/-- The first header field that does not match the module's modes, by its offset (R109, R685 step 5). -/
def State.modeMismatch (s : State) (b : Bytes) (p : Nat) : Option Nat :=
  let m := s.frame.modes
  -- step 4 has given this partition to the jig: the others are asked
  let free := s.frame.domain.isNone && allPartitions.all (fun q => q == p || (s.partJig q).isNone)
  let cad := rd b 7 1
  let clamp := rd b 8 1
  let st := rd b 9 1
  let len := rd b 28 4
  let cadOk := decide (cad ≤ 1) && (free || decide ((cad = 0) = (m.cadence = .fixed)))
  let clampOk := decide (clamp ≤ 1) && (free || decide ((clamp = 0) = (m.clampMode = .opportunistic)))
  let stOk := (if clamp = 1 then within st 1 5 else st == 0) && (free || st == m.fixedState)
  let lenOk := if cad = 0 then within len 100 8000000 && (free || len == m.frameLengthUs) else len == 0
  if !cadOk then some 7 else if !clampOk then some 8 else if !stOk then some 9 else if !lenOk then some 28 else none

/-! ### Steps 1 to 6 (R104, R685) -/

/-- Step 1 (R80): the image's start, its size, and the whole image inside the partition's Tier 2 range. The start is no header field
(R687). -/
def State.locationCheck (s : State) (p a size : Nat) : Except LoadErr Unit := do
  check (decide (a % 4096 = 0) && rangeInTier a 64 2 && s.owns p a 64) .badLocation noSection noItem noItem
  check (within size 4096 268435456) .badLocation noSection noItem 24
  check (rangeInTier a size 2 && s.owns p a size) .badLocation noSection noItem noItem

/-- Steps 3 to 6. -/
def State.admissionCheck (s : State) (p : Nat) (b : Bytes) : Except LoadErr Unit := do
  let h := fun ok e byte => check ok e noSection noItem byte
  let level := rd b 6 1
  h (decide (1 ≤ level) && decide (level ≤ s.moduleLevel)) .levelUnsupported 6
  h (s.frame.domain.elim true (fun d => decide (level ≤ d.level))) .levelAboveDomain 6
  h (rd b 10 1 == p) .partitionMismatch 10
  h (rd b 12 4 != 0) .badJobId 12
  h (s.partJig p).isNone .partitionBusy noItem
  match s.modeMismatch b p with
  | some byte => h false .modeMismatch byte
  | none => pure ()
  let start := rd b 16 6
  h (if start = 0 then s.frame.domain.elim true (fun d => d.memberCount == 1) else decide (s.frame.number + 2 ≤ start))
    .badStartFrame 16

/-- The class range of an image meets that of a jig on another partition (rule 6 of R88, R112). -/
def State.classesMeet (s : State) (p : Nat) (b : Bytes) : Bool :=
  allPartitions.any (fun q => q != p && (match s.partJig q with
    | some j => rangesMeet (rd b 32 2) (rd b 34 2) j.jig.classBase j.jig.classCount
    | none => false))

/-- Steps 8 to 17, on the sections of the directory. -/
def State.imageCheck (s : State) (c : LoadCtx) (l : List Sect) : Except LoadErr Unit := do
  let b := c.bytes
  crcCheck b l
  reservedCheck b l
  classCheck b (sectOf l 1) (s.classesMeet c.partition b)
  sequenceCheck b (sectOf l 2)
  plansCheck b l
  queueCheck c (fun e => (SMap.get s.fabric.bindings e Binding.unbound).mode) (sectOf l 4)
  placementCheck s c (sectOf l 5)
  checkAll (fun x => if 0x10 ≤ x.kind ∧ x.kind ≤ 0x12 then programCheck c (placementsOf b l) (queuesOf b l) x else .ok ()) l
  checkAll (fun x => if x.kind = 0x20 then slotCheck c x else .ok ()) l

/-! ### Taking up a doorbell (R104, R105, R108, R345, R349) -/

/-- The doorbell's turn has come: its function's earlier posted writes have taken effect, and fewer than 6 records are held. -/
def State.doorbellReady (s : State) (d : Doorbell) : Bool :=
  let v := s.vf d.partition
  let isWrite := fun (x : ApertureTlp) => match x.kind with | .write _ _ => true | .read _ _ => false
  (v.accesses ++ v.stalled).all (fun x => !(isWrite x && decide (x.seq < d.after))) &&
  v.sectors.all (fun x => decide (d.after ≤ x.seq)) &&
  decide ((s.jigs.results.filter (fun r => r.partition == d.partition)).length < 6)

/-- The doorbell that the loader takes up next: the oldest that no held records keep back; one whose writes are still on their way
keeps every later one waiting. -/
def State.nextDoorbell (s : State) : Option Doorbell :=
  match s.jigs.doorbells.find? (fun d =>
    decide ((s.jigs.results.filter (fun r => r.partition == d.partition)).length < 6)) with
  | some d => if s.doorbellReady d then some d else none
  | none => none

/-- The bytes of an image at `a` as the loader takes them. What it takes from a poisoned byte is left open: a free byte. -/
def State.imageBytes (s : State) (a n : Nat) : Bytes :=
  ((s.mem.readData a n).zip (List.range n)).map (fun y => y.1.getD (Config.freeByte s.mem.losses (a + y.2)))

/-- The loader reads parts (offset, length) of the image at `a` for partition `p`: what a read of poison raises and sets happens for
these bytes alone (R81, R250). -/
def State.readParts (s : State) (p a : Nat) (l : List (Nat × Nat)) : State :=
  l.foldl (fun s x => (s.readMem (some p) (a + x.1) x.2).2) s

/-- The parts of a section that are read: all of it, but for the padding between the entry table and the body of a program section
(R81, R100). DEDUCED: that padding enters `SECTION_CRC`, which R83 takes over all `SIZE` bytes, and is read for nothing else. -/
def sectParts (b : Bytes) (x : Sect) : List (Nat × Nat) :=
  if 0x10 ≤ x.kind ∧ x.kind ≤ 0x12 then
    let gap := 16 + 16 * x.items
    let body := rd b (x.offset + 4) 4
    if gap ≤ body ∧ body ≤ x.size then [(x.offset, gap), (x.offset + body, x.size - body)] else [(x.offset, x.size)]
  else [(x.offset, x.size)]

/-- A rejected jig leaves no trace but its load result and its fault (R105, R106, R115). -/
def State.rejectJig (s : State) (p job : Nat) (e : LoadErr) : State :=
  (s.deliverResult { partition := p, status := 1, error := e.error.code, sectionIndex := e.section_, itemIndex := e.item,
                     byteOffset := e.byte, jobId := job, frame := 0 }).raiseVf FC.jigRejected p

/-- A jig that passes its checks is held by its partition, and its plans are to be sent (R108, R112). -/
def State.holdJig (s : State) (p : Nat) (b : Bytes) (l : List Sect) : State :=
  let j := jigOf b l
  let pj : PartJig := { jig := j, phase := .loading, startFrame := if j.startField = 0 then none else some j.startField,
                        pos := { entry := 0, left := 0, passes := [] }, work := .nothing, halting := false }
  let s1 := s.setPartJig p (some pj)
  { s1 with jigs := { s1.jigs with inHand := some p, plansToSend := j.classes.map (·.id), ackDue := false },
            fabric := { s1.fabric with haltsUp := s1.fabric.haltsUp.filter (· != j.jobId),
                                       haltsDown := s1.fabric.haltsDown.filter (· != j.jobId) } }

/-- The loader takes up a jig at image address `a` for partition `p`: it reads the header, then the directory, then the sections, each
when the checks before it have passed. DESIGN CHOICE: R106 names no `JOB_ID` for a failure of step 1; it is 0, as for step 2. -/
def State.takeJig (s : State) (p a : Nat) : State :=
  let own := s.owns p a 64
  let size := if own then rd (s.imageBytes a 64) 24 4 else 0
  let s0 := if own then s.readParts p a [(0, 64)] else s
  match s0.locationCheck p a size with
  | .error e => s0.rejectJig p 0 e
  | .ok _ =>
    let b := s.imageBytes a size
    match headerCheck b with
    | .error e => s0.rejectJig p 0 e
    | .ok _ =>
      let job := rd b 12 4
      match s0.admissionCheck p b with
      | .error e => s0.rejectJig p job e
      | .ok _ =>
        let d := rd b 40 4
        let s1 := s0.readParts p a [(d, min (24 * rd b 38 2) (size - d))]
        match directoryCheck b with
        | .error e => s1.rejectJig p job e
        | .ok l =>
          let s2 := s1.readParts p a (l.flatMap (sectParts b))
          match s2.imageCheck { bytes := b, address := a, partition := p, record := s2.record p } l with
          | .error e => s2.rejectJig p job e
          | .ok _ => s2.holdJig p b l

/-- The loader takes up doorbells: it holds no jig, the module is ACTIVE with its dies running, no join waits for its frame, and no
reaction of MAJOR or higher is in force (R108, R531, R616 to R618). -/
def State.loaderFree (s : State) : Bool :=
  s.jigs.inHand.isNone && decide (s.mod.mode = .active) && s.diesClocked && s.frame.pendingJoin.isNone && decide (s.levelInForce < 3)

/-- The loader takes up the next doorbell and makes steps 1 to 17; a jig that passes is distributed (R104, R108). -/
def execLoaderTakeJig (t : Nat) (s : State) : Outcome :=
  let s := s.upTo t
  if !s.loaderFree then .next s
  else
    match s.nextDoorbell with
    | none => .next s
    | some d =>
      let s1 : State := { s with jigs := { s.jigs with doorbells := s.jigs.doorbells.erase d } }
      .next (s1.takeJig d.partition d.address)

/-- The class plan that the PWC receives for class `c` of a jig (R25, R95). -/
def classPlan (p : Nat) (j : Jig) (c : Nat) : Option ClassPlan :=
  match j.classes.find? (fun r => r.id == c) with
  | none => none
  | some r =>
    (j.plans[r.planIndex]?).map (fun pl =>
      { partition := p, plan := pl, bodyTime := r.bodyTime, hintPackageW := r.hintPackageW, hintFlags := r.hintFlags,
        lengthUs := r.lengthUs })

/-- The PWC receives the next class plan record of the jig in hand (R25). -/
def execPlanRecord (t : Nat) (s : State) : Outcome :=
  let s := s.upTo t
  match s.jigs.inHand, s.jigs.plansToSend with
  | some p, c :: rest =>
    match s.partJig p with
    | none => .next s
    | some j =>
      .next { s with jigs := { s.jigs with
        planStore := SMap.set s.jigs.planStore c (classPlan p j.jig c) none, plansToSend := rest, ackDue := rest.isEmpty } }
  | _, _ => .next s

/-- Frames from the first entry on to `END`; none for a sequence without end (R91, R92): `l` holds, for each entry before, the frames
that pass before it is first reached. -/
def framesToEnd : List SeqEntry → List Nat → Nat → Option Nat
  | [], _, n => some n
  | .run _ c :: r, l, n => framesToEnd r (l ++ [n]) (n + c)
  | .idle c :: r, l, n => framesToEnd r (l ++ [n]) (n + c)
  | .loop t c :: r, l, n => if c = 0 then none else framesToEnd r (l ++ [n]) (n + (c - 1) * (n - nth l t 0))
  | .stop :: _, _, n => some n

/-- What the last frame before `END` does: a finite sequence falls through its loops there. -/
def lastWork (q : List SeqEntry) : FrameWork :=
  (q.reverse.findSome? (fun e => match e with
    | .run c _ => some (FrameWork.run c)
    | .idle _ => some FrameWork.idle
    | _ => none)).getD .nothing

/-- The scheduled steps of a jig: its start frame, and its `END` where the sequence is finite (R372). -/
def State.jigSteps (s : State) (p start : Nat) (j : Jig) : List ShimStep :=
  let f := s.frame.kerf.sampled
  { frame := start, delta := s.meanDraw p (seqStart j).2 f, partition := p, atEnd := false, entered := false, withdrawn := false } ::
    ((framesToEnd j.sequence [] 0).map (fun n =>
      ({ frame := start + n, delta := s.meanDraw p (lastWork j.sequence) f, partition := p, atEnd := true, entered := false, withdrawn := false } :
        ShimStep))).toList

/-- The PWC's acknowledgement of the last plan record ends step 18: the partition's jig is loaded, `LOADED` names its start frame,
and the loader is free (R108, R110, R113). It waits while control passes between the processors. -/
def execPlanAck (t : Nat) (s : State) : Outcome :=
  let s := s.upTo t
  if s.jigs.ackDue && s.mpServes then
    match s.jigs.inHand with
    | none => .next s
    | some p =>
      match s.partJig p with
      | none => .next s
      | some j =>
        let start := j.startFrame.getD (s.frame.number + 1)
        let s1 := s.setPartJig p (some { j with phase := .loaded, startFrame := some start })
        let s2 : State := { s1 with jigs := { s1.jigs with inHand := none, ackDue := false },
                                    shim := { s1.shim with steps := s1.shim.steps ++ s.jigSteps p start j.jig } }
        .next (s2.deliverResult (plainResult p 0 j.jig.jobId start))
  else .next s

end Sys2Proof.Machine
end

