-- ==== Sys2Proof/Machine/MgmtOps.lean ====
section
/-! DEFINITION. The management processors' transports and their commands (R560, R561, R566, R580 to R604, R645): mailbox windows,
datagrams, I3C, network messages, staging of firmware, restart of the standby, hand-over, settings. -/

namespace Sys2Proof.Machine

/-! ### Processors and banks (R561, R568, R580 to R582) -/

/-- Processor `i`: 0 MP-A, 1 MP-B. -/
def State.proc (s : State) (i : Nat) : Processor := if i = 0 then s.mp.mpA else s.mp.mpB
def State.setProc (s : State) (i : Nat) (p : Processor) : State :=
  { s with mp := if i = 0 then { s.mp with mpA := p } else { s.mp with mpB := p } }

/-- Firmware bank `b`, 0 or 1. -/
def State.fwBank (s : State) (b : Nat) : FwBank := if b = 0 then s.mp.bank0 else s.mp.bank1
def State.setBank (s : State) (b : Nat) (x : FwBank) : State :=
  { s with mp := if b = 0 then { s.mp with bank0 := x } else { s.mp with bank1 := x } }

/-- The bank of the boot record of a processor (R581). -/
def State.setBoot (s : State) (i b : Nat) : State := { s with mp := if i = 0 then { s.mp with bootA := b } else { s.mp with bootB := b } }

/-- The processor that does not hold control. -/
def State.otherIndex (s : State) : Nat := 1 - s.mp.lastOwner
def State.standby (s : State) : Processor := s.proc s.otherIndex

/-- A processor runs firmware of its bank, or boots from it. -/
def Processor.usesBank (p : Processor) (b : Nat) : Bool :=
  p.bank == b && p.role != .none && p.role != .held && p.role != .recovery

/-- A bank in use (R580). -/
def State.bankInUse (s : State) (b : Nat) : Bool := s.mp.mpA.usesBank b || s.mp.mpB.usesBank b

/-- The newest good image slot (R566). -/
def MgmtState.newest (m : MgmtState) : Option ImageSlot :=
  if m.image0.good ∧ m.image1.good then some (if m.image0.seq < m.image1.seq then m.image1 else m.image0)
  else if m.image0.good then some m.image0
  else if m.image1.good then some m.image1
  else none

/-- A processor's firmware reads an image (R582). -/
def Processor.reads (p : Processor) (x : ImageSlot) : Bool := decide (p.formatMin ≤ x.format) && decide (x.format ≤ p.format)

/-- A standby is compatible: it reads the newest good slot, if there is one. -/
def State.compatible (s : State) (p : Processor) : Bool := s.mp.newest.elim true (fun x => p.reads x)

/-- Failures of a processor within the last hour (R568). -/
def State.failuresOf (s : State) (p : Processor) : List Nat := p.failures.filter (fun t => decide (s.now < t + 3600 * rcSec))

/-- A processor has stopped after a failure: what it ran is gone (R562, R564, R568). -/
def State.procLost (s : State) (i : Nat) : State :=
  let p := s.proc i
  s.setProc i { p with role := .none, failures := s.now :: s.failuresOf p }

/-- A processor takes over the version of the firmware in its bank. -/
def Processor.load (p : Processor) (b : Nat) (x : FwBank) : Processor :=
  { p with bank := b, fwMajor := x.fwMajor, fwMinor := x.fwMinor, capLevel := x.capLevel, format := x.format, formatMin := x.formatMin }

/-- A standby that reads the newest image no more is not READY (R582). -/
def State.settleReady (s : State) : State :=
  let p := s.standby
  if p.role = .ready ∧ !s.compatible p then s.setProc s.otherIndex { p with role := .selfTest } else s

/-! ### MP_GET_STATUS (R598) -/

/-- `STANDBY_STATE`. -/
def MpRole.standbyState (r : MpRole) : Nat :=
  match r with
  | .none => 0 | .active => 0 | .booting => 1 | .selfTest => 2 | .ready => 3 | .held => 4 | .recovery => 0

def State.mpStatus (s : State) : Bytes :=
  let m := s.mp
  let a := s.controller
  let b := s.standby
  let there := b.role != .none && b.role != .held
  leBytes 1 m.lastOwner ++ leBytes 1 b.role.standbyState ++ leBytes 1 (b2n m.switchAuto) ++
  leBytes 1 (flags [m.coastSince.isSome, m.resumedOlder, m.handoverFrame.isSome,
    (decide (b.role = .selfTest) || decide (b.role = .ready)) && s.compatible b, s.recoveryServes]) ++
  leBytes 1 a.fwMajor ++ leBytes 1 a.fwMinor ++ (if there then leBytes 1 b.fwMajor ++ leBytes 1 b.fwMinor else zeros 2) ++
  leBytes 1 a.bank ++ leBytes 1 (if there then b.bank else 0xFF) ++ leBytes 1 (flags [m.bank0.valid, m.bank1.valid]) ++
  leBytes 1 s.moduleLevel ++ leBytes 4 (min m.takeovers 0xFFFFFFFF) ++ leBytes 8 (m.handoverFrame.getD 0) ++
  leBytes 8 (m.newest.elim 0 (·.seq)) ++ leBytes 8 m.jseq ++ leBytes 4 m.lastCoastUs ++
  leBytes 1 (100 * journalUsed m.keptJournal / journalSize) ++ leBytes 1 (min (s.failuresOf b).length 255) ++ zeros 2

def mpGetStatus : Cmd :=
  { code := 0x0101, via := .all, lengthOk := exactly 0, changes := never, act := fun s _ _ => .done stOk s s.mpStatus }

/-! ### MP_STAGE_IMAGE (R580, R581, R599) -/

/-- Verification of staged bytes: `VERIFIED` 1, `BAD_FORMAT` 2, `BAD_KEY` 3, `BAD_SIGNATURE` 4, `BAD_DIGEST` 5. -/
def verifyImage (b : Bytes) : Nat :=
  let n := rd b 12 4
  if b.length < 320 ∨ rd b 0 4 ≠ 0x57464C49 ∨ !zeroAt b 7 1 ∨ !zeroAt b 161 3 ∨ !zeroAt b 260 60 ∨ n = 0 ∨ 2096832 < n ∨
      b.length ≠ 320 + n then 2
  else if slice (Config.sha384 ((b.drop 64).take 97)) 0 48 ≠ fuseBytes 0x40 48 then 3
  else if !Config.ecdsaVerifies ((b.drop 64).take 97) (b.take 164) ((b.drop 164).take 96) then 4
  else if slice (Config.sha384 (b.drop 320)) 0 48 ≠ (b.drop 16).take 48 then 5
  else 1

/-- What a bank holds once its bytes have been verified. -/
def FwBank.verified (x : FwBank) (r : Nat) : FwBank :=
  let b := x.staged
  if r = 1 then
    { x with valid := true, fwMajor := rd b 4 1, fwMinor := rd b 5 1, capLevel := rd b 6 1, format := rd b 8 2, formatMin := rd b 10 2,
             openFrom := none }
  else { x with valid := false, openFrom := none }

/-- The response of `MP_STAGE_IMAGE`. -/
def stageReply (r next : Nat) : Bytes := leBytes 1 r ++ zeros 3 ++ leBytes 4 next

/-- A chunk written to bank `i` through slot `k` (R599). -/
def State.stageChunk (s : State) (k i : Nat) (first last : Bool) (data : Bytes) : Reply :=
  let x := s.fwBank i
  let y : FwBank := if first then { FwBank.empty with staged := data, openFrom := some k }
    else { x with staged := x.staged ++ data, openFrom := some k }
  if last then
    let r := verifyImage y.staged
    let s1 := s.setBank i (y.verified r)
    .done stOk (if r = 1 then s1 else s1.raise .pwc FC.fwVerifyFail noUnit 0) (stageReply r y.staged.length)
  else .done stOk (s.setBank i y) (stageReply 0 y.staged.length)

/-- A chunk continues an open staging at the end of the previous one, or begins one (R599). -/
def State.stageOffsetOk (s : State) (i offset : Nat) (first : Bool) : Bool :=
  if first then offset == 0 else decide (offset = (s.fwBank i).staged.length)

def mpStageImage : Cmd :=
  { code := 0x0102, via := .mbp, lengthOk := fun b => decide (16 ≤ b.length) && b.length == 16 + rd b 2 2, changes := always,
    act := fun s k b =>
      let i := rd b 0 1
      let first := bitAt (rd b 1 1) 0
      let last := bitAt (rd b 1 1) 1
      let n := rd b 2 2
      if 1 < i ∨ 3 < rd b 1 1 ∨ 4032 < n ∨ (!last ∧ n % 64 ≠ 0) ∨ !zeroAt b 8 8 ∨ !s.stageOffsetOk i (rd b 4 4) first ∨
          2097152 < rd b 4 4 + n then .refused stRange
      else if s.bankInUse i ∨ (!first ∧ (s.fwBank i).openFrom.isNone) then .refused stState
      else if (s.fwBank i).openFrom.elim false (· != k) then .refused stBusy
      else s.stageChunk k i first last (b.drop 16) }

/-! ### MP_RESTART_STANDBY (R583, R600, R628) -/

/-- The processor that does not hold control restarts from bank `b`, its failures forgotten. -/
def State.restartStandby (s : State) (b : Nat) : State :=
  let i := s.otherIndex
  ((s.setProc i { (s.proc i).boot b with failures := [] }).setBoot i b).bump 0xA26 1

def mpRestartStandby : Cmd :=
  { code := 0x0103, via := .mbp, lengthOk := exactly 8, changes := always,
    act := fun s _ b =>
      let i := rd b 0 1
      if 1 < i ∨ !zeroAt b 1 7 then .refused stRange
      else if !(s.fwBank i).valid then .refused stState
      else if s.recoveryServes then
        .done stOk { s with mod := { s.mod with restartDue := some (i, 2) } } []
      else if s.mp.handoverFrame.isSome ∨
          s.frame.domain.elim false (fun d => decide ((s.fwBank i).capLevel < d.level)) then .refused stState
      else .done stOk (s.restartStandby i) [] }

/-! ### MP_HANDOVER, MP_SET_SWITCHBACK (R601, R602) -/

/-- The level of a jig held on the module (R112) lies above `l` (R601). -/
def State.jigHeldAbove (s : State) (l : Nat) : Bool :=
  allPartitions.any (fun p => (s.partJig p).elim false (fun j => decide (l < j.jig.capLevel)))

def mpHandover : Cmd :=
  { code := 0x0104, via := .mbp, lengthOk := exactly 16, changes := always,
    act := fun s _ b =>
      let f := if rd b 0 8 = 0 then s.frame.number + 2 else rd b 0 8
      let cancel := rd b 8 1 == 1
      let p := s.standby
      if 2 ^ 48 ≤ rd b 0 8 ∨ 1 < rd b 8 1 ∨ !zeroAt b 9 7 ∨ (!cancel ∧ f < s.frame.number + 2) then .refused stRange
      else if cancel then
        if s.mp.handoverFrame.isNone then .refused stState
        else .done stOk { s with mp := { s.mp with handoverFrame := none } } (frameReply 0)
      else if p.role ≠ .ready ∨ !s.compatible p ∨ s.mp.handoverFrame.isSome ∨
          s.frame.domain.elim false (fun d => decide (p.capLevel < d.level)) ∨ s.jigHeldAbove p.capLevel then .refused stState
      else .done stOk { s with mp := { s.mp with handoverFrame := some f } } (frameReply f) }

def mpSetSwitchback : Cmd :=
  { code := 0x0105, via := .mbp, lengthOk := exactly 8, changes := always,
    act := fun s _ b =>
      if 1 < rd b 0 1 ∨ !zeroAt b 1 7 then .refused stRange
      else .done stOk { s with mp := { s.mp with switchAuto := rd b 0 1 == 1 } } [] }

/-! ### MP_SET_MGMT (R603) -/

/-- Entry `i` of the prefix list. -/
def prefixOf (b : Bytes) (i : Nat) : Prefix6 := { bytes := slice b (8 + 24 * i) 16, length := rd b (24 + 24 * i) 1 }

def mpSetMgmt : Cmd :=
  { code := 0x0106, via := .pcieOnly, lengthOk := exactly 200, changes := always,
    act := fun s _ b =>
      let port := rd b 0 2
      let ptp := rd b 2 1
      let n := rd b 3 1
      let entry := fun (i : Nat) =>
        if i < n then decide ((prefixOf b i).length ≤ 128) && zeroAt b (25 + 24 * i) 7 else zeroAt b (8 + 24 * i) 24
      if (port ≠ 0 ∧ port < 49152) ∨ (1 < ptp ∧ ptp ≠ 0xFF) ∨ 8 < n ∨ !zeroAt b 4 4 ∨ !(List.range 8).all entry then .refused stRange
      else
        .done stOk { s with mp := { s.mp with udpPort := if port = 0 then s.mp.udpPort else port,
                                              ptpEnabled := if ptp = 0xFF then s.mp.ptpEnabled else ptp == 1,
                                              prefixes := (List.range n).map (prefixOf b) } } [] }

/-! ### Transports (R587, R590, R592) -/

/-- A bad message raises its fault once per second at most (R604). -/
def State.msgBad (s : State) : State :=
  match s.mp.msgBadAt with
  | some a =>
    if s.now < a + rcSec then s
    else ({ s with mp := { s.mp with msgBadAt := some s.now } } : State).raise .pwc FC.mailboxMsgBad noUnit 0
  | none => ({ s with mp := { s.mp with msgBadAt := some s.now } } : State).raise .pwc FC.mailboxMsgBad noUnit 0

/-- `MAILBOX_REQUEST_PCIE` (R587): the 64-bit write of the header word at offset 8 of the window of function `f` (0 the PF, p + 1 the VF
of partition p). -/
def execMailboxRequestPcie (f : Fin 17) (word : BitVec 64) (t : Nat) (s : State) : Outcome :=
  let s := (s.upTo t).bump (0x980 + 8 * f) 1
  .next ((s.windowWrite f 8 (leBytes 8 word.toNat)).getD s)

/-- A source address lies in an allowed prefix (R590): both as numbers, first byte most significant. -/
def Prefix6.holds (p : Prefix6) (a : Nat) : Bool :=
  let n := leNat p.bytes.reverse
  decide (n / 2 ^ (128 - p.length) = a / 2 ^ (128 - p.length))

/-- The link of a management port, and of the other one. -/
def State.mgmtLink (s : State) (port : Nat) : Bool := if port = 0 then s.mp.linkA else s.mp.linkB

/-- A datagram is discarded and counted (R590). -/
def State.discardDatagram (s : State) : State :=
  ({ s with mp := { s.mp with ethDiscarded := s.mp.ethDiscarded + 1 } } : State).bump 0xA21 1

/-- `MAILBOX_DATAGRAM` (R590): a UDP datagram for the module arrives whole on a port: source address and port, destination port, bytes.
A datagram of more than 4,160 bytes cannot be reassembled (R589). -/
def execMailboxDatagram (port : Fin 2) (src srcPort dstPort : Nat) (data : Bytes) (t : Nat) (s : State) : Outcome :=
  let s := s.upTo t
  if !s.mod.processorsUp || !s.mgmtLink port || decide (dstPort ≠ s.mp.udpPort) || decide (4160 < data.length) then .next s
  else if !s.mp.prefixes.any (·.holds src) then .next s.discardDatagram
  else if data.length < 32 ∨ data.length ≠ 32 + rd data 8 2 ∨ !msgCrcGood data then .next s.discardDatagram.msgBad
  else if (s.slot 17).request.isSome then .next s.discardDatagram
  else .next ((s.requestReady 17 data (port, src * 65536 + srcPort)).settleUnknown)

/-- `I3C_PRIVATE_WRITE` (R592, R645): ignored while a request is in progress; more than 256 bytes abandon the transfer; a bad one is
discarded, and leaves no response to read. -/
def execI3cPrivateWrite (data : Bytes) (t : Nat) (s : State) : Outcome :=
  let s := s.upTo t
  let m := s.slot 18
  if s.mp.i3cAddress.isNone || !s.mod.processorsUp || m.request.isSome then .next s
  else if 256 < data.length then .next ((s.raise .pwc FC.inputOutOfRange noUnit 11).bump 0xA23 1)
  else
    let s1 := s.setSlot 18 { m with response := none }
    if data.length < 32 ∨ data.length ≠ 32 + rd data 8 2 ∨ !msgCrcGood data then .next s1.msgBad
    else .next ((s1.requestReady 18 data (0, 0)).settleUnknown)

/-- `I3C_PRIVATE_READ` (R592): the ready response goes out; without one the address is not acknowledged. What goes out stands in
`sent` as port 2. -/
def execI3cPrivateRead (t : Nat) (s : State) : Outcome :=
  let s := s.upTo t
  match (s.slot 18).response with
  | some r =>
    if s.mp.i3cAddress.isSome ∧ s.mod.processorsUp then
      .next { s with mp := { s.mp with sent := { port := 2, dest := 0, data := r } :: s.mp.sent } }
    else .next s
  | none => .next s

/-- `I3C_SCL_STUCK` (R645): the transfer is abandoned; the input stays out of range until SCL is released. -/
def execI3cSclStuck (t : Nat) (s : State) : Outcome :=
  let s := s.upTo t
  if s.fc.inputOutOfRange.contains 11 then .next s
  else
    let s1 : State := { s with fc := { s.fc with inputOutOfRange := 11 :: s.fc.inputOutOfRange } }
    .next ((s1.raiseCond .pwc FC.inputOutOfRange noUnit 11).bump 0xA23 1)

/-- `I3C_ADDRESS_ASSIGNMENT` (R592): by ENTDAA, or by SETDASA, which names the static address 0x48 + SLOT_ID[1:0]. -/
def execI3cAddressAssignment (address : Fin 128) (viaStatic : Option (Fin 128)) (t : Nat) (s : State) : Outcome :=
  let s := s.upTo t
  let ok := match viaStatic with
    | none => true
    | some a => s.pins.slotId.elim false (fun k => a.val == 0x48 + k % 4)
  if ok && s.mod.processorsUp then .next { s with mp := { s.mp with i3cAddress := some address.val } } else .next s

/-! ### Management Ethernet (R589, R591, R645) -/

/-- The interface identifier of a port: its MAC address as a modified EUI-64 (PRESUMED, RFC 4291). -/
def interfaceId (port : Nat) : Nat :=
  let m := leNat (fuseBytes (0x28 + 6 * port) 6).reverse
  (m / 2 ^ 24) * 2 ^ 40 % 2 ^ 64 + 0xFFFE * 2 ^ 24 + m % 2 ^ 24 ^^^ 2 ^ 57

/-- The link-local address of a port. -/
def linkLocal (port : Nat) : Nat := 0xFE80 * 2 ^ 112 + interfaceId port

/-- The address that a port has configured by itself (R589). -/
def State.mgmtAddress (s : State) (port : Nat) : Option Nat := if port = 0 then s.mp.addressA else s.mp.addressB

def State.setMgmtLink (s : State) (port : Nat) (up : Bool) : State :=
  { s with mp := if port = 0 then { s.mp with linkA := up } else { s.mp with linkB := up } }
def State.setMgmtAddress (s : State) (port : Nat) (a : Option Nat) : State :=
  { s with mp := if port = 0 then { s.mp with addressA := a } else { s.mp with addressB := a } }

/-- `MGMT_LINK_UP`: a port regains synchronisation. -/
def execMgmtLinkUp (port : Fin 2) (t : Nat) (s : State) : Outcome :=
  let s := s.upTo t
  if s.mod.processorsUp then .next (s.setMgmtLink port true) else .next s

/-- `MGMT_LINK_DOWN` (R604, R645): 10 ms without synchronisation. -/
def execMgmtLinkDown (port : Fin 2) (t : Nat) (s : State) : Outcome :=
  let s := s.upTo t
  if s.mgmtLink port then .next ((s.setMgmtLink port false).raise .pwc FC.mgmtLinkDown noUnit 0) else .next s

/-- `PTP_MESSAGE` (R591): time of day at this moment as the slave clock has it, in ns; port B only while port A is down (DEDUCED). -/
def execPtpMessage (port : Fin 2) (timeNs : Nat) (t : Nat) (s : State) : Outcome :=
  let s := s.upTo t
  if s.mod.processorsUp ∧ s.mp.ptpEnabled ∧ s.mgmtLink port ∧ (port.val = 0 ∨ !s.mp.linkA) then
    .next (({ s with mp := { s.mp with ptp := some (timeNs, s.rt) } } : State).bump 0xA22 1)
  else .next s

/-- `ICMPV6_MESSAGE` (R589): an echo request is answered with its own data; a solicitation for an address of the port with an
advertisement, the target first; a router advertisement configures the port's one address. Answers stand in `sent` as ICMPv6
type, then their data (types 129 and 136 of RFC 4443 and RFC 4861, PRESUMED). -/
def execIcmpv6Message (port : Fin 2) (src : Nat) (msg : Icmp6) (t : Nat) (s : State) : Outcome :=
  let s := s.upTo t
  let out := fun (b : Bytes) =>
    ({ s with mp := { s.mp with sent := { port := port, dest := src * 65536, data := b } :: s.mp.sent } } : State)
  if !s.mod.processorsUp || !s.mgmtLink port then .next s
  else match msg with
    | .echo d => .next (out ((129 : Byte) :: d))
    | .solicit a =>
      if a = linkLocal port ∨ s.mgmtAddress port = some a then .next (out ((136 : Byte) :: (leBytes 16 a).reverse)) else .next s
    | .routerAdvert p => .next (s.setMgmtAddress port (some (p % 2 ^ 64 * 2 ^ 64 + interfaceId port)))

def execMpGetStatus (slot : Fin 19) (t : Nat) (s : State) : Outcome := s.serve mpGetStatus slot t
def execMpStageImage (slot : Fin 19) (t : Nat) (s : State) : Outcome := s.serve mpStageImage slot t
def execMpHandover (slot : Fin 19) (t : Nat) (s : State) : Outcome := s.serve mpHandover slot t
def execMpSetSwitchback (slot : Fin 19) (t : Nat) (s : State) : Outcome := s.serve mpSetSwitchback slot t
def execMpSetMgmt (slot : Fin 19) (t : Nat) (s : State) : Outcome := s.serve mpSetMgmt slot t

end Sys2Proof.Machine
end

