-- ==== Sys2Proof/Machine/BringUp.lean ====
section
/-! DEFINITION. Bring-up, module states, connector inputs and clocks between kerfs (R605 to R671): power-up, presence, token, emergency
stop, PCIe link, restart, MOD_SET_STATE and MOD_GET_STATE, PLLs and the oscillator. -/

namespace Sys2Proof.Machine

/-! ### Cold start (R607 to R611, R631) -/

/-- What the bus shows the input converter, kept through a cold start. -/
def ShimState.keepBus (h old : ShimState) : ShimState :=
  { h with busPresent := old.busPresent, busDead := old.busDead, capacitanceMv := old.capacitanceMv, meter := old.meter }

/-- A cold start begins (R607, R611): everything it loses is lost; what the always-on domain found in the fuse block and the calibration
sector stays. -/
def State.coldBegin (s : State) (cause : Nat) : State :=
  let c := s.coldClear
  let cells := if s.clocks.calibrationInvalid then c.cells.inhibit inhCalibration true true else c.cells
  { c with shim := c.shim.keepBus s.shim, cells := cells, fc := { c.fc with fuseCopy := s.fc.fuseCopy },
           mod := { c.mod with powered := true, fuseOk := s.mod.fuseOk, coldAt := s.now, since := s.now, coldCause := cause,
                               token := if s.pins.trayStart then .waitLow else .waitHigh, tokenLow := s.now + rcMs } }

/-- A hold-off begins (R609). -/
def State.beginHoldOff (s : State) : State := { s with mod := { s.mod with holdOff := some s.now, holdOffDone := false } }

/-- The groups of the fuse image by number. -/
def fuseGroupAt (i : Nat) : Nat := (nth fuseGroups i (0, 0)).1

/-- The fuse check (R546): groups of which the first, and of which the second copy fails. -/
def State.fuseCheck (s : State) (first second : List (Fin 12)) : State :=
  (List.range 12).foldl (fun s i =>
    let a := first.any (fun x => x.val == i)
    let b := second.any (fun x => x.val == i)
    let g := fuseGroupAt i
    let s1 : State := { s with fc := { s.fc with fuseCopy := SMap.set s.fc.fuseCopy g (if a && b then 2 else if a then 1 else 0) 0 } }
    if a && b then
      ({ s1 with mod := { s1.mod with fuseOk := false, ended := true } } : State).raiseCond .pwc FC.fuseGroupInvalid g 0
    else if a || b then s1.raise .pwc FC.fuseCopyBad g 0
    else s1) { s with mod := { s.mod with fuseOk := true } }

/-- The calibration sector (R667). -/
def State.calibrationCheck (s : State) (bad : Bool) : State :=
  let s1 : State := { s with clocks := { s.clocks with calibrationInvalid := bad } }
  if bad then
    ({ s1 with cells := s1.cells.inhibit inhCalibration true true } : State).raise .pwc FC.calibrationInvalid noUnit 0
  else s1

/-- `ALWAYS_ON_POWER_UP` (R546, R551, R608, R609, R611, R667): whether PRESENT_N is mated, the fuse groups whose first and second copies
fail, and whether the calibration sector fails its CRC. -/
def execAlwaysOnPowerUp (mated : Bool) (first second : List (Fin 12)) (calBad : Bool) (t : Nat) (s : State) : Outcome :=
  let s := s.upTo t
  if s.mod.powered then .next s
  else
    let s0 : State := { s with clocks := { s.clocks with calibrationInvalid := false }, shim := { s.shim with busDead := false },
                               pins := { s.pins with presentMated := mated, slotId := none } }
    let s1 := ((s0.coldBegin 0).fuseCheck first second).calibrationCheck calBad
    let s2 := if testMode then s1.raiseCond .pwc FC.testModeActive noUnit 0 else s1
    .next (if mated then s2.beginHoldOff else s2)

/-- `PRESENT_N_MATE` (R609, R614): a full hold-off begins; after a removal a cold start begins with it. -/
def execPresentNMate (t : Nat) (s : State) : Outcome :=
  let s := s.onEdge t 1
  let s1 : State := { s with pins := { s.pins with presentMated := true } }
  if !s.mod.powered ∨ s.pins.presentMated then .next s1
  else if s.mod.removed then .next (({ s1 with pins := { s1.pins with slotId := none } } : State).coldBegin 0).beginHoldOff
  else if s.mod.prechargeStarted then .next s1
  else .next s1.beginHoldOff

/-- A removal (R614): the immediate stop, every rail at once, both converters with isolation and stack switch open. -/
def State.removal (s : State) : State :=
  let s1 := (s.immediateStop stopState).stopRails allRails
  let s2 := ((s1.stopInput none).openIsolation).stopStorage none true
  ({ s2 with rails := { s2.rails with startAt := none, startStep := 0, startedRails := [], stopNext := none },
             shim := { s2.shim with precharging := none },
             mod := { s2.mod with removed := true } } : State).settlePower

/-- `PRESENT_N_BREAK` (R609, R614, R646). -/
def execPresentNBreak (t : Nat) (s : State) : Outcome :=
  let s := s.onEdge t 1
  let s1 : State := { s with pins := { s.pins with presentMated := false } }
  if !s.mod.powered ∨ s.mod.removed then .next s1
  else if s.mod.prechargeStarted then .next s1.removal
  else
    .next { s1 with mod := { s1.mod with holdOff := none, holdOffDone := false,
                                         token := if s1.pins.trayStart then .waitLow else .waitHigh, tokenLow := s1.now + rcMs } }

/-- `HOLD_OFF_EXPIRY` (R609). -/
def execHoldOffExpiry (t : Nat) (s : State) : Outcome :=
  let s := s.upTo t
  match s.mod.holdOff with
  | some a => if a + 2 * rcSec ≤ s.now then .next { s with mod := { s.mod with holdOffDone := true } } else .next s
  | none => .next s

/-- `TRAY_START_CHANGE` (R610, R615): the level has stood for 1 ms. A low that stood at the break counts once 1 ms of it follows the
break. -/
def execTrayStartChange (high : Bool) (t : Nat) (s : State) : Outcome :=
  let s := s.onEdge t 1
  let token := match s.mod.token, high with
    | .waitLow, false => TokenPhase.waitHigh
    | .waitHigh, true => if s.mod.tokenLow + rcMs ≤ s.now then TokenPhase.granted else TokenPhase.waitLow
    | x, _ => x
  .next { s with pins := { s.pins with trayStart := high, trayStartSince := s.now },
                 mod := if s.mod.powered ∧ !s.mod.prechargeStarted then { s.mod with token := token } else s.mod }

/-- `EMERGENCY_STOP` (R526, R533, R610): the level of EMERGENCY_STOP_N has stood for 20 microseconds; before precharge a low only holds
precharge back. -/
def execEmergencyStop (low : Bool) (t : Nat) (s : State) : Outcome :=
  let s := s.onEdge t 1
  let s1 : State := { s with pins := { s.pins with emergencyStopN := !low } }
  if low && s.pins.emergencyStopN && s.mod.powered && s.mod.prechargeStarted then
    .next (s1.raiseCond .pwc FC.emergencyStop noUnit 0)
  else .next s1

/-- `SLOT_ID_SAMPLE` (R645, R646): 10 ms after always-on power, in a window that restarts with the hold-off. -/
def execSlotIdSample (v : Fin 32) (t : Nat) (s : State) : Outcome :=
  let s := s.upTo t
  match s.mod.holdOff with
  | some a =>
    if a + 10 * rcMs ≤ s.now ∧ s.pins.slotId.isNone then .next { s with pins := { s.pins with slotId := some v.val } } else .next s
  | none => .next s

/-- `SLOT_ID_MISMATCH` (R645): the sampled value stays in use. -/
def execSlotIdMismatch (t : Nat) (s : State) : Outcome :=
  let s := s.upTo t
  if s.pins.slotId.isNone ∨ s.fc.inputOutOfRange.contains 6 then .next s
  else
    .next (({ s with fc := { s.fc with inputOutOfRange := 6 :: s.fc.inputOutOfRange } } : State).raiseCond .pwc FC.inputOutOfRange
      noUnit 6)

/-! ### Optical outputs (R644) -/

/-- A port's transmitters emit light: VOPTA on, no STANDBY or PARKED, its training begun. -/
def State.emitsLight (s : State) (op : Nat) : Bool :=
  (s.rail 15).good && s.mod.mode != .standby && s.mod.mode != .parked && ((s.link (op / 2)).path (op % 2)).state != .down

/-! ### PCIe link (R612, R621) -/

/-- `PCIE_LINK_TRAINING_START`: VHUB has power-good and PERST_N is deasserted. -/
def execPcieLinkTrainingStart (t : Nat) (s : State) : Outcome :=
  let s := s.upTo t
  if (s.rail 4).good then
    .next { s with pins := { s.pins with perstN := true }, host := { s.host with training := !s.host.linkUp } }
  else .next s

/-- WAKE_N is released. -/
def State.endWake (s : State) : State := { s with pins := { s.pins with wakeN := true }, mod := { s.mod with wakeSince := none } }

/-- `PCIE_LINK_UP`: the link reaches L0, which ends WAKE_N. -/
def execPcieLinkUp (rate : LinkRate) (t : Nat) (s : State) : Outcome :=
  let s := s.upTo t
  if s.host.training ∧ (s.rail 4).good then
    .next ({ s with host := { s.host with training := false, linkUp := true, rate := rate } } : State).endWake
  else .next s

/-- `WAKE_N_TIMEOUT`: 1.0 s after VHUB power-good. -/
def execWakeNTimeout (t : Nat) (s : State) : Outcome :=
  let s := s.upTo t
  match s.mod.wakeSince with
  | some a => if a + rcSec ≤ s.now then .next s.endWake else .next s
  | none => .next s

/-! ### Restart (R600, R626, R631) -/

/-- A cold start from B with both processors booting from a bank: every rail stops by the order of R460, the storage converter stops and
the stack switch opens; the input converter goes on. A `MP_RESTART_STANDBY` of RECOVERY also names the bank in the boot record. -/
def State.restartFrom (s : State) (b cause : Nat) : State :=
  let c := s.coldBegin cause
  let c1 : State := { c with
    rails := { RailState.reset with rails := s.rails.rails },
    shim := { c.shim with input := { s.shim.input with stoppedBy := none }, isolationOpen := s.shim.isolationOpen },
    mod := { c.mod with holdOff := s.mod.holdOff, holdOffDone := true, token := .granted, prechargeStarted := true,
                        processorsUp := true },
    mp := { c.mp with mpA := c.mp.mpA.boot b, mpB := c.mp.mpB.boot b, bootA := if cause = 2 then b else c.mp.bootA,
                      bootB := if cause = 2 then b else c.mp.bootB } }
  c1.beginStop allRails 4

/-- A commanded restart acts once its response has been given. -/
def State.settleRestart (s : State) : State :=
  match s.mod.restartDue with
  | some (b, cause) => s.restartFrom b cause
  | none => s

/-- A command's outcome, with the restart it may have commanded. -/
def thenRestart (o : Outcome) : Outcome :=
  match o with
  | .next s => .next s.settleRestart
  | x => x

def execMpRestartStandby (slot : Fin 19) (t : Nat) (s : State) : Outcome := thenRestart (s.serve mpRestartStandby slot t)

/-! ### MOD_SET_STATE, MOD_GET_STATE (R618 to R621, R631 to R634) -/

/-- The conditions of R618 for leaving ACTIVE or STANDBY. -/
def State.mayLeave (s : State) : Bool :=
  s.frame.domain.isNone && allPartitions.all (fun p => (s.partJig p).isNone) && s.cells.rest.isNone && s.cells.ticket.isNone

/-- The module leaves PARKED (R621): the events of R611 from B on. -/
def State.leaveParked (s : State) : State :=
  let i := s.otherIndex
  let s1 := ((s.changeMode .starting).setProc i ((s.proc i).boot (s.proc i).bank)).beginStart
  { s1 with mod := { s1.mod with phase := 0, restored := false, railsDone := false, wakeDue := true } }

/-- What `MOD_SET_STATE` asks for. -/
def State.setModState (s : State) (target bank frame : Nat) : Reply :=
  let at_ := fun (m : ModState) =>
    let f := if frame = 0 then s.frame.number + 1 else frame
    Reply.done stOk { s with mod := { s.mod with scheduled := some (m, f) } } (frameReply f)
  let running := decide (s.mod.mode = .active) || decide (s.mod.mode = .standby)
  match target with
  | 1 =>
    if s.mod.mode = .parked then .done stOk s.leaveParked (frameReply 0)
    else if s.mod.mode = .standby then at_ .active else .refused stState
  | 2 => if s.mod.mode = .active ∧ s.mayLeave then at_ .standby else .refused stState
  | 3 => if running && s.mayLeave && !s.mp.prefixes.isEmpty then at_ .parked else .refused stState
  | _ =>
    if running && s.mayLeave && (s.fwBank bank).valid then
      .done stOk { s with mod := { s.mod with restartDue := some (bank, 1) } } (frameReply 0)
    else .refused stState

def modSetState : Cmd :=
  { code := 0x0110, via := .mbp, lengthOk := exactly 16, changes := always,
    act := fun s _ b =>
      let target := rd b 0 1
      let bank := rd b 1 1
      let f := rd b 8 8
      let atOnce := target == 6 || (target == 1 && decide (s.mod.mode = .parked))
      if !(target == 1 || target == 2 || target == 3 || target == 6) ∨ (if target = 6 then 1 < bank else bank ≠ 0) ∨ !zeroAt b 2 6 ∨
          2 ^ 48 ≤ f ∨ (f ≠ 0 ∧ (atOnce ∨ f < s.frame.number + 1)) then .refused stRange
      else s.setModState target bank f }

/-- `MODULE_STATE`. -/
def ModState.number (m : ModState) : Nat :=
  match m with
  | .starting => 0 | .active => 1 | .standby => 2 | .parked => 3 | .safe => 4 | .recovery => 5

def State.modStatus (s : State) : Bytes :=
  let m := s.mod
  leBytes 1 m.mode.number ++ leBytes 1 (if m.mode = .starting then min m.phase 3 else 4) ++
  leBytes 1 (if m.mode = .safe then m.prior.elim 0xFF ModState.number else 0xFF) ++ zeros 1 ++
  leBytes 2 (flags [m.prechargeWanted, !s.gov.flowLow, s.gov.diesOn, s.frame.domain.isSome, s.cells.restorePending, m.fatal,
    m.scheduled.isSome, !s.pins.wakeN]) ++ zeros 2 ++
  leBytes 4 (min ((s.now - m.since) / rcMs) 0xFFFFFFFF) ++ leBytes 4 m.changes ++ leBytes 8 (m.scheduled.elim 0 (·.2)) ++
  leBytes 1 m.coldCause ++ zeros 7

def modGetState : Cmd :=
  { code := 0x0111, via := .all, lengthOk := exactly 0, changes := never, act := fun s _ _ => .done stOk s s.modStatus }

def execModSetState (slot : Fin 19) (t : Nat) (s : State) : Outcome := thenRestart (s.serve modSetState slot t)
def execModGetState (slot : Fin 19) (t : Nat) (s : State) : Outcome := s.serve modGetState slot t

/-! ### Changes of module state at a kerf (R618 to R620) -/

/-- STANDBY (R618): the compute dies stop by step 1 of R460, the optical rails 1.0 ms later. -/
def State.enterStandby (s : State) : State :=
  let s1 := ((s.settleClocks).changeMode .standby).foldAll
  let s2 : State := { s1 with gov := { s1.gov with stopCauses := addCause s1.gov.stopCauses stopState } }
  (s2.stopRails coreRails).diesOff.beginStop [0, 1, 2, 3, 14, 15] 1

/-- ACTIVE from STANDBY (R619): the staged start runs with the rails already on left running. -/
def State.leaveStandby (s : State) : State := if s.rails.startAt.isSome then s else s.beginStart

/-- PARKED (R605, R620): the state store, partition records, endpoint bindings and route tables are cleared, every rail stops in order, storage is disconnected, the slices sleep, the standby
processor stops. -/
def State.enterParked (s : State) : State :=
  let s1 := ((s.settleClocks).changeMode .parked).foldAll
  let i := s1.otherIndex
  let m := s1.mp
  let s2 : State := { s1 with
    mp := { m with image0 := ImageSlot.empty, image1 := ImageSlot.empty, journal := [], copying := none, handoverFrame := none },
    gov := { s1.gov with entries := [], stopCauses := addCause s1.gov.stopCauses stopState },
    shim := { s1.shim with lease := none, pendingLease := none, leaseExpired := false, lastRamp := none, lastCeiling := none,
                           changes := [] },
    cells := { CellState.reset with packRecord := s1.cells.packRecord, trims := s1.cells.trims, asleep := true,
                                    chargeInhibit := s1.cells.chargeInhibit.filter (· == inhCalibration),
                                    dischargeInhibit := s1.cells.dischargeInhibit.filter (· == inhCalibration) },
    rails := { s1.rails with startAt := none, startStep := 0, startedRails := [] },
    host := { s1.host with records := [], enabled := [], active := [], pendingEnable := [], pendingDisable := [], ctrlPending := false },
    fabric := { s1.fabric with routes := [], staging := [], commits := [], bindings := [], endpoints := [] },
    mod := { s1.mod with restored := false, railsDone := false } }
  let s3 := (((s2.setProc i { s2.proc i with role := .none }).setPolicy .flatten).stopStorage none true).snapMissed
  let s4 := ((s3.stopRails coreRails).diesOff).beginStop allRails 4
  -- the input converter keeps the intermediate bus, also where a commanded ISLAND had stopped it
  let h := s4.shim
  let run := h.input.running || (h.busPresent && h.input.stoppedBy.isNone && !h.isolationOpen)
  ({ s4 with frame := { s4.frame with frozen := true }, shim := { h with input := { h.input with running := run } } } : State).settlePower

/-- A scheduled change at t = 0 of the kerf of its frame (R618 to R620). -/
def State.modKerf (s : State) : State :=
  match s.mod.scheduled with
  | some (m, f) =>
    if s.frame.number < f then s
    else
      let s1 : State := { s with mod := { s.mod with scheduled := none } }
      match m with
      | .standby => s1.enterStandby
      | .active => s1.leaveStandby
      | .parked => s1.enterParked
      | _ => s1
  | none => s

/-! ### Clocks (R654, R659, R664, R665, R671) -/

/-- `STANDBY_PLL_LOCK` (R659): the standby PLL of a die holds the armed state. -/
def execStandbyPllLock (n : Fin 4) (t : Nat) (s : State) : Outcome :=
  let s := s.upTo t
  let d := s.dieClock n
  if s.diesClocked ∧ d.standbyArmed then
    .next (s.setDieClock n (if d.running = 0 then { d with pll1 := some s.gov.armed } else { d with pll0 := some s.gov.armed }))
  else .next s

/-- The clocks of the compute dies stop with a lost lock (R671): the orderly stop without its drain. -/
def State.lockStop (s : State) : State :=
  if s.diesClocked then
    let s1 := ((s.orderlyStop stopPll).settleClocks).foldAll
    ({ s1 with gov := { s1.gov with stop := .clocksOff s.now },
               qf := { s1.qf with movers := s1.qf.movers.map (fun kv => (kv.1, { kv.2 with active := [] })) } } : State).settleF0
  else s

/-- `PLL_LOCK_LOST` (R671): a running PLL stops the clocks; a standby PLL only holds no state any more (R659). -/
def execPllLockLost (p : Pll) (t : Nat) (s : State) : Outcome :=
  let s := s.upTo t
  match p with
  | .pingPong n w =>
    let d := s.dieClock n
    let d1 := if w.val = 0 then { d with pll0 := none } else { d with pll1 := none }
    let s1 := s.setDieClock n d1
    if d.running = w.val ∧ s.diesClocked ∧ !d.reserve then .next ((s1.raise (Source.ofDie n) FC.pllLockLost noUnit 0).lockStop)
    else .next s1
  | .memory n => .next ((s.raise (Source.ofDie n) FC.pllLockLost noUnit 0).lockStop)
  | _ => .next ((s.raise .hd FC.pllLockLost noUnit 0).lockStop)

/-- `PWC_PLL_CHANGEOVER` (R654), once per cold start. -/
def execPwcPllChangeover (t : Nat) (s : State) : Outcome :=
  let s := s.upTo t
  if (s.rail 4).good then .next { s with clocks := { s.clocks with pwcOnReference := true } } else .next s

/-- An entry moves an eighth of the way to a measurement, or takes the first over (R665). -/
def OscBand.learn (b : OscBand) (measured : Int) : OscBand :=
  { offset := if b.updates = 0 then measured else pick Config.oscUp ((b.offset : Rat) + ((measured - b.offset : Int) : Rat) / 8),
    updates := min 255 (b.updates + 1) }

/-- `OSCILLATOR_CALIBRATION` (R664, R665): the offset in 0.001 ppm measured over a whole second in the band of a temperature in 0.1 degree,
while RT is locked and follows a reference; the temperature is that of the last reading from then on. -/
def execOscillatorCalibration (tempDc measured : Int) (t : Nat) (s : State) : Outcome :=
  let s := s.upTo t
  let c := { s.clocks with oscTempDc := tempDc, oscBand := oscBandOf tempDc }
  if s.frame.rtLocked ∧ s.frame.holdoverSince.isNone then
    .next { s with clocks := { c with osc := setNth c.osc c.oscBand ((c.oscEntry c.oscBand).learn measured) } }
  else .next ({ s with clocks := c } : State).runOnOscillator

end Sys2Proof.Machine
end

