-- ==== Sys2Proof/Machine/FabricCommands.lean ====
section
/-! DEFINITION. The commands of the fabric (R325, R327 to R331). -/

namespace Sys2Proof.Machine

/-! ### OF_GET_LINK_STATUS (R328) -/

def PathState.number (x : PathState) : Nat :=
  match x with
  | .down => 0
  | .training => 1
  | .up => 2
  | .upWaiting => 3

/-- `LINK_LEVEL`: of a split link, the lower of the levels of its halves that are up. -/
def Link.reportedLevel (l : Link) : Nat :=
  let a := if l.halfUp 0 then l.levelOf 0 else 0
  if l.split then
    let b := if l.halfUp 1 then l.levelOf 1 else 0
    if a = 0 then b else if b = 0 then a else min a b
  else a

def Link.statusBytes (l : Link) (k : Nat) : Bytes :=
  let count := fun (n : Nat) => leBytes 4 (min n 0xFFFFFFFF)
  leBytes 1 k ++ leBytes 1 (b2n l.split) ++ leBytes 1 l.reportedLevel ++ leBytes 1 l.pathA.state.number ++
  leBytes 1 l.pathB.state.number ++ zeros 3 ++ leBytes 2 (l.pathA.neighbour.getD 0xFFFF) ++ leBytes 2 (l.pathB.neighbour.getD 0xFFFF) ++
  count l.pathA.delayNs ++ count l.pathB.delayNs ++ count l.pathA.replays ++ count l.pathB.replays ++
  count l.pathA.fecUncorrected ++ count l.pathB.fecUncorrected ++ zeros 4

def ofGetLinkStatus : Cmd :=
  { code := 0x0901, via := .mbpMbk, lengthOk := exactly 4, changes := never,
    act := fun s _ b =>
      if 15 < rd b 0 1 ∨ !zeroAt b 1 3 then .refused stRange
      else .done stOk s ((s.link (rd b 0 1)).statusBytes (rd b 0 1)) }

/-! ### OF_SET_LINKS (R291, R322, R325, R329) -/

/-- Link `k` trains again in a mode; a tree parent reached through it alone is lost until then (R322). -/
def State.retrainLink (s : State) (k : Nat) (split : Bool) : State :=
  let l := s.link k
  let s1 := s.setLink k { Link.cold with split := split, pathA := l.pathA.training s.now, pathB := l.pathB.training s.now }
  let lost := fun (s : State) (p : Path) => if p.live then s.parentLinkLost p.neighbour else s
  if l.pathA.live ∧ l.pathB.live ∧ l.pathA.neighbour = l.pathB.neighbour then lost s1 l.pathA else lost (lost s1 l.pathA) l.pathB

/-- A link trains. -/
def Link.trains (l : Link) : Bool := decide (l.pathA.state = .training) || decide (l.pathB.state = .training)

def ofSetLinks : Cmd :=
  { code := 0x0902, via := .mbp, lengthOk := exactly 32, changes := always,
    act := fun s _ b =>
      let node := rd b 0 2
      let stand := rd b 2 2
      let split := rd b 4 2
      let changed := indices 16 (fun k => decide ((s.link k).split ≠ bitAt split k))
      let nodeChanges := decide (node ≠ 0xFFFF) && s.fabric.nodeId != node
      if (8191 < node ∧ node ≠ 0xFFFF) ∨ (8191 < stand ∧ stand < 0xFFFE) ∨ !zeroAt b 8 24 then .refused stRange
      else if s.frame.domain.isSome && (nodeChanges || !changed.isEmpty) then .refused stState
      else if s.frame.domain.elim false (fun d => d.level == 1) && decide (stand ≤ 8191) then .refused stState
      else
        let f := s.fabric
        let s1 : State := { s with fabric := { f with nodeId := if node = 0xFFFF then f.nodeId else node,
                                                      standIn := if stand = 0xFFFF then f.standIn
                                                        else if stand = 0xFFFE then none else some stand } }
        let again := indices 16 (fun k => changed.contains k || bitAt (rd b 6 2) k)
        let s2 := again.foldl (fun s k => s.retrainLink k (bitAt split k)) s1
        .done stOk s2 (leBytes 2 (flags ((List.range 16).map (fun k => (s2.link k).trains))) ++ zeros 6) }

/-! ### OF_SET_ROUTES (R301, R303, R330) -/

/-- A route entry with its reserved bits zero and a delay class for each route it gives. -/
def routeEntryOk (v : Nat) : Bool :=
  !bitAt v 5 && bitsOf v 13 3 == 0 && (!bitAt v 7 || bitsOf v 16 8 != 0) && (!bitAt v 6 || bitsOf v 24 8 != 0)

def ofSetRoutes : Cmd :=
  { code := 0x0903, via := .mbp, lengthOk := fun b => decide (16 ≤ b.length) && b.length == 16 + 4 * rd b 2 2, changes := always,
    act := fun s _ b =>
      let first := rd b 0 2
      let n := rd b 2 2
      let commit := rd b 4 1 == 1
      let f := rd b 8 8
      let entries := (List.range n).map (fun i => rd b (16 + 4 * i) 4)
      if 8191 < first ∨ 1008 < n ∨ 8192 < first + n ∨ 1 < rd b 4 1 ∨ !zeroAt b 5 3 ∨ 2 ^ 48 ≤ f ∨
          (if commit then f < s.frame.number + 2 else f ≠ 0) ∨ !entries.all routeEntryOk then .refused stRange
      else
        let x := s.fabric
        .done stOk { s with fabric := { x with staging := SMap.setRun x.staging first entries 0,
                                               commits := if commit then f :: x.commits.filter (fun g => decide (f < g)) else x.commits } }
          [] }

/-! ### OF_BIND_ENDPOINT (R309, R316, R325, R331) -/

/-- The binding in a payload. -/
def bindingOf (b : Bytes) : Binding :=
  { mode := rd b 1 1, batch := rd b 2 1, remoteNode := if rd b 4 2 = 0xFFFF then none else some (rd b 4 2), remoteEndpoint := rd b 6 1,
    window := sext 10 (rd b 8 2), children := (List.range (rd b 3 1)).map (fun i => (rd b (16 + 4 * i) 2, rd b (18 + 4 * i) 1)) }

/-- Whether every field is in range and every field that the mode does not use is zero. -/
def bindingInRange (b : Bytes) : Bool :=
  let x := bindingOf b
  let node := rd b 4 2
  let batchOk := decide (1 ≤ x.batch) && decide (x.batch ≤ 15)
  decide (x.mode ≤ 5) && zeroAt b 7 1 && zeroAt b 10 6 &&
  (if x.mode = 0 then zeroAt b 2 138
   else if x.mode ≤ 4 then batchOk && zeroAt b 3 1 && decide (node ≤ 8191) && zeroAt b 8 132
   else
     batchOk && decide (rd b 3 1 ≤ 31) && (decide (node ≤ 8191) || (node == 0xFFFF && zeroAt b 6 1)) &&
     bitsOf (rd b 8 2) 10 6 == 0 && decide (-320 ≤ x.window) && decide (x.window ≤ 320) &&
     x.children.all (fun c => decide (c.1 ≤ 8191)) && (List.range 31).all (fun i => zeroAt b (19 + 4 * i) 1) &&
     zeroAt b (16 + 4 * rd b 3 1) (124 - 4 * rd b 3 1))

/-- The level of an endpoint mode (R309). -/
def modeLevel (mode : Nat) : Nat := if mode = 3 ∨ mode = 4 then 2 else 1

/-- A jig on the module declares a queue with endpoint `e`. -/
def State.endpointDeclared (s : State) (e : Nat) : Bool :=
  allPartitions.any (fun p => (s.partJig p).elim false (fun j =>
    j.jig.queues.any (fun q => q.producer == 0x3000 + e || q.consumer == 0x3000 + e)))

def ofBindEndpoint : Cmd :=
  { code := 0x0904, via := .mbpMbk, lengthOk := exactly 140, changes := always,
    act := fun s k b =>
      let e := rd b 0 1
      let x := bindingOf b
      if !bindingInRange b then .refused stRange
      else if slotMbk k ∧ s.ownerOfEndpoint e ≠ some (slotPartition k) then .refused stDenied
      else if s.endpointDeclared e ∨ s.frame.domain.elim false (fun d => decide (d.level < modeLevel x.mode)) then .refused stState
      else .done stOk { s with fabric := { s.fabric with bindings := SMap.set s.fabric.bindings e x Binding.unbound,
                                                         endpoints := SMap.drop s.fabric.endpoints (· == e) } } [] }

def execOfGetLinkStatus (slot : Fin 19) (t : Nat) (s : State) : Outcome := s.serve ofGetLinkStatus slot t
def execOfSetLinks (slot : Fin 19) (t : Nat) (s : State) : Outcome := s.serve ofSetLinks slot t
def execOfSetRoutes (slot : Fin 19) (t : Nat) (s : State) : Outcome := s.serve ofSetRoutes slot t
def execOfBindEndpoint (slot : Fin 19) (t : Nat) (s : State) : Outcome := s.serve ofBindEndpoint slot t

end Sys2Proof.Machine
end

