-- ==== Sys2Proof/Machine/MgmtCode.lean ====
section
/-! DEFINITION. The life of the management processors (R561 to R583): watchdogs, failures, boot, self-test, takeover with replay of the
journal, hand-over at a kerf, images. -/

namespace Sys2Proof.Machine

/-- A standby that has booted (R561). -/
def Processor.hasBooted (p : Processor) : Bool := p.role == .selfTest || p.role == .ready

/-! ### Watchdogs and failures (R563, R564, R568, R572) -/

/-- `WATCHDOG_KICK` (R563, R564): by MP-A (0) or MP-B (1). -/
def execWatchdogKick (who : Fin 2) (t : Nat) (s : State) : Outcome :=
  let s := s.upTo t
  let p := s.proc who
  if p.role = .active ∨ p.role = .selfTest ∨ p.role = .ready then .next (s.setProc who { p with lastKick := s.now }) else .next s

/-- The journal entry of the request the processor has begun when it fails: its request part stands, it is not COMPLETE (R569, R570).
An Ethernet or I3C request of that entry is taken from its slot; a PCIe slot still holds its own. -/
def State.journalBegun (s : State) : State :=
  match s.mp.readyOrder with
  | [] => s
  | x :: _ =>
    match (s.slot x.1).request with
    | none => s
    | some r =>
      let e : JournalEntry := { seq := s.mp.jseq + 1, source := slotSource x.1, complete := false, request := r, response := [],
                                frame := s.frame.number % 2 ^ 48, good := true }
      let s1 := ({ s with mp := { s.mp with journal := s.mp.keptJournal ++ [e], jseq := e.seq } } : State).bump 0xA20 1
      if x.1 ≤ 16 then s1
      else
        let s2 := s1.setSlot x.1 { s1.slot x.1 with request := none }
        { s2 with mp := { s2.mp with readyOrder := s2.mp.readyOrder.filter (fun y => y.1 != x.1) } }

/-- Control fails (R572 step 1): the coast begins, the failed processor is reset. `mid` tells that it had begun a state-changing command. -/
def State.failControl (s : State) (mid : Bool) : State :=
  match s.mp.owner with
  | none => s
  | some i =>
    let s1 := (if mid then s.journalBegun else s).procLost i
    { s1 with mp := { s1.mp with owner := none, coastSince := some s.now, handover := false, failedOver := true, copying := none,
                                 coastRaised := false, noneRaised := false } }

/-- `WATCHDOG_EXPIRY` (R563): 3.0 ms since the last kick of the processor in control. -/
def execWatchdogExpiry (mid : Bool) (t : Nat) (s : State) : Outcome :=
  let s := s.upTo t
  match s.mp.owner with
  | some i => if (s.proc i).lastKick + 3 * rcMs ≤ s.now then .next (s.failControl mid) else .next s
  | none => .next s

/-- `MP_FAILURE_DECLARED` (R563): in the pc of the declaration. -/
def execMpFailureDeclared (mid : Bool) (t : Nat) (s : State) : Outcome := .next ((s.upTo t).failControl mid)

/-- `STANDBY_WATCHDOG_EXPIRY` (R564): 300 ms without a kick of a standby that has booted. -/
def execStandbyWatchdogExpiry (t : Nat) (s : State) : Outcome :=
  let s := s.upTo t
  let p := s.standby
  if (p.role = .selfTest ∨ p.role = .ready) ∧ s.mp.owner.isSome ∧ p.lastKick + 300 * rcMs ≤ s.now then
    .next ((s.procLost s.otherIndex).raise .pwc FC.mpStandbyLost noUnit 0)
  else .next s

/-- `PROCESSOR_RESTART` (R568): the fault collector restarts a lost processor as standby from the bank it last booted, or leaves it HELD
after three failures within an hour. -/
def execProcessorRestart (who : Fin 2) (t : Nat) (s : State) : Outcome :=
  let s := s.upTo t
  let p := s.proc who
  if p.role ≠ .none ∨ p.failures.isEmpty ∨ !s.mod.processorsUp ∨ s.mod.mode = .parked ∨ s.recoveryServes then .next s
  else if 3 ≤ (s.failuresOf p).length then
    .next ((s.setProc who { p with role := .held }).raise .pwc FC.mpStandbyLost noUnit 0)
  else .next ((s.setProc who (p.boot p.bank)).bump 0xA26 1)

/-- A single-bit error of a processor's memories or of the state store has been corrected (R604). -/
def State.memoryCorrected (s : State) (corrected : Bool) : State :=
  if corrected then (s.raise .pwc FC.mpMemoryCorrected noUnit 0).bump 0xA25 1 else s

/-- `STANDBY_SELF_TEST` (R561, R562, R582): the self-test of a booted standby ends; it is READY if it reads the newest good image.
`corrected` tells that it corrected a single-bit error of the standby's memories, a fault of its own (R578). -/
def execStandbySelfTest (pass corrected : Bool) (t : Nat) (s : State) : Outcome :=
  let s := s.upTo t
  let i := s.otherIndex
  let p := s.standby
  if (p.role ≠ .selfTest ∧ p.role ≠ .ready) ∨ s.mp.owner.isNone then .next s
  else
    let s1 := (s.bump 0xA24 1).memoryCorrected corrected
    if !pass then .next ((s1.procLost i).raise .pwc FC.mpStandbyLost noUnit 0)
    else if s.compatible p then
      .next (s1.setProc i { p with role := .ready, readySince := if p.role = .ready ∧ !corrected then p.readySince else s.now })
    else .next (s1.setProc i { p with role := .selfTest })

/-! ### Boot (R561, R581, R583, R611) -/

/-- A processor takes the active role at a cold start: the moment B of R611, at which the staged start begins. -/
def State.activate (s : State) (i : Nat) : State :=
  let s1 := s.setProc i { s.proc i with role := .active, lastKick := s.now }
  ({ s1 with mp := { s1.mp with owner := some i, lastOwner := i, copyDue := true },
             mod := { s1.mod with phase := if s1.mod.mode = .starting then 0 else s1.mod.phase } } : State).beginStart

/-- Neither bank verifies (R583, R626). -/
def State.enterRecovery (s : State) : State :=
  let s1 := (s.raise .pwc FC.fwNoValidImage noUnit 0).changeMode .recovery
  ({ s1 with mp := { s1.mp with mpA := { s1.mp.mpA with role := .recovery }, mpB := { s1.mp.mpB with role := .none }, lastOwner := 0,
                                recovery := true } } : State).beginStart

/-- No processor has held control since the cold start. -/
def State.firstBoot (s : State) : Bool := s.mp.owner.isNone && s.mp.coastSince.isNone && !s.recoveryServes

/-- The bank from which a processor boots: that of its boot record if it verifies, else the other one (R581). -/
def State.bootBank (s : State) (p : Processor) : Option Nat :=
  if (s.fwBank p.bank).valid then some p.bank else if (s.fwBank (1 - p.bank)).valid then some (1 - p.bank) else none

/-- A processor has not come through boot check or self-test. At a cold start the other one, if it has booted, takes the active role
(R561). -/
def State.bootFails (s : State) (i : Nat) : State :=
  let s1 := s.procLost i
  if s1.firstBoot ∧ (s1.proc (1 - i)).role = .selfTest then s1.activate (1 - i) else s1

/-- A processor has booted from bank `b` with its checks passed: MP-A takes the active role at a cold start, MP-B does if MP-A has
failed; else it is a standby. -/
def State.bootPasses (s : State) (i b : Nat) : State :=
  let p := s.proc i
  let s1 := s.setProc i { p.load b (s.fwBank b) with role := .selfTest, lastKick := s.now }
  if s1.firstBoot ∧ (i = 0 ∨ (s1.proc 0).role = .none) then s1.activate i else s1

/-- `MP_BOOT_COMPLETE` (R561, R581, R583): processor `who` ends its boot, its boot check and self-test passed or not. -/
def execMpBootComplete (who : Fin 2) (pass : Bool) (t : Nat) (s : State) : Outcome :=
  let s := s.upTo t
  let p := s.proc who
  if p.role ≠ .booting ∨ !s.mod.processorsUp ∨ (s.firstBoot ∧ s.rails.stopNext.isSome) then .next s
  else match s.bootBank p with
    | none => .next (if s.firstBoot then s.enterRecovery else (s.procLost who).raise .pwc FC.fwVerifyFail noUnit 0)
    | some b =>
      let s1 := if b = p.bank then s else s.raise .pwc FC.fwVerifyFail noUnit 0
      .next (if pass then s1.bootPasses who b else s1.bootFails who)

/-! ### Images (R566, R567) -/

/-- `IMAGE_COPY_START` (R567): 1.0 s after the previous one began, when the journal is more than half full, or after taking control; into
the slot that does not hold the newest good image, which is no longer good from then on. -/
def execImageCopyStart (t : Nat) (s : State) : Outcome :=
  let s := s.upTo t
  let m := s.mp
  if s.mpServes ∧ m.copying.isNone ∧ (m.copyDue ∨ m.lastImageAt + rcSec ≤ s.now) then
    let first := m.image0.good && (!m.image1.good || decide (m.image1.seq < m.image0.seq))
    let m1 := { m with copying := some (if first then 1 else 0, m.jseq, s.frame.number % 2 ^ 48, s.now), copyDue := false, lastImageAt := s.now }
    .next { s with mp := if first then { m1 with image1 := { m1.image1 with good := false } }
                         else { m1 with image0 := { m1.image0 with good := false } } }
  else .next s

/-- `IMAGE_COPY_COMPLETE` (R567): body, header and CRC are written; `corrected` tells of a single-bit error corrected in the memories of the
processor in control (R604). -/
def execImageCopyComplete (corrected : Bool) (t : Nat) (s : State) : Outcome :=
  let s := s.upTo t
  match s.mp.copying with
  | none => .next s
  | some (k, mark, frame, _) =>
    if s.mpServes then
      let p := s.controller
      let x : ImageSlot := { good := true, seq := s.mp.nextImageSeq, mark := mark, frame := frame, format := p.format, fwMajor := p.fwMajor,
                             fwMinor := p.fwMinor, capLevel := p.capLevel }
      let m := { s.mp with copying := none, nextImageSeq := x.seq + 1 }
      let m1 := if k = 0 then { m with image0 := x } else { m with image1 := x }
      .next (((({ s with mp := { m1 with journal := m1.keptJournal } } : State).bump 0xA1F 1).settleReady).memoryCorrected corrected)
    else .next s

/-! ### Takeover (R571 to R574, R582) -/

/-- Every command of the index (R597). -/
def allCommands : List Cmd :=
  [mpGetStatus, mpStageImage, mpRestartStandby, mpHandover, mpSetSwitchback, mpSetMgmt, modSetState, modGetState, shimGetStatus,
   shimSetPolicy, shimGrantLease, shimSetLimits, cellGetStatus, cellGetCells, cellGrantRest, cellSaveState, cellRestoreState] ++
  [regGetTelemetry, regSetCompensator, regSetTrim, gvGetStatus, gvSetClamp, gvSetQuota, gvSetLimits, gvGetThrottle, gvGetEnergy,
   gvGetThermal, fcGetSummary, fcGetLog, fcAckFaults, fcSetLevel, fcInjectFault, obReadCounters, obArmSnapshot, obReadSnapshot] ++
  [obSetGrant, ftJoinDomain, ftLeaveDomain, ftSetDomain, ftGetFrameStatus, ofGetLinkStatus, ofSetLinks, ofSetRoutes, ofBindEndpoint,
   idGetIdentity, fuseReadGroup]

/-- The slot of a journal entry's `SOURCE` (R569). -/
def sourceSlot (n : Nat) : Nat := if n = 0 then 0 else if n = 1 then 17 else if n = 2 then 18 else n - 2

/-- The newest good slot that a processor reads, with whether it is slot 1, after uncorrectable words have made slots bad. -/
def MgmtState.loadable (m : MgmtState) (p : Processor) : Option (ImageSlot × Bool) :=
  let a := if m.image0.good ∧ p.reads m.image0 then some m.image0 else none
  let b := if m.image1.good ∧ p.reads m.image1 then some m.image1 else none
  match a, b with
  | some x, some y => some (if x.seq < y.seq then (y, true) else (x, false))
  | some x, none => some (x, false)
  | none, some y => some (y, true)
  | none, none => none

/-- Firmware state as at cold start (R574): no lease, no granted rest, the uncertainty of R430, no learning, nothing stored of earlier
commands. -/
def State.firmwareReset (s : State) : State :=
  let s1 : State := { s with
    shim := { s.shim with lease := none, pendingLease := none, leaseExpired := false, lastRamp := none, lastCeiling := none },
    cells := { s.cells with u := 15, ticket := none, probation := none },
    gov := { s.gov with entries := [] },
    mp := { s.mp with journal := [], switchAuto := false, handoverFrame := none,
                      slots := s.mp.slots.map (fun kv => (kv.1, { kv.2 with last := none })) },
    mod := { s.mod with scheduled := none } }
  if s1.cells.rest.isSome then s1.endRest else s1

/-- An entry that was not COMPLETE is carried out in full (R572 step 6); its response stands in the journal. -/
def State.replayEntry (s : State) (e : JournalEntry) : State :=
  let k := sourceSlot e.source
  match allCommands.find? (fun c => c.code == rd e.request 0 2) with
  | none => s
  | some c =>
    let fin := fun (s : State) (st : Nat) (payload : Bytes) =>
      let resp := responseBytes e.request (slotCrc k) st 0 s.frame.number payload
      let s1 := s.setSlot k { s.slot k with last := some (e.request, resp) }
      { s1 with mp := { s1.mp with journal := s1.mp.journal.map (fun x =>
          if x.seq = e.seq then { x with complete := true, response := resp } else x) } }
    match c.act s k (e.request.drop 32) with
    | .refused st => fin s st []
    | .done st s1 p => fin s1 st p

/-- The stored command of a slot after entries have been discarded: the last entry that is left for it (R572 step 5, R593). -/
def relast (kept gone : List JournalEntry) (k : Nat) (m : MailSlot) : MailSlot :=
  if gone.any (fun e => decide (sourceSlot e.source = k) && m.last.elim false (fun l => l.1 == e.request)) then
    { m with last := ((kept.filter (fun e => sourceSlot e.source == k)).getLast?).map (fun e => (e.request, e.response)) }
  else m

/-- Replay of the entries after the image's mark (R572 steps 5 and 6): from entry `bad` on they are discarded, if it is named. -/
def State.replay (s : State) (mark : Nat) (bad : Option Nat) : State :=
  let isGone := fun (e : JournalEntry) => decide (mark < e.seq) && bad.elim false (fun b => decide (b ≤ e.seq))
  let gone := s.mp.journal.filter isGone
  let kept := s.mp.journal.filter (fun e => !isGone e)
  let s1 : State := { s with mp := { s.mp with journal := kept, slots := s.mp.slots.map (fun kv => (kv.1, relast kept gone kv.1 kv.2)) } }
  let s2 := if gone.isEmpty then s1 else s1.raise .pwc FC.journalTruncated noUnit 0
  (kept.filter (fun e => !e.complete && decide (mark < e.seq))).foldl (fun s e => s.replayEntry e) s2

/-- Step 7 (R572): the ownership switch passes, the coast ends; the boot record names the bank of the active processor (R581). -/
def State.takeControl (s : State) (i : Nat) (older : Bool) : State :=
  let m := s.mp
  let p := s.proc i
  let us := m.coastSince.elim 0 (fun a => (s.now - a) / rcUs)
  let s1 := (s.setProc i { p with role := .active, lastKick := s.now }).setBoot i p.bank
  let s2 : State := { s1 with mp := { s1.mp with
    owner := some i, lastOwner := i, coastSince := none, lastCoastUs := min us 0xFFFFFFFF, takeovers := m.takeovers + 1, copyDue := true,
    resumedOlder := older, handover := false, failedOver := m.failedOver && !m.handover, coastRaised := false, noneRaised := false } }
  let s3 := (s2.bump 0xA1D 1).bump 0xA1E us
  let s4 := if m.handover then s3 else s3.raise .pwc FC.mpFailover noUnit 0
  let s5 := if older then s4.raise .pwc FC.resumedFromOlderImage noUnit 0 else s4
  s5.settleUnknown

/-- Steps 3 to 7 of R572 for processor `i`. -/
def State.takeover (s : State) (i : Nat) (bad : Option Nat) : State :=
  match s.mp.loadable (s.proc i) with
  | some (x, second) =>
    let other := if second then s.mp.image0 else s.mp.image1
    ((s.replay x.mark bad).takeControl i (!other.good)).settleRestart
  | none =>
    if s.mp.image0.good ∨ s.mp.image1.good then s
    else (s.firmwareReset.takeControl i false).raise .pwc FC.stateImageLost noUnit 0

/-- `TAKEOVER_COMPLETE` (R572 to R574): a standby that has booted takes control during a coast; `bad0` and `bad1` tell of an uncorrectable
word in an image slot, `badEntry` names the first journal entry that fails its check, `corrected` tells of a single-bit error of the state
store corrected (R604). In a commanded hand-over control passes to the incoming processor, while it runs (R575). -/
def execTakeoverComplete (who : Fin 2) (bad0 bad1 corrected : Bool) (badEntry : Option Nat) (t : Nat) (s : State) : Outcome :=
  let s := (s.upTo t).memoryCorrected corrected
  let p := s.proc who
  if s.mp.coastSince.isNone ∨ !p.hasBooted ∨ (s.mp.handover ∧ who.val ≠ s.mp.lastOwner ∧ (s.proc s.mp.lastOwner).hasBooted) then .next s
  else
    let m := s.mp
    let s1 : State := { s with mp := { m with image0 := { m.image0 with good := m.image0.good && !bad0 },
                                              image1 := { m.image1 with good := m.image1.good && !bad1 } } }
    .next (s1.takeover who badEntry)

/-- `COAST_TIMEOUT` (R573): 50 ms. -/
def execCoastTimeout (t : Nat) (s : State) : Outcome :=
  let s := s.upTo t
  match s.mp.coastSince with
  | some a =>
    if a + 50 * rcMs ≤ s.now ∧ !s.mp.coastRaised then
      .next (({ s with mp := { s.mp with coastRaised := true } } : State).raiseCond .pwc FC.mpCoastTimeout noUnit 0)
    else .next s
  | none => .next s

/-- `MP_NONE_TIMEOUT` (R573): 1.0 s. -/
def execMpNoneTimeout (t : Nat) (s : State) : Outcome :=
  let s := s.upTo t
  match s.mp.coastSince with
  | some a =>
    if a + rcSec ≤ s.now ∧ !s.mp.noneRaised then
      .next (({ s with mp := { s.mp with noneRaised := true } } : State).raiseCond .pwc FC.mpNone noUnit 0)
    else .next s
  | none => .next s

/-! ### Hand-over at a kerf (R575 to R578) -/

/-- The hand-over point (R575): a final journal entry, then the ownership switch is released; the former active processor becomes a
standby without a reset. The contents of that entry are not given: it is empty (DESIGN CHOICE). -/
def State.handOver (s : State) : State :=
  match s.mp.owner with
  | none => s
  | some i =>
    let e : JournalEntry := { seq := s.mp.jseq + 1, source := 0, complete := true, request := [], response := [],
                              frame := s.frame.number % 2 ^ 48, good := true }
    let s1 := s.setProc i { s.proc i with role := .selfTest, lastKick := s.now }
    let m := s1.mp
    { s1 with mp := { m with owner := none, lastOwner := 1 - i, coastSince := some s.now, handover := true, handoverFrame := none,
                             copying := none, coastRaised := false, noneRaised := false, journal := m.keptJournal ++ [e], jseq := e.seq } }

/-- Switch-back is due (R578). -/
def State.switchBackDue (s : State) : Bool :=
  let a := s.mp.mpA
  let b := s.mp.mpB
  s.mp.switchAuto && s.mp.owner == some 1 && s.mp.failedOver && decide (a.role = .ready) && decide (a.readySince + 600 * rcSec ≤ s.now) &&
    a.fwMajor == b.fwMajor && a.fwMinor == b.fwMinor && s.mp.coastSince.isNone

/-- A commanded hand-over, or a switch-back, at t = 0 of a kerf (R575, R576, R578). -/
def State.handOverKerf (s : State) : State :=
  match s.mp.handoverFrame with
  | some f =>
    if s.frame.number < f then s
    else if s.frame.number = f ∧ s.mpServes ∧ s.standby.role = .ready ∧ s.compatible s.standby then s.handOver
    else ({ s with mp := { s.mp with handoverFrame := none } } : State).raise .pwc FC.handoverAborted noUnit 0
  | none => if s.switchBackDue ∧ s.compatible s.mp.mpA then s.handOver else s

end Sys2Proof.Machine
end

