-- ==== Sys2Proof/Machine/KerfOps.lean ====
section
/-! DEFINITION. What a kerf strobe does, part by part (R29, R32, R43 to R46, R56, R62 to R70, R79, R109 to R114, R156, R226, R251, R298,
R303, R324, R336, R337, R355, R473, R474, R488 to R496, R502, R508, R509, R617, R655 to R662, R673, R680). -/

namespace Sys2Proof.Machine

/-! ### The frame that ends (R43, R156, R226, R251, R487, R509, R510) -/

/-- The longest `BODY_TIME` in ns at state `f` among the classes that partitions run in the frame; 0 when none runs one (R43). -/
def State.longestBodyNs (s : State) (f : Nat) : Nat :=
  allPartitions.foldl (fun m p =>
    match s.partJig p, s.classOf p with
    | some j, some c =>
      match j.jig.classes.find? (fun r => r.id == c) with
      | some r => max m (10 * r.bodyTime.getD f 0)
      | none => m
    | _, _ => m) 0

/-- Stretch time of the frame: the largest of the four compute dies (R483), in whole ns. -/
def State.frameStretchNs (s : State) : Nat := (coreRails.foldl (fun m n => max m (s.die n).stretchNs) 0).floor.toNat

/-- Slack of the frame that ends now, over its actual length, at the state it runs (R43). -/
def State.frameSlackNs (s : State) : Int :=
  let k := s.frame.kerf
  (nsOfRc (s.now - k.strobe) : Int) - 4000 - (s.longestBodyNs s.gov.running : Int) - (nsOfRc k.extTime : Int) - (s.frameStretchNs : Int)

/-- Hold the lowest of a signed counter's value and `v`; a counter at 0 holds nothing yet (DESIGN CHOICE). -/
def State.troughSigned (s : State) (i : Nat) (v : Int) : State :=
  if s.counter i = 0 ∨ v < sext 48 (s.counter i) then s.level i v else s

/-- The status bytes of the partitions are latched for the frame that ends, and cleared (R156, R226, R251). -/
def State.latchBytes (s : State) : State :=
  let s1 := allPartitions.foldl (fun (s : State) p =>
    ((s.level (0x080 + p) (SMap.get s.arrays.frameFlags p 0 : Nat)).level (0x490 + p) (SMap.get s.lanes.arith p 0 : Nat)).level
      (0x720 + p) (SMap.get s.mem.status p 0 : Nat)) s
  { s1 with arrays := { s1.arrays with latchedFlags := s1.arrays.frameFlags, frameFlags := [] },
            lanes := { s1.lanes with latchedArith := s1.lanes.arith, arith := [] },
            mem := { s1.mem with latchedStatus := s1.mem.status, status := [] } }

/-- The reasons of the frame with their caps (R510): a reason by pacing or stretch alone has the state that runs as its cap. -/
def GovState.reasons (g : GovState) : List (Nat × Nat) :=
  (if g.flowLossSince.isSome then [(rsFlowLoss, 5)] else []) ++ (if g.vrHold then [(rsVrAlert, 5)] else []) ++ g.frameReasons ++
    g.pacedReasons.map (fun r => (r, g.running))

/-- The reasons that count the whole frame (R509); while the alert stands or was raised in the frame its own time counts instead. -/
def GovState.countedReasons (g : GovState) : List Nat :=
  ((g.frameReasons.filter (fun x => !(x.1 == rsVrAlert && g.vrHold))).map (·.1)).foldl addCause []

/-- The frame counts for its reasons in the scopes that run (R509). -/
def State.countFrame (s : State) (rc : Nat) : State :=
  s.gov.countedReasons.foldl (fun s r =>
    (0 :: s.partitionsRunning.map (· + 1)).foldl (fun s k => s.throttleAdd k r rc) s) s

/-- The books of the frame that ends now are closed: slack and stretch, reasons, learning. -/
def State.closeFrame (s : State) : State :=
  let f := s.frame
  if f.anyKerf then
    let stretch := s.frameStretchNs
    let slack := s.frameSlackNs
    let bodyUs := (s.now - s.kerfEndTime) / rcUs
    let primary := primaryOf s.gov.reasons
    let s1 := s.countFrame (s.now - f.kerf.strobe)
    let s2 := (s1.bump 0x978 stretch).troughSigned 0x977 slack
    let s3 := if f.modes.cadence = .barrier ∧ f.ownDone then s2.bump 0x976 (nsOfRc (s.now - f.ownDoneAt)) else s2
    let s4 := s3.learnFrame bodyUs
    { s4 with gov := { s4.gov with primary := primary, lastStretchNs := stretch },
              frame := { s4.frame with status := { s4.frame.status with slackNs := slack, stretchNs := stretch } } }
  else { s with gov := { s.gov with learning := FrameLearning.none } }

/-! ### The dies' clocks at the strobe (R273, R658) -/

/-- Slots that the tables of a mover's partition granted it in the frame that ends and that it did not use are lost (R273, R675). -/
def State.countLostSlots (s : State) (k : Nat) : State :=
  let v := s.mover k
  let b := s.rt * rcRt + (s.now - s.frame.rtAt) % rcRt
  let g := s.slotsGranted (s.ownerOfMover k) k (s.qcOf (dieOfMover k)) (b - (s.now - s.frame.kerf.strobe)) b
  (s.setMover k { v with slotsUsed := 0 }).bump (0x4A1 + 4 * k) (g - v.slotsUsed)

/-- Tier 2 slots granted in the frame that ends and not used are lost (R273, R675). -/
def State.countT2Lost (s : State) : State :=
  let served := s.counter 0x712 + s.counter 0x713 + s.counter 0x714 + s.counter 0x715
  let b := s.rt * rcRt + (s.now - s.frame.rtAt) % rcRt
  let g := s.t2Granted (b - (s.now - s.frame.kerf.strobe)) b
  ({ s with mem := { s.mem with t2Served := served } } : State).bump 0x716 (g - (served - s.mem.t2Served))

/-- Bench accesses due before the strobe take effect; lost slots are counted; the dies count from the strobe. -/
def State.strobeDies (s : State) : State :=
  let s0 := s.benchNow
  let s1 := if s0.frame.anyKerf then s0.countT2Lost else s0
  let s2 := if s1.frame.anyKerf ∧ s1.diesClocked then
      (s1.host.enabled.flatMap s1.moversOf).foldl (fun s k => s.countLostSlots k) s1
    else s1
  (List.range 4).foldl (fun s n => s.rebaseDie n) s2

/-! ### Jigs that end, and overrun (R56, R58, R114, R355) -/

/-- Halted jobs stop, and partitions that reached `END` complete: `old` is the frame that ends (R114). -/
def State.endJigs (s : State) (old : Nat) : State :=
  allPartitions.foldl (fun s p =>
    match s.partJig p with
    | none => s
    | some j =>
      if j.phase ≠ .running then s
      else if j.halting then s.endJig p 5 old
      else if j.work = .atEnd then s.endJig p 4 old
      else s) s

/-- A partition reset is over once its units have stopped (R355): its records are discarded, its host queues empty. -/
def State.settleQuiesced (s : State) : State :=
  allPartitions.foldl (fun s p =>
    let v := s.vf p
    if v.quiescing ∧ (s.partJig p).isNone then
      let s1 := s.setVf p { v with quiescing := false, hqs := v.hqs.map (fun h => { h with sendBytes := [] }) }
      ({ s1 with jigs := { s1.jigs with results := s1.jigs.results.filter (fun r => r.partition != p) } } : State).vfEvent p 6
    else s) s

/-- Partitions that are not done with the frame at the next kerf under FIXED cadence, or where the kerf is that of a `join` (R56, R65). -/
def State.overrunning (s : State) (join : Bool) : List Nat :=
  if (s.frame.modes.cadence = .fixed ∨ join = true) ∧ s.frame.anyKerf then allPartitions.filter (fun p => !s.partitionDone p) else []

/-- `OVERRUN` for each, with a halt dowel for its job (R46, R56). -/
def State.overrun (s : State) (ps : List Nat) : State :=
  ps.foldl (fun s p =>
    let s1 := (s.raise .hd FC.overrun noUnit 0).bump 0x973 1
    let s2 : State := { s1 with frame := { s1.frame with overrunCount := min 0xFFFFFFFF (s1.frame.overrunCount + 1) } }
    match s2.partJig p with
    | some j => s2.sendHalt j.jig.jobId
    | none => s2) s

/-! ### The domain (R62 to R70, R617) -/

/-- Jobs that run on partitions and are not halting. -/
def State.liveJobs (s : State) : List Nat :=
  allPartitions.foldl (fun l p =>
    match s.partJig p with
    | some j => if j.phase = .running ∧ !j.halting then addCause l j.jig.jobId else l
    | none => l) []

/-- Jigs held at the kerf of a join end there (R617): `old` is the last own frame. -/
def State.endJigsAtJoin (s : State) (old : Nat) : State :=
  let s1 := s.liveJobs.foldl (fun s _ => (s.raise .hd FC.jobHalted noUnit 0).bump 0x975 1) s
  allPartitions.foldl (fun s p =>
    match s.partJig p with
    | none => s
    | some j => if j.phase = .running then s.endJig p 5 old else s.abandonJig p 3) s1

/-- The module joins its domain with the frame that begins (R64). -/
def State.joinDomain (s : State) (j : PendingJoin) (old : Nat) : State :=
  let s1 := (s.endJigsAtJoin old).bump 0x97D 1
  { s1 with
    frame := { s1.frame with domain := some j.dom, modes := j.modes, pendingJoin := none, joinGo := none, leaveFrame := none,
                             forcedLeave := false, pendingTree := none, changes := [], childLeaves := [],
                             anchor := match j.modes.cadence with
                               | .fixed => some (j.joinFrame, j.joinTime)
                               | .barrier => none },
    fabric := { s1.fabric with relayed := [], standingFor := [], relaying := false } }

/-- The module leaves its domain, and goes on under its last modes (R67, R68). -/
def State.leaveDomain (s : State) : State :=
  let s1 := s.bump 0x97E 1
  { s1 with frame := { s1.frame with domain := none, leaveFrame := none, forcedLeave := false, pendingTree := none, changes := [],
                                     childLeaves := [] },
            fabric := { s1.fabric with relayed := [], standingFor := [], relaying := false } }

/-- A change of the domain takes effect with its frame (R69, R70, R78). -/
def State.changeDomain (s : State) : State :=
  let f := s.frame
  match s.changeAt f.number with
  | none => s
  | some c =>
    let m := f.modes.after c
    { s with frame := { f with
        modes := m, changes := f.changes.filter (fun x => decide (f.number < x.frame)),
        anchor := if c.time ≠ 0 then some (c.frame, c.time) else match m.cadence with
          | .fixed => f.anchor
          | .barrier => none,
        domain := f.domain.map (fun d => { d with level := c.level.getD d.level,
                                                  watchdogFactor := c.watchdogFactor.getD d.watchdogFactor }) } }

/-- A new tree position takes effect (R66). -/
def State.changeTree (s : State) : State :=
  match s.frame.pendingTree, s.frame.domain with
  | some t, some d =>
    if t.frame ≤ s.frame.number then
      { s with frame := { s.frame with pendingTree := none, childLeaves := [],
                                       domain := some { d with parent := t.parent, children := t.children,
                                                               releaseMarginNs := t.releaseMarginNs } } }
    else s
  | _, _ => s

/-- Joining, leaving and changes at the kerf of the frame that begins; `join` is the declaration that this kerf carries out. -/
def State.domainKerf (s : State) (join : Option PendingJoin) (old : Nat) : State :=
  match join with
  | some j => s.joinDomain j old
  | none =>
    let f := s.frame
    let s1 := if f.domain.isSome && (f.forcedLeave || f.leaveFrame.elim false (fun l => decide (l ≤ f.number))) then s.leaveDomain else s
    let s2 := s1.changeDomain.changeTree
    match s2.frame.leaveFrame with
    | some l => if l = s2.frame.number + 1 then s2.sendLeave l else s2
    | none => s2

/-! ### Partitions (R336, R337, R339) -/

/-- A partition is disabled: it owns nothing, its bindings and its grant are dropped, and the accesses of its function that still wait are
treated as a disabled partition's (R95, R337, R344, R681). -/
def State.disablePartition (s : State) (p : Nat) : State :=
  let s := s.abortAccesses p
  let eps := s.endpointsOf p
  { s with
    host := { s.host with enabled := s.host.enabled.filter (· != p), active := SMap.set s.host.active p [] [] },
    fabric := { s.fabric with bindings := SMap.drop s.fabric.bindings (fun e => eps.contains e),
                              endpoints := SMap.drop s.fabric.endpoints (fun e => eps.contains e) },
    jigs := { s.jigs with haltedIdleW := SMap.set s.jigs.haltedIdleW p 0 0, halted := s.jigs.halted.filter (· != p) },
    ob := { s.ob with grants := SMap.set s.ob.grants p 0 0 } }

/-- A partition is enabled: its ownership is as its record states (R229, R336). -/
def State.enablePartition (s : State) (p : Nat) : State :=
  { s with host := { s.host with enabled := addCause s.host.enabled p, active := SMap.set s.host.active p (s.recordOf p) [] } }

/-- Pending enables and disables take effect, and `PART_DONE` is raised (R339); one accepted in the pc of the strobe waits for the following
kerf (R29). -/
def State.partitionKerf (s : State) : State :=
  if s.now / rcPc ≤ s.host.ctrlPc then s
  else
  let s0 := s.host.pendingDisable.foldl (fun s p => s.disablePartition p) s
  let s1 := s0.host.pendingEnable.foldl (fun s p => s.enablePartition p) s0
  let s2 : State := { s1 with host := { s1.host with pendingEnable := [], pendingDisable := [], ctrlPending := false } }
  if s.host.ctrlPending then s2.pfEvent 1 else s2

/-! ### Jigs that start and go on (R91, R109 to R111, R260, R485, R512) -/

/-- Jigs not distributed by their start frame (R111). -/
def State.lateJigs (s : State) : State :=
  allPartitions.foldl (fun s p =>
    match s.partJig p with
    | some j =>
      if j.phase = .loading ∧ j.startFrame.elim false (fun f => decide (f ≤ s.frame.number)) then
        ((s.abandonJig p 2).raiseVf FC.jigLate p).sendHalt j.jig.jobId
      else s
    | none => s) s

/-- The module takes over the modes of a jig (R109): a new frame length counts from this kerf. -/
def State.adoptModes (s : State) (j : Jig) : State :=
  let f := s.frame
  let m := j.modes f.modes.frameLengthUs
  if f.domain.isSome ∨ m = f.modes then s
  else
    { s with frame := { f with modes := m, anchor := match m.cadence with
      | .fixed => if f.modes.cadence = .fixed ∧ m.frameLengthUs = f.modes.frameLengthUs then f.anchor else some (f.number, f.kerf.rt)
      | .barrier => none } }

/-- A queue at the start of the job that declares it (R260). -/
def QueueDecl.start (q : QueueDecl) (p : Nat) : Queue :=
  { Queue.none with declared := true, partition := p, producer := q.producer, consumer := q.consumer, depth := q.depth,
                    frameLocal := q.frameLocal, credits := q.depth }

/-- A jig starts with the frame that begins. -/
def State.startJig (s : State) (p : Nat) (j : PartJig) : State :=
  let w := seqStart j.jig
  let s1 := (s.setPartJig p (some { j with phase := .running, startFrame := some s.frame.number, pos := w.1, work := w.2,
                                           halting := false })).adoptModes j.jig
  let s2 := j.jig.queues.foldl (fun s q => s.setQueue q.id (q.start p)) s1
  let ids := j.jig.queues.map (·.id)
  let s3 := s2.clearEntries j.jig.classBase j.jig.classCount
  { s3 with jigs := { s3.jigs with haltedIdleW := SMap.set s3.jigs.haltedIdleW p 0 0, halted := s3.jigs.halted.filter (· != p) },
            gov := { s3.gov with queueEnergy := SMap.drop s3.gov.queueEnergy (fun q => ids.contains q) } }

/-- Running jigs take the next frame of their sequences; a halting one does nothing more. Loaded jigs whose frame has come start. -/
def State.advanceJigs (s : State) : State :=
  allPartitions.foldl (fun s p =>
    match s.partJig p with
    | none => s
    | some j =>
      match j.phase with
      | .running =>
        if j.halting then s.setPartJig p (some { j with work := .nothing })
        else
          let w := seqNext j.jig (j.pos, j.work)
          s.setPartJig p (some { j with pos := w.1, work := w.2 })
      | .loaded => if j.startFrame.elim false (fun f => decide (f ≤ s.frame.number)) then s.startJig p j else s
      | .loading => s) s

/-! ### The new frame -/

/-- What counts once per frame is cleared (R227, R252, R306, R344), and the barrier of the new frame begins. -/
def State.clearFrame (s : State) : State :=
  let s1 := allPartitions.foldl (fun s p => s.setVf p { s.vf p with deniedRaised := false }) s
  let runs := fun (job : Nat) => !(s.partitionsWith job).isEmpty
  { s1 with
    lanes := { s1.lanes with clusters := SMap.mapAll s1.lanes.clusters Cluster.reset (fun c =>
      { c with arithRaised := false, boundsRaised := false, boundsLanes := 0 }) },
    mem := { s1.mem with correctedRaised := [] },
    fabric := { s1.fabric with lateRaised := false, haltsUp := s1.fabric.haltsUp.filter runs,
                               haltsDown := s1.fabric.haltsDown.filter runs },
    frame := { s1.frame with go := none, childrenDone := [], ownDone := false, donePassed := false, watchdogFired := false,
                             haltedJobs := [] },
    gov := { s1.gov with pacedReasons := [],
                         dies := s1.gov.dies.map (fun d => { d with stretchNs := 0, paceBefore := d.pacing, pacing := 0 }) } }

/-- The announcement of the frame that runs and of the two after it (R26, R89). -/
def State.announce (s : State) : State :=
  { s with frame := { s.frame with classes := s.classesAhead 0, next1 := s.classesAhead 1, next2 := s.classesAhead 2 } }

/-! ### Fabric (R298, R303, R324) -/

/-- A link at a kerf: its level is the lower of the two announcements; striping resumes once both ends have announced the path. -/
def Link.kerf (l : Link) (own : Nat) : Link :=
  let up := fun (p : Path) => if p.state = .upWaiting then { p with state := PathState.up } else p
  let level := fun (h : Nat) => if l.halfUp h then min own (nth l.announced h 0) else 0
  let l1 := { l with level := [level 0, level 1] }
  if l.resumeOwn && l.resumePeer then
    { l1 with pathA := up l1.pathA, pathB := up l1.pathB, resumeOwn := false, resumePeer := false }
  else l1

/-- The links, and the staging route table when a commit's frame has come. -/
def State.fabricKerf (s : State) : State :=
  let own := s.moduleLevel
  let s1 := (List.range 16).foldl (fun s k => s.setLink k ((s.link k).kerf own)) s
  let f := s1.fabric
  let n := s1.frame.number
  { s1 with fabric := { f with routes := if f.commits.any (fun c => decide (c ≤ n)) then f.staging else f.routes,
                               commits := f.commits.filter (fun c => decide (n < c)) } }

/-- Endpoints of a jig that starts with this frame: a put sink sends its peer the depth of its queue as credits (R311), a reduction member
may contribute (R316). -/
def State.startEndpoints (s : State) : State :=
  allPartitions.foldl (fun s p =>
    match s.partJig p with
    | none => s
    | some j =>
      if j.phase = .running ∧ j.startFrame = some s.frame.number then
        (s.endpointsOf p).foldl (fun s e =>
          if (s.binding e).mode = 2 ∧ 0 < s.epCredits e then s.sendCredit e else s.settleMember e) s
      else s) s

/-! ### The governor (R473, R488 to R496, R502, R508) -/

/-- P_rest in mW (R473). -/
def State.measuredRest (s : State) : Int :=
  let cores := coreRails.foldl (fun a n => a + (s.rail n).mean1ms.mw) 0
  (meanRat (s.gov.power.map (fun x => (x : Rat))) 0 - 109 / 100 * (cores : Rat)).floor

/-- The settings and conditions of t = 0 (R29, R495, R496, R502, R508). -/
def State.govSample (s : State) : State :=
  let g := s.gov
  let quota := fun (p : Nat) => SMap.get g.nextSettings.quota p 0
  { s with gov := { g with
      settings := g.nextSettings, restMw := s.measuredRest, moduleClass := s.frame.classes.module.getD 0, f0Floor := false,
      quotaActive := allPartitions.filter (fun p => quota p != 0 && decide ((quota p : Rat) ≤ g.partMean p)),
      thermalCap := if s.anyThrottle then min 5 (g.running + 1) else g.thermalCap - 1,
      vrCap := if g.vrAlert ∨ g.vrHold then 5 else g.vrCap - 1, vrHold := g.vrAlert,
      boostBlocked := g.boostBlocked && decide (3000 ≤ s.mean60), ready := s.readyState } }

/-- The state to apply is the slowest of the armed, the one selected now and the ready one (R488); F0 that ends for one of the reasons of
R495 sets the boost block. -/
def State.sampleState (s : State) : Nat × State :=
  let g := s.gov
  let sel := s.selectState g.moduleClass 0 s.now
  let st := max (max g.armed sel.1) g.ready
  let why := if sel.1 < g.armed then g.armedReasons else sel.2
  let ends := decide (g.running = 0) && decide (st ≠ 0) &&
    [rsPeakTime, rsThermal, rsStorageSoc, rsStorageHeadroom].contains (primaryOf why)
  (st, { s with gov := { g with frameReasons := why, boostBlocked := g.boostBlocked || (ends && decide (3000 ≤ s.mean60)) } })

/-- The modes under which the next frame runs, as far as they are settled (R69, R70, R109): those of the domain being joined, of a change of
the domain, or of the jig that starts with it. -/
def State.modesNext (s : State) : Modes :=
  let f := s.frame
  let n := f.number + 1
  let joined := match s.nextKerf, f.pendingJoin with
    | some k, some j => if s.joins k then some j.modes else none
    | _, _ => none
  match joined with
  | some m => m
  | none =>
    let m := match s.changeAt n with
      | some c => f.modes.after c
      | none => f.modes
    if f.domain.isSome then m
    else allPartitions.foldl (fun m p => match s.partJig p with
      | some j => if j.phase = .loaded ∧ j.startFrame.elim false (fun x => decide (x ≤ n)) then j.jig.modes m.frameLengthUs else m
      | none => m) m

/-! ### The root of the frame (R658 to R662) -/

/-- The running PLL's held state, and the standby's. -/
def DieClock.run (d : DieClock) : Option Nat := if d.running = 0 then d.pll0 else d.pll1
def DieClock.standby (d : DieClock) : Option Nat := if d.running = 0 then d.pll1 else d.pll0

/-- The PLL that supplies the root for state `f`: 0 or 1, none when neither holds a state no slower (R660); a die on the reserve clock
leaves it for a PLL that holds `f` itself (R662). -/
def DieClock.source (d : DieClock) (f : Nat) : Option Nat :=
  let ok := fun (x : Option Nat) => x.elim false (fun h => if d.reserve then h == f else decide (h ≤ f))
  match ok d.run, ok d.standby with
  | true, true => if d.run.getD 0 < d.standby.getD 0 then some (1 - d.running) else some d.running
  | true, false => some d.running
  | false, true => some (1 - d.running)
  | false, false => none

/-- m_S for state `f` on a PLL that holds `h` (R660). -/
def emulationFloor (h f : Nat) : Nat :=
  let a := stateMult h
  let b := stateMult f
  (64 * (a - b) + b - 1) / b

/-- The die's floor for state `f` on PLL `x`. -/
def DieClock.onPll (d : DieClock) (x f : Nat) : DieClock :=
  { d with emulation := emulationFloor ((if x = 0 then d.pll0 else d.pll1).getD f) f }

/-- The four dies settle the root of the frame for the sampled state: the state at which the frame runs and whether a switch is due. -/
def State.settleRoot (s : State) (st : Nat) : State :=
  let put := fun (s : State) (f : Nat) (due : Bool) =>
    ({ s with frame := { s.frame with kerf := { s.frame.kerf with sampled := f, switchDue := due } },
              gov := { s.gov with running := if due ∨ !s.diesClocked then s.gov.running else f } } : State)
  if !s.diesClocked then put s st false
  else
    let ds := s.clocks.dies
    let s1 := (List.zip ds coreRails).foldl (fun s x =>
      if x.1.standbyArmed && x.1.standby.isNone then s.raise (Source.ofDie x.2) FC.standbyPllUnlocked noUnit 0 else s) s
    let clocks := fun (l : List DieClock) => ({ s1 with clocks := { s1.clocks with dies := l } } : State)
    if ds.any (·.reserve) then
      let leaves := !s.gov.vrAlert && ds.all (fun d => (d.source st).isSome)
      put (clocks (ds.map (fun d => { d with emulation := 0 }))) (if leaves then st else 5) leaves
    else
      let blocked := ds.any (fun d => (d.source st).isNone)
      let f := if blocked then ds.foldl (fun m d => max m (d.run.getD 5)) 0 else st
      let src := fun (d : DieClock) => (d.source f).getD d.running
      put (clocks (ds.map (fun d => d.onPll (src d) f))) f (ds.any (fun d => src d != d.running))

/-! ### The warning of R44 and the status of R79 -/

/-- The length of the frame that begins, in ns, for R44: under its own BARRIER cadence a frame ends at a known join at the latest (R65). -/
def State.plannedNs (s : State) (longest : Nat) : Nat :=
  match s.frame.modes.cadence with
  | .barrier =>
    match s.nextKerf with
    | some k => if s.joins k then min (longest * 1000) ((k.2 - s.frame.kerf.rt) * 10) else longest * 1000
    | none => longest * 1000
  | .fixed =>
    match s.nextKerf with
    | some k => if s.joins k then (k.2 - s.frame.kerf.rt) * 10 else s.frame.modes.frameLengthUs * 1000
    | none => s.frame.modes.frameLengthUs * 1000

/-- `SLACK_NEGATIVE` once for the kerf; a frame in which no partition runs a class is not checked. -/
def State.slackCheck (s : State) : State :=
  match s.longestClass with
  | none => s
  | some l =>
    if s.plannedNs l < 4000 + s.longestBodyNs s.frame.kerf.sampled then s.raise .hd FC.slackNegative noUnit 0 else s

/-- `MEMBER_STATE` (R79): a member that is to leave is LEAVING from the acceptance on, in holdover as well (DESIGN CHOICE: the manual ranks
neither). -/
def FrameState.member (f : FrameState) : Nat :=
  if f.domain.isSome then (if f.leaveFrame.isSome || f.forcedLeave then 4 else if f.holdoverSince.isSome then 3 else 2)
  else if f.pendingJoin.isSome then 1 else 0

/-- The status of R79 is captured. -/
def State.captureStatus (s : State) : State :=
  let f := s.frame
  { s with frame := { f with status :=
      { frameNumber := f.number, kerfRt := f.kerf.rt, domainId := f.domain.elim 0 (·.id), domainLevel := f.domain.elim 0 (·.level),
        moduleLevel := s.moduleLevel, cadence := f.modes.cadence, clampMode := f.modes.clampMode, freqState := f.kerf.sampled, memberState := f.member,
        activeRef := f.activeRef.getD 0xFF, slackNs := f.status.slackNs, stretchNs := f.status.stretchNs,
        overrunCount := f.overrunCount, deferredCount := f.deferredCount, halted := s.jigs.halted } } }

end Sys2Proof.Machine
end

