-- ==== Sys2Proof/Machine/KerfCode.lean ====
section
/-! DEFINITION. The events of a kerf (R45 to R52, R60, R275, R474, R479, R488, R659): strobe, switch, unit starts, clamp load, end. -/

namespace Sys2Proof.Machine

/-! ### The strobe (R45) -/

/-- A kerf record at its strobe. -/
def Kerf.begin_ (strobe rt sampled : Nat) : Kerf :=
  { active := true, strobe := strobe, rt := rt, sampled := sampled, switchDue := false, extRc := 0, extTime := 0, moversStarted := false,
    groupsDone := [], arraysDone := [], clampLoaded := false, late := false }

/-- The part of the strobe that concerns the frame that ends: accounts, latched bytes, fold and snapshots (R673, R680), books. -/
def State.endFrame (s : State) (number : Nat) : State :=
  let s1 := s.settleClocks
  let s2 : State := { s1 with shim := { s1.shim with lastPlanW := (s1.planLast : Rat) } }
  (((s2.latchBytes).foldAll).snapKerf number).closeFrame

/-- The frame number advances or is taken from the domain; halted and completed jigs end, overruns are found, the domain changes
(R32, R56, R64, R114). -/
def State.enterFrame (s : State) (number rt : Nat) (join : Option PendingJoin) : State :=
  let old := s.frame.number
  let late := s.overrunning join.isSome
  let s1 := (s.endJigs old).bump 0x970 1
  let s2 : State := { s1 with frame := { s1.frame with number := number % 2 ^ 48, anyKerf := true,
                                                       kerf := Kerf.begin_ s1.now rt s1.frame.kerf.sampled } }
  ((s2.overrun late).domainKerf join old).partitionKerf

/-- Jigs, announcement, fabric and rails of the frame that begins. -/
def State.beginFrame (s : State) : State :=
  ((((s.lateJigs).advanceJigs.settleQuiesced).clearFrame.announce).fabricKerf.startEndpoints).railKerf

/-- Shim stage and governor at t = 0: supply limit, sampled state, limits and preset, goal. -/
def State.govKerf (s : State) (plan : Bool) (last : Rat) : State :=
  let s1 := (s.shimChanges plan last).govSample
  let x := s1.sampleState
  let s2 := x.2.settleRoot x.1
  let f := s2.frame.kerf.sampled
  let preset := match s2.frame.modes.clampMode with
    | .fixedFrequency => s2.presetOf s2.gov.moduleClass 0 f
    | .opportunistic => 0
  let s3 : State := { s2 with gov := { s2.gov with nextLimits := s2.computeLimits f,
                                                   dies := s2.gov.dies.map (fun d => { d with preset := preset }) } }
  ((s3.shimGoal plan last).settleF0).slackCheck

/-- Copies of RT that disagree are reloaded (R655): compute dies 0 to 3, the PWC 4. -/
def State.rtCopies (s : State) (bad : List (Fin 5)) : State :=
  bad.foldl (fun s n => s.raise (if n.val < 4 then Source.ofDie n.val else .pwc) FC.rtCopyMismatch noUnit 0) s

/-- `KERF_STROBE` (R45): the kerf of the next frame starts at its RT edge. `plan` says that the announcement of that frame has reached the
PWC (R27); `copies` are the dies whose copy of RT is found wrong. -/
def execKerfStrobe (plan : Bool) (copies : List (Fin 5)) (s : State) : Outcome :=
  if s.frame.frozen then .next s
  else
    match s.nextKerf with
    | none => .next s
    | some k =>
      let rt := s.kerfEdge k.2
      let join := if s.joins k then s.frame.pendingJoin else none
      let s := s.onEdge (s.frame.timeOfRt rt) 3
      let last : Rat := ((s.now - (if s.frame.anyKerf then s.frame.kerf.strobe else s.frame.startedAt) : Nat) : Rat) / 7200
      let s1 := ((s.strobeDies.endFrame k.1).enterFrame k.1 rt join).beginFrame
      .next (((((s1.govKerf plan last).rtCopies copies).captureStatus).handOverKerf).modKerf)

/-! ### The frequency-state switch (R49 to R52) -/

/-- Duration of 256 rc of the state that runs, in cycles of the 7.2 GHz root. -/
def State.wait256 (s : State) : Nat := 256 * 72 / stateMult s.gov.running

/-- When a switch of this kerf is due: t = 50 ns. -/
def Kerf.switchAt (k : Kerf) : Nat := k.strobe + 360

/-- A die stretches its clock (R48). -/
def State.stretchBusy (s : State) : Bool := coreRails.any (fun n => (s.die n).stretching.isSome)

/-- `FREQ_STATE_SWITCH` (R49, R50, R52): the four dies switch on one root edge with no stretch active. -/
def execFreqStateSwitch (t : Nat) (s : State) : Outcome :=
  let s := s.upTo t
  let k := s.frame.kerf
  if k.active ∧ k.switchDue ∧ s.diesClocked ∧ k.switchAt ≤ s.now ∧ s.now ≤ k.switchAt + s.wait256 ∧ !s.stretchBusy then
    let wait := s.now - k.switchAt
    let rc := (wait * stateMult s.gov.running + 71) / 72
    let s1 := s.settleClocks
    let dies := s1.clocks.dies.map (fun d => { d with running := (d.source k.sampled).getD d.running, reserve := false })
    .next (({ s1 with clocks := { s1.clocks with dies := dies },
                      gov := { s1.gov with running := k.sampled },
                      frame := { s1.frame with kerf := { k with switchDue := false, extRc := min 256 rc, extTime := wait } } } : State).switchRoots
      (tick * s.now) false |>.settleF0)
  else .next s

/-- `FREQ_SWITCH_DEFERRED` (R51): the running PLL stays, at the sampled state emulated where it holds a faster one (R660); plans stay those
of the state sampled at the kerf (R360). -/
def execFreqSwitchDeferred (t : Nat) (s : State) : Outcome :=
  let s := s.upTo t
  let k := s.frame.kerf
  if k.active ∧ k.switchDue ∧ s.diesClocked ∧ k.switchAt + s.wait256 ≤ s.now ∧ s.stretchBusy then
    let f := s.clocks.dies.foldl (fun m d => max m d.rootState) k.sampled
    let f := if s.clocks.dies.any (·.reserve) then 5 else f
    let g := s.gov
    let s1 := (s.settleClocks).bump 0x972 1
    let dies := s1.clocks.dies.map (fun d => if d.reserve then d else d.onPll d.running f)
    .next ({ s1 with
      clocks := { s1.clocks with dies := dies },
      gov := { s1.gov with running := f, frameReasons := g.frameReasons ++ [(rsDroop, f)],
                           learning := { s1.gov.learning with spoiled := true } },
      frame := { s1.frame with deferredCount := min 0xFFFFFFFF (s1.frame.deferredCount + 1),
                               kerf := { k with switchDue := false, extRc := 256, extTime := s.wait256 } } } : State).settleF0
  else .next s

/-! ### Unit starts (R30, R45, R46, R160, R173, R176, R177, R275) -/

/-- A frequency-state switch of this kerf has still to be made or deferred: the events after it wait for it (R45). -/
def State.switchWaits (s : State) : Bool := s.frame.kerf.switchDue && s.diesClocked

/-- An event at `offset` of the kerf, after its frequency-state switch, has come. -/
def State.kerfDue (s : State) (offset : Nat) : Bool :=
  let k := s.frame.kerf
  k.active && !s.switchWaits && decide (k.strobe + offset + k.extTime ≤ s.now)

/-- When the event at `offset` of the kerf falls (R45). -/
def State.kerfTime (s : State) (offset : Nat) : Nat := s.frame.kerf.strobe + offset + s.frame.kerf.extTime

/-- A reaction of MAJOR or higher that covers partition `p` stands (R30). -/
def State.reactionOver (s : State) (p : Nat) : Bool :=
  s.fc.slots.any (fun kv => kv.2.recs.any (fun r => decide (4 ≤ r.level) || (decide (3 ≤ r.level) && (r.scope == 0xFF || r.scope == p))))

/-- The program of unit `u` (R85) in the frame: its class, and the program's bytes; none where the unit is not to start. -/
def State.unitEntry (s : State) (u : Nat) : Option (Nat × Bytes) :=
  match s.ownerOfUnit u with
  | none => none
  | some p =>
    match s.partJig p, s.classOf p with
    | some j, some c =>
      if j.phase ≠ .running ∨ j.halting ∨ s.reactionOver p ∨ !s.diesIssue then none
      else
        (j.jig.programOf u c).map (fun b => (c, b))
    | _, _ => none

/-- A unit that still executes work of an earlier frame at its start time is not started, which is the overrun of its partition (R46,
R56). -/
def State.unitOverruns (s : State) (u : Nat) : State :=
  match s.ownerOfUnit u with
  | some p => s.overrun [p]
  | none => s

/-- A mover starts its entry, unless it still executes an earlier one; transfers of a jig that has gone go on (R46, R275, R286). -/
def State.startMover (s : State) (k : Nat) : State :=
  let v := s.mover k
  match s.unitEntry (0x2000 + k) with
  | none => s
  | some e =>
    if v.entry.isSome ∧ !v.done then s.unitOverruns (0x2000 + k)
    else s.setMover k { v with entry := some e.1, nextDesc := 0, deferred := [], stopped := false, done := false,
                               issueQc := s.cycleOf (dieOfMover k) 6 (s.kerfTime 576) }

/-- `MOVER_START` (R275): all 128 movers at t = 80 ns. -/
def execMoverStart (t : Nat) (s : State) : Outcome :=
  let s := s.onEdge t 5
  if s.kerfDue 576 ∧ !s.frame.kerf.moversStarted then
    let s1 := (List.range 128).foldl (fun s k => s.startMover k) s
    .next { s1 with frame := { s1.frame with kerf := { s1.frame.kerf with moversStarted := true } } }
  else .next s

/-- A cluster still executes an entry. -/
def Cluster.busy (cl : Cluster) : Bool := cl.entry.isSome && (List.range cl.rowCount).any (fun j => !(cl.row j).done)

/-- A cluster at the start of an entry with `ROW_COUNT` and `KEEP_STATE`, its rotation counted from lc `origin` (R173, R176, R177). -/
def Cluster.begin_ (cl : Cluster) (cls rows origin : Nat) (keep : Bool) : Cluster :=
  let zero := !keep || !cl.ranInJig
  { cl with
    entry := some cls, origin := origin, turn := (origin : Int) - 1, rowCount := rows, keepState := keep, ranInJig := true, stopped := false, rows := [],
    regs := if zero then SMap.drop cl.regs (fun k => decide (k / 16 < rows)) else cl.regs,
    preds := if zero then SMap.drop cl.preds (fun k => decide (k / 8 < rows)) else cl.preds,
    slots := if zero then [] else cl.slots }

/-- A lane cluster starts its entry at time `start`, unless it still executes an earlier one (R46, R173). -/
def State.startCluster (s : State) (c start : Nat) : State :=
  let cl := s.cluster c
  match s.unitEntry (0x1000 + c) with
  | none => s
  | some e =>
    if cl.busy then s.unitOverruns (0x1000 + c)
    else
      let head := rd e.2 0 1
      s.setCluster c (cl.begin_ e.1 (head % 128) (s.cycleOf (dieOfCluster c) 3 start) (bitAt head 7))

/-- `CLUSTER_GROUP_START` (R45): group ⌊j/4⌋ of compute die j mod 4, 16 clusters. -/
def execClusterGroupStart (j : Fin 16) (t : Nat) (s : State) : Outcome :=
  let s := s.onEdge t 5
  if s.kerfDue (720 + 1440 * j.val) ∧ !s.frame.kerf.groupsDone.contains j.val then
    let first := 64 * (j.val % 4) + 16 * (j.val / 4)
    let s1 := (List.range 16).foldl (fun s i => s.startCluster (first + i) (s.kerfTime (720 + 1440 * j.val))) s
    .next { s1 with frame := { s1.frame with kerf := { s1.frame.kerf with groupsDone := j.val :: s1.frame.kerf.groupsDone } } }
  else .next s

/-- A matrix array starts its entry in the first ac at or after time `start`, unless it still executes an earlier one (R46, R160 rule 1). -/
def State.startArray (s : State) (m start : Nat) : State :=
  let u := s.array m
  match s.unitEntry m with
  | none => s
  | some e =>
    if u.entry.isSome ∧ !u.done then s.unitOverruns m
    else
      let a := s.cycleOf (dieOfArray m) 4 start
      s.setArray m { u with entry := some e.1, nextDesc := 0, loadFree := a, passFree := a, footFree := a, issueFree := a,
                               loadAfter := [a, a], passAfter := [a, a], outstanding := [], settled := [], deferred := [],
                               stopped := false, done := false }

/-- `ARRAY_START` (R45): array 4 (k mod 4) + ⌊k/4⌋, with a sixteenth of the change between frames fed forward (R359). -/
def execArrayStart (k : Fin 16) (t : Nat) (s : State) : Outcome :=
  let s := s.onEdge t 5
  if s.kerfDue (1440 + 1440 * k.val) ∧ !s.frame.kerf.arraysDone.contains k.val then
    let s1 := (s.startArray (4 * (k.val % 4) + k.val / 4) (s.kerfTime (1440 + 1440 * k.val))).feedForwardStart
    .next { s1 with frame := { s1.frame with kerf := { s1.frame.kerf with arraysDone := k.val :: s1.frame.kerf.arraysDone } } }
  else .next s

/-! ### Clamp load and end (R45, R60, R474, R479, R488, R659) -/

/-- `CLAMP_LOAD` (R474): the limits of the frame reach every slice at t = 3,400 ns. -/
def execClampLoad (t : Nat) (s : State) : Outcome :=
  let s := s.upTo t
  if s.kerfDue 24480 ∧ !s.frame.kerf.clampLoaded then
    .next { s with gov := { s.gov with limits := s.gov.nextLimits },
                   frame := { s.frame with kerf := { s.frame.kerf with clampLoaded := true } } }
  else .next s

/-- Pacing resumes at the larger of its value before the kerf and the preset (R479), no lower than the floors in force (R480, R660). -/
def State.resumePacing (s : State) : State :=
  coreRails.foldl (fun s n =>
    let d := s.die n
    (s.setDie n { d with pacedAt := s.now }).setPacing n (max (max d.paceBefore d.preset) (s.paceFloor n))) s

/-- The state of the next frame is armed under the modes it will run (R72, R488, R492) and the standby PLLs are retuned to it (R659). `known` says that the next frame's
class has been announced. -/
def State.arm (s : State) (known : Bool) : State :=
  let at_ := match s.nextKerf with
    | some k => s.frame.timeOfRt k.2
    | none => s.now
  let x : State := { s with frame := { s.frame with modes := s.modesNext } }
  let sel := if known then x.selectState (s.frame.next1.module.getD 0) 1 at_ else x.selectState s.gov.moduleClass 0 at_
  let s1 : State := { s with gov := { s.gov with armed := sel.1, armedReasons := sel.2 } }
  if s1.diesClocked then
    { s1 with clocks := { s1.clocks with dies := s1.clocks.dies.map (fun d =>
        if d.running = 0 then { d with pll1 := none, standbyArmed := true } else { d with pll0 := none, standbyArmed := true }) } }
  else s1

/-- The voltage follows the running state, but for a change that VR_ALERT_N forced within this kerf: the setpoint follows the state chosen at
the next one (R452, R508). -/
def State.settleVolted (s : State) : State :=
  let g := s.gov
  if g.vrHold ∧ s.frame.kerf.strobe ≤ g.vrAlertSince then s else { s with gov := { g with volted := g.running } }

/-- `KERF_END` (R45): t = 4,000 ns. -/
def execKerfEnd (known : Bool) (t : Nat) (s : State) : Outcome :=
  let s := s.upTo t
  if s.kerfDue 28800 then
    let k := s.frame.kerf
    let s1 := (s.settleClocks).bump 0x971 k.extRc
    let s2 : State := { s1 with frame := { s1.frame with lastExtRc := k.extRc, kerf := { k with active := false } } }
    .next ((((s2.resumePacing.arm known).settleVolted).settleSetpoints).settleF0)
  else .next s

/-- Every event of the kerf up to the clamp load has come, the frequency-state switch among them. -/
def Kerf.complete (k : Kerf) : Bool :=
  !k.switchDue && k.moversStarted && decide (k.groupsDone.length = 16) && decide (k.arraysDone.length = 16) && k.clampLoaded

/-- `KERF_LATE` (R60). -/
def execKerfLate (t : Nat) (s : State) : Outcome :=
  let s := s.upTo t
  let k := s.frame.kerf
  if s.frame.anyKerf ∧ !k.complete ∧ !k.late ∧ k.strobe + 28800 + s.wait256 ≤ s.now then
    .next ((({ s with frame := { s.frame with kerf := { k with late := true } } } : State).raise .hd FC.kerfLate noUnit 0).bump 0x97F 1)
  else .next s

end Sys2Proof.Machine
end

