-- ==== Sys2Proof/Machine/LaneCode.lean ====
section
/-! DEFINITION. The meanings of the lane instructions (R197 to R227). -/

namespace Sys2Proof.Machine

/-! ### Helpers of the lane meanings -/

/-- The special values of R185. -/
def State.specialValue (s : State) (c j i sel : Nat) : Nat :=
  match sel with
  | 0 => i
  | 1 => j
  | 2 => 128 * j + i
  | 3 => c
  | 4 => dieOfCluster c
  | 5 => (s.ownerOfCluster c).getD 0
  | 6 => (s.cluster c).rowCount
  | 7 => (s.cluster c).entry.getD 0
  | _ => s.clusterJobFrame c % 2 ^ 32

/-- First lane of the group of 2^g lanes that holds lane `i` (R209). -/
def groupBase (g i : Nat) : Nat := i / 2 ^ g * 2 ^ g

/-- The operand of a reduction as it enters the tree: its magnitude for reduction 11 (R210). -/
def xredOperand (sub : Nat) (w : W32) : W32 := if sub = 11 then fabs w else w

/-- The reduction of each lane's group, by lane (R210). -/
def xredRow (sub g : Nat) (v : List (W32 × Nat)) : List (W32 × Nat) :=
  let ops := v.map (fun x => (xredOperand sub x.1, x.2))
  let sums := (List.range (128 / 2 ^ g)).map (fun k => treeReduce sub g ((ops.drop (k * 2 ^ g)).take (2 ^ g)))
  (List.range 128).map (fun i => sums.getD (i / 2 ^ g) (0, 0))

/-- A queue instruction of row `j`: does `f` when `ok` holds, else the turn is skipped (R174, R191). -/
def State.laneQueue (s : State) (c j : Nat) (ok : Bool) (f : State → State) : State :=
  if ok then (f s).rowNext c j else s.skipQueue c

/-- The 128 words of an entry and the flags of taking it: a signal gives zeros and `AF_INVALID` (R220); a poisoned word is zero
(R287). -/
def entryWords (e : Option QEntry) : List W32 × Nat :=
  match e with
  | some { data := some d } =>
    ((List.range 128).map (fun i => match dataNat ((d.drop (4 * i)).take 4) with
      | some v => BitVec.ofNat 32 v
      | none => 0), 0)
  | _ => (zeroLanes, afInvalid)

/-- The terms of a `RED` by lane: the addend modulo 2^64 and its WA64 flags (R127, R192). -/
def redTerms (sub : Nat) (window : Int) (a b : List W32) : List (Nat × Nat) :=
  let q := fun v => let t := quantize v window; (wa64OfInt t.1, t.2)
  match sub with
  | 0 => a.map (fun x => q (f32 x))
  | 1 => a.map (fun x => q (decodeFloat fmtBF16 (x.toNat / 2 ^ 16)))
  | 2 => a.map (fun x => q (FVal.ofInt x.toInt 0))
  | _ => List.zipWith (fun x y => (pairOf x y, 0)) a b

/-- Add the terms of the selected lanes to a slot (R129, R130). -/
def AccSlot.addTerms (x : AccSlot) : List Bool → List (Nat × Nat) → AccSlot
  | g :: gs, t :: ts =>
    AccSlot.addTerms (if g then { x with value := wa64Add x.value t.1, flags := x.flags ||| t.2 } else x) gs ts
  | _, _ => x

/-- A slot converted to a register word (R193, R222 items 4 and 5). -/
def slotConvert (fmt : Format) (x : AccSlot) (mode : Rounding) : W32 × Nat :=
  let r := convertOut fmt x.value x.window mode
  let code := match fmt with
    | .bf16 => r.1 * 2 ^ 16
    | _ => r.1
  (BitVec.ofNat 32 code, if r.2 then afOverflow else 0)

/-- A branch: a taken one pops every loop whose `LOOPEND` lies before the target (R223, R225). -/
def State.laneBranch (s : State) (r : RowAt) (taken : Bool) (target : Nat) : State :=
  if taken then
    let cl := s.cluster r.cluster
    let row := cl.row r.row
    (s.setCluster r.cluster (cl.setRow r.row { row with stack := row.stack.filter (fun l => !decide (l.stop < target)) })).rowTo
      r.cluster r.row target
  else s.rowNext r.cluster r.row

/-! ### Meanings -/

/-- `IADD`: Vd = Va + Vb modulo 2^32 (R204). -/
def execLaneIadd (w : LaneAt) (d : Fin 16) (a : Fin 16) (b : Fin 16) (s : State) : Outcome :=
  s.laneIssue w (regWord 0x10 (guardBits w) { d := d, a := a, b := b }) (fun s => s.binary w d a b (fun x y => plain (x + y)))

/-- `ISUB`: Vd = Va − Vb modulo 2^32 (R204). -/
def execLaneIsub (w : LaneAt) (d : Fin 16) (a : Fin 16) (b : Fin 16) (s : State) : Outcome :=
  s.laneIssue w (regWord 0x11 (guardBits w) { d := d, a := a, b := b }) (fun s => s.binary w d a b (fun x y => plain (x - y)))

/-- `IMUL`: low half of the product (R204). -/
def execLaneImul (w : LaneAt) (d : Fin 16) (a : Fin 16) (b : Fin 16) (s : State) : Outcome :=
  s.laneIssue w (regWord 0x12 (guardBits w) { d := d, a := a, b := b }) (fun s => s.binary w d a b (fun x y => plain (x * y)))

/-- `IMULH`: high half of the signed product (R204). -/
def execLaneImulh (w : LaneAt) (d : Fin 16) (a : Fin 16) (b : Fin 16) (s : State) : Outcome :=
  s.laneIssue w (regWord 0x13 (guardBits w) { d := d, a := a, b := b }) (fun s =>
    s.binary w d a b (fun x y => plain (imulh x y)))

/-- `IMULHU`: high half of the unsigned product (R204). -/
def execLaneImulhu (w : LaneAt) (d : Fin 16) (a : Fin 16) (b : Fin 16) (s : State) : Outcome :=
  s.laneIssue w (regWord 0x14 (guardBits w) { d := d, a := a, b := b }) (fun s =>
    s.binary w d a b (fun x y => plain (imulhu x y)))

/-- `IMIN`: signed minimum (R204). -/
def execLaneImin (w : LaneAt) (d : Fin 16) (a : Fin 16) (b : Fin 16) (s : State) : Outcome :=
  s.laneIssue w (regWord 0x15 (guardBits w) { d := d, a := a, b := b }) (fun s => s.binary w d a b (fun x y => plain (imin x y)))

/-- `IMAX`: signed maximum (R204). -/
def execLaneImax (w : LaneAt) (d : Fin 16) (a : Fin 16) (b : Fin 16) (s : State) : Outcome :=
  s.laneIssue w (regWord 0x16 (guardBits w) { d := d, a := a, b := b }) (fun s => s.binary w d a b (fun x y => plain (imax x y)))

/-- `UMIN`: unsigned minimum (R204). -/
def execLaneUmin (w : LaneAt) (d : Fin 16) (a : Fin 16) (b : Fin 16) (s : State) : Outcome :=
  s.laneIssue w (regWord 0x17 (guardBits w) { d := d, a := a, b := b }) (fun s => s.binary w d a b (fun x y => plain (umin x y)))

/-- `UMAX`: unsigned maximum (R204). -/
def execLaneUmax (w : LaneAt) (d : Fin 16) (a : Fin 16) (b : Fin 16) (s : State) : Outcome :=
  s.laneIssue w (regWord 0x18 (guardBits w) { d := d, a := a, b := b }) (fun s => s.binary w d a b (fun x y => plain (umax x y)))

/-- `AND`: bitwise and (R204). -/
def execLaneAnd (w : LaneAt) (d : Fin 16) (a : Fin 16) (b : Fin 16) (s : State) : Outcome :=
  s.laneIssue w (regWord 0x19 (guardBits w) { d := d, a := a, b := b }) (fun s => s.binary w d a b (fun x y => plain (x &&& y)))

/-- `OR`: bitwise or (R204). -/
def execLaneOr (w : LaneAt) (d : Fin 16) (a : Fin 16) (b : Fin 16) (s : State) : Outcome :=
  s.laneIssue w (regWord 0x1A (guardBits w) { d := d, a := a, b := b }) (fun s => s.binary w d a b (fun x y => plain (x ||| y)))

/-- `XOR`: bitwise exclusive or (R204). -/
def execLaneXor (w : LaneAt) (d : Fin 16) (a : Fin 16) (b : Fin 16) (s : State) : Outcome :=
  s.laneIssue w (regWord 0x1B (guardBits w) { d := d, a := a, b := b }) (fun s => s.binary w d a b (fun x y => plain (x ^^^ y)))

/-- `SHL`: Va shifted left by Vb[4:0] (R204). -/
def execLaneShl (w : LaneAt) (d : Fin 16) (a : Fin 16) (b : Fin 16) (s : State) : Outcome :=
  s.laneIssue w (regWord 0x1C (guardBits w) { d := d, a := a, b := b }) (fun s => s.binary w d a b (fun x y => plain (shl x y)))

/-- `SHR`: logical shift right (R204). -/
def execLaneShr (w : LaneAt) (d : Fin 16) (a : Fin 16) (b : Fin 16) (s : State) : Outcome :=
  s.laneIssue w (regWord 0x1D (guardBits w) { d := d, a := a, b := b }) (fun s => s.binary w d a b (fun x y => plain (shr x y)))

/-- `SAR`: arithmetic shift right (R204). -/
def execLaneSar (w : LaneAt) (d : Fin 16) (a : Fin 16) (b : Fin 16) (s : State) : Outcome :=
  s.laneIssue w (regWord 0x1E (guardBits w) { d := d, a := a, b := b }) (fun s => s.binary w d a b (fun x y => plain (sar x y)))

/-- `SEL`: Va where PDp is 1, else Vb (R204). -/
def execLaneSel (w : LaneAt) (d : Fin 16) (a : Fin 16) (b : Fin 16) (p : Fin 8) (s : State) : Outcome :=
  s.laneIssue w (regWord 0x1F (guardBits w) { d := d, a := a, b := b, sub := p }) (fun s =>
    s.issueRow w.cluster w.row (fun cl =>
      cl.writeReg w d (List.zipWith (fun q xy => plain (if q then xy.1 else xy.2)) (cl.pred w.row p)
        (List.zip (cl.reg w.row a) (cl.reg w.row b)))))

/-- `FADD` (R205). -/
def execLaneFadd (w : LaneAt) (d : Fin 16) (a : Fin 16) (b : Fin 16) (s : State) : Outcome :=
  s.laneIssue w (regWord 0x20 (guardBits w) { d := d, a := a, b := b }) (fun s => s.binary w d a b fadd)

/-- `FSUB` (R205). -/
def execLaneFsub (w : LaneAt) (d : Fin 16) (a : Fin 16) (b : Fin 16) (s : State) : Outcome :=
  s.laneIssue w (regWord 0x21 (guardBits w) { d := d, a := a, b := b }) (fun s => s.binary w d a b fsub)

/-- `FMUL` (R205). -/
def execLaneFmul (w : LaneAt) (d : Fin 16) (a : Fin 16) (b : Fin 16) (s : State) : Outcome :=
  s.laneIssue w (regWord 0x22 (guardBits w) { d := d, a := a, b := b }) (fun s => s.binary w d a b fmul)

/-- `FFMA`: Va × Vb + Vc rounded once (R205). -/
def execLaneFfma (w : LaneAt) (d : Fin 16) (a : Fin 16) (b : Fin 16) (c : Fin 16) (s : State) : Outcome :=
  s.laneIssue w (regWord 0x23 (guardBits w) { d := d, a := a, b := b, c := c }) (fun s => s.ternary w d a b c ffma)

/-- `FFMS`: Vc − Va × Vb rounded once (R205). -/
def execLaneFfms (w : LaneAt) (d : Fin 16) (a : Fin 16) (b : Fin 16) (c : Fin 16) (s : State) : Outcome :=
  s.laneIssue w (regWord 0x24 (guardBits w) { d := d, a := a, b := b, c := c }) (fun s => s.ternary w d a b c ffms)

/-- `FMIN` (R205 rule 7). -/
def execLaneFmin (w : LaneAt) (d : Fin 16) (a : Fin 16) (b : Fin 16) (s : State) : Outcome :=
  s.laneIssue w (regWord 0x25 (guardBits w) { d := d, a := a, b := b }) (fun s => s.binary w d a b (fun x y => plain (fmin x y)))

/-- `FMAX` (R205 rule 7). -/
def execLaneFmax (w : LaneAt) (d : Fin 16) (a : Fin 16) (b : Fin 16) (s : State) : Outcome :=
  s.laneIssue w (regWord 0x26 (guardBits w) { d := d, a := a, b := b }) (fun s => s.binary w d a b (fun x y => plain (fmax x y)))

/-- `FABS` (R205 rule 8). -/
def execLaneFabs (w : LaneAt) (d : Fin 16) (a : Fin 16) (s : State) : Outcome :=
  s.laneIssue w (regWord 0x27 (guardBits w) { d := d, a := a }) (fun s => s.unary w d a (fun x => plain (fabs x)))

/-- `FNEG` (R205 rule 8). -/
def execLaneFneg (w : LaneAt) (d : Fin 16) (a : Fin 16) (s : State) : Outcome :=
  s.laneIssue w (regWord 0x28 (guardBits w) { d := d, a := a }) (fun s => s.unary w d a (fun x => plain (fneg x)))

/-- `MOVI`: Vd = IMM32 (R206). -/
def execLaneMovi (w : LaneAt) (d : Fin 16) (imm : W32) (s : State) : Outcome :=
  s.laneIssue w (immWord 0x30 (guardBits w) d 0 0 imm) (fun s => s.unary w d 0 (fun _ => plain imm))

/-- `IADDI`: Vd = Va + IMM32 modulo 2^32 (R206). -/
def execLaneIaddi (w : LaneAt) (d : Fin 16) (a : Fin 16) (imm : W32) (s : State) : Outcome :=
  s.laneIssue w (immWord 0x31 (guardBits w) d a 0 imm) (fun s => s.unary w d a (fun x => plain (x + imm)))

/-- `ANDI`: Va and IMM32 (R206). -/
def execLaneAndi (w : LaneAt) (d : Fin 16) (a : Fin 16) (imm : W32) (s : State) : Outcome :=
  s.laneIssue w (immWord 0x32 (guardBits w) d a 0 imm) (fun s => s.unary w d a (fun x => plain (x &&& imm)))

/-- `ORI`: Va or IMM32 (R206). -/
def execLaneOri (w : LaneAt) (d : Fin 16) (a : Fin 16) (imm : W32) (s : State) : Outcome :=
  s.laneIssue w (immWord 0x33 (guardBits w) d a 0 imm) (fun s => s.unary w d a (fun x => plain (x ||| imm)))

/-- `XORI`: Va xor IMM32 (R206). -/
def execLaneXori (w : LaneAt) (d : Fin 16) (a : Fin 16) (imm : W32) (s : State) : Outcome :=
  s.laneIssue w (immWord 0x34 (guardBits w) d a 0 imm) (fun s => s.unary w d a (fun x => plain (x ^^^ imm)))

/-- `SHLI`: Va shifted left by IMM32[4:0] (R206). -/
def execLaneShli (w : LaneAt) (d : Fin 16) (a : Fin 16) (imm : W32) (s : State) : Outcome :=
  s.laneIssue w (immWord 0x35 (guardBits w) d a 0 imm) (fun s => s.unary w d a (fun x => plain (shl x imm)))

/-- `SHRI`: logical shift right (R206). -/
def execLaneShri (w : LaneAt) (d : Fin 16) (a : Fin 16) (imm : W32) (s : State) : Outcome :=
  s.laneIssue w (immWord 0x36 (guardBits w) d a 0 imm) (fun s => s.unary w d a (fun x => plain (shr x imm)))

/-- `SARI`: arithmetic shift right (R206). -/
def execLaneSari (w : LaneAt) (d : Fin 16) (a : Fin 16) (imm : W32) (s : State) : Outcome :=
  s.laneIssue w (immWord 0x37 (guardBits w) d a 0 imm) (fun s => s.unary w d a (fun x => plain (sar x imm)))

/-- `FADDI`: IMM32 read as binary32 (R206). -/
def execLaneFaddi (w : LaneAt) (d : Fin 16) (a : Fin 16) (imm : W32) (s : State) : Outcome :=
  s.laneIssue w (immWord 0x38 (guardBits w) d a 0 imm) (fun s => s.unary w d a (fun x => fadd x imm))

/-- `FMULI`: IMM32 read as binary32 (R206). -/
def execLaneFmuli (w : LaneAt) (d : Fin 16) (a : Fin 16) (imm : W32) (s : State) : Outcome :=
  s.laneIssue w (immWord 0x39 (guardBits w) d a 0 imm) (fun s => s.unary w d a (fun x => fmul x imm))

/-- `MOV` (R206). -/
def execLaneMov (w : LaneAt) (d : Fin 16) (a : Fin 16) (s : State) : Outcome :=
  s.laneIssue w (regWord 0x3A (guardBits w) { d := d, a := a }) (fun s => s.unary w d a plain)

/-- `SPR`: a special value (R185, R206). -/
def execLaneSpr (w : LaneAt) (d : Fin 16) (sel : Fin 9) (s : State) : Outcome :=
  s.laneIssue w (immWord 0x3B (guardBits w) d 0 0 (BitVec.ofNat 32 sel)) (fun s =>
    s.issueRow w.cluster w.row (fun cl =>
      cl.writeReg w d ((List.range 128).map (fun i => plain (BitVec.ofNat 32 (s.specialValue w.cluster w.row i sel))))))

/-- `WADD`: pair sum modulo 2^64, no flag (R206). -/
def execLaneWadd (w : LaneAt) (d : Fin 8) (a : Fin 8) (b : Fin 8) (s : State) : Outcome :=
  s.laneIssue w (regWord 0x3C (guardBits w) { d := 2 * d, a := 2 * a, b := 2 * b }) (fun s =>
    s.issueRow w.cluster w.row (fun cl =>
      (cl.setPair w.row d (cl.selected w) (List.zipWith wa64Add (cl.pair w.row a) (cl.pair w.row b)), 0)))

/-- `WSHIFT`: pair moved by the signed window difference (R207). -/
def execLaneWshift (w : LaneAt) (d : Fin 8) (a : Fin 8) (by_ : BitVec 32) (s : State) : Outcome :=
  s.laneIssue w (immWord 0x3D (guardBits w) (2 * d) (2 * a) 0 by_) (fun s =>
    s.issueRow w.cluster w.row (fun cl =>
      let v := (cl.pair w.row a).map (fun x => wshift x by_.toInt)
      (cl.setPair w.row d (cl.selected w) (v.map Prod.fst), laneFlags (cl.selected w) (v.map (fun x => ((0 : W32), x.2))))))

/-- `FCMP` (R208). -/
def execLaneFcmp (w : LaneAt) (d : Fin 8) (a : Fin 16) (b : Fin 16) (cond : Fin 8) (s : State) : Outcome :=
  s.laneIssue w (regWord 0x40 (guardBits w) { d := d, a := a, b := b, sub := cond }) (fun s =>
    s.issueRow w.cluster w.row (fun cl => cl.writePred w d (List.zipWith (fcmp cond) (cl.reg w.row a) (cl.reg w.row b))))

/-- `ICMP` (R208). -/
def execLaneIcmp (w : LaneAt) (d : Fin 8) (a : Fin 16) (b : Fin 16) (cond : Fin 10) (s : State) : Outcome :=
  s.laneIssue w (regWord 0x41 (guardBits w) { d := d, a := a, b := b, sub := cond }) (fun s =>
    s.issueRow w.cluster w.row (fun cl => cl.writePred w d (List.zipWith (icmp cond) (cl.reg w.row a) (cl.reg w.row b))))

/-- `FCLASS` (R208). -/
def execLaneFclass (w : LaneAt) (d : Fin 8) (a : Fin 16) (classes : Fin 512) (s : State) : Outcome :=
  s.laneIssue w (immWord 0x42 (guardBits w) d a 0 (BitVec.ofNat 32 classes)) (fun s =>
    s.issueRow w.cluster w.row (fun cl => cl.writePred w d ((cl.reg w.row a).map (fun x => bitAt classes (fclassOf x)))))

/-- `PLOG`: operands read in every lane (R208). -/
def execLanePlog (w : LaneAt) (d : Fin 8) (a : Fin 8) (b : Fin 8) (op : Fin 4) (s : State) : Outcome :=
  s.laneIssue w (regWord 0x43 (guardBits w) { d := d, a := a, b := b, sub := op }) (fun s =>
    s.issueRow w.cluster w.row (fun cl => cl.writePred w d (List.zipWith (plog op) (cl.pred w.row a) (cl.pred w.row b))))

/-- `PSET`: bit 0 of Va (R208). -/
def execLanePset (w : LaneAt) (d : Fin 8) (a : Fin 16) (s : State) : Outcome :=
  s.laneIssue w (regWord 0x44 (guardBits w) { d := d, a := a }) (fun s =>
    s.issueRow w.cluster w.row (fun cl => cl.writePred w d ((cl.reg w.row a).map (fun x => x.getLsbD 0))))

/-- `CVTFI` (R211, R214, R215). -/
def execLaneCvtfi (w : LaneAt) (d : Fin 16) (a : Fin 16) (rnd : LaneRound) (s : State) : Outcome :=
  s.laneIssue w (regWord 0x50 (guardBits w) (roundFields rnd { d := d, a := a })) (fun s => s.rounded w d a rnd cvtfi)

/-- `CVTIF` (R211, R214, R215). -/
def execLaneCvtif (w : LaneAt) (d : Fin 16) (a : Fin 16) (rnd : LaneRound) (s : State) : Outcome :=
  s.laneIssue w (regWord 0x51 (guardBits w) (roundFields rnd { d := d, a := a })) (fun s => s.rounded w d a rnd cvtif)

/-- `CVTFB` (R211, R214, R215). -/
def execLaneCvtfb (w : LaneAt) (d : Fin 16) (a : Fin 16) (rnd : LaneRound) (s : State) : Outcome :=
  s.laneIssue w (regWord 0x52 (guardBits w) (roundFields rnd { d := d, a := a })) (fun s => s.rounded w d a rnd cvtfb)

/-- `UNPK` (R211, R212). -/
def execLaneUnpk (w : LaneAt) (d : Fin 16) (a : Fin 8) (fmt : Machine.Format) (pos : Fin 64) (digit : Fin 5) (s : State) : Outcome :=
  s.laneIssue w (regWord 0x53 (guardBits w) { d := d, a := 2 * a, fmt := fmt.code, pos := pos, aux := digit }) (fun s =>
    s.issueRow w.cluster w.row (fun cl => cl.writeReg w d ((cl.pair w.row a).map (fun x => unpk fmt x pos digit))))

/-- `MXEXP` (R211, R213). -/
def execLaneMxexp (w : LaneAt) (d : Fin 16) (a : Fin 16) (fmt : Machine.Format) (s : State) : Outcome :=
  s.laneIssue w (regWord 0x54 (guardBits w) { d := d, a := a, fmt := fmt.code }) (fun s => s.unary w d a (mxexp fmt))

/-- `MXDIV` (R211, R213). -/
def execLaneMxdiv (w : LaneAt) (d : Fin 16) (a : Fin 16) (b : Fin 16) (fmt : Machine.Format) (s : State) : Outcome :=
  s.laneIssue w (regWord 0x55 (guardBits w) { d := d, a := a, b := b, fmt := fmt.code }) (fun s => s.binary w d a b (mxdiv fmt))

/-- `PACK`: the other bits of the pair are unchanged (R211, R214). -/
def execLanePack (w : LaneAt) (d : Fin 8) (a : Fin 16) (fmt : Machine.Format) (pos : Fin 64) (rnd : LaneRound) (s : State) : Outcome :=
  s.laneIssue w (regWord 0x56 (guardBits w) (roundFields rnd { d := 2 * d, a := a, fmt := fmt.code, pos := pos })) (fun s =>
    let jf := s.clusterJobFrame w.cluster
    s.issueRow w.cluster w.row (fun cl =>
      let e := List.zipWith (packElem fmt) (cl.reg w.row a) (cl.roundings w.row rnd jf)
      let v := List.zipWith (fun p x => packInto p pos (laneElemWidth fmt) x.1) (cl.pair w.row d) e
      (cl.setPair w.row d (cl.selected w) v, laneFlags (cl.selected w) (e.map (fun x => ((0 : W32), x.2))))))

/-- `XRED`: each selected lane of a group receives the reduction over the group's selected lanes (R209, R210). -/
def execLaneXred (w : LaneAt) (d : Fin 16) (a : Fin 16) (sub : Fin 12) (group : Fin 8) (s : State) : Outcome :=
  s.laneIssue w (regWord 0x60 (guardBits w) { d := d, a := a, sub := sub, pos := group }) (fun s =>
    s.issueRow w.cluster w.row (fun cl =>
      let g := cl.selected w
      let v := List.zipWith (fun b x => ((if b then x else xredIdentity sub), 0)) g (cl.reg w.row a)
      cl.writeReg w d (xredRow sub group v)))

/-- `XROT`: every source lane is read (R209). -/
def execLaneXrot (w : LaneAt) (d : Fin 16) (a : Fin 16) (group : Fin 8) (k : Fin 128) (s : State) : Outcome :=
  s.laneIssue w (regWord 0x61 (guardBits w) { d := d, a := a, pos := group, aux := k }) (fun s =>
    s.issueRow w.cluster w.row (fun cl =>
      cl.writeReg w d ((List.range 128).map (fun i =>
        plain ((cl.reg w.row a).getD (groupBase group i + (i - groupBase group i + k) % 2 ^ group.val) 0)))))

/-- `XBCAST`: lane i receives Va of lane b + k (R209). -/
def execLaneXbcast (w : LaneAt) (d : Fin 16) (a : Fin 16) (group : Fin 8) (k : Fin 128) (s : State) : Outcome :=
  s.laneIssue w (regWord 0x62 (guardBits w) { d := d, a := a, pos := group, aux := k }) (fun s =>
    s.issueRow w.cluster w.row (fun cl =>
      cl.writeReg w d ((List.range 128).map (fun i => plain ((cl.reg w.row a).getD (groupBase group i + k) 0)))))

/-- `XZIP`: the pairs of lanes 0 to 63 and 64 to 127 spread over two adjacent lanes, low word first (R209). -/
def execLaneXzip (w : LaneAt) (d : Fin 8) (a : Fin 8) (s : State) : Outcome :=
  s.laneIssue w (regWord 0x63 (guardBits w) { d := 2 * d, a := 2 * a }) (fun s =>
    s.issueRow w.cluster w.row (fun cl =>
      let p := cl.pair w.row a
      let half := fun base => (List.range 128).map (fun i =>
        let v := p.getD (base + i / 2) 0
        if i % 2 = 0 then pairLo v else pairHi v)
      let g := cl.selected w
      let cl1 := cl.setReg w.row (2 * d) (mergeLanes g (half 0) (cl.reg w.row (2 * d)))
      (cl1.setReg w.row (2 * d + 1) (mergeLanes g (half 64) (cl.reg w.row (2 * d + 1))), 0)))

/-- `XUNZIP`: pairs from adjacent lanes of Va and then Vb (R209). -/
def execLaneXunzip (w : LaneAt) (d : Fin 8) (a : Fin 16) (b : Fin 16) (s : State) : Outcome :=
  s.laneIssue w (regWord 0x64 (guardBits w) { d := 2 * d, a := a, b := b }) (fun s =>
    s.issueRow w.cluster w.row (fun cl =>
      let both := cl.reg w.row a ++ cl.reg w.row b
      (cl.setPair w.row d (cl.selected w) ((List.range 128).map (fun i => pairOf (both.getD (2 * i) 0) (both.getD (2 * i + 1) 0))), 0)))

/-- `PBALLOT`: the predicate's bits in lanes 0 to 3, zero in the others (R209). -/
def execLanePballot (w : LaneAt) (d : Fin 16) (a : Fin 8) (s : State) : Outcome :=
  s.laneIssue w (regWord 0x65 (guardBits w) { d := d, a := a }) (fun s =>
    s.issueRow w.cluster w.row (fun cl =>
      let p := cl.pred w.row a
      cl.writeReg w d ((List.range 128).map (fun m =>
        plain (if m < 4 then BitVec.ofNat 32 (flags ((p.drop (32 * m)).take 32)) else 0)))))

/-- `PCOUNT`: the number of lanes in which the predicate is 1 (R209). -/
def execLanePcount (w : LaneAt) (d : Fin 16) (a : Fin 8) (s : State) : Outcome :=
  s.laneIssue w (regWord 0x66 (guardBits w) { d := d, a := a }) (fun s =>
    s.issueRow w.cluster w.row (fun cl =>
      cl.writeReg w d (List.replicate 128 (plain (BitVec.ofNat 32 ((cl.pred w.row a).count true))))))

/-- `FRCP` (R216, R217). -/
def execLaneFrcp (w : LaneAt) (d : Fin 16) (a : Fin 16) (s : State) : Outcome :=
  s.laneIssue w (regWord 0x70 (guardBits w) { d := d, a := a }) (fun s => s.unary w d a (laneTrans 0x70))

/-- `FRSQRT` (R216, R217). -/
def execLaneFrsqrt (w : LaneAt) (d : Fin 16) (a : Fin 16) (s : State) : Outcome :=
  s.laneIssue w (regWord 0x71 (guardBits w) { d := d, a := a }) (fun s => s.unary w d a (laneTrans 0x71))

/-- `FSQRT` (R216, R217). -/
def execLaneFsqrt (w : LaneAt) (d : Fin 16) (a : Fin 16) (s : State) : Outcome :=
  s.laneIssue w (regWord 0x72 (guardBits w) { d := d, a := a }) (fun s => s.unary w d a (laneTrans 0x72))

/-- `FEXP2` (R216, R217). -/
def execLaneFexp2 (w : LaneAt) (d : Fin 16) (a : Fin 16) (s : State) : Outcome :=
  s.laneIssue w (regWord 0x73 (guardBits w) { d := d, a := a }) (fun s => s.unary w d a (laneTrans 0x73))

/-- `FLOG2` (R216, R217). -/
def execLaneFlog2 (w : LaneAt) (d : Fin 16) (a : Fin 16) (s : State) : Outcome :=
  s.laneIssue w (regWord 0x74 (guardBits w) { d := d, a := a }) (fun s => s.unary w d a (laneTrans 0x74))

/-- `FEXP` (R216, R217). -/
def execLaneFexp (w : LaneAt) (d : Fin 16) (a : Fin 16) (s : State) : Outcome :=
  s.laneIssue w (regWord 0x75 (guardBits w) { d := d, a := a }) (fun s => s.unary w d a (laneTrans 0x75))

/-- `FLOG` (R216, R217). -/
def execLaneFlog (w : LaneAt) (d : Fin 16) (a : Fin 16) (s : State) : Outcome :=
  s.laneIssue w (regWord 0x76 (guardBits w) { d := d, a := a }) (fun s => s.unary w d a (laneTrans 0x76))

/-- `FSINPI` (R216, R217). -/
def execLaneFsinpi (w : LaneAt) (d : Fin 16) (a : Fin 16) (s : State) : Outcome :=
  s.laneIssue w (regWord 0x77 (guardBits w) { d := d, a := a }) (fun s => s.unary w d a (laneTrans 0x77))

/-- `FCOSPI` (R216, R217). -/
def execLaneFcospi (w : LaneAt) (d : Fin 16) (a : Fin 16) (s : State) : Outcome :=
  s.laneIssue w (regWord 0x78 (guardBits w) { d := d, a := a }) (fun s => s.unary w d a (laneTrans 0x78))

/-- `FTANH` (R216, R217). -/
def execLaneFtanh (w : LaneAt) (d : Fin 16) (a : Fin 16) (s : State) : Outcome :=
  s.laneIssue w (regWord 0x79 (guardBits w) { d := d, a := a }) (fun s => s.unary w d a (laneTrans 0x79))

/-- `FSIGM` (R216, R217). -/
def execLaneFsigm (w : LaneAt) (d : Fin 16) (a : Fin 16) (s : State) : Outcome :=
  s.laneIssue w (regWord 0x7A (guardBits w) { d := d, a := a }) (fun s => s.unary w d a (laneTrans 0x7A))

/-- `LDR`: lane i loads the word at lane 0's address + 4i (R186, R218). -/
def execLaneLdr (w : LaneAt) (d : Fin 16) (a : Fin 16) (imm : W32) (s : State) : Outcome :=
  s.laneIssue w (immWord 0x80 (guardBits w) d a 0 imm) (fun s =>
    let cl := s.cluster w.cluster
    let base := laneAddr ((cl.reg w.row a).headD 0) imm
    s.laneLoad w d (cl.selected w) ((List.range 128).map (fun i => base + 4 * i)))

/-- `STR`: selected lanes store at lane 0's address + 4i (R186, R218). -/
def execLaneStr (w : LaneAt) (d : Fin 16) (a : Fin 16) (imm : W32) (s : State) : Outcome :=
  s.laneIssue w (immWord 0x81 (guardBits w) d a 0 imm) (fun s =>
    let cl := s.cluster w.cluster
    let base := laneAddr ((cl.reg w.row a).headD 0) imm
    s.laneStore w d (cl.selected w) ((List.range 128).map (fun i => base + 4 * i)))

/-- `LDB`: every selected lane loads the word at lane 0's address (R186, R218). -/
def execLaneLdb (w : LaneAt) (d : Fin 16) (a : Fin 16) (imm : W32) (s : State) : Outcome :=
  s.laneIssue w (immWord 0x82 (guardBits w) d a 0 imm) (fun s =>
    let cl := s.cluster w.cluster
    let base := laneAddr ((cl.reg w.row a).headD 0) imm
    s.laneLoad w d (cl.selected w) (List.replicate 128 base))

/-- `LDP`: the selected lanes of the part load at their own addresses (R186, R218). -/
def execLaneLdp (w : LaneAt) (d : Fin 16) (a : Fin 16) (imm : W32) (part : Fin 16) (s : State) : Outcome :=
  s.laneIssue w (immWord 0x83 (guardBits w) d a part imm) (fun s =>
    let cl := s.cluster w.cluster
    s.laneLoad w d (andMask (cl.selected w) (partMask part)) ((cl.reg w.row a).map (fun x => laneAddr x imm)))

/-- `STP`: the selected lanes of the part store at their own addresses (R186, R189, R218). -/
def execLaneStp (w : LaneAt) (d : Fin 16) (a : Fin 16) (imm : W32) (part : Fin 16) (s : State) : Outcome :=
  s.laneIssue w (immWord 0x84 (guardBits w) d a part imm) (fun s =>
    let cl := s.cluster w.cluster
    s.laneStore w d (andMask (cl.selected w) (partMask part)) ((cl.reg w.row a).map (fun x => laneAddr x imm)))

/-- `QSEND`: Vd of all lanes as one data entry; without a credit the turn is skipped (R190, R191, R219). -/
def execLaneQsend (r : RowAt) (d : Fin 16) (q : Fin 65536) (s : State) : Outcome :=
  s.rowIssue r (immWord 0x90 0 d 0 0 (BitVec.ofNat 32 q)) (fun s =>
    s.laneQueue r.cluster r.row (s.queue q).canSend (fun s =>
      s.sendQueue q { data := some (goodData (((s.cluster r.cluster).reg r.row d).flatMap (fun x => leBytes 4 x.toNat))) }))

/-- `QSIG`: one signal entry (R190, R219). -/
def execLaneQsig (r : RowAt) (q : Fin 65536) (s : State) : Outcome :=
  s.rowIssue r (immWord 0x91 0 0 0 0 (BitVec.ofNat 32 q)) (fun s =>
    s.laneQueue r.cluster r.row (s.queue q).canSend (fun s => s.sendQueue q signalEntry))

/-- `QRECV`: one entry taken; each selected lane receives its word, zero and `AF_INVALID` for a signal (R219, R220). -/
def execLaneQrecv (w : LaneAt) (d : Fin 16) (q : Fin 65536) (s : State) : Outcome :=
  s.laneIssue w (immWord 0x92 (guardBits w) d 0 0 (BitVec.ofNat 32 q)) (fun s =>
    let e := (s.queue q).visible.head?
    s.laneQueue w.cluster w.row (s.queue q).canReceive (fun s =>
      let s1 := s.takeQueue q
      let cl := s1.cluster w.cluster
      let g := cl.selected w
      let words := entryWords e
      let s2 := s1.setCluster w.cluster (cl.setReg w.row d (mergeLanes g words.1 (cl.reg w.row d)))
      s2.noteArith w.cluster (if g.any id then words.2 else 0)))

/-- `QWAIT`: one entry taken and its data discarded (R219, R220). -/
def execLaneQwait (r : RowAt) (q : Fin 65536) (s : State) : Outcome :=
  s.rowIssue r (immWord 0x93 0 0 0 0 (BitVec.ofNat 32 q)) (fun s =>
    s.laneQueue r.cluster r.row (s.queue q).canReceive (fun s => s.takeQueue q))

/-- `SLSET`: the slot takes the window, value 0 and no flags (R192, R221). -/
def execLaneSlset (r : RowAt) (slot : Fin 64) (window : Int) (s : State) : Outcome :=
  s.rowIssue r (regWord 0xA0 0 { pos := slot, aux := (window % 1024).toNat }) (fun s =>
    s.issueRow r.cluster r.row (fun cl =>
      ({ cl with slots := SMap.set cl.slots slot { value := 0, flags := 0, window := window } AccSlot.zero }, 0)))

/-- `RED`: a term from each selected lane, quantized under the slot's window unless it is a WA64 pair (R192, R221). -/
def execLaneRed (w : LaneAt) (slot : Fin 64) (a : Fin 16) (sub : Fin 4) (s : State) : Outcome :=
  s.laneIssue w (regWord 0xA1 (guardBits w) { a := a, sub := sub, pos := slot }) (fun s =>
    s.issueRow w.cluster w.row (fun cl =>
      let terms := redTerms sub (SMap.get cl.slots slot AccSlot.zero).window (cl.reg w.row a) (cl.reg w.row (a + 1))
      ({ cl with slots := SMap.modify cl.slots slot AccSlot.zero (fun x => x.addTerms (cl.selected w) terms) }, 0)))

/-- `SLFM`: bits [3:0] of the bench byte at lane 0's Va ORed into the slot's flags (R221, R222). -/
def execLaneSlfm (r : RowAt) (slot : Fin 64) (a : Fin 16) (s : State) : Outcome :=
  s.rowIssue r (regWord 0xA2 0 { a := a, pos := slot }) (fun s =>
    let off := (((s.cluster r.cluster).reg r.row a).headD 0).toNat
    s.laneAccess r.cluster r.row [(false, .slotLoad r.cluster slot off)])

/-- `SLST`: the slot's value to bench, its flags into a bench byte if named and into the partition's frame flag byte (R193, R222). -/
def execLaneSlst (r : RowAt) (slot : Fin 64) (a : Fin 16) (b : Fin 16) (withFlag : Bool) (s : State) : Outcome :=
  s.rowIssue r (regWord 0xA3 0 { a := a, b := b, sub := b2n withFlag, pos := slot }) (fun s =>
    let cl := s.cluster r.cluster
    let x := SMap.get cl.slots slot AccSlot.zero
    let flagAt := if withFlag then some ((cl.reg r.row b).headD 0).toNat else none
    let act := BenchAct.slotStore r.cluster (((cl.reg r.row a).headD 0).toNat / 8 * 8) x.value flagAt x.flags
    s.laneAccess r.cluster r.row [(true, act)])

/-- `SLCVT`: the slot's value converted into Vd of each selected lane; into the pair from Vd for WA64 (R193, R222). -/
def execLaneSlcvt (w : LaneAt) (slot : Fin 64) (d : Fin 16) (fmt : Machine.Format) (rnd : LaneRound) (s : State) : Outcome :=
  s.laneIssue w (regWord 0xA4 (guardBits w) (roundFields rnd { d := d, fmt := fmt.code, pos := slot })) (fun s =>
    let jf := s.clusterJobFrame w.cluster
    s.issueRow w.cluster w.row (fun cl =>
      let x := SMap.get cl.slots slot AccSlot.zero
      if fmt = .wa64 then (cl.setPair w.row (d / 2) (cl.selected w) (List.replicate 128 x.value), 0)
      else cl.writeReg w d ((cl.roundings w.row rnd jf).map (slotConvert fmt x))))

/-- `NOP` (R223). -/
def execLaneNop (r : RowAt) (s : State) : Outcome :=
  s.rowIssue r (ctlWord 0x00 0 0 0 0 0) (fun s => s.issueRow r.cluster r.row (fun cl => (cl, 0)))

/-- `END`: sets the row's done bit (R170, R223). -/
def execLaneEnd (r : RowAt) (s : State) : Outcome :=
  s.rowIssue r (ctlWord 0x01 0 0 0 0 0) (fun s =>
    let cl := s.cluster r.cluster
    (s.setCluster r.cluster (cl.setRow r.row { cl.row r.row with done := true })).bump (0x090 + 4 * r.cluster) 1)

/-- `BR`: taken for the whole row when the predicate, inverted by `POL`, holds in one lane or in every lane (R184, R223, R225). -/
def execLaneBr (r : RowAt) (all : Bool) (p : Fin 8) (pol : Bool) (target : Fin 1024) (s : State) : Outcome :=
  s.rowIssue r (ctlWord 0x02 (b2n all) (p + 8 * b2n pol) 0 target 0) (fun s =>
    let t := ((s.cluster r.cluster).pred r.row p).map (fun b => b != pol)
    s.laneBranch r (if all then t.all id else t.any id) target)

/-- `JMP` (R223, R225). -/
def execLaneJmp (r : RowAt) (target : Fin 1024) (s : State) : Outcome :=
  s.rowIssue r (ctlWord 0x03 0 0 0 target 0) (fun s => s.laneBranch r true target)

/-- `LOOP`: reads the trip count and pushes a level, or passes the loop by (R180, R224). -/
def execLaneLoop (r : RowAt) (trip : Option (Fin 16)) (imm : Fin 65536) (maxTrip : Fin 65536) (target : Fin 1024) (s : State) : Outcome :=
  s.rowIssue r (ctlWord 0x04 (if trip.isSome then 2 else 0) 0 (trip.elim imm.val (fun v => v.val)) target maxTrip) (fun s =>
    let cl := s.cluster r.cluster
    let n := match trip with
      | some v => ((cl.reg r.row v).headD 0).toNat
      | none => imm.val
    if n = 0 then s.rowTo r.cluster r.row (target + 1)
    else
      let row := cl.row r.row
      let lev : LoopLevel := { left := min n maxTrip, start := row.pc, stop := target }
      let s1 := (s.setCluster r.cluster (cl.setRow r.row { row with stack := lev :: row.stack })).rowNext r.cluster r.row
      if maxTrip.val < n then
        s1.raiseFor (Source.ofDie (dieOfCluster r.cluster)) FC.lfTripLimit (0x1000 + r.cluster) (s.ownerOfCluster r.cluster)
      else s1)

/-- `LOOPEND`: ends one pass of the innermost loop (R181, R224). -/
def execLaneLoopend (r : RowAt) (p : Fin 8) (s : State) : Outcome :=
  s.rowIssue r (ctlWord 0x05 0 p 0 0 0) (fun s =>
    let cl := s.cluster r.cluster
    let row := cl.row r.row
    match row.stack with
    | [] => s.rowNext r.cluster r.row
    | lev :: rest =>
      if lev.left - 1 = 0 ∨ (cl.pred r.row p).all (fun b => !b) then
        (s.setCluster r.cluster (cl.setRow r.row { row with stack := rest })).rowNext r.cluster r.row
      else
        (s.setCluster r.cluster (cl.setRow r.row { row with stack := { lev with left := lev.left - 1 } :: rest })).rowTo
          r.cluster r.row (lev.start + 1))

end Sys2Proof.Machine
end

