-- ==== Sys2Proof/Machine/Dispatch.lean ====
section
/-! DEFINITION. One arm for every command. -/

namespace Sys2Proof.Machine

/-- The effect of a command on everything but the queue of waiting commands. -/
def exec (i : Instr) (s : State) : Host.Outcome State Fault Refusal :=
  match i with
  | .mailboxRequestPcie f word t => Sys2Proof.Machine.execMailboxRequestPcie f word t s
  | .mailboxDatagram port src srcPort dstPort data t => Sys2Proof.Machine.execMailboxDatagram port src srcPort dstPort data t s
  | .i3cPrivateWrite data t => Sys2Proof.Machine.execI3cPrivateWrite data t s
  | .i3cPrivateRead t => Sys2Proof.Machine.execI3cPrivateRead t s
  | .i3cSclStuck t => Sys2Proof.Machine.execI3cSclStuck t s
  | .mpGetStatus slot t => Sys2Proof.Machine.execMpGetStatus slot t s
  | .mpStageImage slot t => Sys2Proof.Machine.execMpStageImage slot t s
  | .mpRestartStandby slot t => Sys2Proof.Machine.execMpRestartStandby slot t s
  | .mpHandover slot t => Sys2Proof.Machine.execMpHandover slot t s
  | .mpSetSwitchback slot t => Sys2Proof.Machine.execMpSetSwitchback slot t s
  | .mpSetMgmt slot t => Sys2Proof.Machine.execMpSetMgmt slot t s
  | .modSetState slot t => Sys2Proof.Machine.execModSetState slot t s
  | .modGetState slot t => Sys2Proof.Machine.execModGetState slot t s
  | .shimGetStatus slot t => Sys2Proof.Machine.execShimGetStatus slot t s
  | .shimSetPolicy slot t => Sys2Proof.Machine.execShimSetPolicy slot t s
  | .shimGrantLease slot t => Sys2Proof.Machine.execShimGrantLease slot t s
  | .shimSetLimits slot t => Sys2Proof.Machine.execShimSetLimits slot t s
  | .cellGetStatus slot t => Sys2Proof.Machine.execCellGetStatus slot t s
  | .cellGetCells slot t => Sys2Proof.Machine.execCellGetCells slot t s
  | .cellGrantRest slot t => Sys2Proof.Machine.execCellGrantRest slot t s
  | .cellSaveState slot t => Sys2Proof.Machine.execCellSaveState slot t s
  | .cellRestoreState slot t => Sys2Proof.Machine.execCellRestoreState slot t s
  | .regGetTelemetry slot t => Sys2Proof.Machine.execRegGetTelemetry slot t s
  | .regSetCompensator slot t => Sys2Proof.Machine.execRegSetCompensator slot t s
  | .regSetTrim slot t => Sys2Proof.Machine.execRegSetTrim slot t s
  | .gvGetStatus slot t => Sys2Proof.Machine.execGvGetStatus slot t s
  | .gvSetClamp slot t => Sys2Proof.Machine.execGvSetClamp slot t s
  | .gvSetQuota slot t => Sys2Proof.Machine.execGvSetQuota slot t s
  | .gvSetLimits slot t => Sys2Proof.Machine.execGvSetLimits slot t s
  | .gvGetThrottle slot t => Sys2Proof.Machine.execGvGetThrottle slot t s
  | .gvGetEnergy slot t => Sys2Proof.Machine.execGvGetEnergy slot t s
  | .gvGetThermal slot t => Sys2Proof.Machine.execGvGetThermal slot t s
  | .fcGetSummary slot t => Sys2Proof.Machine.execFcGetSummary slot t s
  | .fcGetLog slot t => Sys2Proof.Machine.execFcGetLog slot t s
  | .fcAckFaults slot t => Sys2Proof.Machine.execFcAckFaults slot t s
  | .fcSetLevel slot t => Sys2Proof.Machine.execFcSetLevel slot t s
  | .fcInjectFault slot t => Sys2Proof.Machine.execFcInjectFault slot t s
  | .idGetIdentity slot t => Sys2Proof.Machine.execIdGetIdentity slot t s
  | .fuseReadGroup slot t => Sys2Proof.Machine.execFuseReadGroup slot t s
  | .obReadCounters slot t => Sys2Proof.Machine.execObReadCounters slot t s
  | .obArmSnapshot slot t => Sys2Proof.Machine.execObArmSnapshot slot t s
  | .obReadSnapshot slot t => Sys2Proof.Machine.execObReadSnapshot slot t s
  | .obSetGrant slot t => Sys2Proof.Machine.execObSetGrant slot t s
  | .ftJoinDomain slot t => Sys2Proof.Machine.execFtJoinDomain slot t s
  | .ftLeaveDomain slot t => Sys2Proof.Machine.execFtLeaveDomain slot t s
  | .ftSetDomain slot t => Sys2Proof.Machine.execFtSetDomain slot t s
  | .ftGetFrameStatus slot t => Sys2Proof.Machine.execFtGetFrameStatus slot t s
  | .ofGetLinkStatus slot t => Sys2Proof.Machine.execOfGetLinkStatus slot t s
  | .ofSetLinks slot t => Sys2Proof.Machine.execOfSetLinks slot t s
  | .ofSetRoutes slot t => Sys2Proof.Machine.execOfSetRoutes slot t s
  | .ofBindEndpoint slot t => Sys2Proof.Machine.execOfBindEndpoint slot t s
  | .jigDoorbell p adr t => Sys2Proof.Machine.execJigDoorbell p adr t s
  | .partCtrlEnable p t => Sys2Proof.Machine.execPartCtrlEnable p t s
  | .partCtrlDisable p t => Sys2Proof.Machine.execPartCtrlDisable p t s
  | .registerWrite f space data t => Sys2Proof.Machine.execRegisterWrite f space data t s
  | .hqSendEntry p q off data t => Sys2Proof.Machine.execHqSendEntry p q off data t s
  | .apertureWrite p offset data enables t => Sys2Proof.Machine.execApertureWrite p offset data enables t s
  | .apertureRead p offset length t => Sys2Proof.Machine.execApertureRead p offset length t s
  | .hostSlotAccess p t errs spare => Sys2Proof.Machine.execHostSlotAccess p t errs spare s
  | .sectorIncomplete p t => Sys2Proof.Machine.execSectorIncomplete p t s
  | .resultRecordWrite p t => Sys2Proof.Machine.execResultRecordWrite p t s
  | .hqToHostWrite p q t => Sys2Proof.Machine.execHqToHostWrite p q t s
  | .linkReset cause t => Sys2Proof.Machine.execLinkReset cause t s
  | .vfFlr p removed t => Sys2Proof.Machine.execVfFlr p removed t s
  | .pfFlr t => Sys2Proof.Machine.execPfFlr t s
  | .pcieUncorrectable bit t => Sys2Proof.Machine.execPcieUncorrectable bit t s
  | .pcieLinkTrainingStart t => Sys2Proof.Machine.execPcieLinkTrainingStart t s
  | .kerfStrobe plan copies => Sys2Proof.Machine.execKerfStrobe plan copies s
  | .freqStateSwitch t => Sys2Proof.Machine.execFreqStateSwitch t s
  | .freqSwitchDeferred t => Sys2Proof.Machine.execFreqSwitchDeferred t s
  | .moverStart t => Sys2Proof.Machine.execMoverStart t s
  | .clusterGroupStart j t => Sys2Proof.Machine.execClusterGroupStart j t s
  | .arrayStart k t => Sys2Proof.Machine.execArrayStart k t s
  | .clampLoad t => Sys2Proof.Machine.execClampLoad t s
  | .kerfEnd known t => Sys2Proof.Machine.execKerfEnd known t s
  | .kerfLate t => Sys2Proof.Machine.execKerfLate t s
  | .frameMark t b word edgesRc => Sys2Proof.Machine.execFrameMark t b word edgesRc s
  | .markMissing t => Sys2Proof.Machine.execMarkMissing t s
  | .referenceLost t b => Sys2Proof.Machine.execReferenceLost t b s
  | .holdoverExpiry t => Sys2Proof.Machine.execHoldoverExpiry t s
  | .localDone t => Sys2Proof.Machine.execLocalDone t s
  | .barrierWatchdog t => Sys2Proof.Machine.execBarrierWatchdog t s
  | .dowelDone src tok t => Sys2Proof.Machine.execDowelDone src tok t s
  | .dowelGo src tok t => Sys2Proof.Machine.execDowelGo src tok t s
  | .dowelHalt src tok t => Sys2Proof.Machine.execDowelHalt src tok t s
  | .dowelLeave src tok t => Sys2Proof.Machine.execDowelLeave src tok t s
  | .relayNotice src tok t => Sys2Proof.Machine.execRelayNotice src tok t s
  | .loaderTakeJig t => Sys2Proof.Machine.execLoaderTakeJig t s
  | .planRecord t => Sys2Proof.Machine.execPlanRecord t s
  | .planAck t => Sys2Proof.Machine.execPlanAck t s
  | .arrayLoad m x t e => Sys2Proof.Machine.execArrayLoad m x t e s
  | .arrayPass m x t e => Sys2Proof.Machine.execArrayPass m x t e s
  | .arrayFootLoad m x t e => Sys2Proof.Machine.execArrayFootLoad m x t e s
  | .arrayDrain m x t e => Sys2Proof.Machine.execArrayDrain m x t e s
  | .arrayEnd m t e => Sys2Proof.Machine.execArrayEnd m t e s
  | .arrayDescriptorComplete m t => Sys2Proof.Machine.execArrayDescriptorComplete m t s
  | .deferredSignalSend g q => Sys2Proof.Machine.execDeferredSignalSend g q s
  | .laneNop r => Sys2Proof.Machine.execLaneNop r s
  | .laneEnd r => Sys2Proof.Machine.execLaneEnd r s
  | .laneBr r all p pol target => Sys2Proof.Machine.execLaneBr r all p pol target s
  | .laneJmp r target => Sys2Proof.Machine.execLaneJmp r target s
  | .laneLoop r trip imm maxTrip target => Sys2Proof.Machine.execLaneLoop r trip imm maxTrip target s
  | .laneLoopend r p => Sys2Proof.Machine.execLaneLoopend r p s
  | .laneIadd w d a b => Sys2Proof.Machine.execLaneIadd w d a b s
  | .laneIsub w d a b => Sys2Proof.Machine.execLaneIsub w d a b s
  | .laneImul w d a b => Sys2Proof.Machine.execLaneImul w d a b s
  | .laneImulh w d a b => Sys2Proof.Machine.execLaneImulh w d a b s
  | .laneImulhu w d a b => Sys2Proof.Machine.execLaneImulhu w d a b s
  | .laneImin w d a b => Sys2Proof.Machine.execLaneImin w d a b s
  | .laneImax w d a b => Sys2Proof.Machine.execLaneImax w d a b s
  | .laneUmin w d a b => Sys2Proof.Machine.execLaneUmin w d a b s
  | .laneUmax w d a b => Sys2Proof.Machine.execLaneUmax w d a b s
  | .laneAnd w d a b => Sys2Proof.Machine.execLaneAnd w d a b s
  | .laneOr w d a b => Sys2Proof.Machine.execLaneOr w d a b s
  | .laneXor w d a b => Sys2Proof.Machine.execLaneXor w d a b s
  | .laneShl w d a b => Sys2Proof.Machine.execLaneShl w d a b s
  | .laneShr w d a b => Sys2Proof.Machine.execLaneShr w d a b s
  | .laneSar w d a b => Sys2Proof.Machine.execLaneSar w d a b s
  | .laneSel w d a b p => Sys2Proof.Machine.execLaneSel w d a b p s
  | .laneFadd w d a b => Sys2Proof.Machine.execLaneFadd w d a b s
  | .laneFsub w d a b => Sys2Proof.Machine.execLaneFsub w d a b s
  | .laneFmul w d a b => Sys2Proof.Machine.execLaneFmul w d a b s
  | .laneFfma w d a b c => Sys2Proof.Machine.execLaneFfma w d a b c s
  | .laneFfms w d a b c => Sys2Proof.Machine.execLaneFfms w d a b c s
  | .laneFmin w d a b => Sys2Proof.Machine.execLaneFmin w d a b s
  | .laneFmax w d a b => Sys2Proof.Machine.execLaneFmax w d a b s
  | .laneFabs w d a => Sys2Proof.Machine.execLaneFabs w d a s
  | .laneFneg w d a => Sys2Proof.Machine.execLaneFneg w d a s
  | .laneMovi w d imm => Sys2Proof.Machine.execLaneMovi w d imm s
  | .laneIaddi w d a imm => Sys2Proof.Machine.execLaneIaddi w d a imm s
  | .laneAndi w d a imm => Sys2Proof.Machine.execLaneAndi w d a imm s
  | .laneOri w d a imm => Sys2Proof.Machine.execLaneOri w d a imm s
  | .laneXori w d a imm => Sys2Proof.Machine.execLaneXori w d a imm s
  | .laneShli w d a imm => Sys2Proof.Machine.execLaneShli w d a imm s
  | .laneShri w d a imm => Sys2Proof.Machine.execLaneShri w d a imm s
  | .laneSari w d a imm => Sys2Proof.Machine.execLaneSari w d a imm s
  | .laneFaddi w d a imm => Sys2Proof.Machine.execLaneFaddi w d a imm s
  | .laneFmuli w d a imm => Sys2Proof.Machine.execLaneFmuli w d a imm s
  | .laneMov w d a => Sys2Proof.Machine.execLaneMov w d a s
  | .laneSpr w d sel => Sys2Proof.Machine.execLaneSpr w d sel s
  | .laneWadd w d a b => Sys2Proof.Machine.execLaneWadd w d a b s
  | .laneWshift w d a by_ => Sys2Proof.Machine.execLaneWshift w d a by_ s
  | .laneFcmp w d a b cond => Sys2Proof.Machine.execLaneFcmp w d a b cond s
  | .laneIcmp w d a b cond => Sys2Proof.Machine.execLaneIcmp w d a b cond s
  | .laneFclass w d a classes => Sys2Proof.Machine.execLaneFclass w d a classes s
  | .lanePlog w d a b op => Sys2Proof.Machine.execLanePlog w d a b op s
  | .lanePset w d a => Sys2Proof.Machine.execLanePset w d a s
  | .laneCvtfi w d a rnd => Sys2Proof.Machine.execLaneCvtfi w d a rnd s
  | .laneCvtif w d a rnd => Sys2Proof.Machine.execLaneCvtif w d a rnd s
  | .laneCvtfb w d a rnd => Sys2Proof.Machine.execLaneCvtfb w d a rnd s
  | .laneUnpk w d a fmt pos digit => Sys2Proof.Machine.execLaneUnpk w d a fmt pos digit s
  | .laneMxexp w d a fmt => Sys2Proof.Machine.execLaneMxexp w d a fmt s
  | .laneMxdiv w d a b fmt => Sys2Proof.Machine.execLaneMxdiv w d a b fmt s
  | .lanePack w d a fmt pos rnd => Sys2Proof.Machine.execLanePack w d a fmt pos rnd s
  | .laneXred w d a sub group => Sys2Proof.Machine.execLaneXred w d a sub group s
  | .laneXrot w d a group k => Sys2Proof.Machine.execLaneXrot w d a group k s
  | .laneXbcast w d a group k => Sys2Proof.Machine.execLaneXbcast w d a group k s
  | .laneXzip w d a => Sys2Proof.Machine.execLaneXzip w d a s
  | .laneXunzip w d a b => Sys2Proof.Machine.execLaneXunzip w d a b s
  | .lanePballot w d a => Sys2Proof.Machine.execLanePballot w d a s
  | .lanePcount w d a => Sys2Proof.Machine.execLanePcount w d a s
  | .laneFrcp w d a => Sys2Proof.Machine.execLaneFrcp w d a s
  | .laneFrsqrt w d a => Sys2Proof.Machine.execLaneFrsqrt w d a s
  | .laneFsqrt w d a => Sys2Proof.Machine.execLaneFsqrt w d a s
  | .laneFexp2 w d a => Sys2Proof.Machine.execLaneFexp2 w d a s
  | .laneFlog2 w d a => Sys2Proof.Machine.execLaneFlog2 w d a s
  | .laneFexp w d a => Sys2Proof.Machine.execLaneFexp w d a s
  | .laneFlog w d a => Sys2Proof.Machine.execLaneFlog w d a s
  | .laneFsinpi w d a => Sys2Proof.Machine.execLaneFsinpi w d a s
  | .laneFcospi w d a => Sys2Proof.Machine.execLaneFcospi w d a s
  | .laneFtanh w d a => Sys2Proof.Machine.execLaneFtanh w d a s
  | .laneFsigm w d a => Sys2Proof.Machine.execLaneFsigm w d a s
  | .laneLdr w d a imm => Sys2Proof.Machine.execLaneLdr w d a imm s
  | .laneStr w d a imm => Sys2Proof.Machine.execLaneStr w d a imm s
  | .laneLdb w d a imm => Sys2Proof.Machine.execLaneLdb w d a imm s
  | .laneLdp w d a imm part => Sys2Proof.Machine.execLaneLdp w d a imm part s
  | .laneStp w d a imm part => Sys2Proof.Machine.execLaneStp w d a imm part s
  | .laneQsend r d q => Sys2Proof.Machine.execLaneQsend r d q s
  | .laneQsig r q => Sys2Proof.Machine.execLaneQsig r q s
  | .laneQrecv w d q => Sys2Proof.Machine.execLaneQrecv w d q s
  | .laneQwait r q => Sys2Proof.Machine.execLaneQwait r q s
  | .laneSlset r slot window => Sys2Proof.Machine.execLaneSlset r slot window s
  | .laneRed w slot a sub => Sys2Proof.Machine.execLaneRed w slot a sub s
  | .laneSlfm r slot a => Sys2Proof.Machine.execLaneSlfm r slot a s
  | .laneSlst r slot a b withFlag => Sys2Proof.Machine.execLaneSlst r slot a b withFlag s
  | .laneSlcvt w slot d fmt rnd => Sys2Proof.Machine.execLaneSlcvt w slot d fmt rnd s
  | .moverCopy k x t parity => Sys2Proof.Machine.execMoverCopy k x t parity s
  | .moverPush k x t parity => Sys2Proof.Machine.execMoverPush k x t parity s
  | .moverPull k x t parity => Sys2Proof.Machine.execMoverPull k x t parity s
  | .moverFill k x t parity => Sys2Proof.Machine.execMoverFill k x t parity s
  | .moverEnd k t parity => Sys2Proof.Machine.execMoverEnd k t parity s
  | .moverSourceAccess k t errs => Sys2Proof.Machine.execMoverSourceAccess k t errs s
  | .moverDestAccess k t bad cross spare => Sys2Proof.Machine.execMoverDestAccess k t bad cross spare s
  | .moverComplete k t => Sys2Proof.Machine.execMoverComplete k t s
  | .queueEntryVisible q t cross bad fixed parity => Sys2Proof.Machine.execQueueEntryVisible q t cross bad fixed parity s
  | .queueCreditVisible q t parity => Sys2Proof.Machine.execQueueCreditVisible q t parity s
  | .t1ReadDeliver k cross => Sys2Proof.Machine.execT1ReadDeliver k cross s
  | .t1RefreshWindow k t err => Sys2Proof.Machine.execT1RefreshWindow k t err s
  | .t1TempRead k decic => Sys2Proof.Machine.execT1TempRead k decic s
  | .t2ReadDeliver cross => Sys2Proof.Machine.execT2ReadDeliver cross s
  | .t3ReadRelease missed cross => Sys2Proof.Machine.execT3ReadRelease missed cross s
  | .t3Reclamation bytes spare => Sys2Proof.Machine.execT3Reclamation bytes spare s
  | .memoryScrub m err => Sys2Proof.Machine.execMemoryScrub m err s
  | .portTrainingComplete port neighbour serial level delayNs t => Sys2Proof.Machine.execPortTrainingComplete port neighbour serial level delayNs t s
  | .trainFail port t => Sys2Proof.Machine.execTrainFail port t s
  | .flitReceive port t raw fecBad fecFixed word => Sys2Proof.Machine.execFlitReceive port t raw fecBad fecFixed word s
  | .pathDown port lockLost t => Sys2Proof.Machine.execPathDown port lockLost t s
  | .transactionForward t upset => Sys2Proof.Machine.execTransactionForward t upset s
  | .transactionRelease t => Sys2Proof.Machine.execTransactionRelease t s
  | .putForm e t => Sys2Proof.Machine.execPutForm e t s
  | .creditSend e t => Sys2Proof.Machine.execCreditSend e t s
  | .getForm e t => Sys2Proof.Machine.execGetForm e t s
  | .responseForm e t => Sys2Proof.Machine.execResponseForm e t s
  | .reduceCombine e t => Sys2Proof.Machine.execReduceCombine e t s
  | .reduceResultForward e t => Sys2Proof.Machine.execReduceResultForward e t s
  | .shimTargetStep t x => Sys2Proof.Machine.execShimTargetStep t x s
  | .feedForwardStep t => Sys2Proof.Machine.execFeedForwardStep t s
  | .shortImportExhausted t => Sys2Proof.Machine.execShortImportExhausted t s
  | .leaseExpiry t => Sys2Proof.Machine.execLeaseExpiry t s
  | .busLoss t => Sys2Proof.Machine.execBusLoss t s
  | .busOvervoltage t => Sys2Proof.Machine.execBusOvervoltage t s
  | .busPresent t capMv => Sys2Proof.Machine.execBusPresent t capMv s
  | .prechargeStart t => Sys2Proof.Machine.execPrechargeStart t s
  | .prechargeComplete t capMv => Sys2Proof.Machine.execPrechargeComplete t capMv s
  | .prechargeFail t => Sys2Proof.Machine.execPrechargeFail t s
  | .inputOvercurrent t => Sys2Proof.Machine.execInputOvercurrent t s
  | .storageOvercurrent t => Sys2Proof.Machine.execStorageOvercurrent t s
  | .ibusOvervoltage t => Sys2Proof.Machine.execIbusOvervoltage t s
  | .inputRestartAfterOv t => Sys2Proof.Machine.execInputRestartAfterOv t s
  | .ibusUndervoltage t => Sys2Proof.Machine.execIbusUndervoltage t s
  | .converterHot t storage => Sys2Proof.Machine.execConverterHot t storage s
  | .converterOvertemp t storage => Sys2Proof.Machine.execConverterOvertemp t storage s
  | .storageFinalStop t => Sys2Proof.Machine.execStorageFinalStop t s
  | .cellScan t inp => Sys2Proof.Machine.execCellScan t inp s
  | .restTimeout t => Sys2Proof.Machine.execRestTimeout t s
  | .captureArm t stepMa => Sys2Proof.Machine.execCaptureArm t stepMa s
  | .captureRead t ring => Sys2Proof.Machine.execCaptureRead t ring s
  | .captureCancel t => Sys2Proof.Machine.execCaptureCancel t s
  | .sliceCommandTimeout k t => Sys2Proof.Machine.execSliceCommandTimeout k t s
  | .chainEnumeration t r => Sys2Proof.Machine.execChainEnumeration t r s
  | .chargeCountTick t currentMa => Sys2Proof.Machine.execChargeCountTick t currentMa s
  | .voltageSample r code t => Sys2Proof.Machine.execVoltageSample r code t s
  | .pwmPeriodStart r p iAvg iP ibusMv frMa limitAt t => Sys2Proof.Machine.execPwmPeriodStart r p iAvg iP ibusMv frMa limitAt t s
  | .overshootTrip r uv t => Sys2Proof.Machine.execOvershootTrip r uv t s
  | .overshootClear r uv t => Sys2Proof.Machine.execOvershootClear r uv t s
  | .undershootTrip r uv ibusMv frMa limits t => Sys2Proof.Machine.execUndershootTrip r uv ibusMv frMa limits t s
  | .phaseFail r p t => Sys2Proof.Machine.execPhaseFail r p t s
  | .phaseLimiting r p t => Sys2Proof.Machine.execPhaseLimiting r p t s
  | .stageHot r p t => Sys2Proof.Machine.execStageHot r p t s
  | .railOvercurrent r ma t => Sys2Proof.Machine.execRailOvercurrent r ma t s
  | .railUndervoltage r uv t => Sys2Proof.Machine.execRailUndervoltage r uv t s
  | .railOvervoltage r uv t => Sys2Proof.Machine.execRailOvervoltage r uv t s
  | .railOvFrStop r uv t => Sys2Proof.Machine.execRailOvFrStop r uv t s
  | .currentImbalance r p t => Sys2Proof.Machine.execCurrentImbalance r p t s
  | .frOvercurrent t => Sys2Proof.Machine.execFrOvercurrent t s
  | .frUndervoltage t => Sys2Proof.Machine.execFrUndervoltage t s
  | .rippleBlockCheck r peakToPeakUv t => Sys2Proof.Machine.execRippleBlockCheck r peakToPeakUv t s
  | .telemetryBlock r rawUv rawMa tempDc pwcDc t => Sys2Proof.Machine.execTelemetryBlock r rawUv rawMa tempDc pwcDc t s
  | .stagedStartEvent frUv shorts repaired t => Sys2Proof.Machine.execStagedStartEvent frUv shorts repaired t s
  | .railStopStep t => Sys2Proof.Machine.execRailStopStep t s
  | .vrAlertNAssert t => Sys2Proof.Machine.execVrAlertNAssert t s
  | .vrAlertNRelease t => Sys2Proof.Machine.execVrAlertNRelease t s
  | .pacingUpdate n ma partMw t => Sys2Proof.Machine.execPacingUpdate n ma partMw t s
  | .f0TimeExhausted t => Sys2Proof.Machine.execF0TimeExhausted t s
  | .droopCrossing n uv t => Sys2Proof.Machine.execDroopCrossing n uv t s
  | .stretchEnd n uv t => Sys2Proof.Machine.execStretchEnd n uv t s
  | .diodeSample n v t => Sys2Proof.Machine.execDiodeSample n v t s
  | .thermalModelUpdate hubHeat t => Sys2Proof.Machine.execThermalModelUpdate hubHeat t s
  | .orderlyStopClocks t => Sys2Proof.Machine.execOrderlyStopClocks t s
  | .orderlyStopRails t => Sys2Proof.Machine.execOrderlyStopRails t s
  | .flowLoss t => Sys2Proof.Machine.execFlowLoss t s
  | .flowRestored t => Sys2Proof.Machine.execFlowRestored t s
  | .dieRestart t => Sys2Proof.Machine.execDieRestart t s
  | .stackTempRead k v t => Sys2Proof.Machine.execStackTempRead k v t s
  | .coolantRead v t => Sys2Proof.Machine.execCoolantRead v t s
  | .quotaMeanUpdate t => Sys2Proof.Machine.execQuotaMeanUpdate t s
  | .energyAttribution est dieNj moduleUj queues t => Sys2Proof.Machine.execEnergyAttribution est dieNj moduleUj queues t s
  | .faultArrival src msg bad t => Sys2Proof.Machine.execFaultArrival src msg bad t s
  | .reactionHaltDowels t => Sys2Proof.Machine.execReactionHaltDowels t s
  | .faultEvent t => Sys2Proof.Machine.execFaultEvent t s
  | .faultOutTimer t => Sys2Proof.Machine.execFaultOutTimer t s
  | .faultConditionClear code unit which t => Sys2Proof.Machine.execFaultConditionClear code unit which t s
  | .watchdogKick who t => Sys2Proof.Machine.execWatchdogKick who t s
  | .watchdogExpiry mid t => Sys2Proof.Machine.execWatchdogExpiry mid t s
  | .mpFailureDeclared mid t => Sys2Proof.Machine.execMpFailureDeclared mid t s
  | .standbyWatchdogExpiry t => Sys2Proof.Machine.execStandbyWatchdogExpiry t s
  | .takeoverComplete who bad0 bad1 corrected badEntry t => Sys2Proof.Machine.execTakeoverComplete who bad0 bad1 corrected badEntry t s
  | .coastTimeout t => Sys2Proof.Machine.execCoastTimeout t s
  | .mpNoneTimeout t => Sys2Proof.Machine.execMpNoneTimeout t s
  | .imageCopyStart t => Sys2Proof.Machine.execImageCopyStart t s
  | .imageCopyComplete corrected t => Sys2Proof.Machine.execImageCopyComplete corrected t s
  | .standbySelfTest pass corrected t => Sys2Proof.Machine.execStandbySelfTest pass corrected t s
  | .processorRestart who t => Sys2Proof.Machine.execProcessorRestart who t s
  | .mpBootComplete who pass t => Sys2Proof.Machine.execMpBootComplete who pass t s
  | .ptpMessage port timeNs t => Sys2Proof.Machine.execPtpMessage port timeNs t s
  | .mgmtLinkDown port t => Sys2Proof.Machine.execMgmtLinkDown port t s
  | .alwaysOnPowerUp mated first second calBad t => Sys2Proof.Machine.execAlwaysOnPowerUp mated first second calBad t s
  | .presentNMate t => Sys2Proof.Machine.execPresentNMate t s
  | .presentNBreak t => Sys2Proof.Machine.execPresentNBreak t s
  | .holdOffExpiry t => Sys2Proof.Machine.execHoldOffExpiry t s
  | .trayStartChange high t => Sys2Proof.Machine.execTrayStartChange high t s
  | .emergencyStop low t => Sys2Proof.Machine.execEmergencyStop low t s
  | .slotIdSample v t => Sys2Proof.Machine.execSlotIdSample v t s
  | .slotIdMismatch t => Sys2Proof.Machine.execSlotIdMismatch t s
  | .standbyPllLock n t => Sys2Proof.Machine.execStandbyPllLock n t s
  | .pllLockLost p t => Sys2Proof.Machine.execPllLockLost p t s
  | .pwcPllChangeover t => Sys2Proof.Machine.execPwcPllChangeover t s
  | .oscillatorCalibration tempDc measured t => Sys2Proof.Machine.execOscillatorCalibration tempDc measured t s
  | .counterFold t => Sys2Proof.Machine.execCounterFold t s
  | .mgmtLinkUp port t => Sys2Proof.Machine.execMgmtLinkUp port t s
  | .pcieLinkUp rate t => Sys2Proof.Machine.execPcieLinkUp rate t s
  | .wakeNTimeout t => Sys2Proof.Machine.execWakeNTimeout t s
  | .i3cAddressAssignment address viaStatic t => Sys2Proof.Machine.execI3cAddressAssignment address viaStatic t s
  | .icmpv6Message port src msg t => Sys2Proof.Machine.execIcmpv6Message port src msg t s

end Sys2Proof.Machine
end

