-- ==== Sys2Proof/Safety.lean ====
section
/-! DEFINITION. What claims call a safe run: steps that answer a next state, each keeping the invariant. -/

namespace Sys2Proof.Machine

/-- A step or a command that the model carries out. -/
def Completes (o : Host.Outcome State Fault Refusal) : Prop := ∃ t, o = .next t

/-- The tables of memory are in canonical form: written bytes, poisoned units and poison not yet found by strictly rising address, none
equal to what an unlisted one reads as; and the frame number fits its 48 bits (R32). -/
def Inv (s : State) : Prop :=
  Memory.wf s.mem = true ∧ SMap.wf s.mem.poison false = true ∧ SMap.wf s.mem.latent false = true ∧ s.frame.number < 2 ^ 48

/-- What every command keeps: the queue of waiting commands, the direction of time, the count of free values drawn, and the
invariant. -/
def Keeps (s t : State) : Prop :=
  t.pending = s.pending ∧ s.now ≤ t.now ∧ s.free ≤ t.free ∧ (Inv s → Inv t)

/-- The parts of the state that a command may be said to leave alone. -/
inductive Part where
  | time | frame | jigs | arrays | lanes | mem | qf | fabric | host | shim | cells | rails | gov | fc | mp | mod | pins | clocks | ob
  | free
deriving DecidableEq, Repr

/-- A part stands in `t` as it does in `s`. -/
def Part.same (p : Part) (s t : State) : Prop :=
  match p with
  | .time => t.now = s.now
  | .frame => t.frame = s.frame
  | .jigs => t.jigs = s.jigs
  | .arrays => t.arrays = s.arrays
  | .lanes => t.lanes = s.lanes
  | .mem => t.mem = s.mem
  | .qf => t.qf = s.qf
  | .fabric => t.fabric = s.fabric
  | .host => t.host = s.host
  | .shim => t.shim = s.shim
  | .cells => t.cells = s.cells
  | .rails => t.rails = s.rails
  | .gov => t.gov = s.gov
  | .fc => t.fc = s.fc
  | .mp => t.mp = s.mp
  | .mod => t.mod = s.mod
  | .pins => t.pins = s.pins
  | .clocks => t.clocks = s.clocks
  | .ob => t.ob = s.ob
  | .free => t.free = s.free

/-- Nothing outside the parts listed has changed. -/
def Within (l : List Part) (s t : State) : Prop := ∀ p, l.contains p = false → p.same s t

/-- The parts that a command can change, whatever its operands and the state: what the model's meanings write, one line a row. -/
def partsOf (i : Instr) : List Part :=
  match i with
  | .mailboxRequestPcie _ _ _ => [.time, .host, .mp, .ob]
  | .mailboxDatagram _ _ _ _ _ _ => [.time, .host, .fc, .mp, .ob]
  | .i3cPrivateWrite _ _ => [.time, .host, .fc, .mp, .ob]
  | .i3cPrivateRead _ => [.time, .mp]
  | .i3cSclStuck _ => [.time, .fc, .ob]
  | .mpGetStatus _ _ => [.time, .host, .fc, .mp, .ob]
  | .mpStageImage _ _ => [.time, .host, .fc, .mp, .ob]
  | .mpRestartStandby _ _ => [.time, .frame, .jigs, .arrays, .lanes, .mem, .qf, .fabric, .host, .shim, .cells, .rails, .gov, .fc, .mp, .mod, .clocks, .ob]
  | .mpHandover _ _ => [.time, .host, .fc, .mp, .ob]
  | .mpSetSwitchback _ _ => [.time, .host, .fc, .mp, .ob]
  | .mpSetMgmt _ _ => [.time, .host, .fc, .mp, .ob]
  | .modSetState _ _ => [.time, .frame, .jigs, .arrays, .lanes, .mem, .qf, .fabric, .host, .shim, .cells, .rails, .gov, .fc, .mp, .mod, .clocks, .ob]
  | .modGetState _ _ => [.time, .host, .fc, .mp, .ob]
  | .shimGetStatus _ _ => [.time, .host, .fc, .mp, .ob]
  | .shimSetPolicy _ _ => [.time, .host, .shim, .fc, .mp, .ob]
  | .shimGrantLease _ _ => [.time, .host, .shim, .fc, .mp, .ob]
  | .shimSetLimits _ _ => [.time, .host, .shim, .fc, .mp, .ob]
  | .cellGetStatus _ _ => [.time, .host, .fc, .mp, .ob]
  | .cellGetCells _ _ => [.time, .host, .fc, .mp, .ob]
  | .cellGrantRest _ _ => [.time, .host, .shim, .cells, .fc, .mp, .ob]
  | .cellSaveState _ _ => [.time, .host, .fc, .mp, .ob]
  | .cellRestoreState _ _ => [.time, .host, .shim, .cells, .fc, .mp, .mod, .ob]
  | .regGetTelemetry _ _ => [.time, .host, .rails, .fc, .mp, .ob]
  | .regSetCompensator _ _ => [.time, .host, .rails, .fc, .mp, .ob]
  | .regSetTrim _ _ => [.time, .host, .rails, .fc, .mp, .ob]
  | .gvGetStatus _ _ => [.time, .host, .fc, .mp, .ob]
  | .gvSetClamp _ _ => [.time, .host, .gov, .fc, .mp, .ob]
  | .gvSetQuota _ _ => [.time, .host, .gov, .fc, .mp, .ob]
  | .gvSetLimits _ _ => [.time, .host, .gov, .fc, .mp, .ob]
  | .gvGetThrottle _ _ => [.time, .host, .fc, .mp, .ob]
  | .gvGetEnergy _ _ => [.time, .host, .fc, .mp, .ob]
  | .gvGetThermal _ _ => [.time, .host, .fc, .mp, .ob]
  | .fcGetSummary _ _ => [.time, .host, .fc, .mp, .ob]
  | .fcGetLog _ _ => [.time, .host, .fc, .mp, .ob]
  | .fcAckFaults _ _ => [.time, .host, .rails, .fc, .mp, .mod, .ob]
  | .fcSetLevel _ _ => [.time, .host, .fc, .mp, .ob]
  | .fcInjectFault _ _ => [.time, .frame, .jigs, .arrays, .lanes, .mem, .qf, .fabric, .host, .shim, .cells, .rails, .gov, .fc, .mp, .mod, .pins, .clocks, .ob]
  | .idGetIdentity _ _ => [.time, .host, .fc, .mp, .ob]
  | .fuseReadGroup _ _ => [.time, .host, .fc, .mp, .ob]
  | .obReadCounters _ _ => [.time, .host, .fc, .mp, .ob, .free]
  | .obArmSnapshot _ _ => [.time, .host, .fc, .mp, .ob]
  | .obReadSnapshot _ _ => [.time, .host, .fc, .mp, .ob]
  | .obSetGrant _ _ => [.time, .host, .fc, .mp, .ob]
  | .ftJoinDomain _ _ => [.time, .frame, .host, .fc, .mp, .ob]
  | .ftLeaveDomain _ _ => [.time, .frame, .jigs, .qf, .fabric, .host, .shim, .fc, .mp, .ob]
  | .ftSetDomain _ _ => [.time, .frame, .host, .fc, .mp, .ob]
  | .ftGetFrameStatus _ _ => [.time, .host, .fc, .mp, .ob]
  | .ofGetLinkStatus _ _ => [.time, .host, .fc, .mp, .ob]
  | .ofSetLinks _ _ => [.time, .fabric, .host, .fc, .mp, .ob]
  | .ofSetRoutes _ _ => [.time, .fabric, .host, .fc, .mp, .ob]
  | .ofBindEndpoint _ _ => [.time, .fabric, .host, .fc, .mp, .ob]
  | .jigDoorbell _ _ _ => [.time, .jigs, .host, .fc, .ob]
  | .partCtrlEnable _ _ => [.time, .host, .fc, .ob]
  | .partCtrlDisable _ _ => [.time, .host, .fc, .ob]
  | .registerWrite _ _ _ _ => [.time, .frame, .jigs, .mem, .qf, .fabric, .host, .shim, .fc, .mp, .ob, .free]
  | .hqSendEntry _ _ _ _ _ => [.time, .qf, .host, .fc, .ob]
  | .apertureWrite _ _ _ _ _ => [.time, .host, .fc, .ob]
  | .apertureRead _ _ _ _ => [.time, .host, .fc, .ob]
  | .hostSlotAccess _ _ _ _ => [.time, .mem, .host, .fc, .ob]
  | .sectorIncomplete _ _ => [.time, .host, .fc]
  | .resultRecordWrite _ _ => [.time, .jigs, .host, .ob]
  | .hqToHostWrite _ _ _ => [.time, .qf, .host, .ob]
  | .linkReset _ _ => [.time, .jigs, .mem, .host, .fc, .mp, .pins]
  | .vfFlr _ _ _ => [.time, .frame, .jigs, .mem, .qf, .fabric, .host, .shim, .fc, .mp, .ob]
  | .pfFlr _ => [.time, .frame, .jigs, .mem, .qf, .fabric, .host, .shim, .fc, .mp, .ob]
  | .pcieUncorrectable _ _ => [.time, .host, .fc]
  | .pcieLinkTrainingStart _ => [.time, .host, .pins]
  | .kerfStrobe _ _ => [.time, .frame, .jigs, .arrays, .lanes, .mem, .qf, .fabric, .host, .shim, .cells, .rails, .gov, .fc, .mp, .mod, .pins, .clocks, .ob]
  | .freqStateSwitch _ => [.time, .frame, .gov, .clocks, .ob]
  | .freqSwitchDeferred _ => [.time, .frame, .gov, .clocks, .ob]
  | .moverStart _ => [.time, .frame, .jigs, .qf, .fabric, .shim, .fc, .ob]
  | .clusterGroupStart _ _ => [.time, .frame, .jigs, .lanes, .qf, .fabric, .shim, .fc, .ob]
  | .arrayStart _ _ => [.time, .frame, .jigs, .arrays, .qf, .fabric, .shim, .fc, .ob]
  | .clampLoad _ => [.time, .frame, .gov]
  | .kerfEnd _ _ => [.time, .frame, .rails, .gov, .clocks, .ob]
  | .kerfLate _ => [.time, .frame, .fc, .ob]
  | .frameMark _ _ _ _ => [.time, .frame, .jigs, .qf, .fabric, .shim, .fc, .clocks, .ob]
  | .markMissing _ => [.time, .frame, .fc]
  | .referenceLost _ _ => [.time, .frame, .fc, .clocks, .ob]
  | .holdoverExpiry _ => [.time, .frame, .jigs, .qf, .fabric, .shim, .fc, .ob]
  | .localDone _ => [.time, .frame, .fabric, .ob]
  | .barrierWatchdog _ => [.time, .frame, .jigs, .qf, .fabric, .shim, .fc, .ob]
  | .dowelDone _ _ _ => [.time, .frame, .fabric, .fc, .ob]
  | .dowelGo _ _ _ => [.time, .frame, .fabric, .fc, .ob]
  | .dowelHalt _ _ _ => [.time, .frame, .jigs, .qf, .fabric, .shim, .fc, .ob]
  | .dowelLeave _ _ _ => [.time, .frame, .fabric, .fc, .ob]
  | .relayNotice _ _ _ => [.time, .fabric, .fc, .ob]
  | .loaderTakeJig _ => [.time, .jigs, .mem, .fabric, .fc, .ob]
  | .planRecord _ => [.time, .jigs]
  | .planAck _ => [.time, .jigs, .shim]
  | .arrayLoad _ _ _ _ => [.time, .arrays, .lanes, .mem, .qf, .fc, .ob]
  | .arrayPass _ _ _ _ => [.time, .arrays, .lanes, .mem, .qf, .fc, .ob]
  | .arrayFootLoad _ _ _ _ => [.time, .arrays, .lanes, .mem, .qf, .fc, .ob]
  | .arrayDrain _ _ _ _ => [.time, .arrays, .lanes, .mem, .qf, .fc, .ob]
  | .arrayEnd _ _ _ => [.time, .arrays, .lanes, .mem, .qf, .fc, .ob]
  | .arrayDescriptorComplete _ _ => [.time, .arrays, .lanes, .mem, .qf, .fc, .ob]
  | .deferredSignalSend _ _ => [.arrays, .qf, .ob]
  | .laneNop _ => [.time, .arrays, .lanes, .mem, .qf, .fc, .ob]
  | .laneEnd _ => [.time, .arrays, .lanes, .mem, .qf, .fc, .ob]
  | .laneBr _ _ _ _ _ => [.time, .arrays, .lanes, .mem, .qf, .fc, .ob]
  | .laneJmp _ _ => [.time, .arrays, .lanes, .mem, .qf, .fc, .ob]
  | .laneLoop _ _ _ _ _ => [.time, .arrays, .lanes, .mem, .qf, .fc, .ob]
  | .laneLoopend _ _ => [.time, .arrays, .lanes, .mem, .qf, .fc, .ob]
  | .laneIadd _ _ _ _ => [.time, .arrays, .lanes, .mem, .qf, .fc, .ob]
  | .laneIsub _ _ _ _ => [.time, .arrays, .lanes, .mem, .qf, .fc, .ob]
  | .laneImul _ _ _ _ => [.time, .arrays, .lanes, .mem, .qf, .fc, .ob]
  | .laneImulh _ _ _ _ => [.time, .arrays, .lanes, .mem, .qf, .fc, .ob]
  | .laneImulhu _ _ _ _ => [.time, .arrays, .lanes, .mem, .qf, .fc, .ob]
  | .laneImin _ _ _ _ => [.time, .arrays, .lanes, .mem, .qf, .fc, .ob]
  | .laneImax _ _ _ _ => [.time, .arrays, .lanes, .mem, .qf, .fc, .ob]
  | .laneUmin _ _ _ _ => [.time, .arrays, .lanes, .mem, .qf, .fc, .ob]
  | .laneUmax _ _ _ _ => [.time, .arrays, .lanes, .mem, .qf, .fc, .ob]
  | .laneAnd _ _ _ _ => [.time, .arrays, .lanes, .mem, .qf, .fc, .ob]
  | .laneOr _ _ _ _ => [.time, .arrays, .lanes, .mem, .qf, .fc, .ob]
  | .laneXor _ _ _ _ => [.time, .arrays, .lanes, .mem, .qf, .fc, .ob]
  | .laneShl _ _ _ _ => [.time, .arrays, .lanes, .mem, .qf, .fc, .ob]
  | .laneShr _ _ _ _ => [.time, .arrays, .lanes, .mem, .qf, .fc, .ob]
  | .laneSar _ _ _ _ => [.time, .arrays, .lanes, .mem, .qf, .fc, .ob]
  | .laneSel _ _ _ _ _ => [.time, .arrays, .lanes, .mem, .qf, .fc, .ob]
  | .laneFadd _ _ _ _ => [.time, .arrays, .lanes, .mem, .qf, .fc, .ob]
  | .laneFsub _ _ _ _ => [.time, .arrays, .lanes, .mem, .qf, .fc, .ob]
  | .laneFmul _ _ _ _ => [.time, .arrays, .lanes, .mem, .qf, .fc, .ob]
  | .laneFfma _ _ _ _ _ => [.time, .arrays, .lanes, .mem, .qf, .fc, .ob]
  | .laneFfms _ _ _ _ _ => [.time, .arrays, .lanes, .mem, .qf, .fc, .ob]
  | .laneFmin _ _ _ _ => [.time, .arrays, .lanes, .mem, .qf, .fc, .ob]
  | .laneFmax _ _ _ _ => [.time, .arrays, .lanes, .mem, .qf, .fc, .ob]
  | .laneFabs _ _ _ => [.time, .arrays, .lanes, .mem, .qf, .fc, .ob]
  | .laneFneg _ _ _ => [.time, .arrays, .lanes, .mem, .qf, .fc, .ob]
  | .laneMovi _ _ _ => [.time, .arrays, .lanes, .mem, .qf, .fc, .ob]
  | .laneIaddi _ _ _ _ => [.time, .arrays, .lanes, .mem, .qf, .fc, .ob]
  | .laneAndi _ _ _ _ => [.time, .arrays, .lanes, .mem, .qf, .fc, .ob]
  | .laneOri _ _ _ _ => [.time, .arrays, .lanes, .mem, .qf, .fc, .ob]
  | .laneXori _ _ _ _ => [.time, .arrays, .lanes, .mem, .qf, .fc, .ob]
  | .laneShli _ _ _ _ => [.time, .arrays, .lanes, .mem, .qf, .fc, .ob]
  | .laneShri _ _ _ _ => [.time, .arrays, .lanes, .mem, .qf, .fc, .ob]
  | .laneSari _ _ _ _ => [.time, .arrays, .lanes, .mem, .qf, .fc, .ob]
  | .laneFaddi _ _ _ _ => [.time, .arrays, .lanes, .mem, .qf, .fc, .ob]
  | .laneFmuli _ _ _ _ => [.time, .arrays, .lanes, .mem, .qf, .fc, .ob]
  | .laneMov _ _ _ => [.time, .arrays, .lanes, .mem, .qf, .fc, .ob]
  | .laneSpr _ _ _ => [.time, .arrays, .lanes, .mem, .qf, .fc, .ob]
  | .laneWadd _ _ _ _ => [.time, .arrays, .lanes, .mem, .qf, .fc, .ob]
  | .laneWshift _ _ _ _ => [.time, .arrays, .lanes, .mem, .qf, .fc, .ob]
  | .laneFcmp _ _ _ _ _ => [.time, .arrays, .lanes, .mem, .qf, .fc, .ob]
  | .laneIcmp _ _ _ _ _ => [.time, .arrays, .lanes, .mem, .qf, .fc, .ob]
  | .laneFclass _ _ _ _ => [.time, .arrays, .lanes, .mem, .qf, .fc, .ob]
  | .lanePlog _ _ _ _ _ => [.time, .arrays, .lanes, .mem, .qf, .fc, .ob]
  | .lanePset _ _ _ => [.time, .arrays, .lanes, .mem, .qf, .fc, .ob]
  | .laneCvtfi _ _ _ _ => [.time, .arrays, .lanes, .mem, .qf, .fc, .ob]
  | .laneCvtif _ _ _ _ => [.time, .arrays, .lanes, .mem, .qf, .fc, .ob]
  | .laneCvtfb _ _ _ _ => [.time, .arrays, .lanes, .mem, .qf, .fc, .ob]
  | .laneUnpk _ _ _ _ _ _ => [.time, .arrays, .lanes, .mem, .qf, .fc, .ob]
  | .laneMxexp _ _ _ _ => [.time, .arrays, .lanes, .mem, .qf, .fc, .ob]
  | .laneMxdiv _ _ _ _ _ => [.time, .arrays, .lanes, .mem, .qf, .fc, .ob]
  | .lanePack _ _ _ _ _ _ => [.time, .arrays, .lanes, .mem, .qf, .fc, .ob]
  | .laneXred _ _ _ _ _ => [.time, .arrays, .lanes, .mem, .qf, .fc, .ob]
  | .laneXrot _ _ _ _ _ => [.time, .arrays, .lanes, .mem, .qf, .fc, .ob]
  | .laneXbcast _ _ _ _ _ => [.time, .arrays, .lanes, .mem, .qf, .fc, .ob]
  | .laneXzip _ _ _ => [.time, .arrays, .lanes, .mem, .qf, .fc, .ob]
  | .laneXunzip _ _ _ _ => [.time, .arrays, .lanes, .mem, .qf, .fc, .ob]
  | .lanePballot _ _ _ => [.time, .arrays, .lanes, .mem, .qf, .fc, .ob]
  | .lanePcount _ _ _ => [.time, .arrays, .lanes, .mem, .qf, .fc, .ob]
  | .laneFrcp _ _ _ => [.time, .arrays, .lanes, .mem, .qf, .fc, .ob]
  | .laneFrsqrt _ _ _ => [.time, .arrays, .lanes, .mem, .qf, .fc, .ob]
  | .laneFsqrt _ _ _ => [.time, .arrays, .lanes, .mem, .qf, .fc, .ob]
  | .laneFexp2 _ _ _ => [.time, .arrays, .lanes, .mem, .qf, .fc, .ob]
  | .laneFlog2 _ _ _ => [.time, .arrays, .lanes, .mem, .qf, .fc, .ob]
  | .laneFexp _ _ _ => [.time, .arrays, .lanes, .mem, .qf, .fc, .ob]
  | .laneFlog _ _ _ => [.time, .arrays, .lanes, .mem, .qf, .fc, .ob]
  | .laneFsinpi _ _ _ => [.time, .arrays, .lanes, .mem, .qf, .fc, .ob]
  | .laneFcospi _ _ _ => [.time, .arrays, .lanes, .mem, .qf, .fc, .ob]
  | .laneFtanh _ _ _ => [.time, .arrays, .lanes, .mem, .qf, .fc, .ob]
  | .laneFsigm _ _ _ => [.time, .arrays, .lanes, .mem, .qf, .fc, .ob]
  | .laneLdr _ _ _ _ => [.time, .arrays, .lanes, .mem, .qf, .fc, .ob]
  | .laneStr _ _ _ _ => [.time, .arrays, .lanes, .mem, .qf, .fc, .ob]
  | .laneLdb _ _ _ _ => [.time, .arrays, .lanes, .mem, .qf, .fc, .ob]
  | .laneLdp _ _ _ _ _ => [.time, .arrays, .lanes, .mem, .qf, .fc, .ob]
  | .laneStp _ _ _ _ _ => [.time, .arrays, .lanes, .mem, .qf, .fc, .ob]
  | .laneQsend _ _ _ => [.time, .arrays, .lanes, .mem, .qf, .fc, .ob]
  | .laneQsig _ _ => [.time, .arrays, .lanes, .mem, .qf, .fc, .ob]
  | .laneQrecv _ _ _ => [.time, .arrays, .lanes, .mem, .qf, .fc, .ob]
  | .laneQwait _ _ => [.time, .arrays, .lanes, .mem, .qf, .fc, .ob]
  | .laneSlset _ _ _ => [.time, .arrays, .lanes, .mem, .qf, .fc, .ob]
  | .laneRed _ _ _ _ => [.time, .arrays, .lanes, .mem, .qf, .fc, .ob]
  | .laneSlfm _ _ _ => [.time, .arrays, .lanes, .mem, .qf, .fc, .ob]
  | .laneSlst _ _ _ _ _ => [.time, .arrays, .lanes, .mem, .qf, .fc, .ob]
  | .laneSlcvt _ _ _ _ _ => [.time, .arrays, .lanes, .mem, .qf, .fc, .ob]
  | .moverCopy _ _ _ _ => [.time, .arrays, .lanes, .mem, .qf, .fc, .ob]
  | .moverPush _ _ _ _ => [.time, .arrays, .lanes, .mem, .qf, .fc, .ob]
  | .moverPull _ _ _ _ => [.time, .arrays, .lanes, .mem, .qf, .fc, .ob]
  | .moverFill _ _ _ _ => [.time, .arrays, .lanes, .mem, .qf, .fc, .ob]
  | .moverEnd _ _ _ => [.time, .arrays, .lanes, .mem, .qf, .fc, .ob]
  | .moverSourceAccess _ _ _ => [.time, .arrays, .lanes, .mem, .qf, .fc, .ob]
  | .moverDestAccess _ _ _ _ _ => [.time, .arrays, .lanes, .mem, .qf, .fc, .ob]
  | .moverComplete _ _ => [.time, .arrays, .lanes, .mem, .qf, .fc, .ob]
  | .queueEntryVisible _ _ _ _ _ _ => [.time, .mem, .qf, .fabric, .fc, .ob]
  | .queueCreditVisible _ _ _ => [.time, .qf, .fabric, .host, .fc, .ob]
  | .t1ReadDeliver _ _ => [.time, .mem, .qf, .host, .fc, .ob]
  | .t1RefreshWindow _ _ _ => [.time, .mem, .fc, .ob]
  | .t1TempRead _ _ => [.mem, .gov, .fc, .ob]
  | .t2ReadDeliver _ => [.time, .mem, .qf, .host, .fc, .ob]
  | .t3ReadRelease _ _ => [.time, .mem, .qf, .host, .fc, .ob]
  | .t3Reclamation _ _ => [.mem, .fc, .ob]
  | .memoryScrub _ _ => [.arrays, .lanes, .mem, .qf, .fc, .ob]
  | .portTrainingComplete _ _ _ _ _ _ => [.time, .fabric, .fc, .ob]
  | .trainFail _ _ => [.time, .fabric, .fc]
  | .flitReceive _ _ _ _ _ _ => [.time, .fabric, .fc, .ob]
  | .pathDown _ _ _ => [.time, .fabric, .fc, .ob]
  | .transactionForward _ _ => [.time, .fabric, .fc, .ob]
  | .transactionRelease _ => [.time, .arrays, .qf, .fabric, .fc, .ob]
  | .putForm _ _ => [.time, .qf, .fabric, .fc, .ob]
  | .creditSend _ _ => [.time, .fabric, .fc, .ob]
  | .getForm _ _ => [.time, .qf, .fabric, .fc, .ob]
  | .responseForm _ _ => [.time, .qf, .fabric, .fc, .ob]
  | .reduceCombine _ _ => [.time, .arrays, .qf, .fabric, .fc, .ob]
  | .reduceResultForward _ _ => [.time, .fabric, .fc, .ob]
  | .shimTargetStep _ _ => [.time, .shim, .gov, .fc, .ob]
  | .feedForwardStep _ => [.time, .shim]
  | .shortImportExhausted _ => [.time, .shim]
  | .leaseExpiry _ => [.time, .shim, .fc, .ob]
  | .busLoss _ => [.time, .frame, .jigs, .arrays, .lanes, .mem, .qf, .fabric, .host, .shim, .cells, .rails, .gov, .fc, .mp, .mod, .clocks, .ob]
  | .busOvervoltage _ => [.time, .frame, .jigs, .arrays, .lanes, .mem, .qf, .fabric, .host, .shim, .cells, .rails, .gov, .fc, .mp, .mod, .clocks, .ob]
  | .busPresent _ _ => [.time, .shim, .mod]
  | .prechargeStart _ => [.time, .shim, .mod, .ob]
  | .prechargeComplete _ _ => [.time, .frame, .jigs, .arrays, .lanes, .mem, .qf, .fabric, .host, .shim, .cells, .rails, .gov, .fc, .mp, .mod, .clocks, .ob]
  | .prechargeFail _ => [.time, .shim, .fc, .mod]
  | .inputOvercurrent _ => [.time, .frame, .jigs, .arrays, .lanes, .mem, .qf, .fabric, .host, .shim, .cells, .rails, .gov, .fc, .mp, .mod, .clocks, .ob]
  | .storageOvercurrent _ => [.time, .frame, .jigs, .arrays, .lanes, .mem, .qf, .fabric, .host, .shim, .cells, .rails, .gov, .fc, .mp, .mod, .clocks, .ob]
  | .ibusOvervoltage _ => [.time, .frame, .jigs, .arrays, .lanes, .mem, .qf, .fabric, .host, .shim, .cells, .rails, .gov, .fc, .mp, .mod, .clocks, .ob]
  | .inputRestartAfterOv _ => [.time, .frame, .jigs, .arrays, .lanes, .mem, .qf, .fabric, .host, .shim, .cells, .rails, .gov, .fc, .mp, .mod, .clocks, .ob]
  | .ibusUndervoltage _ => [.time, .fc]
  | .converterHot _ _ => [.time, .shim, .fc]
  | .converterOvertemp _ _ => [.time, .frame, .jigs, .arrays, .lanes, .mem, .qf, .fabric, .host, .shim, .cells, .rails, .gov, .fc, .mp, .mod, .clocks, .ob]
  | .storageFinalStop _ => [.time, .frame, .jigs, .arrays, .lanes, .mem, .qf, .fabric, .host, .shim, .cells, .rails, .gov, .fc, .mp, .mod, .clocks, .ob]
  | .cellScan _ _ => [.time, .shim, .cells, .fc, .ob]
  | .restTimeout _ => [.time, .shim, .cells, .fc, .ob]
  | .captureArm _ _ => [.time, .cells]
  | .captureRead _ _ => [.time, .cells, .fc, .ob]
  | .captureCancel _ => [.time, .cells]
  | .sliceCommandTimeout _ _ => [.time, .cells]
  | .chainEnumeration _ _ => [.time, .shim, .cells, .fc, .ob]
  | .chargeCountTick _ _ => [.time, .cells]
  | .voltageSample _ _ _ => [.time, .rails, .mod, .pins]
  | .pwmPeriodStart _ _ _ _ _ _ _ _ => [.time, .rails, .ob]
  | .overshootTrip _ _ _ => [.time, .rails, .ob]
  | .overshootClear _ _ _ => [.time, .rails]
  | .undershootTrip _ _ _ _ _ _ => [.time, .rails, .ob]
  | .phaseFail _ _ _ => [.time, .frame, .jigs, .arrays, .lanes, .mem, .qf, .fabric, .host, .rails, .fc, .mod, .pins]
  | .phaseLimiting _ _ _ => [.time, .fc]
  | .stageHot _ _ _ => [.time, .rails, .fc]
  | .railOvercurrent _ _ _ => [.time, .frame, .jigs, .arrays, .lanes, .mem, .qf, .fabric, .host, .rails, .fc, .mod, .pins]
  | .railUndervoltage _ _ _ => [.time, .rails, .fc]
  | .railOvervoltage _ _ _ => [.time, .frame, .jigs, .arrays, .lanes, .mem, .qf, .fabric, .host, .rails, .fc, .mod, .pins]
  | .railOvFrStop _ _ _ => [.time, .frame, .jigs, .arrays, .lanes, .mem, .qf, .fabric, .host, .rails, .mod, .pins]
  | .currentImbalance _ _ _ => [.time, .fc]
  | .frOvercurrent _ => [.time, .frame, .jigs, .arrays, .lanes, .mem, .qf, .fabric, .host, .rails, .fc, .mod, .pins]
  | .frUndervoltage _ => [.time, .fc]
  | .rippleBlockCheck _ _ _ => [.time, .rails, .fc]
  | .telemetryBlock _ _ _ _ _ _ => [.time, .rails, .gov, .clocks, .ob]
  | .stagedStartEvent _ _ _ _ => [.time, .frame, .fabric, .rails, .gov, .fc, .mod, .pins, .clocks]
  | .railStopStep _ => [.time, .frame, .jigs, .arrays, .lanes, .mem, .qf, .fabric, .host, .rails, .gov, .mod, .pins, .clocks, .ob]
  | .vrAlertNAssert _ => [.time, .frame, .shim, .gov, .fc, .clocks, .ob]
  | .vrAlertNRelease _ => [.time, .gov, .fc]
  | .pacingUpdate _ _ _ _ => [.time, .gov, .clocks, .ob]
  | .f0TimeExhausted _ => [.time, .gov]
  | .droopCrossing _ _ _ => [.time, .gov, .clocks, .ob, .free]
  | .stretchEnd _ _ _ => [.time, .gov, .clocks, .ob]
  | .diodeSample _ _ _ => [.time, .frame, .jigs, .arrays, .lanes, .mem, .qf, .fabric, .host, .shim, .rails, .gov, .fc, .mod, .pins, .clocks, .ob]
  | .thermalModelUpdate _ _ => [.time, .frame, .jigs, .arrays, .lanes, .mem, .qf, .fabric, .host, .shim, .rails, .gov, .fc, .mod, .pins, .clocks, .ob]
  | .orderlyStopClocks _ => [.time, .arrays, .lanes, .mem, .qf, .fabric, .gov, .fc, .clocks, .ob]
  | .orderlyStopRails _ => [.time, .frame, .jigs, .arrays, .lanes, .mem, .qf, .fabric, .host, .rails, .gov, .mod, .pins, .clocks, .ob]
  | .flowLoss _ => [.time, .frame, .jigs, .arrays, .lanes, .mem, .qf, .fabric, .host, .shim, .rails, .gov, .fc, .mod, .pins, .ob]
  | .flowRestored _ => [.time, .gov, .fc, .pins]
  | .dieRestart _ => [.time, .rails]
  | .stackTempRead _ _ _ => [.time, .gov, .fc]
  | .coolantRead _ _ => [.time, .gov, .fc]
  | .quotaMeanUpdate _ => [.time, .gov]
  | .energyAttribution _ _ _ _ _ => [.time, .gov]
  | .faultArrival _ _ _ _ => [.time, .frame, .jigs, .arrays, .lanes, .mem, .qf, .fabric, .host, .shim, .cells, .rails, .gov, .fc, .mp, .mod, .pins, .clocks, .ob]
  | .reactionHaltDowels _ => [.time, .frame, .jigs, .qf, .fabric, .shim, .fc, .ob]
  | .faultEvent _ => [.time, .host, .fc, .ob]
  | .faultOutTimer _ => [.time, .fc, .ob]
  | .faultConditionClear _ _ _ _ => [.time, .shim, .rails, .fc, .mod, .ob]
  | .watchdogKick _ _ => [.time, .mp]
  | .watchdogExpiry _ _ => [.time, .mp, .ob]
  | .mpFailureDeclared _ _ => [.time, .mp, .ob]
  | .standbyWatchdogExpiry _ => [.time, .fc, .mp]
  | .takeoverComplete _ _ _ _ _ _ => [.time, .frame, .jigs, .arrays, .lanes, .mem, .qf, .fabric, .host, .shim, .cells, .rails, .gov, .fc, .mp, .mod, .pins, .clocks, .ob, .free]
  | .coastTimeout _ => [.time, .fc, .mp]
  | .mpNoneTimeout _ => [.time, .fc, .mp]
  | .imageCopyStart _ => [.time, .mp]
  | .imageCopyComplete _ _ => [.time, .fc, .mp, .ob]
  | .standbySelfTest _ _ _ => [.time, .fc, .mp, .ob]
  | .processorRestart _ _ => [.time, .fc, .mp, .ob]
  | .mpBootComplete _ _ _ => [.time, .rails, .fc, .mp, .mod]
  | .ptpMessage _ _ _ => [.time, .mp, .ob]
  | .mgmtLinkDown _ _ => [.time, .fc, .mp]
  | .alwaysOnPowerUp _ _ _ _ _ => [.time, .frame, .jigs, .arrays, .lanes, .mem, .qf, .fabric, .host, .shim, .cells, .rails, .gov, .fc, .mp, .mod, .pins, .clocks, .ob]
  | .presentNMate _ => [.time, .frame, .jigs, .arrays, .lanes, .mem, .qf, .fabric, .host, .shim, .cells, .rails, .gov, .fc, .mp, .mod, .pins, .clocks, .ob]
  | .presentNBreak _ => [.time, .frame, .jigs, .arrays, .lanes, .mem, .qf, .fabric, .host, .shim, .cells, .rails, .gov, .fc, .mp, .mod, .pins, .clocks, .ob]
  | .holdOffExpiry _ => [.time, .mod]
  | .trayStartChange _ _ => [.time, .fc, .mod, .pins]
  | .emergencyStop _ _ => [.time, .fc, .pins]
  | .slotIdSample _ _ => [.time, .pins]
  | .slotIdMismatch _ => [.time, .fc]
  | .standbyPllLock _ _ => [.time, .clocks]
  | .pllLockLost _ _ => [.time, .frame, .jigs, .arrays, .lanes, .mem, .qf, .fabric, .host, .shim, .rails, .gov, .fc, .mod, .pins, .clocks, .ob]
  | .pwcPllChangeover _ => [.time, .clocks]
  | .oscillatorCalibration _ _ _ => [.time, .clocks]
  | .counterFold _ => [.time, .fabric, .ob]
  | .mgmtLinkUp _ _ => [.time, .mp]
  | .pcieLinkUp _ _ => [.time, .host, .mod, .pins]
  | .wakeNTimeout _ => [.time, .mod, .pins]
  | .i3cAddressAssignment _ _ _ => [.time, .mp]
  | .icmpv6Message _ _ _ _ => [.time, .mp]

/-- Every step of a run of `n` steps answers a next state. -/
def RunsOn (n : Nat) (s : State) : Prop := Completes (Sys2Proof.core.run n s)

end Sys2Proof.Machine
end

