-- ==== Sys2Proof/Claims.lean ====
section
/-! DEFINITION. The terms that the statements are made in, beside those of Safety.lean. -/

namespace Sys2Proof.Machine

/-! ### Lanes -/

/-- The row stands at word `pc`, its loops and its done bit as they were; no other row of any cluster has moved. -/
def RowMoved (u t : State) (c j pc : Nat) : Prop :=
  (t.cluster c).row j = { (u.cluster c).row j with pc := pc % 1024 } ∧
  ∀ c' j', (c' ≠ c ∨ j' ≠ j) → (t.cluster c').row j' = (u.cluster c').row j'

/-- Among registers, predicates and slots only those named of row `j` of cluster `c` (the slots of `c`) have changed; what every
cluster runs, and the latched arithmetic flags, are as they were; nothing outside the parts `l` has changed. -/
structure LaneFrame (u t : State) (c j : Nat) (regs preds slots : List Nat) (l : List Part) : Prop where
  regs : ∀ c' j' r, r < 16 → ¬ (c' = c ∧ j' = j ∧ r ∈ regs) → (t.cluster c').reg j' r = (u.cluster c').reg j' r
  preds : ∀ c' j' p, p < 8 → ¬ (c' = c ∧ j' = j ∧ p ∈ preds) → (t.cluster c').pred j' p = (u.cluster c').pred j' p
  slots : ∀ c' k, ¬ (c' = c ∧ k ∈ slots) →
    SMap.get (t.cluster c').slots k AccSlot.zero = SMap.get (u.cluster c').slots k AccSlot.zero
  runs : ∀ c', (t.cluster c').entry = (u.cluster c').entry ∧ (t.cluster c').rowCount = (u.cluster c').rowCount ∧
    (t.cluster c').keepState = (u.cluster c').keepState ∧ (t.cluster c').stopped = (u.cluster c').stopped ∧
    (t.cluster c').turn = (u.cluster c').turn
  latched : t.lanes.latchedArith = u.lanes.latchedArith
  within : Within l u t

/-- Arithmetic events (R226, R227): ORed into the flag byte of the cluster's partition; the first invalid one of the frame raises
`LF_ARITH_INVALID`. -/
def EventsNoted (u t : State) (c flags : Nat) : Prop :=
  (∀ p, SMap.get t.lanes.arith p 0 =
    if u.ownerOfCluster c = some p then SMap.get u.lanes.arith p 0 ||| flags else SMap.get u.lanes.arith p 0) ∧
  t.fc = { u.fc with raised := u.fc.raised ++
    (if bitAt flags 0 && !(u.cluster c).arithRaised then
      [{ src := Source.ofDie (dieOfCluster c),
         msg := { code := FC.lfArithInvalid, unit := 0x1000 + c, scope := (u.ownerOfCluster c).getD 0xFF, detail := 0, cond := false },
         raisedAt := u.now }]
    else []) }

/-- What a lane command says: the cluster and row that issue, when, the storage errors met, and the instruction word, laid out from its
fields (R197, R198). -/
structure LaneIssue where
  cluster : Fin 256
  row : Fin 64
  t : Nat
  upset : LaneUpset
  word : Nat

/-- The issue that a lane command stands for; none for any other command. -/
def laneIssueOf : Instr → Option LaneIssue
  | .laneIadd w d a b => some ⟨w.cluster, w.row, w.t, w.upset, regWord 0x10 (guardBits w) { d := d, a := a, b := b }⟩
  | .laneIsub w d a b => some ⟨w.cluster, w.row, w.t, w.upset, regWord 0x11 (guardBits w) { d := d, a := a, b := b }⟩
  | .laneImul w d a b => some ⟨w.cluster, w.row, w.t, w.upset, regWord 0x12 (guardBits w) { d := d, a := a, b := b }⟩
  | .laneImulh w d a b => some ⟨w.cluster, w.row, w.t, w.upset, regWord 0x13 (guardBits w) { d := d, a := a, b := b }⟩
  | .laneImulhu w d a b => some ⟨w.cluster, w.row, w.t, w.upset, regWord 0x14 (guardBits w) { d := d, a := a, b := b }⟩
  | .laneImin w d a b => some ⟨w.cluster, w.row, w.t, w.upset, regWord 0x15 (guardBits w) { d := d, a := a, b := b }⟩
  | .laneImax w d a b => some ⟨w.cluster, w.row, w.t, w.upset, regWord 0x16 (guardBits w) { d := d, a := a, b := b }⟩
  | .laneUmin w d a b => some ⟨w.cluster, w.row, w.t, w.upset, regWord 0x17 (guardBits w) { d := d, a := a, b := b }⟩
  | .laneUmax w d a b => some ⟨w.cluster, w.row, w.t, w.upset, regWord 0x18 (guardBits w) { d := d, a := a, b := b }⟩
  | .laneAnd w d a b => some ⟨w.cluster, w.row, w.t, w.upset, regWord 0x19 (guardBits w) { d := d, a := a, b := b }⟩
  | .laneOr w d a b => some ⟨w.cluster, w.row, w.t, w.upset, regWord 0x1A (guardBits w) { d := d, a := a, b := b }⟩
  | .laneXor w d a b => some ⟨w.cluster, w.row, w.t, w.upset, regWord 0x1B (guardBits w) { d := d, a := a, b := b }⟩
  | .laneShl w d a b => some ⟨w.cluster, w.row, w.t, w.upset, regWord 0x1C (guardBits w) { d := d, a := a, b := b }⟩
  | .laneShr w d a b => some ⟨w.cluster, w.row, w.t, w.upset, regWord 0x1D (guardBits w) { d := d, a := a, b := b }⟩
  | .laneSar w d a b => some ⟨w.cluster, w.row, w.t, w.upset, regWord 0x1E (guardBits w) { d := d, a := a, b := b }⟩
  | .laneSel w d a b p => some ⟨w.cluster, w.row, w.t, w.upset, regWord 0x1F (guardBits w) { d := d, a := a, b := b, sub := p }⟩
  | .laneFadd w d a b => some ⟨w.cluster, w.row, w.t, w.upset, regWord 0x20 (guardBits w) { d := d, a := a, b := b }⟩
  | .laneFsub w d a b => some ⟨w.cluster, w.row, w.t, w.upset, regWord 0x21 (guardBits w) { d := d, a := a, b := b }⟩
  | .laneFmul w d a b => some ⟨w.cluster, w.row, w.t, w.upset, regWord 0x22 (guardBits w) { d := d, a := a, b := b }⟩
  | .laneFfma w d a b c => some ⟨w.cluster, w.row, w.t, w.upset, regWord 0x23 (guardBits w) { d := d, a := a, b := b, c := c }⟩
  | .laneFfms w d a b c => some ⟨w.cluster, w.row, w.t, w.upset, regWord 0x24 (guardBits w) { d := d, a := a, b := b, c := c }⟩
  | .laneFmin w d a b => some ⟨w.cluster, w.row, w.t, w.upset, regWord 0x25 (guardBits w) { d := d, a := a, b := b }⟩
  | .laneFmax w d a b => some ⟨w.cluster, w.row, w.t, w.upset, regWord 0x26 (guardBits w) { d := d, a := a, b := b }⟩
  | .laneFabs w d a => some ⟨w.cluster, w.row, w.t, w.upset, regWord 0x27 (guardBits w) { d := d, a := a }⟩
  | .laneFneg w d a => some ⟨w.cluster, w.row, w.t, w.upset, regWord 0x28 (guardBits w) { d := d, a := a }⟩
  | .laneMovi w d imm => some ⟨w.cluster, w.row, w.t, w.upset, immWord 0x30 (guardBits w) d 0 0 imm⟩
  | .laneIaddi w d a imm => some ⟨w.cluster, w.row, w.t, w.upset, immWord 0x31 (guardBits w) d a 0 imm⟩
  | .laneAndi w d a imm => some ⟨w.cluster, w.row, w.t, w.upset, immWord 0x32 (guardBits w) d a 0 imm⟩
  | .laneOri w d a imm => some ⟨w.cluster, w.row, w.t, w.upset, immWord 0x33 (guardBits w) d a 0 imm⟩
  | .laneXori w d a imm => some ⟨w.cluster, w.row, w.t, w.upset, immWord 0x34 (guardBits w) d a 0 imm⟩
  | .laneShli w d a imm => some ⟨w.cluster, w.row, w.t, w.upset, immWord 0x35 (guardBits w) d a 0 imm⟩
  | .laneShri w d a imm => some ⟨w.cluster, w.row, w.t, w.upset, immWord 0x36 (guardBits w) d a 0 imm⟩
  | .laneSari w d a imm => some ⟨w.cluster, w.row, w.t, w.upset, immWord 0x37 (guardBits w) d a 0 imm⟩
  | .laneFaddi w d a imm => some ⟨w.cluster, w.row, w.t, w.upset, immWord 0x38 (guardBits w) d a 0 imm⟩
  | .laneFmuli w d a imm => some ⟨w.cluster, w.row, w.t, w.upset, immWord 0x39 (guardBits w) d a 0 imm⟩
  | .laneMov w d a => some ⟨w.cluster, w.row, w.t, w.upset, regWord 0x3A (guardBits w) { d := d, a := a }⟩
  | .laneSpr w d sel => some ⟨w.cluster, w.row, w.t, w.upset, immWord 0x3B (guardBits w) d 0 0 (BitVec.ofNat 32 sel)⟩
  | .laneWadd w d a b => some ⟨w.cluster, w.row, w.t, w.upset, regWord 0x3C (guardBits w) { d := 2 * d, a := 2 * a, b := 2 * b }⟩
  | .laneWshift w d a by_ => some ⟨w.cluster, w.row, w.t, w.upset, immWord 0x3D (guardBits w) (2 * d) (2 * a) 0 by_⟩
  | .laneFcmp w d a b cond => some ⟨w.cluster, w.row, w.t, w.upset, regWord 0x40 (guardBits w) { d := d, a := a, b := b, sub := cond }⟩
  | .laneIcmp w d a b cond => some ⟨w.cluster, w.row, w.t, w.upset, regWord 0x41 (guardBits w) { d := d, a := a, b := b, sub := cond }⟩
  | .laneFclass w d a classes => some ⟨w.cluster, w.row, w.t, w.upset, immWord 0x42 (guardBits w) d a 0 (BitVec.ofNat 32 classes)⟩
  | .lanePlog w d a b op => some ⟨w.cluster, w.row, w.t, w.upset, regWord 0x43 (guardBits w) { d := d, a := a, b := b, sub := op }⟩
  | .lanePset w d a => some ⟨w.cluster, w.row, w.t, w.upset, regWord 0x44 (guardBits w) { d := d, a := a }⟩
  | .laneCvtfi w d a rnd => some ⟨w.cluster, w.row, w.t, w.upset, regWord 0x50 (guardBits w) (roundFields rnd { d := d, a := a })⟩
  | .laneCvtif w d a rnd => some ⟨w.cluster, w.row, w.t, w.upset, regWord 0x51 (guardBits w) (roundFields rnd { d := d, a := a })⟩
  | .laneCvtfb w d a rnd => some ⟨w.cluster, w.row, w.t, w.upset, regWord 0x52 (guardBits w) (roundFields rnd { d := d, a := a })⟩
  | .laneUnpk w d a fmt pos digit => some ⟨w.cluster, w.row, w.t, w.upset, regWord 0x53 (guardBits w) { d := d, a := 2 * a, fmt := fmt.code, pos := pos, aux := digit }⟩
  | .laneMxexp w d a fmt => some ⟨w.cluster, w.row, w.t, w.upset, regWord 0x54 (guardBits w) { d := d, a := a, fmt := fmt.code }⟩
  | .laneMxdiv w d a b fmt => some ⟨w.cluster, w.row, w.t, w.upset, regWord 0x55 (guardBits w) { d := d, a := a, b := b, fmt := fmt.code }⟩
  | .lanePack w d a fmt pos rnd => some ⟨w.cluster, w.row, w.t, w.upset, regWord 0x56 (guardBits w) (roundFields rnd { d := 2 * d, a := a, fmt := fmt.code, pos := pos })⟩
  | .laneXred w d a sub group => some ⟨w.cluster, w.row, w.t, w.upset, regWord 0x60 (guardBits w) { d := d, a := a, sub := sub, pos := group }⟩
  | .laneXrot w d a group k => some ⟨w.cluster, w.row, w.t, w.upset, regWord 0x61 (guardBits w) { d := d, a := a, pos := group, aux := k }⟩
  | .laneXbcast w d a group k => some ⟨w.cluster, w.row, w.t, w.upset, regWord 0x62 (guardBits w) { d := d, a := a, pos := group, aux := k }⟩
  | .laneXzip w d a => some ⟨w.cluster, w.row, w.t, w.upset, regWord 0x63 (guardBits w) { d := 2 * d, a := 2 * a }⟩
  | .laneXunzip w d a b => some ⟨w.cluster, w.row, w.t, w.upset, regWord 0x64 (guardBits w) { d := 2 * d, a := a, b := b }⟩
  | .lanePballot w d a => some ⟨w.cluster, w.row, w.t, w.upset, regWord 0x65 (guardBits w) { d := d, a := a }⟩
  | .lanePcount w d a => some ⟨w.cluster, w.row, w.t, w.upset, regWord 0x66 (guardBits w) { d := d, a := a }⟩
  | .laneFrcp w d a => some ⟨w.cluster, w.row, w.t, w.upset, regWord 0x70 (guardBits w) { d := d, a := a }⟩
  | .laneFrsqrt w d a => some ⟨w.cluster, w.row, w.t, w.upset, regWord 0x71 (guardBits w) { d := d, a := a }⟩
  | .laneFsqrt w d a => some ⟨w.cluster, w.row, w.t, w.upset, regWord 0x72 (guardBits w) { d := d, a := a }⟩
  | .laneFexp2 w d a => some ⟨w.cluster, w.row, w.t, w.upset, regWord 0x73 (guardBits w) { d := d, a := a }⟩
  | .laneFlog2 w d a => some ⟨w.cluster, w.row, w.t, w.upset, regWord 0x74 (guardBits w) { d := d, a := a }⟩
  | .laneFexp w d a => some ⟨w.cluster, w.row, w.t, w.upset, regWord 0x75 (guardBits w) { d := d, a := a }⟩
  | .laneFlog w d a => some ⟨w.cluster, w.row, w.t, w.upset, regWord 0x76 (guardBits w) { d := d, a := a }⟩
  | .laneFsinpi w d a => some ⟨w.cluster, w.row, w.t, w.upset, regWord 0x77 (guardBits w) { d := d, a := a }⟩
  | .laneFcospi w d a => some ⟨w.cluster, w.row, w.t, w.upset, regWord 0x78 (guardBits w) { d := d, a := a }⟩
  | .laneFtanh w d a => some ⟨w.cluster, w.row, w.t, w.upset, regWord 0x79 (guardBits w) { d := d, a := a }⟩
  | .laneFsigm w d a => some ⟨w.cluster, w.row, w.t, w.upset, regWord 0x7A (guardBits w) { d := d, a := a }⟩
  | .laneLdr w d a imm => some ⟨w.cluster, w.row, w.t, w.upset, immWord 0x80 (guardBits w) d a 0 imm⟩
  | .laneStr w d a imm => some ⟨w.cluster, w.row, w.t, w.upset, immWord 0x81 (guardBits w) d a 0 imm⟩
  | .laneLdb w d a imm => some ⟨w.cluster, w.row, w.t, w.upset, immWord 0x82 (guardBits w) d a 0 imm⟩
  | .laneLdp w d a imm part => some ⟨w.cluster, w.row, w.t, w.upset, immWord 0x83 (guardBits w) d a part imm⟩
  | .laneStp w d a imm part => some ⟨w.cluster, w.row, w.t, w.upset, immWord 0x84 (guardBits w) d a part imm⟩
  | .laneQsend r d q => some ⟨r.cluster, r.row, r.t, r.upset, immWord 0x90 0 d 0 0 (BitVec.ofNat 32 q)⟩
  | .laneQsig r q => some ⟨r.cluster, r.row, r.t, r.upset, immWord 0x91 0 0 0 0 (BitVec.ofNat 32 q)⟩
  | .laneQrecv w d q => some ⟨w.cluster, w.row, w.t, w.upset, immWord 0x92 (guardBits w) d 0 0 (BitVec.ofNat 32 q)⟩
  | .laneQwait r q => some ⟨r.cluster, r.row, r.t, r.upset, immWord 0x93 0 0 0 0 (BitVec.ofNat 32 q)⟩
  | .laneSlset r slot window => some ⟨r.cluster, r.row, r.t, r.upset, regWord 0xA0 0 { pos := slot, aux := (window % 1024).toNat }⟩
  | .laneRed w slot a sub => some ⟨w.cluster, w.row, w.t, w.upset, regWord 0xA1 (guardBits w) { a := a, sub := sub, pos := slot }⟩
  | .laneSlfm r slot a => some ⟨r.cluster, r.row, r.t, r.upset, regWord 0xA2 0 { a := a, pos := slot }⟩
  | .laneSlst r slot a b withFlag => some ⟨r.cluster, r.row, r.t, r.upset, regWord 0xA3 0 { a := a, b := b, sub := b2n withFlag, pos := slot }⟩
  | .laneSlcvt w slot d fmt rnd => some ⟨w.cluster, w.row, w.t, w.upset, regWord 0xA4 (guardBits w) (roundFields rnd { d := d, fmt := fmt.code, pos := slot })⟩
  | .laneNop r => some ⟨r.cluster, r.row, r.t, r.upset, ctlWord 0x00 0 0 0 0 0⟩
  | .laneEnd r => some ⟨r.cluster, r.row, r.t, r.upset, ctlWord 0x01 0 0 0 0 0⟩
  | .laneBr r all p pol target => some ⟨r.cluster, r.row, r.t, r.upset, ctlWord 0x02 (b2n all) (p + 8 * b2n pol) 0 target 0⟩
  | .laneJmp r target => some ⟨r.cluster, r.row, r.t, r.upset, ctlWord 0x03 0 0 0 target 0⟩
  | .laneLoop r trip imm maxTrip target =>
    some ⟨r.cluster, r.row, r.t, r.upset, ctlWord 0x04 (if trip.isSome then 2 else 0) 0 (trip.elim imm.val (fun v => v.val)) target maxTrip⟩
  | .laneLoopend r p => some ⟨r.cluster, r.row, r.t, r.upset, ctlWord 0x05 0 p 0 0 0⟩
  | _ => none

/-- The state in which row `x.row` has its turn: time and the bench accesses of its die have come so far. -/
def LaneIssue.at_ (x : LaneIssue) (s : State) : State := (s.upTo x.t).benchTo (dieOfCluster x.cluster)

/-- At its turn the row issues the word that its program holds next, and `u` is the state in which the word takes effect: the turn is
taken, and the storage errors met have been dealt with and have not stopped the cluster (R171 to R174, R196). -/
structure Issues (i : Instr) (s u : State) (x : LaneIssue) : Prop where
  lane : laneIssueOf i = some x
  turn : (x.at_ s).rowTurn x.cluster x.row = true
  runs : (((x.at_ s).cluster x.cluster).row x.row).done = false
  next : (x.at_ s).laneWord x.cluster x.row = x.word
  state : u = ((x.at_ s).takeTurn x.cluster).laneUpset x.cluster x.row x.upset
  whole : (u.cluster x.cluster).stopped = false

/-- One issue counted for cluster `c` (R675), and nothing else. -/
def IssueCounted (u t : State) (c : Nat) : Prop := t.ob = (u.bump (0x090 + 4 * c) 1).ob

/-- The instruction of a row has issued: the row stands at the next word and one issue is counted. -/
def Issued (u t : State) (c j : Nat) : Prop := RowMoved u t c j (((u.cluster c).row j).pc + 1) ∧ IssueCounted u t c

/-- The instruction has issued, and Vd of each lane that the guard selects holds its word of `v`; the flags of those lanes are noted;
nothing else has changed. -/
def RegisterWritten (u t : State) (w : LaneAt) (d : Nat) (v : List (W32 × Nat)) : Prop :=
  let g := (u.cluster w.cluster).selected w
  (t.cluster w.cluster).reg w.row d = mergeLanes g (v.map Prod.fst) ((u.cluster w.cluster).reg w.row d) ∧
  EventsNoted u t w.cluster (laneFlags g v) ∧ Issued u t w.cluster w.row ∧
  LaneFrame u t w.cluster w.row [d] [] [] [.lanes, .fc, .ob]

/-- The instruction has issued, and the registers 2d and 2d + 1 of each lane that the guard selects hold the low and the high words of
its 64-bit value (R199); `flags` by lane are noted where the guard selects; nothing else has changed. -/
def PairWritten (u t : State) (w : LaneAt) (d : Nat) (v : List Nat) (flags : List Nat) : Prop :=
  let g := (u.cluster w.cluster).selected w
  (t.cluster w.cluster).reg w.row (2 * d) = mergeLanes g (v.map pairLo) ((u.cluster w.cluster).reg w.row (2 * d)) ∧
  (t.cluster w.cluster).reg w.row (2 * d + 1) = mergeLanes g (v.map pairHi) ((u.cluster w.cluster).reg w.row (2 * d + 1)) ∧
  EventsNoted u t w.cluster (laneFlags g (flags.map (fun x => ((0 : W32), x)))) ∧ Issued u t w.cluster w.row ∧
  LaneFrame u t w.cluster w.row [2 * d, 2 * d + 1] [] [] [.lanes, .fc, .ob]

/-- The instruction has issued, and PDd of each lane that the guard selects holds its truth value of `v`; PD0 still reads 1 in every
lane (R170); nothing else has changed. -/
def PredicateWritten (u t : State) (w : LaneAt) (d : Nat) (v : List Bool) : Prop :=
  let cl := u.cluster w.cluster
  (t.cluster w.cluster).pred w.row d = (if d = 0 then cl.pred w.row 0 else mergeLanes (cl.selected w) v (cl.pred w.row d)) ∧
  EventsNoted u t w.cluster 0 ∧ Issued u t w.cluster w.row ∧ LaneFrame u t w.cluster w.row [] [d] [] [.lanes, .fc, .ob]

/-! ### Arrays, movers and queues -/

/-- The raw code of element `k` of the tensor at `base` as memory holds it: none for poison, `some none` for an invalid T2 byte
(R123, R124). -/
def MemState.elemAt (m : MemState) (f : Format) (base k : Nat) : Option (Option Nat) :=
  match f with
  | .t2 => (m.readByte (base + k / 5)).map (fun b => (t2Digits b.toNat).map (fun l => l.getD (k % 5) 0))
  | f => (dataNat (m.readData (base + k * f.elemBits / 8) ((k * f.elemBits % 8 + f.elemBits + 7) / 8))).map
      (fun v => some (bitsOf v (k * f.elemBits % 8) f.elemBits))

/-- The value of element `first + i` of a tensor under the scale byte of its block, blocks counted from `first` (R122, R128). -/
def MemState.valueAt (m : MemState) (f : Format) (base scale first i : Nat) : FVal :=
  scaled f (m.elemAt f base (first + i))
    (if f.blockScaled then (m.readByte (scale + first / 32 + i / 32)).map BitVec.toNat else none)

/-- The queues stand as they did, but that an entry of `q` was taken, where `q` names a queue (R160, R281). -/
def WaitTaken (u t : State) (q : Nat) : Prop :=
  ∀ k, t.queue k = if k = q ∧ q ≠ noQueue then (u.queue q).receive else u.queue k

/-- The queues stand as they did, but that `e` was sent on `q` (R260). -/
def SentOn (u t : State) (q : Nat) (e : QEntry) : Prop := ∀ k, t.queue k = if k = q then (u.queue q).send e else u.queue k

/-- The state at time `t` once the bench accesses of die `n` have come so far. -/
def State.atDie (s : State) (t n : Nat) : State := (s.upTo t).benchTo n

/-- At time `t` descriptor `x` of opcode `op` is the next of array `m`'s program and can issue in the ac under way, `ok` telling of its engine
and hazards; `u` is the state in which it does, its data tensor of format `f` at `base` (R160, R169). -/
structure ArrayTurn (s u : State) (m : Nat) (x : ArrayDesc) (op t : Nat) (e : ArrayUpset) (ok : ArrayUnit → Nat → Prop) (ac : Nat)
    (f : Format) (base : Nat) : Prop where
  time : ac = (s.atDie t (dieOfArray m)).acOf (dieOfArray m)
  next : (s.atDie t (dieOfArray m)).arrayNext m x op ac = true
  ready : ok ((s.atDie t (dieOfArray m)).array m) ac
  wait : (s.atDie t (dieOfArray m)).waitOk x.waitQueue = true
  state : u = (s.atDie t (dieOfArray m)).arrayUpset m e
  whole : (u.array m).stopped = false
  tensor : u.tensorAt m x.dataTensor = some (f, base)

/-- The port cycles of a descriptor that issues in `ac`: when each would fall, and when the slot table lets it fall (R163, R164, R688). -/
def State.cyclesOf (u : State) (m : Nat) (x : ArrayDesc) (f : Format) (ac : Nat) : List (Nat × Nat) :=
  u.portCycles (u.ownerOfArray m) (dieOfArray m) (4 * (m % 4) + arrayPort x.opcode) (x.cycles f).2.2 (x.cycles f).1
    (ac + (x.cycles f).2.1)

/-- The ac of the last port cycle. -/
def State.lastCycle (u : State) (m : Nat) (x : ArrayDesc) (f : Format) (ac : Nat) : Nat :=
  ((u.cyclesOf m x f ac).getLast?.map (·.2)).getD ac

/-- Array `m` has issued descriptor `x` in `ac`: the next descriptor may issue from the next ac; this one is outstanding and completes as its
last port cycle says; its bench accesses are on their way and its wait entry is taken; no other array has changed, and nothing outside
arrays, memory, queues and counters. -/
def ArrayIssued (u t : State) (m : Nat) (x : ArrayDesc) (f : Format) (ac : Nat) (badColumns : List Nat) (badPair : Bool) : Prop :=
  (t.array m).nextDesc = (u.array m).nextDesc + 1 ∧ (t.array m).issueFree = ac + 1 ∧
  (t.array m).outstanding = (u.array m).outstanding ++
    [{ desc := x, index := (u.array m).nextDesc, issued := ac, completes := u.lastCycle m x f ac + (x.after f).1, rowsRead := [],
       badColumns := badColumns, badPair := badPair, drainFlags := 0 }] ∧
  t.mem = { u.mem with bench :=
    (arrayAccesses m x (u.array m).nextDesc 0 (u.cyclesOf m x f ac)).foldl (fun l y => insertAccess y l) u.mem.bench } ∧
  WaitTaken u t x.waitQueue ∧ (∀ m', m' ≠ m → t.array m' = u.array m') ∧ Within [.arrays, .mem, .qf, .ob] u t

/-- The foot bank of array `m` holds `word r n` and `flag r` in rows `base` to `base + rows - 1`, columns below `cols`, and what it
held before everywhere else; its planes stand. -/
def FootHolds (u t : State) (m base rows cols : Nat) (word : Nat → Nat → Nat) (flag : Nat → Nat) : Prop :=
  (∀ r n, r < rows → n < cols → (t.array m).footWord m (base + r) n = word r n) ∧
  (∀ r, r < rows → (t.array m).rowFlags m (base + r) = flag r) ∧
  (∀ row n, n < 512 → (¬ (base ≤ row ∧ row < base + rows) ∨ cols ≤ n) → (t.array m).footWord m row n = (u.array m).footWord m row n) ∧
  (∀ row, ¬ (base ≤ row ∧ row < base + rows) → (t.array m).rowFlags m row = (u.array m).rowFlags m row)

/-- What port cycle `c` of a `DRAIN` writes, by address, and whether a value was limited (R139, R155, R688). -/
def drainOut (u : State) (m : Nat) (x : ArrayDesc) (f : Format) (base scale jobFrame c : Nat) : List (Nat × Bytes) × Bool :=
  let q := drainQ f
  let col := 512 / q * (c % q)
  let v := (List.range (min (512 / q) (x.cols - col))).map (fun n => (u.array m).footWord m (x.footBase + c / q) (col + n))
  let first := x.first + c / q * x.stride + col
  if f.mx then
    let y := drainBlocks f x jobFrame first v (List.range (v.length / 32))
    ([(base + first * f.elemBits / 8, y.1), (scale + first / 32, y.2.1)], y.2.2)
  else
    let y := drainPlain f x jobFrame first v
    ([(base + first * f.elemBits / 8, y.1)], y.2)

/-- Stores made in order. -/
def MemState.stores (m : MemState) (l : List (Nat × Bytes)) : MemState := l.foldl (fun m y => m.store y.1 (goodData y.2)) m

/-- A fault raised at time `t`, of module scope unless a partition is given. -/
def raisedOf (t : Nat) (src : Source) (code unit : Nat) (scope : Option Nat) (detail : Nat) (cond : Bool) : Raised :=
  { src := src, msg := { code := code, unit := unit, scope := scope.getD 0xFF, detail := detail, cond := cond }, raisedAt := t }

/-- Exactly these faults have been raised, in this order. -/
def Raises (u t : State) (l : List Raised) : Prop := t.fc = { u.fc with raised := u.fc.raised ++ l }

/-- Two memories hold the same: bytes, what is undefined, poison known and not yet found. -/
def MemState.Holds (m n : MemState) : Prop := m.cells = n.cells ∧ m.lost = n.lost ∧ m.poison = n.poison ∧ m.latent = n.latent

/-- Data as they come from die `a` to die `b`: words with double-bit errors of the crossing are poison (R670). -/
def crossed (a b : Nat) (x : Crossing) (d : Data) : Data := if a = b then d else spoilWords x.bad d

/-- The faults that a crossing from die `a` to die `b` raises (R670, R671). -/
def State.crossRaised (u : State) (a b : Nat) (x : Crossing) : List Raised :=
  if a = b then []
  else (if x.bad = [] then [] else [raisedOf u.now (Source.ofDie b) FC.d2dUncorrected 0xFFFF none 0 false]) ++
    (if x.fixed = true ∧ u.mem.correctedRaised.contains (30 + b) = false then
      [raisedOf u.now (Source.ofDie b) FC.d2dCorrected 0xFFFF none 0 false] else [])

/-- Mover `k` as it stands once its source side has covered `n` bytes more of the oldest descriptor whose source is not done. -/
def Mover.sourced (v : Mover) (n : Nat) : Mover :=
  { v with active := changeIssue (fun j => !j.srcDone) (fun j => { j with srcPos := j.srcPos + n }) v.active }

/-- The same for its destination side: `n` bytes have left the buffer. -/
def Mover.drained (v : Mover) (n : Nat) : Mover :=
  { v with active := changeIssue (fun j => !j.dstDone) (fun j => { j with dstPos := j.dstPos + n, buffer := j.buffer.drop n }) v.active }

/-- Mover `v` with data appended to the buffer of its descriptor number `tag`, there from qc `u` on. -/
def Mover.fed (v : Mover) (tag : Nat) (d : Data) (u : Nat) : Mover :=
  { v with active := changeIssue (fun i => i.tag == tag) (fun i =>
      { i with buffer := i.buffer ++ d, arrived := i.arrived ++ [(i.dstPos + i.buffer.length + d.length, u)] }) v.active }

/-- Only mover `k` of the movers has changed, to `v`. -/
def MoverIs (u t : State) (k : Nat) (v : Mover) : Prop := ∀ k', t.mover k' = if k' = k then v else u.mover k'

/-- The entries and credits of a queue, wherever they are, make up its depth (R258, R260). -/
def Queue.balanced (q : Queue) : Prop := q.visible.length + q.transit.length + q.credits + q.creditsTransit = q.depth

/-! ### The mailbox -/

/-- The rows of the mailbox commands, each with its command. -/
def mailbox : List ((Fin 19 → Nat → Instr) × Cmd) :=
  [(Instr.mpGetStatus, mpGetStatus), (Instr.mpStageImage, mpStageImage), (Instr.mpRestartStandby, mpRestartStandby), (Instr.mpHandover, mpHandover),
   (Instr.mpSetSwitchback, mpSetSwitchback), (Instr.mpSetMgmt, mpSetMgmt), (Instr.modSetState, modSetState), (Instr.modGetState, modGetState),
   (Instr.shimGetStatus, shimGetStatus), (Instr.shimSetPolicy, shimSetPolicy), (Instr.shimGrantLease, shimGrantLease), (Instr.shimSetLimits, shimSetLimits)] ++
  [(Instr.cellGetStatus, cellGetStatus), (Instr.cellGetCells, cellGetCells), (Instr.cellGrantRest, cellGrantRest), (Instr.cellSaveState, cellSaveState),
   (Instr.cellRestoreState, cellRestoreState), (Instr.regGetTelemetry, regGetTelemetry), (Instr.regSetCompensator, regSetCompensator),
   (Instr.regSetTrim, regSetTrim), (Instr.gvGetStatus, gvGetStatus), (Instr.gvSetClamp, gvSetClamp), (Instr.gvSetQuota, gvSetQuota),
   (Instr.gvSetLimits, gvSetLimits), (Instr.gvGetThrottle, gvGetThrottle), (Instr.gvGetEnergy, gvGetEnergy), (Instr.gvGetThermal, gvGetThermal)] ++
  [(Instr.fcGetSummary, fcGetSummary), (Instr.fcGetLog, fcGetLog), (Instr.fcAckFaults, fcAckFaults), (Instr.fcSetLevel, fcSetLevel),
   (Instr.fcInjectFault, fcInjectFault), (Instr.idGetIdentity, idGetIdentity), (Instr.fuseReadGroup, fuseReadGroup), (Instr.obReadCounters, obReadCounters),
   (Instr.obArmSnapshot, obArmSnapshot), (Instr.obReadSnapshot, obReadSnapshot), (Instr.obSetGrant, obSetGrant)] ++
  [(Instr.ftJoinDomain, ftJoinDomain), (Instr.ftLeaveDomain, ftLeaveDomain), (Instr.ftSetDomain, ftSetDomain), (Instr.ftGetFrameStatus, ftGetFrameStatus),
   (Instr.ofGetLinkStatus, ofGetLinkStatus), (Instr.ofSetLinks, ofSetLinks), (Instr.ofSetRoutes, ofSetRoutes), (Instr.ofBindEndpoint, ofBindEndpoint)]

/-- A processor in control serves, the first ready request is `r` in slot `k`, it carries the code of `c`, and steps 1 to 7 of R594 pass:
good header, slot, version and length, a `SEQ` that differs from the slot's last, and room in the journal (R571). -/
structure State.Asks (u : State) (k : Nat) (c : Cmd) (r : Bytes) : Prop where
  serves : u.mpServes = true ∧ u.recoveryServes = false
  strobe : u.strobeDue = false
  first : u.firstReady k c.code = some r
  header : headerStatus r = 0
  accepted : c.via.accepts k = true
  version : rd r 2 1 = 0
  length : c.lengthOk (r.drop 32) = true
  fresh : ∀ l, (u.slot k).last = some l → rd l.1 4 4 ≠ rd r 4 4
  room : journalUsed u.mp.keptJournal + r.length + 4191 ≤ journalSize

/-- The response stands where the requester of slot `k` finds it, and the slot is free (R587, R590, R592). -/
structure Answered (v t : State) (k : Nat) (resp : Bytes) : Prop where
  free : (t.slot k).request = none
  window : k ≤ 16 → ∀ i, i < resp.length → SMap.get (t.slot k).window i 0 = resp.getD i 0
  sent : k = 17 → t.mp.sent = { port := (v.slot 17).replyTo.1, dest := (v.slot 17).replyTo.2, data := resp } :: v.mp.sent
  ready : k = 18 → (t.slot 18).response = some resp

/-- But for the mailbox's slots, its journal and its counts, the state is `v`. -/
def MailOnly (v t : State) : Prop :=
  Within [.host, .mp, .ob] v t ∧
  t.mp = { v.mp with slots := t.mp.slots, readyOrder := t.mp.readyOrder, journal := t.mp.journal, jseq := t.mp.jseq,
                     copyDue := t.mp.copyDue, sent := t.mp.sent } ∧
  t.ob = { v.ob with local32 := t.ob.local32 } ∧ t.host.enabled = v.host.enabled ∧ t.host.records = v.host.records

/-- Request `r` stands in the journal with its response, as the last of its slot (R569, R570). -/
def Journalled (v t : State) (k : Nat) (r resp : Bytes) : Prop :=
  (t.slot k).last = some (r, resp) ∧
  ∃ e, t.mp.journal = v.mp.keptJournal ++ [e] ∧ e.seq = v.mp.jseq + 1 ∧ e.complete = true ∧ e.source = slotSource k ∧ e.request = r ∧
    e.response = resp ∧ t.mp.jseq = e.seq

/-- The command completes: it answers status `st` and `payload` to request `r`, and leaves the state `v` but for the mailbox. -/
def Answers (i : Fin 19 → Nat → Instr) (slot : Fin 19) (t0 : Nat) (s : State) (r : Bytes) (st : Nat) (payload : Bytes) (v : State) :
    Prop :=
  ∃ t, exec (i slot t0) s = .next t ∧
    Answered v t slot (responseBytes r (slotCrc slot) st 0 s.frame.number payload) ∧ MailOnly v t

end Sys2Proof.Machine
end

