-- ==== Sys2Proof/Certificates/Slice0/Obligations.lean ====
section
/-! DEFINITION. The statements made of the model, each a proposition. A statement about a value that the manual leaves open holds for
every value of the constants of Config. -/

open Sys2Proof Sys2Proof.Machine

/-! ### The whole machine -/

/-- A step takes the command at the front of the queue and is that command's effect on the state with the rest of the queue; with nothing
queued the module idles, which is the model's choice (log entry 1). -/
def Obligations.StepRunsTheFrontCommand : Prop :=
  (∀ (c : Instr) (rest : List Instr) (s : State), step { s with pending := c :: rest } = exec c { s with pending := rest }) ∧
  (∀ s : State, s.pending = [] → step s = .next s)

/-- Every step that answers a next state keeps the invariant: the tables of memory, of known poison and of poison not yet found in
canonical form, and a frame number of 48 bits; time does not run back, free values are drawn once each, and the queue loses its front
command alone. -/
def Obligations.EveryStepKeepsTheInvariant : Prop :=
  ∀ s t : State, step s = .next t →
    (Inv s → Inv t) ∧ s.now ≤ t.now ∧ s.free ≤ t.free ∧ t.pending = s.pending.tail

/-- R9, R335, R354, R369, R448, R454, R474, R481, R485, R539, R578, R590, R674: what the manual says a module holds at cold start. Every other
value of the reset state is the model's (log entry 2). The invariant holds at reset. -/
def Obligations.ResetHoldsTheValuesStated : Prop :=
  (let r := State.reset
   r.pending = [] ∧
   r.host.enabled = [] ∧ (∀ p, r.record p = [] ∧ SMap.get r.host.records p [] = []) ∧ r.host.pfIntStatus = 0 ∧ r.host.pfIntEnable = 0 ∧
   r.host.ctrlPending = false ∧ r.host.ctrlResult = 0 ∧
   (∀ p, (r.vf p).intStatus = 0 ∧ (r.vf p).intEnable = 0 ∧ (r.vf p).ringBase = 0 ∧ (r.vf p).ringSizeLog2 = 4 ∧ (r.vf p).ringEnabled = false ∧
     (r.vf p).resultHead = 0 ∧ (r.vf p).resultTail = 0 ∧
     ∀ q ∈ (r.vf p).hqs, q.base = 0 ∧ q.sizeLog2 = 4 ∧ q.enabled = false ∧ q.head = 0 ∧ q.tail = 0) ∧
   r.shim.envelope = 40 ∧
   (∀ k, (r.rail k).active = none ∧ (r.rail k).change = none ∧ ∀ f, nth (r.rail k).trim f 0 = 0) ∧
   r.gov.settings.clampM = 4000 ∧ (∀ n, n < 4 → nth r.gov.settings.clampDie n 0 = 900 ∧ nth r.gov.settings.railCurrent n 0 = 1000 ∧
     nth r.gov.settings.droop n none = none) ∧ r.gov.settings.clampPart = [] ∧ r.gov.settings.quota = [] ∧
   r.gov.entries = [] ∧ (∀ k, SMap.get r.gov.throttle k 0 = 0 ∧ SMap.get r.gov.energy k 0 = 0) ∧
   r.fc.nextSeq = 0 ∧ r.fc.log = [] ∧ r.fc.firstSource = none ∧ (∀ c, (r.classSlot c).recs = []) ∧
   r.mp.switchAuto = false ∧ r.mp.prefixes = [] ∧ r.mp.journal = [] ∧
   (∀ i, SMap.get r.ob.values i 0 = 0 ∧ SMap.get r.ob.local32 i 0 = 0)) ∧
  (Inv State.reset)

/-- What each command may change: every part of the state that `partsOf` does not list for it stands as it did. Every command completes, in
every state and on all operands: no step faults or is refused. A lane command that is not its row's next word at the row's turn stands for
no event, and only time passes; that is the model's choice (log entry 4). -/
def Obligations.CommandsCompleteWithinTheirParts : Prop :=
  (∀ (i : Instr) (s t : State), exec i s = .next t → Within (partsOf i) s t) ∧
  (∀ (i : Instr) (s : State), ∃ t, exec i s = .next t) ∧
  (∀ (i : Instr) (x : LaneIssue) (s : State), laneIssueOf i = some x →
     let u := x.at_ s
     (u.rowTurn x.cluster x.row = false → exec i s = .next u) ∧
     (((u.cluster x.cluster).row x.row).done = false → u.laneWord x.cluster x.row ≠ x.word → exec i s = .next u))

/-! ### Memory -/

/-- R228, R231: bytes stored are the bytes a read returns, every other byte reads as before, and the sparse tables keep their form; a range
whose contents are lost changes no byte outside it. R250: a unit written with a poisoned byte is poisoned; one written whole with good
bytes is not; one poisoned and written in part with good bytes stays poisoned, and known as such only if it was. R250, R251: a read
returns what memory holds; where it meets poison it sets `MEM_POISON_READ` of its partition, and each unit it met is marked; the first
read that finds a unit's error raises its memory's fault, later ones do not; it changes no byte. -/
def Obligations.MemoryHoldsWhatWasStored : Prop :=
  (∀ (m : MemState) (a : Nat) (b : Bytes),
     (∀ i, i < b.length → (m.store a (goodData b)).byteAt (a + i) = b.getD i 0) ∧
     (∀ x, (x < a ∨ a + b.length ≤ x) → (m.store a (goodData b)).byteAt x = m.byteAt x) ∧
     (Memory.wf m = true → SMap.wf m.poison false = true → SMap.wf m.latent false = true →
       Memory.wf (m.store a (goodData b)) = true ∧ SMap.wf (m.store a (goodData b)).poison false = true ∧
       SMap.wf (m.store a (goodData b)).latent false = true) ∧
     (∀ n x, (x < a ∨ a + n ≤ x) → (m.lose a (a + n)).byteAt x = m.byteAt x)) ∧
  (∀ (m : MemState) (a : Nat) (d : Data) (i : Nat), i < d.length →
     let u := poisonUnit (a + i)
     let mine : Nat → Prop := fun j => j < d.length ∧ u.1 ≤ a + j ∧ a + j < u.1 + u.2
     ((∃ j, mine j ∧ d.getD j none = none) → SMap.get (m.store a d).poison u.1 false = true) ∧
     ((∀ j, mine j → d.getD j none ≠ none) → a ≤ u.1 → u.1 + u.2 ≤ a + d.length → (m.store a d).unitPoisoned u.1 u.2 = false) ∧
     ((∀ j, mine j → d.getD j none ≠ none) → ¬ (a ≤ u.1 ∧ u.1 + u.2 ≤ a + d.length) → m.unitPoisoned u.1 u.2 = true →
       (m.store a d).unitPoisoned u.1 u.2 = true ∧ SMap.get (m.store a d).poison u.1 false = SMap.get m.poison u.1 false)) ∧
  (∀ (s : State) (p a n : Nat),
     let r := s.readMem (some p) a n
     let bad := ∃ i, i < n ∧ s.mem.readByte (a + i) = none
     (∀ i, i < n → r.1.getD i none = s.mem.readByte (a + i)) ∧ r.1.length = n ∧
     (∀ x, r.2.mem.byteAt x = s.mem.byteAt x) ∧ (∀ x, r.2.mem.readByte x = s.mem.readByte x) ∧
     (bad → SMap.get r.2.mem.status p 0 = SMap.get s.mem.status p 0 ||| 1) ∧ (¬ bad → r.2.mem = s.mem ∧ r.2.fc = s.fc) ∧
     (∀ i, i < n → s.mem.readByte (a + i) = none → SMap.get r.2.mem.poison (poisonUnit (a + i)).1 false = true) ∧
     (0 < n → (∀ i, i < n → poisonUnit (a + i) = poisonUnit a) → s.mem.readByte a = none →
       let f := detectionFault (poisonUnit a).1
       Raises s r.2 (if SMap.get s.mem.poison (poisonUnit a).1 false then [] else [raisedOf s.now f.2.2 f.1 f.2.1 none 0 false])) ∧
     Within [.mem, .fc, .ob] s r.2)

/-- R129, R148, R192: sums of terms do not depend on their order: of a slot over the lanes of a row, and of an array column over K. -/
def Obligations.SumsAreOrderFree : Prop :=
  (∀ (x : AccSlot) (l r : List (Bool × Nat × Nat)), l.Perm r →
    x.addTerms (l.map Prod.fst) (l.map Prod.snd) = x.addTerms (r.map Prod.fst) (r.map Prod.snd)) ∧
  (∀ (x : AccSlot) (l : List (Bool × Nat × Nat)),
    (x.addTerms (l.map Prod.fst) (l.map Prod.snd)).value % 2 ^ 64 =
      (x.value + (l.map (fun y => if y.1 then y.2.1 else 0)).sum) % 2 ^ 64) ∧
  (∀ (w : Int) (l r : List (FVal × FVal)), l.Perm r →
    columnSum w (l.map Prod.fst) (l.map Prod.snd) = columnSum w (r.map Prod.fst) (r.map Prod.snd)) ∧
  (∀ (w : Int) (l : List (FVal × FVal)),
    (columnSum w (l.map Prod.fst) (l.map Prod.snd)).1 =
      ((l.map (fun y : FVal × FVal => (quantize (y.1.mul y.2) w).1)).sum % 2 ^ 64).toNat)

/-! ### Lanes -/

/-- R185, R204, R206: the word that each integer instruction, immediate, move and special-value instruction leaves in Vd of each selected
lane; no flag is set. -/
def Obligations.LaneIntegerResults : Prop :=
  (∀ (w : LaneAt) (d a b : Fin 16) (p : Fin 8) (s u : State) (i : LaneIssue),
     let cl := u.cluster w.cluster
     let v : (W32 → W32 → W32) → List W32 := fun f => List.zipWith f (cl.reg w.row a) (cl.reg w.row b)
     ∀ x ∈ ([(.laneIadd w d a b, v (· + ·)), (.laneIsub w d a b, v (· - ·)), (.laneImul w d a b, v (· * ·)),
         (.laneImulh w d a b, v (fun x y => BitVec.ofInt 32 (x.toInt * y.toInt / 2 ^ 32))),
         (.laneImulhu w d a b, v (fun x y => BitVec.ofNat 32 (x.toNat * y.toNat / 2 ^ 32))),
         (.laneImin w d a b, v (fun x y => if x.toInt ≤ y.toInt then x else y)),
         (.laneImax w d a b, v (fun x y => if x.toInt ≤ y.toInt then y else x)),
         (.laneUmin w d a b, v (fun x y => if x ≤ y then x else y)),
         (.laneUmax w d a b, v (fun x y => if x ≤ y then y else x)),
         (.laneAnd w d a b, v (· &&& ·)), (.laneOr w d a b, v (· ||| ·)), (.laneXor w d a b, v (· ^^^ ·)),
         (.laneShl w d a b, v (fun x y => x <<< (y.toNat % 32))),
         (.laneShr w d a b, v (fun x y => x >>> (y.toNat % 32))),
         (.laneSar w d a b, v (fun x y => x.sshiftRight (y.toNat % 32))),
         (.laneSel w d a b p, List.zipWith (fun q xy => if q then xy.1 else xy.2) (cl.pred w.row p)
           (List.zip (cl.reg w.row a) (cl.reg w.row b)))] : List (Instr × List W32)),
       Issues x.1 s u i → ∃ t, exec x.1 s = .next t ∧ RegisterWritten u t w d (x.2.map (fun y => (y, 0)))) ∧
  (∀ (w : LaneAt) (d a : Fin 16) (imm : W32) (sel : Fin 9) (s u : State) (i : LaneIssue),
     let cl := u.cluster w.cluster
     let v : (W32 → W32) → List W32 := fun f => (cl.reg w.row a).map f
     let spr : Nat → Nat := fun i =>
       match sel.val with
       | 0 => i | 1 => w.row | 2 => 128 * w.row + i | 3 => w.cluster | 4 => w.cluster / 64
       | 5 => (u.ownerOfCluster w.cluster).getD 0
       | 6 => cl.rowCount
       | 7 => cl.entry.getD 0
       | _ => u.clusterJobFrame w.cluster % 2 ^ 32
     ∀ x ∈ ([(.laneMovi w d imm, (cl.reg w.row 0).map (fun _ => imm)), (.laneIaddi w d a imm, v (· + imm)),
         (.laneAndi w d a imm, v (· &&& imm)), (.laneOri w d a imm, v (· ||| imm)), (.laneXori w d a imm, v (· ^^^ imm)),
         (.laneShli w d a imm, v (· <<< (imm.toNat % 32))), (.laneShri w d a imm, v (· >>> (imm.toNat % 32))),
         (.laneSari w d a imm, v (fun x => x.sshiftRight (imm.toNat % 32))), (.laneMov w d a, v id),
         (.laneSpr w d sel, (List.range 128).map (fun i => BitVec.ofNat 32 (spr i)))] : List (Instr × List W32)),
       Issues x.1 s u i → ∃ t, exec x.1 s = .next t ∧ RegisterWritten u t w d (x.2.map (fun y => (y, 0))))

/-- R205, R206, R210 to R217: the word and the flags of each lane, by the model's arithmetic of binary32, conversions and MX scales; and for
every pair of words R205's rules 3, 4, 7 and 8: a NaN operand gives the canonical NaN without a flag; unlike infinities added, like ones
subtracted, and zero times infinity give it with `AF_INVALID`; `FMIN` and `FMAX` pass over one NaN; `FABS` and `FNEG`. -/
def Obligations.LaneFloatResults : Prop :=
  (∀ (w : LaneAt) (d a b c : Fin 16) (p : Fin 8) (imm : W32) (rnd : LaneRound) (fmt : Format) (pos : Fin 64) (digit : Fin 5)
       (s u : State) (i : LaneIssue),
     let cl := u.cluster w.cluster
     let un : (W32 → W32 × Nat) → List (W32 × Nat) := fun f => (cl.reg w.row a).map f
     let bi : (W32 → W32 → W32 × Nat) → List (W32 × Nat) := fun f => List.zipWith f (cl.reg w.row a) (cl.reg w.row b)
     let tri : (W32 → W32 → W32 → W32 × Nat) → List (W32 × Nat) := fun f =>
       List.zipWith (fun x yz => f x yz.1 yz.2) (cl.reg w.row a) (List.zip (cl.reg w.row b) (cl.reg w.row c))
     let ro : (W32 → Rounding → W32 × Nat) → List (W32 × Nat) := fun f =>
       List.zipWith f (cl.reg w.row a) (cl.roundings w.row rnd (u.clusterJobFrame w.cluster))
     ∀ x ∈ ([(.laneFadd w d a b, bi fadd), (.laneFsub w d a b, bi fsub), (.laneFmul w d a b, bi fmul),
         (.laneFfma w d a b c, tri ffma), (.laneFfms w d a b c, tri ffms),
         (.laneFmin w d a b, bi (fun x y => (fmin x y, 0))), (.laneFmax w d a b, bi (fun x y => (fmax x y, 0))),
         (.laneFabs w d a, un (fun x => (fabs x, 0))), (.laneFneg w d a, un (fun x => (fneg x, 0))),
         (.laneFaddi w d a imm, un (fun x => fadd x imm)), (.laneFmuli w d a imm, un (fun x => fmul x imm)),
         (.laneFrcp w d a, un (laneTrans 0x70)), (.laneFrsqrt w d a, un (laneTrans 0x71)), (.laneFsqrt w d a, un (laneTrans 0x72)),
         (.laneFexp2 w d a, un (laneTrans 0x73)), (.laneFlog2 w d a, un (laneTrans 0x74)), (.laneFexp w d a, un (laneTrans 0x75)),
         (.laneFlog w d a, un (laneTrans 0x76)), (.laneFsinpi w d a, un (laneTrans 0x77)), (.laneFcospi w d a, un (laneTrans 0x78)),
         (.laneFtanh w d a, un (laneTrans 0x79)), (.laneFsigm w d a, un (laneTrans 0x7A)),
         (.laneCvtfi w d a rnd, ro cvtfi), (.laneCvtif w d a rnd, ro cvtif), (.laneCvtfb w d a rnd, ro cvtfb),
         (.laneUnpk w d p fmt pos digit, (cl.pair w.row p).map (fun x => unpk fmt x pos digit)),
         (.laneMxexp w d a fmt, un (mxexp fmt)), (.laneMxdiv w d a b fmt, bi (mxdiv fmt))] : List (Instr × List (W32 × Nat))),
       Issues x.1 s u i → ∃ t, exec x.1 s = .next t ∧ RegisterWritten u t w d x.2) ∧
  (let nan : W32 → Prop := fun x => x.toNat / 2 ^ 23 % 256 = 255 ∧ x.toNat % 2 ^ 23 ≠ 0
   let inf : Bool → W32 := fun n => if n then 0xFF800000#32 else 0x7F800000#32
   (∀ x y : W32, nan x ∨ nan y → ∀ f ∈ [fadd, fsub, fmul], f x y = (0x7FC00000#32, 0)) ∧
   (∀ x y z : W32, nan x ∨ nan y ∨ nan z → ffma x y z = (0x7FC00000#32, 0) ∧ ffms x y z = (0x7FC00000#32, 0)) ∧
   (∀ n : Bool, fadd (inf n) (inf !n) = (0x7FC00000#32, 1) ∧ fsub (inf n) (inf n) = (0x7FC00000#32, 1)) ∧
   (∀ n m : Bool, fmul (inf n) (if m then 0x80000000#32 else 0) = (0x7FC00000#32, 1)) ∧
   (∀ x y : W32, nan x → ¬ nan y → fmin x y = y ∧ fmin y x = y ∧ fmax x y = y ∧ fmax y x = y) ∧
   (∀ x y : W32, nan x → nan y → fmin x y = 0x7FC00000#32 ∧ fmax x y = 0x7FC00000#32) ∧
   fmin 0 0x80000000#32 = 0x80000000#32 ∧ fmin 0x80000000#32 0 = 0x80000000#32 ∧
   fmax 0 0x80000000#32 = 0 ∧ fmax 0x80000000#32 0 = 0 ∧
   (∀ x : W32, nan x → fabs x = 0x7FC00000#32 ∧ fneg x = 0x7FC00000#32) ∧
   (∀ x : W32, ¬ nan x → (fabs x).toNat = x.toNat % 2 ^ 31 ∧ (fneg x).toNat = (x.toNat + 2 ^ 31) % 2 ^ 32))

/-- R206 to R211, R222: instructions that write the register pair Vd:Vd+1; predicates; and what crosses lanes. Lane i belongs to the group
whose first lane is i / 2^g x 2^g; every source lane is read but by `XRED`, whose lanes that the guard leaves out count as the reduction's
identity. -/
def Obligations.LanePairPredicateAndCrossResults : Prop :=
  (∀ (w : LaneAt) (d a b : Fin 8) (x y : Fin 16) (by_ : BitVec 32) (fmt : Format) (pos : Fin 64) (rnd : LaneRound) (slot : Fin 64)
       (s u : State) (i : LaneIssue),
     let cl := u.cluster w.cluster
     let both := cl.reg w.row x ++ cl.reg w.row y
     let packed := List.zipWith (packElem fmt) (cl.reg w.row x) (cl.roundings w.row rnd (u.clusterJobFrame w.cluster))
     let zip : Nat → List W32 := fun base => (List.range 128).map (fun i =>
       let v := (cl.pair w.row a).getD (base + i / 2) 0
       BitVec.ofNat 32 (if i % 2 = 0 then v else v / 2 ^ 32))
     ∀ z ∈ ([(.laneWadd w d a b, List.zipWith (fun m n => (m + n) % 2 ^ 64) (cl.pair w.row a) (cl.pair w.row b), []),
         (.laneWshift w d a by_, (cl.pair w.row a).map (fun m => (wshift m by_.toInt).1),
           (cl.pair w.row a).map (fun m => (wshift m by_.toInt).2)),
         (.lanePack w d x fmt pos rnd, List.zipWith (fun m e => packInto m pos (laneElemWidth fmt) e.1) (cl.pair w.row d) packed,
           packed.map Prod.snd),
         (.laneXunzip w d x y, (List.range 128).map (fun i =>
           (both.getD (2 * i) 0).toNat + 2 ^ 32 * (both.getD (2 * i + 1) 0).toNat), []),
         (.laneXzip w d a, List.zipWith (fun m n => m.toNat + 2 ^ 32 * n.toNat) (zip 0) (zip 64), []),
         (.laneSlcvt w slot ⟨2 * d.val, by omega⟩ .wa64 rnd,
           List.replicate 128 (SMap.get cl.slots slot AccSlot.zero).value, [])] : List (Instr × List Nat × List Nat)),
       Issues z.1 s u i → ∃ t, exec z.1 s = .next t ∧ PairWritten u t w d z.2.1 z.2.2) ∧
  (∀ (w : LaneAt) (d p q : Fin 8) (a b : Fin 16) (fc : Fin 8) (ic : Fin 10) (classes : Fin 512) (op : Fin 4)
       (s u : State) (i : LaneIssue),
     let cl := u.cluster w.cluster
     ∀ x ∈ ([(.laneFcmp w d a b fc, List.zipWith (fcmp fc) (cl.reg w.row a) (cl.reg w.row b)),
         (.laneIcmp w d a b ic, List.zipWith (fun m n => match ic.val with
             | 0 => decide (m = n) | 1 => decide (m ≠ n)
             | 2 => decide (m.toInt < n.toInt) | 3 => decide (m.toInt ≤ n.toInt)
             | 4 => decide (n.toInt < m.toInt) | 5 => decide (n.toInt ≤ m.toInt)
             | 6 => decide (m < n) | 7 => decide (m ≤ n) | 8 => decide (n < m) | _ => decide (n ≤ m))
           (cl.reg w.row a) (cl.reg w.row b)),
         (.laneFclass w d a classes, (cl.reg w.row a).map (fun m => classes.val.testBit (fclassOf m))),
         (.lanePlog w d p q op, List.zipWith (fun m n => match op.val with
             | 0 => m && n | 1 => m || n | 2 => m != n | _ => m && !n) (cl.pred w.row p) (cl.pred w.row q)),
         (.lanePset w d a, (cl.reg w.row a).map (fun m => m.toNat.testBit 0))] : List (Instr × List Bool)),
       Issues x.1 s u i → ∃ t, exec x.1 s = .next t ∧ PredicateWritten u t w d x.2) ∧
  (∀ (w : LaneAt) (d a : Fin 16) (p : Fin 8) (sub : Fin 12) (g : Fin 8) (k : Fin 128) (s u : State) (i : LaneIssue),
     let cl := u.cluster w.cluster
     let src : Nat → W32 := fun i => (cl.reg w.row a).getD i 0
     let first : Nat → Nat := fun i => i / 2 ^ g.val * 2 ^ g.val
     let bit : Nat → Nat := fun i => if (cl.pred w.row p)[i]? = some true then 1 else 0
     ∀ x ∈ ([(.laneXred w d a sub g, xredRow sub g (List.zipWith (fun b y => (if b then y else xredIdentity sub, 0)) (cl.selected w)
           (cl.reg w.row a))),
         (.laneXrot w d a g k, (List.range 128).map (fun i => (src (first i + (i - first i + k.val) % 2 ^ g.val), 0))),
         (.laneXbcast w d a g k, (List.range 128).map (fun i => (src (first i + k.val), 0))),
         (.lanePballot w d p, (List.range 128).map (fun m =>
           (BitVec.ofNat 32 (if m < 4 then ((List.range 32).map (fun i => bit (32 * m + i) * 2 ^ i)).sum else 0), 0))),
         (.lanePcount w d p, List.replicate 128 (BitVec.ofNat 32 ((cl.pred w.row p).count true), 0))] : List (Instr × List (W32 × Nat))),
       Issues x.1 s u i → ∃ t, exec x.1 s = .next t ∧ RegisterWritten u t w d x.2)

/-- R200: lane by lane, a destination of 128 lanes takes the new word where the guard holds and keeps its word elsewhere; and the flags of an
instruction are those of the lanes its guard selects. R183, R170: a guard selects the lanes in which its predicate, inverted by the
polarity bit, is 1; PD0 reads 1 in every lane, whatever has been written to it. R171, R173, R174: rows take turns in rotation. In an lc at
most one row of a cluster has its turn, the one whose number is the lc counted from the entry's first, modulo `ROW_COUNT`, and it takes it
once; a row that has issued `END` leaves its turn empty, which is counted and nothing else. R196: storage errors met at a turn. A parity
error stops the cluster for the frame, and its rows have no further turn; a register word hit by a double-bit error becomes zero, a slot
zero with `WA_INVALID` set; each raises its fault, and a word that fails its check does nothing else. -/
def Obligations.LaneTurnsAndGuards : Prop :=
  (∀ (g : List Bool) (new : List (W32 × Nat)) (old : List W32), g.length = 128 → new.length = 128 → old.length = 128 →
     (∀ i < 128, (mergeLanes g (new.map Prod.fst) old)[i]? = if g[i]? = some true then (new[i]?).map Prod.fst else old[i]?) ∧
     (∀ k, (laneFlags g new).testBit k = (List.range 128).any (fun i => g[i]? == some true && ((new[i]?).elim 0 Prod.snd).testBit k))) ∧
  (∀ (cl : Cluster) (w : LaneAt) (p : List Bool),
     cl.selected w = (cl.pred w.row w.guard).map (fun b => xor b w.invert) ∧
     cl.pred w.row 0 = List.replicate 128 true ∧ (cl.setPred w.row 0 p) = cl) ∧
  ((∀ (s : State) (c : Fin 256) (j : Nat), s.rowTurn c j = true →
     let cl := s.cluster c
     j < cl.rowCount ∧ (∃ k : Nat, s.lcOf (c.val / 64) = cl.origin + (k : Int) ∧ k % cl.rowCount = j) ∧ cl.entry ≠ none ∧
     cl.stopped = false ∧ (∀ j', s.rowTurn c j' = true → j' = j) ∧ ∀ j', (s.takeTurn c).rowTurn c j' = false) ∧
   (∀ (i : Instr) (x : LaneIssue) (s : State), laneIssueOf i = some x →
     let u := x.at_ s
     (u.rowTurn x.cluster x.row = true → ((u.cluster x.cluster).row x.row).done = true →
       exec i s = .next ((u.takeTurn x.cluster).bump (0x091 + 4 * x.cluster.val) 1)))) ∧
  (∀ (c : Fin 256) (j : Fin 64) (v : Fin 16) (i : Fin 128) (k : Fin 64) (s : State),
     let none_ := LaneUpset.none
     let raised : State → Nat → Prop := fun t code =>
       Raises s t [raisedOf s.now (Source.ofDie (c.val / 64)) code (0x1000 + c.val) (s.ownerOfCluster c) 0 false]
     let stopped := s.laneUpset c j { none_ with parity := true }
     let zeroed := s.laneUpset c j { none_ with regs := [(v, i, true)] }
     let fixed := s.laneUpset c j { none_ with regs := [(v, i, false)] }
     let slot := s.laneUpset c j { none_ with slots := [k] }
     s.laneUpset c j none_ = s ∧
     ((stopped.cluster c).stopped = true ∧ (∀ j', stopped.rowTurn c j' = false) ∧ raised stopped 0x0815) ∧
     ((zeroed.cluster c).reg j v = ((s.cluster c).reg j v).set i 0 ∧ raised zeroed 0x0813) ∧
     (fixed.lanes = s.lanes ∧ raised fixed 0x0812) ∧
     (SMap.get (slot.cluster c).slots k AccSlot.zero =
       { SMap.get (s.cluster c).slots k AccSlot.zero with
         value := 0, flags := (SMap.get (s.cluster c).slots k AccSlot.zero).flags ||| 4 } ∧ raised slot 0x0814) ∧
     (∀ (w : Instr) (x : LaneIssue), laneIssueOf w = some x → (x.at_ s).rowTurn x.cluster x.row = true →
       (((x.at_ s).cluster x.cluster).row x.row).done = false → (x.at_ s).laneWord x.cluster x.row = x.word → x.upset.parity = true →
       exec w s = .next (((x.at_ s).takeTurn x.cluster).laneUpset x.cluster x.row x.upset)))

/-- R174, R187, R189: bench accesses of lanes. In an lc whose qc the bench table grants the cluster's port, a load or store of lanes, of a
slot's flags or of a slot issues, and its access is on its way, to take effect in the second lc after; without the grant the turn is
skipped, which is counted and nothing else. R189, R267, R683 step 6: bench accesses take effect in order of their edges; those of one edge
reads before writes, then by port. A new access goes behind those that come no later, and no other changes place; what is due before the
root cycle under way has taken effect, in that order. R186, R188, R218, R250: a load takes effect. Each selected lane takes the word at
its offset, aligned: 0 outside the partition's bench ranges, else the little-endian word in memory, 0 where it is poisoned; no byte of
memory changes. R189, R218: a store takes effect. A byte that no storing lane addresses is as it was; the word at the address of a storing
lane holds that lane's word, unless a higher lane stores the same word. -/
def Obligations.LaneLoadsAndStores : Prop :=
  (∀ (w : LaneAt) (d a b : Fin 16) (imm : W32) (part : Fin 16) (k : Fin 64) (withFlag : Bool) (s u : State) (i : LaneIssue),
     let c := w.cluster
     let r : RowAt := { cluster := c, row := w.row, t := w.t, upset := w.upset }
     let cl := u.cluster c
     let die := c.val / 64
     let lc := u.lcOf die
     let g := cl.selected w
     let base := ((cl.reg w.row a).headD 0 + imm).toNat
     let row := (List.range 128).map (fun i => base + 4 * i)
     let own := (cl.reg w.row a).map (fun y => (y + imm).toNat)
     let ofPart := List.zipWith (fun b i => b && i / 8 == part.val) g (List.range 128)
     let slot := SMap.get cl.slots k AccSlot.zero
     ∀ x ∈ ([(.laneLdr w d a imm, false, .laneLoad c w.row d (List.zip g row)),
         (.laneLdb w d a imm, false, .laneLoad c w.row d (List.zip g (List.replicate 128 base))),
         (.laneLdp w d a imm part, false, .laneLoad c w.row d (List.zip ofPart own)),
         (.laneStr w d a imm, true, .laneStore c (List.zip g (List.zip row (cl.reg w.row d)))),
         (.laneStp w d a imm part, true, .laneStore c (List.zip ofPart (List.zip own (cl.reg w.row d)))),
         (.laneSlfm r k a, false, .slotLoad c k ((cl.reg w.row a).headD 0).toNat),
         (.laneSlst r k a b withFlag, true, .slotStore c (((cl.reg w.row a).headD 0).toNat / 8 * 8) slot.value
           (if withFlag then some ((cl.reg w.row b).headD 0).toNat else none) slot.flags)] : List (Instr × Bool × BenchAct)),
       Issues x.1 s u i →
       (u.benchGrant (u.ownerOfCluster c) die (16 + c.val % 64) (lc / 2) = true →
         let y : BenchAccess :=
           { die := die, due := 3 * (lc + 2), nominal := 3 * (lc + 2), write := x.2.1, port := 16 + c.val % 64, act := x.2.2 }
         ∃ t, exec x.1 s = .next t ∧ t.mem = { u.mem with bench := insertAccess y u.mem.bench } ∧
           Issued u t c w.row ∧ LaneFrame u t c w.row [] [] [] [.lanes, .mem, .ob]) ∧
       (u.benchGrant (u.ownerOfCluster c) die (16 + c.val % 64) (lc / 2) = false →
         exec x.1 s = .next (u.bump (0x092 + 4 * c.val) 1))) ∧
  ((∀ (x y : BenchAccess), x.before y = true ↔
     x.due < y.due ∨ (x.due = y.due ∧ ((x.write = false ∧ y.write = true) ∨ (x.write = y.write ∧ x.port < y.port)))) ∧
   (∀ (x : BenchAccess) (l : List BenchAccess), l.Pairwise (fun y z => z.before y = false) →
     (insertAccess x l).Pairwise (fun y z => z.before y = false) ∧
     ∃ a b, l = a ++ b ∧ insertAccess x l = a ++ x :: b) ∧
   (∀ (s : State) (n : Nat),
     let now := s.mem.bench.filter (fun x => x.die == n && decide (x.due < s.rc n))
     let left := s.mem.bench.filter (fun x => !(x.die == n && decide (x.due < s.rc n)))
     s.benchTo n = now.foldl (fun u x => u.runAccess x) { s with mem := { s.mem with bench := left } })) ∧
  ((∀ (s : State) (x : BenchAccess) (c : Fin 256) (j : Fin 64) (d : Fin 16) (lanes : List (Bool × Nat)), x.act = .laneLoad c j d lanes →
     let t := s.runAccess x
     (t.cluster c).reg j d = mergeLanes (lanes.map Prod.fst) (s.loadLanes c lanes).1 ((s.cluster c).reg j d) ∧
     t.mem.cells = s.mem.cells ∧ t.mem.lost = s.mem.lost ∧ (∀ c' j', (t.cluster c').row j' = (s.cluster c').row j') ∧
     LaneFrame s t c j [d.val] [] [] [.lanes, .mem, .fc, .ob]) ∧
   (∀ (s : State) (c : Fin 256) (lanes : List (Bool × Nat)) (i : Nat) (g : Bool) (off : Nat), lanes[i]? = some (g, off) →
     let a := off / 4 * 4
     let inBench := ∃ p, s.ownerOfCluster c = some p ∧ a + 4 ≤ 201326592 ∧ s.owns p (c.val / 64 * 0x10000000 + a) 4 = true
     ((g = false ∨ ¬ inBench) → (s.loadLanes c lanes).1[i]? = some 0) ∧
     (g = true → inBench → (s.loadLanes c lanes).1[i]? = some
       (match s.mem.readData (c.val / 64 * 0x10000000 + a) 4 with
       | [some b0, some b1, some b2, some b3] => b3 ++ b2 ++ b1 ++ b0
       | _ => 0)))) ∧
  (∀ (s : State) (x : BenchAccess) (c : Fin 256) (lanes : List (Bool × Nat × W32)), x.act = .laneStore c lanes →
     let t := s.runAccess x
     let word : Nat → Nat := fun off => c.val / 64 * 0x10000000 + off / 4 * 4
     let stores : Nat → Nat → W32 → Prop := fun i off v => lanes[i]? = some (true, off, v) ∧ s.benchOk c (off / 4 * 4) 4 = true
     (∀ y, (∀ i off v, stores i off v → y < word off ∨ word off + 4 ≤ y) → t.mem.byteAt y = s.mem.byteAt y) ∧
     (∀ i off v, stores i off v → (∀ i' off' v', i < i' → stores i' off' v' → off / 4 ≠ off' / 4) →
       ∀ n < 4, t.mem.byteAt (word off + n) = BitVec.ofNat 8 (v.toNat / 256 ^ n)) ∧
     (∀ c' j', (t.cluster c').row j' = (s.cluster c').row j') ∧ LaneFrame s t c 0 [] [] [] [.lanes, .mem, .fc])

/-- R190, R191, R219, R220: queue instructions. With a credit a send takes it and puts one entry in transit: Vd of all 128 lanes, or a signal;
with an entry a receive takes the oldest: `QRECV` writes its words to the selected lanes, zeros and `AF_INVALID` for a signal. Without,
the turn is skipped, which is counted and nothing else. R192, R193, R221, R222: accumulation slots: set, reduced into and converted; and,
when their accesses take effect, ORed with the flags of a bench byte, or stored to bench with their flags. -/
def Obligations.LaneQueuesAndSlots : Prop :=
  (∀ (w : LaneAt) (d : Fin 16) (q : Fin 65536) (s u : State) (i : LaneIssue),
     let r : RowAt := { cluster := w.cluster, row := w.row, t := w.t, upset := w.upset }
     let cl := u.cluster w.cluster
     let x := u.queue q
     let moved : State → Queue → Prop := fun t y => t.queue q = y ∧ (∀ k, k ≠ q.val → t.queue k = u.queue k) ∧
       RowMoved u t w.cluster w.row ((cl.row w.row).pc + 1) ∧ t.mem = u.mem
     let sent : Instr → QEntry → Prop := fun ins e => Issues ins s u i →
       (x.canSend = true → ∃ t, exec ins s = .next t ∧ moved t { x with credits := x.credits - 1, transit := x.transit ++ [e] } ∧
         LaneFrame u t w.cluster w.row [] [] [] [.lanes, .qf, .ob]) ∧
       (x.canSend = false → exec ins s = .next (u.bump (0x093 + 4 * w.cluster.val) 1))
     sent (.laneQsend r d q) { data := some (goodData ((cl.reg w.row d).flatMap (fun y => leBytes 4 y.toNat))) } ∧
     sent (.laneQsig r q) { data := none } ∧
     (∀ e rest, x.canReceive = true → x.visible = e :: rest →
       (Issues (.laneQrecv w d q) s u i → ∃ t, exec (.laneQrecv w d q) s = .next t ∧
         moved t { x with visible := rest, creditsTransit := x.creditsTransit + 1 } ∧
         (t.cluster w.cluster).reg w.row d = mergeLanes (cl.selected w) (entryWords (some e)).1 (cl.reg w.row d) ∧
         EventsNoted u t w.cluster (if (cl.selected w).any id then (entryWords (some e)).2 else 0) ∧
         LaneFrame u t w.cluster w.row [d] [] [] [.lanes, .qf, .fc, .ob]) ∧
       (Issues (.laneQwait r q) s u i → ∃ t, exec (.laneQwait r q) s = .next t ∧
         moved t { x with visible := rest, creditsTransit := x.creditsTransit + 1 } ∧
         LaneFrame u t w.cluster w.row [] [] [] [.lanes, .qf, .ob])) ∧
     (x.canReceive = false → ∀ ins ∈ [Instr.laneQrecv w d q, .laneQwait r q], Issues ins s u i →
       exec ins s = .next (u.bump (0x093 + 4 * w.cluster.val) 1))) ∧
  ((∀ (w : LaneAt) (k : Fin 64) (a d : Fin 16) (win : Int) (sub : Fin 4) (fmt : Format) (rnd : LaneRound) (s u : State) (i : LaneIssue),
     let r : RowAt := { cluster := w.cluster, row := w.row, t := w.t, upset := w.upset }
     let c := w.cluster
     let cl := u.cluster c
     let x := SMap.get cl.slots k AccSlot.zero
     let slot : State → AccSlot := fun t => SMap.get (t.cluster c).slots k AccSlot.zero
     (Issues (.laneSlset r k win) s u i → ∃ t, exec (.laneSlset r k win) s = .next t ∧
       slot t = { value := 0, flags := 0, window := win } ∧ Issued u t c w.row ∧ LaneFrame u t c w.row [] [] [k] [.lanes, .fc, .ob]) ∧
     (Issues (.laneRed w k a sub) s u i → ∃ t, exec (.laneRed w k a sub) s = .next t ∧
       slot t = x.addTerms (cl.selected w) (redTerms sub x.window (cl.reg w.row a) (cl.reg w.row (a + 1))) ∧ Issued u t c w.row ∧
       LaneFrame u t c w.row [] [] [k] [.lanes, .fc, .ob]) ∧
     (fmt ≠ .wa64 → Issues (.laneSlcvt w k d fmt rnd) s u i → ∃ t, exec (.laneSlcvt w k d fmt rnd) s = .next t ∧
       RegisterWritten u t w d ((cl.roundings w.row rnd (u.clusterJobFrame c)).map (slotConvert fmt x)))) ∧
   (∀ (s : State) (y : BenchAccess) (c : Fin 256) (k : Fin 64) (off : Nat), y.act = .slotLoad c k off →
     let x := SMap.get (s.cluster c).slots k AccSlot.zero
     let t := s.runAccess y
     (∀ v, s.benchOk c off 1 = true → s.mem.readData (c.val / 64 * 0x10000000 + off) 1 = [some v] →
       SMap.get (t.cluster c).slots k AccSlot.zero = { x with flags := x.flags ||| v.toNat % 16 }) ∧
     (s.benchOk c off 1 = false → SMap.get (t.cluster c).slots k AccSlot.zero = x) ∧
     LaneFrame s t c 0 [] [] [k] [.lanes, .mem, .fc, .ob] ∧ t.mem.cells = s.mem.cells) ∧
   (∀ (s : State) (y : BenchAccess) (c : Fin 256) (off v : Nat) (flagAt : Option Nat) (flags : Nat),
     y.act = .slotStore c off v flagAt flags →
     let home := c.val / 64 * 0x10000000
     let m1 := if s.benchOk c off 8 then s.mem.store (home + off) (goodData (leBytes 8 v)) else s.mem
     let m2 := flagAt.elim m1 (fun b => if s.benchOk c b 1 then
         m1.store (home + b) [some (BitVec.ofNat 8 ((m1.byteAt (home + b)).toNat ||| flags))]
       else m1)
     let t := s.runAccess y
     t.mem = m2 ∧
     (∀ p, SMap.get t.arrays.frameFlags p 0 =
       if s.ownerOfCluster c = some p then SMap.get s.arrays.frameFlags p 0 ||| flags else SMap.get s.arrays.frameFlags p 0) ∧
     LaneFrame s t c 0 [] [] [] [.lanes, .arrays, .mem, .fc]))

/-- R223 to R225: control. Branches take the row to their target and leave every loop whose `LOOPEND` lies before it; a loop level holds
min(n, `MAX_TRIP`) and the index of its `LOOP`; `LOOPEND` counts it down and goes back until it is done. -/
def Obligations.LaneControlFlow : Prop :=
  ∀ (r : RowAt) (all pol : Bool) (p : Fin 8) (target : Fin 1024) (trip : Option (Fin 16)) (imm maxTrip : Fin 65536) (s u : State)
      (i : LaneIssue),
    let c := r.cluster
    let cl := u.cluster c
    let row := cl.row r.row
    let hold := (cl.pred r.row p).map (fun b => xor b pol)
    let jumped : RowCtl := { row with pc := target.val, stack := row.stack.filter (fun l => decide (target.val ≤ l.stop)) }
    let n := match trip with
      | some v => ((cl.reg r.row v).headD 0).toNat
      | none => imm.val
    let goes : Instr → RowCtl → Prop := fun ins x => Issues ins s u i → ∃ t, exec ins s = .next t ∧ (t.cluster c).row r.row = x ∧
      (∀ c' j', (c' ≠ c.val ∨ j' ≠ r.row.val) → (t.cluster c').row j' = (u.cluster c').row j') ∧ IssueCounted u t c ∧
      LaneFrame u t c r.row [] [] [] [.lanes, .fc, .ob] ∧ t.lanes.arith = u.lanes.arith
    goes (.laneNop r) { row with pc := (row.pc + 1) % 1024 } ∧
    goes (.laneEnd r) { row with done := true } ∧
    goes (.laneJmp r target) jumped ∧
    goes (.laneBr r all p pol target)
      (if (if all then hold.all id else hold.any id) then jumped else { row with pc := (row.pc + 1) % 1024 }) ∧
    goes (.laneLoop r trip imm maxTrip target)
      (if n = 0 then { row with pc := (target.val + 1) % 1024 }
       else { row with pc := (row.pc + 1) % 1024,
                       stack := { left := min n maxTrip, start := row.pc, stop := target.val } :: row.stack }) ∧
    (∀ lev rest, row.stack = lev :: rest →
      goes (.laneLoopend r p)
        (if lev.left - 1 = 0 ∨ (cl.pred r.row p).all (fun b => !b) = true then { row with pc := (row.pc + 1) % 1024, stack := rest }
         else { row with pc := (lev.start + 1) % 1024, stack := { lev with left := lev.left - 1 } :: rest }))

/-! ### Arrays -/

/-- R158, R160, R169: order of issue. A descriptor issues only if it is the next of its array's program, its engine and its hazards let it,
and its wait queue has an entry; else only time passes. One that fails its parity check stops the array and does nothing else. R149 to
R151, R163: `LOAD` issues. Passes on its plane take their sums first; the plane then names its format, `K_USED` and `COLS` and holds
nothing yet; the engine is free after the last column, and a `PASS` on the plane may issue from the ac after the first. R154, R155, R163:
`FOOT_LOAD` and `DRAIN` issue; the foot engine is free after the last port cycle of each; nothing has moved yet. R163, R164, R688: port
cycles. The first falls its number of ac after issue, each other its gap after the one before; where the bench table withholds a cycle it
falls in the first ac granted, and all that follow come later by as much. With nothing withheld a descriptor completes at R163's time.
R147, R149, R168, R250, R688: port cycles that read operands, each when it falls due. One column of a `LOAD` enters its plane: every
element code and scale byte, what is invalid or poisoned as the zero code or the scale 0xFF, and such a column is marked. One row of a
`PASS` is read, elements and scale bytes. No byte of memory changes. R154 to R156, R688: port cycles of the foot. A cycle of a `FOOT_LOAD`
brings half a row, 256 words, and in its first half the flag byte; a poisoned word becomes zero and sets its row's `WA_INVALID`. A cycle
of a `DRAIN` converts 512 / Q words of a row, rounds them by the frame in which it writes them, and stores them; the flags are kept, and
ORed into the flag byte and the partition's frame byte when the last row has been written. -/
def Obligations.ArrayMovesItsOperands : Prop :=
  (∀ (m : Fin 16) (x : ArrayDesc) (t : Nat) (e : ArrayUpset) (s : State),
     let b := s.atDie t (m.val / 4)
     let ac := b.acOf (m.val / 4)
     let v := b.array m
     ∀ r ∈ ([(.arrayLoad m x t e, 1, v.loadFree ≤ ac ∧ nth v.loadAfter x.plane 0 ≤ ac),
         (.arrayPass m x t e, 2, v.passFree ≤ ac ∧ nth v.passAfter x.plane 0 ≤ ac ∧ v.footClear x ac = true),
         (.arrayFootLoad m x t e, 3, v.footFree ≤ ac ∧ v.footClear x ac = true),
         (.arrayDrain m x t e, 4, v.footFree ≤ ac ∧ v.footClear x ac = true)] : List (Instr × Nat × Prop)),
       let can := b.arrayNext m x r.2.1 ac = true ∧ r.2.2 ∧ b.waitOk x.waitQueue = true
       (¬ can → exec r.1 s = .next b) ∧
       (can → x = b.nextArrayDesc m ∧ x.opcode = r.2.1 ∧ v.issueFree ≤ ac) ∧
       (can → e.parity = true → exec r.1 s = .next (b.arrayUpset m e) ∧ ((b.arrayUpset m e).array m).stopped = true)) ∧
  (∀ (m : Fin 16) (x : ArrayDesc) (t : Nat) (e : ArrayUpset) (s u : State) (ac : Nat) (f : Format) (base : Nat),
     let v := u.finishPasses m x.plane
     let last := v.lastCycle m x f ac
     ArrayTurn s u m x 1 t e (fun a ac => a.loadFree ≤ ac ∧ nth a.loadAfter x.plane 0 ≤ ac) ac f base →
     ∃ r, exec (.arrayLoad m x t e) s = .next r ∧ ArrayIssued v r m x f ac [] false ∧
       (let pl := (r.array m).plane x.plane
        pl.loaded = true ∧ pl.kUsed = x.kUsed ∧ pl.cols = x.cols ∧ Format.ofCode pl.format = some f ∧ pl.weights = [] ∧ pl.scales = [] ∧
        pl.invalidCols = []) ∧
       (∀ p, p ≠ x.plane → (r.array m).plane p = (u.array m).plane p) ∧
       (r.array m).foot = (v.array m).foot ∧ (r.array m).footFlags = (v.array m).footFlags ∧
       (r.array m).loadFree = last + 1 ∧ (r.array m).passAfter = setNth (u.array m).passAfter x.plane (last + 2 - x.cols)) ∧
  (∀ (m : Fin 16) (x : ArrayDesc) (t : Nat) (e : ArrayUpset) (s u : State) (ac : Nat) (f : Format) (base : Nat),
     ∀ i ∈ ([(.arrayFootLoad m x t e, 3, 9), (.arrayDrain m x t e, 4, 1)] : List (Instr × Nat × Nat)),
       ArrayTurn s u m x i.2.1 t e (fun a ac => a.footFree ≤ ac ∧ a.footClear x ac = true) ac f base →
       ∃ r, exec i.1 s = .next r ∧ ArrayIssued u r m x f ac [] false ∧ (r.array m).footFree = u.lastCycle m x f ac + i.2.2 ∧
         (r.array m).foot = (u.array m).foot ∧ (r.array m).footFlags = (u.array m).footFlags ∧
         (∀ p, (r.array m).plane p = (u.array m).plane p)) ∧
  (∀ (u : State) (m : Fin 16) (x : ArrayDesc) (f : Format) (ac : Nat),
     let l := u.cyclesOf m x f ac
     let port := 4 * (m.val % 4) + arrayPort x.opcode
     let done := u.lastCycle m x f ac + (x.after f).1
     let whole := ∀ y ∈ l, y.2 = y.1
     l.length = (x.cycles f).1 ∧ (∀ y, l.head? = some y → y.1 = ac + (x.cycles f).2.1) ∧
     (∀ (k : Nat) y z, l[k]? = some y → l[k + 1]? = some z → z.1 = y.2 + (x.cycles f).2.2) ∧
     (∀ tab y, u.slotTable (u.ownerOfArray m) (m.val / 4) = some tab → y ∈ l → y.2 < neverAc →
       y.1 ≤ y.2 ∧ tab.grants port (4 * y.2 / 6 % tab.periodQc) = true ∧
       ∀ a, y.1 ≤ a → a < y.2 → tab.grants port (4 * a / 6 % tab.periodQc) = false) ∧
     (whole → x.opcode = 1 → 0 < x.cols → done = ac + 3 + x.cols) ∧
     (whole → x.opcode = 2 → 0 < x.rows → done = ac + 1030 + (if f = .bf16 then 2 else 1) * (x.rows - 1)) ∧
     (whole → x.opcode = 3 → 0 < x.rows → done = ac + 8 + 2 * x.rows) ∧
     (whole → x.opcode = 4 → 0 < x.rows → done = ac + 6 + drainQ f * x.rows)) ∧
  (∀ (s : State) (y : BenchAccess) (m : Fin 16) (i : ArrayIssue) (c : Nat) (f : Format) (base : Nat),
     let u := s.array m
     let x := i.desc
     let t := s.runAccess y
     let first := x.first + c * x.stride
     let scale := s.scaleAt m x.scaleTensor + first / 32
     let elem := fun k => s.mem.elemAt f base (first + k)
     let byte := fun j => (s.mem.readByte (scale + j)).map BitVec.toNat
     y.act = .arrayCycle m i.index c → u.issueOf i.index = some i → s.tensorAt m x.dataTensor = some (f, base) →
     (x.opcode = 1 → x.kUsed ≤ 2048 →
       (let pl := (t.array m).plane x.plane
        let old := u.plane x.plane
        (∀ k, k < x.kUsed → SMap.get pl.weights (k + 2048 * c) 0 = ((elem k).getD none).getD 0) ∧
        (∀ k n, k < 2048 → n ≠ c → SMap.get pl.weights (k + 2048 * n) 0 = SMap.get old.weights (k + 2048 * n) 0) ∧
        (f.blockScaled = true → ∀ j, j < (x.kUsed + 31) / 32 → SMap.get pl.scales (j + 64 * c) 0 = (byte j).getD 255) ∧
        (∀ j n, j < 64 → n ≠ c → SMap.get pl.scales (j + 64 * n) 0 = SMap.get old.scales (j + 64 * n) 0) ∧
        (let bad := (∃ k, k < x.kUsed ∧ (elem k).getD none = none) ∨
           (f.blockScaled = true ∧ ∃ j, j < (x.kUsed + 31) / 32 ∧ (byte j).getD 255 = 255)
         (bad → pl.invalidCols = old.invalidCols ++ [c]) ∧ (¬ bad → pl.invalidCols = old.invalidCols)) ∧
        pl.loaded = old.loaded ∧ pl.format = old.format ∧ pl.kUsed = old.kUsed ∧ pl.cols = old.cols) ∧
       (∀ p, p ≠ x.plane → (t.array m).plane p = u.plane p) ∧ (t.array m).foot = u.foot ∧ (t.array m).footFlags = u.footFlags ∧
       (t.array m).outstanding = u.outstanding) ∧
     (x.opcode = 2 →
       let n := (u.plane x.plane).reads f
       let row := ((List.range n).map elem, if f.blockScaled then (List.range ((n + 31) / 32)).map byte else [])
       let add := fun (z : ArrayIssue) => if z.index = i.index then { z with rowsRead := z.rowsRead ++ [row] } else z
       t.array m = { u with outstanding := u.outstanding.map add }) ∧
     (x.opcode = 1 ∨ x.opcode = 2 →
       (∀ a, t.mem.byteAt a = s.mem.byteAt a) ∧ (∀ k, k ≠ m.val → t.array k = s.array k) ∧ Within [.arrays, .mem, .fc, .ob] s t)) ∧
  (∀ (s : State) (y : BenchAccess) (m : Fin 16) (i : ArrayIssue) (c : Nat) (f : Format) (base : Nat),
     let u := s.array m
     let x := i.desc
     let t := s.runAccess y
     let p := s.ownerOfArray m
     u.issueOf i.index = some i →
     (y.act = .arrayCycle m i.index c → s.tensorAt m x.dataTensor = some (f, base) →
       (x.opcode = 3 → x.cols ≤ 512 →
         let row := x.footBase + c / 2
         let col := 256 * (c % 2)
         let elem := fun n => s.mem.elemAt .wa64 base (x.first + c / 2 * x.stride + n)
         let here := fun n => col ≤ n ∧ n < col + 256 ∧ n < x.cols
         let flag := if c % 2 = 0 then
             (if x.flagTensor = 0 then 0
              else ((s.mem.readByte (s.scaleAt m x.flagTensor + x.flagOffset)).map BitVec.toNat).getD waInvalid % 16)
           else u.rowFlags m row
         (∀ n, here n → (t.array m).footWord m row n = ((elem n).getD none).getD 0) ∧
         (∀ r n, n < 512 → (r ≠ row ∨ ¬ here n) → (t.array m).footWord m r n = u.footWord m r n) ∧
         ((∃ n, here n ∧ elem n = none) → (t.array m).rowFlags m row = flag ||| waInvalid) ∧
         ((∀ n, here n → elem n ≠ none) → (t.array m).rowFlags m row = flag) ∧
         (∀ r, r ≠ row → (t.array m).rowFlags m r = u.rowFlags m r) ∧
         (∀ a, t.mem.byteAt a = s.mem.byteAt a) ∧ (∀ k, (t.array m).plane k = u.plane k) ∧ (t.array m).outstanding = u.outstanding) ∧
       (x.opcode = 4 →
         let out := drainOut s m x f base (s.scaleAt m x.scaleTensor) (p.elim 0 s.jobFrame) c
         let fl := u.rowFlags m (x.footBase + c / drainQ f) ||| (if out.2 then outRange else 0)
         let add := fun (z : ArrayIssue) => if z.index = i.index then { z with drainFlags := z.drainFlags ||| fl } else z
         t.mem = s.mem.stores out.1 ∧
         t.array m = { u with outstanding := u.outstanding.map add, settled := u.settled.map add } ∧ Within [.arrays, .mem] s t)) ∧
     (y.act = .arrayFlag m i.index →
       let a := s.scaleAt m x.flagTensor + x.flagOffset
       t.mem = (if x.flagTensor = 0 then s.mem
         else s.mem.store a [some (BitVec.ofNat 8 ((s.mem.byteAt a).toNat ||| i.drainFlags))]) ∧
       (∀ q, SMap.get t.arrays.frameFlags q 0 =
         if p = some q then SMap.get s.arrays.frameFlags q 0 ||| i.drainFlags else SMap.get s.arrays.frameFlags q 0) ∧
       (∀ k, t.array k = s.array k) ∧ Within [.arrays, .mem] s t))

/-- R145, R146, R163, R168, R169: `PASS` issues. Columns that fail their parity are marked until reloaded, each raising its fault; a bad pair,
or a plane never loaded, raises `MA_PAIR`; no foot word changes yet. R127, R129, R146 to R148, R153, R168, R169: a `PASS` completes. Each
foot word of a good pair takes the sum modulo 2^64 of the quantized products of its row's activations with its column's weights, added to
what it held where `ACC` is set; columns that failed their parity give zeros. A bad pair adds zeros and sets `WA_INVALID` in its rows. -/
def Obligations.ArrayPassAccumulates : Prop :=
  (∀ (m : Fin 16) (x : ArrayDesc) (t : Nat) (e : ArrayUpset) (s u : State) (ac : Nat) (f : Format) (base : Nat),
     let pl := (u.array m).plane x.plane
     let good := pl.loaded = true ∧ ∃ g, Format.ofCode pl.format = some g ∧ pairOk g f = true
     let raised := fun code => raisedOf u.now (Source.ofDie (m.val / 4)) code m (u.ownerOfArray m) 0 false
     let issues := fun (v : State) (bad : List Nat) (pair : Bool) (l : List Raised) =>
       ∃ r, exec (.arrayPass m x t e) s = .next r ∧ ArrayIssued v r m x f ac bad pair ∧ Raises u r l ∧
         ((r.array m).plane x.plane).invalidCols = pl.invalidCols ++ bad ∧
         (∀ p, p ≠ x.plane → (r.array m).plane p = (u.array m).plane p) ∧
         (r.array m).foot = (u.array m).foot ∧ (r.array m).footFlags = (u.array m).footFlags ∧
         (r.array m).passFree = v.lastCycle m x f ac + rowInterval f ∧
         (r.array m).loadAfter = setNth (u.array m).loadAfter x.plane (v.lastCycle m x f ac + 511 + rowInterval f)
     ArrayTurn s u m x 2 t e
       (fun a ac => a.passFree ≤ ac ∧ nth a.passAfter x.plane 0 ≤ ac ∧ a.footClear x ac = true) ac f base →
     (good → issues (u.failColumns m x.plane e.columns) e.columns false (e.columns.map (fun _ => raised FC.maPlaneParity))) ∧
     (¬ good → issues ((u.raiseFor (Source.ofDie (m.val / 4)) FC.maPair m (u.ownerOfArray m)).bump (8 * m.val + 7) 1) [] true
       [raised FC.maPair])) ∧
  (∀ (s : State) (m : Fin 16) (i : ArrayIssue) (a f : Format) (base : Nat),
     let u := s.array m
     let x := i.desc
     let pl := u.plane x.plane
     let t := s.finishPass m i
     let act := fun r =>
       let y := i.rowsRead.getD r ([], [])
       (List.range y.1.length).map (fun k => scaled a (y.1.getD k none) (y.2.getD (k / 32) none))
     let sum := fun r n => columnSum x.window (if i.badColumns.contains n then [] else pl.column f n pl.kUsed) (act r)
     s.tensorAt m x.dataTensor = some (a, base) → x.cols ≤ 512 →
     (i.badPair = false → Format.ofCode pl.format = some f →
       FootHolds s t m x.footBase i.rowsRead.length x.cols
         (fun r n => wa64Add (if x.acc then u.footWord m (x.footBase + r) n else 0) (sum r n).1)
         (fun r => (if x.acc then u.rowFlags m (x.footBase + r) else 0) |||
           (List.range x.cols).foldl (fun b n => b ||| (sum r n).2) (if pl.invalidCols.isEmpty then 0 else waInvalid))) ∧
     (i.badPair = true →
       FootHolds s t m x.footBase i.rowsRead.length x.cols
         (fun r n => wa64Add (if x.acc then u.footWord m (x.footBase + r) n else 0) 0)
         (fun r => (if x.acc then u.rowFlags m (x.footBase + r) else 0) ||| waInvalid)) ∧
     (∀ p, (t.array m).plane p = u.plane p) ∧ (∀ k, k ≠ m.val → t.array k = s.array k) ∧ Within [.arrays] s t)

/-- R156, R160 rules 7 and 8, R161, R163, R169, R284: completion, `END` and deferred signals. A descriptor completes once its time has come:
the sums of a `PASS` are in the foot, it is no longer outstanding, and its signal goes out, or waits for a credit and goes then; `END`
issues when nothing is outstanding or waits, and the array is done; one that fails its parity check stops the array instead. -/
def Obligations.ArrayDescriptorsComplete : Prop :=
  ∀ (m : Fin 16) (t q : Nat) (e : ArrayUpset) (y : ArrayIssue) (s : State),
    let b := s.atDie t (m.val / 4)
    let ac := b.acOf (m.val / 4)
    let u := b.array m
    let d := y.desc
    let v := if d.opcode = 2 then b.finishPass m y else b
    let w := b.arrayUpset m e
    (b.diesClocked = true → u.outstanding.find? (fun z => decide (z.completes ≤ ac)) = some y →
      ∃ r, exec (.arrayDescriptorComplete m t) s = .next r ∧
        (∀ z, z ∈ (r.array m).outstanding → z.index ≠ y.index) ∧
        (∀ z, z ∈ (v.array m).outstanding → z.index ≠ y.index → z ∈ (r.array m).outstanding) ∧
        (∀ z, z ∈ (r.array m).settled ↔ z = y ∨ (z ∈ u.settled ∧ y.completes ≤ z.completes)) ∧
        (r.array m).deferred =
          (if d.signalQueue = noQueue ∨ (b.queue d.signalQueue).canSend = true then u.deferred else u.deferred ++ [d.signalQueue]) ∧
        (if d.signalQueue ≠ noQueue ∧ (b.queue d.signalQueue).canSend = true then SentOn b r d.signalQueue signalEntry
         else r.qf = b.qf) ∧
        (r.array m).foot = (v.array m).foot ∧ (r.array m).footFlags = (v.array m).footFlags ∧
        (∀ p, (r.array m).plane p = u.plane p) ∧ (∀ k, k ≠ m.val → r.array k = b.array k) ∧ Within [.arrays, .qf, .ob] b r) ∧
    (u.outstanding.find? (fun z => decide (z.completes ≤ ac)) = none → exec (.arrayDescriptorComplete m t) s = .next b) ∧
    (b.arrayEndOk m ac = true →
      (e.parity = false → ∃ r, exec (.arrayEnd m t e) s = .next r ∧
        (∀ k, r.array k = if k = m then { w.array m with done := true, settled := [] } else w.array k) ∧ Within [.arrays] w r) ∧
      (e.parity = true → exec (.arrayEnd m t e) s = .next w ∧ (w.array m).stopped = true ∧ (w.array m).done = u.done)) ∧
    ((u.outstanding ≠ [] ∨ u.deferred ≠ []) → exec (.arrayEnd m t e) s = .next b) ∧
    ((s.queue q).canSend = true → (s.array m).deferred.contains q = true →
      ∃ r, exec (.deferredSignalSend (.array m) q) s = .next r ∧ SentOn s r q signalEntry ∧
        (∀ k, r.array k = if k = m then { s.array m with deferred := (s.array m).deferred.erase q } else s.array k) ∧
        Within [.arrays, .qf, .ob] s r) ∧
    ((s.queue q).canSend = false → exec (.deferredSignalSend (.array m) q) s = .next s)

/-! ### Movers, queues and tiers -/

/-- R278, R281, R283: a mover descriptor issues only if it is the next of the mover's program, and in order: the one before it has made its
last source access and those before that their last destination access; for `FENCE` nothing is under way. It takes its wait entry, and is
under way from its first byte; a `FILL` has no source. `END` issues when nothing is under way or waits. R287: a descriptor that fails its
parity check stops the mover. R284: a mover descriptor completes after its last destination access; its signal goes out, or waits for a
credit and goes then. -/
def Obligations.MoverDescriptorsIssueAndComplete : Prop :=
  (∀ (k : Fin 128) (x : MvDesc) (t0 : Nat) (parity : Bool) (s : State),
     let u := s.atDie t0 (k.val / 32)
     let v := u.mover k
     let qc := u.qcOf (k.val / 32)
     let p := u.moverParity k
     (∀ c ∈ ([(.moverCopy k x t0 parity, 1), (.moverPush k x t0 parity, 2), (.moverPull k x t0 parity, 3), (.moverFill k x t0 parity, 4)] :
         List (Instr × Nat)),
       let i : MvIssue := { desc := x, tag := v.issued, orphan := false, srcBase := u.moverBase k x.srcTensor,
                            dstBase := u.moverBase k x.dstTensor, srcPos := if c.2 = 4 then x.rows * x.rowBytes else 0, buffer := [],
                            dstPos := 0, arrived := if c.2 = 4 then [(x.rows * x.rowBytes, qc)] else [] }
       (u.moverOk k x c.2 qc = true → parity = false → ∃ t, exec c.1 s = .next t ∧
         MoverIs u t k { v with nextDesc := v.nextDesc + 1, issued := v.issued + 1, issueQc := qc + 1, active := v.active ++ [i] } ∧
         WaitTaken u t x.waitQueue ∧ Within [.qf, .ob] u t) ∧
       (u.moverOk k x c.2 qc = true → parity = true → exec c.1 s = .next p) ∧
       (u.moverOk k x c.2 qc = false → exec c.1 s = .next u) ∧
       (u.moverOk k x c.2 qc = true → x = u.nextMvDesc k ∧ x.opcode = c.2 ∧ (x.fence = true → v.active = []) ∧
         ∀ l i, v.active = l ++ [i] → i.desc.total ≤ i.srcPos ∧ ∀ j ∈ l, j.desc.total ≤ j.dstPos)) ∧
     (let ends := u.moverRuns k = true ∧ (u.nextMvDesc k).opcode = 15 ∧ v.active = [] ∧ v.deferred = [] ∧ v.issueQc ≤ qc
      (ends → parity = false → ∃ t, exec (.moverEnd k t0 parity) s = .next t ∧ MoverIs u t k { v with done := true } ∧ Within [.qf] u t) ∧
      (ends → parity = true → exec (.moverEnd k t0 parity) s = .next p) ∧ (¬ ends → exec (.moverEnd k t0 parity) s = .next u)) ∧
     MoverIs u p k { v with stopped := true } ∧ p.moverRuns k = false ∧
     Raises u p [raisedOf u.now (Source.ofDie (k.val / 32)) FC.mvDescriptorParity (0x2000 + k.val) (u.ownerOfMover k) 0 false]) ∧
  (∀ (k : Fin 128) (t0 : Nat) (i : MvIssue) (rest : List MvIssue) (y : Nat × Nat) (s : State),
     let u := s.atDie t0 (k.val / 32)
     let v := u.mover k
     let q := i.desc.signalQueue
     let v1 : Mover := { v with active := rest }
     (v.active = i :: rest → i.desc.total ≤ i.dstPos → u.diesClocked = true →
       ∃ t, exec (.moverComplete k t0) s = .next t ∧ Within [.qf, .ob] u t ∧
         (if q = noQueue ∨ i.orphan = true ∨ (u.queue q).declared = false then MoverIs u t k v1 ∧ t.qf.queues = u.qf.queues
          else if (u.queue q).canSend = true then MoverIs u t k v1 ∧ SentOn u t q signalEntry
          else MoverIs u t k { v1 with deferred := v.deferred ++ [(i.tag, q)] } ∧ t.qf.queues = u.qf.queues)) ∧
     ((v.active = [] ∨ (v.active = i :: rest ∧ i.dstPos < i.desc.total)) → exec (.moverComplete k t0) s = .next u) ∧
     ((s.mover k).deferred.find? (fun z => z.2 == y.2) = some y → (s.queue y.2).canSend = true →
       ∃ t, exec (.deferredSignalSend (.mover k) y.2) s = .next t ∧
         MoverIs s t k { s.mover k with deferred := (s.mover k).deferred.erase y } ∧ SentOn s t y.2 signalEntry ∧ Within [.qf, .ob] s t))

/-- R264, R272, R275, R280 to R283: a source access covers the next bytes of a row within one aligned unit, in a slot of the mover's port,
with room in the buffer. On bench it is on its way, and its bytes are in the buffer from three qc later; from a tier they are held for
delivery; outside the partition's memory they are poison, and `MV_BOUNDS` is raised. A `PULL` takes an entry and its bytes, zeros for a
signal. Without a slot, without room, or where a destination access can take the slot, none is made. R245 to R248, R272, R278, R280, R282,
R283, R287, R670: a destination access writes the next bytes of a row, in a slot of the mover's port that comes late enough after they
arrived, or an entry; on bench the write is on its way; outside the partition's memory nothing is written and `MV_BOUNDS` is raised; Tier
3 refuses while its spare is short or its wear at the limit. -/
def Obligations.MoversMoveBytes : Prop :=
  ((∀ (k : Fin 128) (t0 : Nat) (errs : List (Nat × Bool)) (s : State) (i : MvIssue),
     let u := s.atDie t0 (k.val / 32)
     let v := u.mover k
     let die := k.val / 32
     let a := accessAt i.srcBase i.desc.srcOffset i.desc.srcStride i.desc.rowBytes i.srcPos
     let u1 := u.memErrors (u.ownerOfMover k) errs
     let q := i.desc.dataQueue
     let none_ := exec (.moverSourceAccess k t0 errs) s = .next u
     v.active.find? (fun j => decide (j.srcPos < j.desc.total)) = some i → u.diesClocked = true →
     (i.desc.opcode ≠ 3 →
       (∀ y, u.moverSlot k i a.1 false = some y → v.used + a.2 ≤ 65536 → u.destSlot k ≠ some y →
         ∃ t, exec (.moverSourceAccess k t0 errs) s = .next t ∧ (∀ x, t.mem.byteAt x = u.mem.byteAt x) ∧
           (tierOf a.1 = 0 →
             let z : BenchAccess := { die := die, due := u.rc die, nominal := u.rc die, write := false, port := 80 + k.val % 32,
                                      act := .moverRead k i.tag a.1 a.2 errs }
             MoverIs u t k { v.sourced a.2 with slotsUsed := v.slotsUsed + 1, lastQc := u.qcOf die + 1 } ∧
             t.mem = { u.mem with bench := insertAccess z u.mem.bench } ∧ Raises u t []) ∧
           (tierOf a.1 ≠ 0 →
             let got := if tierOf a.1 = 3 then u1.sectorBefore a.1 a.2 y.instant else u1.mem.readData a.1 a.2
             let may := u.moverMay k a.1 a.2
             let h : HeldRead := { tier := tierOf a.1, who := .mover k, tag := i.tag, address := a.1,
                                   data := if may then got else List.replicate a.2 none, slot := y.instant }
             MoverIs u t k { v.sourced a.2 with slotsUsed := v.slotsUsed + 1 } ∧ t.mem.held = u.mem.held ++ [h] ∧
             (may = false → Raises u t
               [raisedOf u.now (Source.ofDie die) FC.mvBounds (0x2000 + k.val) (u.ownerOfMover k) 0 false]))) ∧
       (u.moverSlot k i a.1 false = none → none_) ∧ (65536 < v.used + a.2 → none_) ∧
       (∀ y, u.moverSlot k i a.1 false = some y → u.destSlot k = some y → none_)) ∧
     (i.desc.opcode = 3 → (u.queue q).canReceive = true → v.used + 512 ≤ 65536 →
       ∃ t, exec (.moverSourceAccess k t0 errs) s = .next t ∧
         MoverIs u t k ((v.sourced 512).fed i.tag (match (u.queue q).visible.head?.bind (·.data) with
           | some d => d
           | none => List.replicate 512 (some 0)) (u.qcOf die + 2)) ∧
         (∀ q', t.queue q' = if q' = q then (u.queue q).receive else u.queue q') ∧ t.mem = u.mem)) ∧
   (∀ (s : State) (y : BenchAccess) (k tag a n : Nat) (errs : List (Nat × Bool)), y.act = .moverRead k tag a n errs →
     let t := s.runAccess y
     (∀ x, t.mem.byteAt x = s.mem.byteAt x) ∧
     (s.moverMay k a n = true → MoverIs s t k ((s.mover k).fed tag
       ((s.memErrors (s.ownerOfMover k) errs).mem.readData a n) (y.nominal / 6 + 3))) ∧
     (s.moverMay k a n = false → MoverIs s t k ((s.mover k).fed tag (List.replicate n none) (y.nominal / 6 + 3)) ∧ t.mem = s.mem ∧
       Raises s t [raisedOf s.now (Source.ofDie (k / 32)) FC.mvBounds (0x2000 + k) (s.ownerOfMover k) 0 false]))) ∧
  ((∀ (k : Fin 128) (t0 : Nat) (bad : List Nat) (cross : Crossing) (s : State) (i : MvIssue),
     let u := s.atDie t0 (k.val / 32)
     let v := u.mover k
     let die := k.val / 32
     let a := accessAt i.dstBase i.desc.dstOffset i.desc.dstStride i.desc.rowBytes i.dstPos
     let far := dieOfAddress a.1
     let out : Nat → Data := fun n => (List.range n).map (fun j => if bad.contains j then none else
       if i.desc.opcode = 4 then some (BitVec.ofNat 8 (i.desc.fillValue / 256 ^ ((i.dstPos + j) % 4))) else i.buffer.getD j none)
     let raised := fun code => raisedOf u.now (Source.ofDie die) code (0x2000 + k.val) (u.ownerOfMover k) 0 false
     let lost := if bad.isEmpty then [] else [raised FC.mvBufferUncorrected]
     let l := lost ++ u.crossRaised die far cross
     v.active.find? (fun j => decide (j.dstPos < j.desc.total)) = some i → u.diesClocked = true →
     (i.desc.opcode = 2 → (u.queue i.desc.dataQueue).canSend = true → 512 ≤ i.buffer.length →
       (∃ w, i.arrival (i.dstPos + 511) = some w ∧ w < u.qcOf die) →
       ∃ t, exec (.moverDestAccess k t0 bad cross none) s = .next t ∧ MoverIs u t k (v.drained 512) ∧
         SentOn u t i.desc.dataQueue { data := some (out 512) } ∧ t.mem = u.mem ∧ Raises u t lost) ∧
     (i.desc.opcode ≠ 2 → u.destSlot k = none → exec (.moverDestAccess k t0 bad cross none) s = .next u) ∧
     (∀ y, i.desc.opcode ≠ 2 → (i.desc.opcode = 4 ∨ a.2 ≤ i.buffer.length) → u.destSlot k = some y →
       let d := crossed die far cross (out a.2)
       ∃ t, exec (.moverDestAccess k t0 bad cross none) s = .next t ∧
         MoverIs u t k { v.drained a.2 with slotsUsed := v.slotsUsed + 1,
                                            lastQc := if tierOf a.1 = 0 then u.qcOf die + 1 else v.lastQc } ∧
         (if u.moverMay k a.1 a.2 = false then t.mem.Holds u.mem ∧ t.mem.bench = u.mem.bench ∧ Raises u t (l ++ [raised FC.mvBounds])
          else if tierOf a.1 = 0 then t.mem.Holds u.mem ∧ Raises u t lost ∧
           ∃ z : BenchAccess, z.die = die ∧ z.due = u.rc die ∧ z.write = true ∧ z.port = 80 + k.val % 32 ∧
             z.act = .moverWrite k a.1 (out a.2) ∧ t.mem.bench = insertAccess z u.mem.bench
          else if tierOf a.1 ≠ 3 then t.mem.Holds (u.mem.store a.1 d) ∧ Raises u t l
          else if u.mem.t3Refusing = true ∨ 1100 ≤ u.mem.t3Programmed / 10 ^ 13 then
           t.mem.Holds u.mem ∧
           (∀ p, u.ownerOfMover k = some p → SMap.get t.mem.status p 0 = SMap.get u.mem.status p 0 ||| 4) ∧
           Raises u t (l ++ [raisedOf u.now .hd FC.t3WriteRefused 0xFFFF none 0 false])
          else t.mem.Holds (u.mem.store a.1 d) ∧ t.mem.t3Programmed = u.mem.t3Programmed + 4096 ∧
           t.mem.t3Before = some (y.instant, a.1 - a.1 % 4096, u.mem.readData (a.1 - a.1 % 4096) 4096)))) ∧
   (∀ (s : State) (y : BenchAccess) (k a : Nat) (d : Data), y.act = .moverWrite k a d →
     (s.runAccess y).mem = s.mem.store a d ∧ Within [.mem] s (s.runAccess y)))

/-- R260, R261, R287, R353, R670: the oldest entry in transit becomes visible behind those that are, its words spoilt where a crossing or the
store has double-bit errors; a returned credit counts for the producer, and a host endpoint tells its function; a queue whose counts fail
their check takes no more; and entries with credits always make up the depth. R238, R241, R243, R244, R670: held tier reads reach who
asked for them, the oldest of a tier (of a stack) first, their time after their slot: a mover's buffer or the host's completions; a Tier 3
read that missed its deadline is released poisoned, with `T3_READ_MISS`. R237, R239, R247, R248, R253: events of the tiers. A stack's
refresh window is the ten RT periods from each RT value 10k modulo 195, in which it serves no access; in STANDBY there is none. Each scrub
read goes on to the next unit; `T1_HOT` is raised at 105 °C, again only after a fall below 100 °C; reclamation counts the bytes it
programs and reports the free spare. -/
def Obligations.QueuesAndTiersDeliver : Prop :=
  (∀ (q : Fin 4416) (t0 : Nat) (cross : Crossing) (bad : List (Fin 128)) (fixed parity : Bool) (e : QEntry) (rest : List QEntry) (s : State),
     let x := s.queue q
     let from_ := sectionOfUnit x.producer
     let home := sectionOfUnit x.consumer
     let now := max s.now t0
     (x.transit = e :: rest → ∃ t, exec (.queueEntryVisible q t0 cross bad fixed parity) s = .next t ∧
       Within [.time, .mem, .qf, .fabric, .fc, .ob] s t ∧ t.mem.Holds s.mem ∧ t.now = now ∧
       (∀ q', t.queue q' = if q' = q then
           { x with transit := rest, visible := x.visible ++ [spoilEntry bad { data := e.data.map (crossed from_ home cross) }],
                    failed := x.failed || parity }
         else s.queue q') ∧
       Raises s t ((if e.data = none then [] else (s.upTo t0).crossRaised from_ home cross) ++
         (if bad ≠ [] ∧ e.data ≠ none then
           [raisedOf now (Source.ofDie home) FC.qfEntryUncorrected x.consumer (some x.partition) 0 false] else []) ++
         (if parity then [raisedOf now (Source.ofDie home) FC.qfCreditError x.consumer
           (if x.declared then some x.partition else none) 0 false] else [])) ∧
       (x.balanced → (t.queue q).balanced)) ∧
     (0 < x.creditsTransit → ∃ t, exec (.queueCreditVisible q t0 false) s = .next t ∧ Within [.time, .qf, .fabric, .host, .ob] s t ∧
       (∀ q', t.queue q' = if q' = q then { x with credits := x.credits + 1, creditsTransit := x.creditsTransit - 1 } else s.queue q') ∧
       (x.producer / 4096 = 4 → bitAt (t.vf (x.producer % 4096 / 4)).intStatus (2 + x.producer % 4) = true) ∧
       (x.producer / 4096 ≠ 4 → t.host = s.host) ∧ (x.balanced → (t.queue q).balanced)) ∧
     (x.transit = [] → x.declared = true → ∃ t, exec (.queueEntryVisible q t0 cross bad fixed true) s = .next t ∧
       (t.queue q).failed = true ∧ (t.queue q).canSend = false ∧ (t.queue q).canReceive = false ∧
       Raises s t [raisedOf now (Source.ofDie home) FC.qfCreditError x.consumer (some x.partition) 0 false]) ∧
     (∀ w : Queue, w.balanced → (w.canSend = true → (w.send e).balanced) ∧ (w.canReceive = true → w.receive.balanced) ∧
       w.flushed.balanced)) ∧
  (∀ (h : HeldRead) (n : Fin 16) (cross : Crossing) (s : State),
     let gives : State → Nat → Data → Prop := fun t wait d => t.mem.held = s.mem.held.erase h ∧ t.now = max s.now (h.slot + wait) ∧
       t.mem.Holds s.mem ∧
       match h.who with
       | .mover k => MoverIs s t k ((s.mover k).fed h.tag (crossed (dieOfAddress h.address) (k / 32) cross d)
           ((s.upTo (h.slot + wait)).arrivalQc (k / 32) h.address)) ∧ t.host = s.host
       | .host p => t.qf = s.qf ∧ (t.vf p).completions = (s.vf p).completions ++
           [(h.tag, match d.mapM id with | some b => Completion.data b | none => .poisoned)] ∧ ∀ p', p' ≠ p → t.vf p' = s.vf p'
     let faults : Nat → List Raised := fun wait => match h.who with
       | .mover k => (s.upTo (h.slot + wait)).crossRaised (dieOfAddress h.address) (k / 32) cross
       | .host _ => []
     (s.mem.held.find? (fun x => x.tier == 1 && (regionOf x.address).1 == .tier1 n) = some h →
       ∃ t, exec (.t1ReadDeliver n cross) s = .next t ∧ gives t 280 h.data ∧ Raises s t (faults 280)) ∧
     (s.mem.held.find? (fun x => x.tier == 2) = some h →
       ∃ t, exec (.t2ReadDeliver cross) s = .next t ∧ gives t 864 h.data ∧ Raises s t (faults 864)) ∧
     (s.mem.held.find? (fun x => x.tier == 3) = some h →
       (∃ t, exec (.t3ReadRelease false cross) s = .next t ∧ gives t 864000 h.data ∧ Raises s t (faults 864000) ∧
         ∀ p, s.heldFor h = some p → none ∈ h.data → SMap.get t.mem.status p 0 = SMap.get s.mem.status p 0 ||| 1) ∧
       (∃ t, exec (.t3ReadRelease true cross) s = .next t ∧ gives t 864000 (List.replicate h.data.length none) ∧
         Raises s t (raisedOf (max s.now (h.slot + 864000)) .hd FC.t3ReadMiss 0xFFFF none 0 false :: faults 864000) ∧
         ∀ p, s.heldFor h = some p → SMap.get t.mem.status p 0 = SMap.get s.mem.status p 0 ||| 3))) ∧
  (∀ (n : Fin 16) (t0 bytes spare a : Nat) (decic : Int) (err : Option Bool) (m : ScrubTarget) (s : State),
     let u := s.upTo t0
     ((regionOf a).1 = .tier1 n →
       (s.inRefresh a = true ↔ s.mod.mode ≠ .standby ∧ 10 * n.val ≤ s.rt % 195 ∧ s.rt % 195 < 10 * n.val + 10)) ∧
     (s.mod.mode ≠ .standby → u.rt % 195 / 10 = n → ∃ t, exec (.t1RefreshWindow n t0 err) s = .next t ∧
       t.mem.refreshing = some (n.val, u.now + 720) ∧ t.mem.cells = s.mem.cells ∧
       SMap.get t.mem.scrubAt (4 + n) 0 = (SMap.get s.mem.scrubAt (4 + n) 0 + 1) % 805306368 ∧ Within [.time, .mem, .fc, .ob] s t) ∧
     (s.mod.mode = .standby → exec (.t1RefreshWindow n t0 err) s = .next u) ∧
     (∃ t, exec (.t1TempRead n decic) s = .next t ∧ t.gov.stackTemps = setNth s.gov.stackTemps n decic ∧
       (t.mem.t1Hot.contains n.val =
         if 1050 ≤ decic then true else if decic < 1000 then false else s.mem.t1Hot.contains n.val) ∧
       Raises s t (if 1050 ≤ decic ∧ s.mem.t1Hot.contains n.val = false then
         [raisedOf s.now (Source.ofDie (n.val / 4)) FC.t1Hot n none decic.toNat true] else [])) ∧
     (∃ t, exec (.t3Reclamation bytes spare) s = .next t ∧ t.mem.t3Programmed = s.mem.t3Programmed + bytes ∧
       t.mem.t3SparePermille = spare ∧
       t.mem.t3Refusing = (if spare < 10 then true else if 20 ≤ spare then false else s.mem.t3Refusing) ∧ t.mem.cells = s.mem.cells) ∧
     (∃ t, exec (.memoryScrub m err) s = .next t ∧ t.mem.cells = s.benchNow.mem.cells ∧
       (let x : Nat × Nat := match m with | .bench d => (d, 50331648) | .tier2 => (20, 25769803776) | .tier3 => (21, 536870912)
        SMap.get t.mem.scrubAt x.1 0 = (SMap.get s.benchNow.mem.scrubAt x.1 0 + 1) % x.2) ∧ Within [.mem, .fc, .ob] s.benchNow t))

/-! ### Frames and kerfs -/

/-- R29, R31, R32, R45, R53, R79, R156, R226, R251, R336, R337: the strobe. The frame number of the schedule is taken, no sooner than 100
microseconds after the last kerf; the kerf and the barrier of the new frame begin; flags of the frame that ended are latched; enables
and disables accepted before the strobe's pc take effect. A module state change that falls due in this kerf is left to
`StatesAndClocksChange`. -/
def Obligations.KerfStrobeBeginsAFrame : Prop :=
  ∀ (plan : Bool) (copies : List (Fin 5)) (s : State) (k : Nat × Nat),
    let edge := s.kerfEdge k.2
    let v := s.onEdge (s.frame.timeOfRt edge) 3
    let b := v.benchNow
    (s.frame.frozen = true → exec (.kerfStrobe plan copies) s = .next s) ∧
    (s.frame.frozen = false → s.nextKerf = some k → s.mod.scheduled.elim True (fun x => k.1 % 2 ^ 48 < x.2) →
      ∃ t, exec (.kerfStrobe plan copies) s = .next t ∧ t.frame.number = k.1 % 2 ^ 48 ∧
        t.now = v.now ∧ s.frame.timeOfRt edge ≤ t.now ∧ (s.frame.anyKerf = true → s.frame.kerf.strobe + 720000 ≤ t.now) ∧
        (t.frame.kerf.active = true ∧ t.frame.kerf.strobe = t.now ∧ t.frame.kerf.rt = edge ∧ t.frame.kerf.moversStarted = false ∧
          t.frame.kerf.groupsDone = [] ∧ t.frame.kerf.arraysDone = [] ∧ t.frame.kerf.clampLoaded = false ∧
          t.frame.kerf.late = false) ∧
        (t.frame.go = none ∧ t.frame.childrenDone = [] ∧ t.frame.ownDone = false ∧ t.frame.donePassed = false ∧
          t.frame.watchdogFired = false) ∧
        (t.arrays.latchedFlags = b.arrays.frameFlags ∧ t.lanes.latchedArith = b.lanes.arith ∧
          t.mem.latchedStatus = b.mem.status) ∧
        (s.host.ctrlPc < v.now / 30 →
          (∀ p, p ∈ t.host.enabled ↔ p ∈ s.host.pendingEnable ∨ (p ∈ s.host.enabled ∧ p ∉ s.host.pendingDisable)) ∧
          t.host.ctrlPending = false) ∧
        (v.now / 30 ≤ s.host.ctrlPc → t.host.enabled = s.host.enabled ∧ t.host.ctrlPending = s.host.ctrlPending) ∧
        t.frame.status.frameNumber = k.1 % 2 ^ 48 ∧ t.frame.status.kerfRt = edge)

/-- R49 to R52, R360, R474, R479, R488, R45, R60, R659: the switch with its extension, its deferral after 256 rc, the load of the limits, the
end of the kerf with pacing resumed and the next state armed, and a kerf that is late. What follows the switch waits for it. -/
def Obligations.KerfSettlesTheFrequencyState : Prop :=
  ∀ (t0 : Nat) (known : Bool) (s : State),
    let u := s.upTo t0
    let k := u.frame.kerf
    let w := 256 * 72 / stateMult u.gov.running
    let due := k.strobe + 360
    let settled := k.active = true ∧ (k.switchDue = false ∨ u.diesClocked = false)
    (k.active = true → k.switchDue = true → u.diesClocked = true → due ≤ u.now → u.now ≤ due + w → u.stretchBusy = false →
      ∃ t, exec (.freqStateSwitch t0) s = .next t ∧ t.gov.running = k.sampled ∧
        t.frame.kerf = { k with switchDue := false, extTime := u.now - due,
                                extRc := min 256 (((u.now - due) * stateMult u.gov.running + 71) / 72) } ∧
        t.clocks.dies.map (·.running) = u.clocks.dies.map (fun d => (d.source k.sampled).getD d.running) ∧
        ∀ d ∈ t.clocks.dies, d.reserve = false) ∧
    (k.active = true → k.switchDue = true → u.diesClocked = true → due + w ≤ u.now → u.stretchBusy = true →
      ∃ t, exec (.freqSwitchDeferred t0) s = .next t ∧ t.clocks.dies.map (·.running) = u.clocks.dies.map (·.running) ∧
        (u.clocks.dies.any (·.reserve) = true → t.gov.running = 5) ∧
        (u.clocks.dies.any (·.reserve) = false → k.sampled ≤ t.gov.running ∧ ∀ d ∈ u.clocks.dies, d.rootState ≤ t.gov.running) ∧
        t.frame.kerf = { k with switchDue := false, extRc := 256, extTime := w } ∧
        t.frame.deferredCount = min 0xFFFFFFFF (u.frame.deferredCount + 1) ∧ (rsDroop, t.gov.running) ∈ t.gov.frameReasons) ∧
    (settled → k.strobe + 24480 + k.extTime ≤ u.now → k.clampLoaded = false →
      ∃ t, exec (.clampLoad t0) s = .next t ∧ t.gov = { u.gov with limits := u.gov.nextLimits } ∧
        t.frame = { u.frame with kerf := { k with clampLoaded := true } } ∧ Within [.frame, .gov] u t) ∧
    (settled → k.strobe + 28800 + k.extTime ≤ u.now →
      ∃ t, exec (.kerfEnd known t0) s = .next t ∧
        t.frame = { u.frame with lastExtRc := k.extRc, kerf := { k with active := false } } ∧
        (∀ n d, n < 4 → u.gov.dies[n]? = some d →
          (t.gov.dies[n]?).map (·.pacing) = some (max (max d.paceBefore d.preset) (u.paceFloor n))) ∧
        (t.diesClocked = true → ∀ d ∈ t.clocks.dies, d.standbyArmed = true ∧ d.standby = none)) ∧
    (k.switchDue = true → u.diesClocked = true →
      ∀ i ∈ [Instr.clampLoad t0, .kerfEnd known t0], exec i s = .next u) ∧
    (u.frame.anyKerf = true → k.complete = false → k.late = false → k.strobe + 28800 + w ≤ u.now →
      ∃ t, exec (.kerfLate t0) s = .next t ∧ t.frame = { u.frame with kerf := { k with late := true } } ∧
        Raises u t [raisedOf u.now .hd FC.kerfLate 0xFFFF none 0 false] ∧ Within [.frame, .fc, .ob] u t) ∧
    (k.complete = true ↔ k.switchDue = false ∧ k.moversStarted = true ∧ k.groupsDone.length = 16 ∧ k.arraysDone.length = 16 ∧
      k.clampLoaded = true)

/-- R30, R45, R46, R160, R173, R176, R177, R275: movers at 80 ns, cluster groups and arrays at their times, after a switch that is due; a unit
with an entry for its partition's class starts it at the first descriptor or row, on the first cycle of its clock that begins from then
on. A cluster that does not keep its state, or has none of this jig, finds its registers, predicates and slots zero. A unit that
still executes one is not started, and its partition overruns. -/
def Obligations.UnitsStartInTheKerf : Prop :=
  ∀ (j k16 : Fin 16) (t0 : Nat) (s : State),
    let u := s.onEdge t0 5
    let k := u.frame.kerf
    let at_ : Nat → Nat := fun o => k.strobe + o + k.extTime
    let due : Nat → Prop := fun o => k.active = true ∧ (k.switchDue = false ∨ u.diesClocked = false) ∧ at_ o ≤ u.now
    let a := 4 * (k16.val % 4) + k16.val / 4
    let first := 64 * (j.val % 4) + 16 * (j.val / 4)
    let moverBusy : Nat → Prop := fun m => (u.mover m).entry.isSome = true ∧ (u.mover m).done = false
    let arrayBusy := (u.array a).entry.isSome = true ∧ (u.array a).done = false
    (due 576 → k.moversStarted = false → (∀ m, m < 128 → (u.unitEntry (0x2000 + m)).isSome = true → ¬ moverBusy m) →
      ∃ t, exec (.moverStart t0) s = .next t ∧ t.frame.kerf = { k with moversStarted := true } ∧
      (∀ m, m < 128 → t.mover m = match u.unitEntry (0x2000 + m) with
        | none => u.mover m
        | some e => { u.mover m with entry := some e.1, nextDesc := 0, deferred := [], stopped := false, done := false,
                                     issueQc := u.cycleOf (m / 32) 6 (at_ 576) }) ∧
      t.qf.queues = u.qf.queues ∧ Within [.frame, .qf] u t) ∧
    (due (720 + 1440 * j.val) → k.groupsDone.contains j.val = false →
      (∀ i, i < 16 → (u.unitEntry (0x1000 + (first + i))).isSome = true → (u.cluster (first + i)).busy = false) →
      ∃ t, exec (.clusterGroupStart j t0) s = .next t ∧ t.frame.kerf = { k with groupsDone := j.val :: k.groupsDone } ∧
        (∀ c, let cl := u.cluster c
          let x := t.cluster c
          match u.unitEntry (0x1000 + c) with
          | some e =>
            if first ≤ c ∧ c < first + 16 then
              x.entry = some e.1 ∧ x.rowCount = rd e.2 0 1 % 128 ∧ x.keepState = bitAt (rd e.2 0 1) 7 ∧ x.stopped = false ∧
              x.origin = u.cycleOf (c / 64) 3 (at_ (720 + 1440 * j.val)) ∧ x.turn < x.origin ∧
              (∀ r, x.row r = RowCtl.start) ∧
              (∀ r v, v < 16 → x.reg r v =
                if (x.keepState = false ∨ cl.ranInJig = false) ∧ r < x.rowCount then zeroLanes else cl.reg r v) ∧
              (∀ r p, 0 < p → p < 8 → x.pred r p =
                if (x.keepState = false ∨ cl.ranInJig = false) ∧ r < x.rowCount then falseLanes else cl.pred r p) ∧
              (∀ n, SMap.get x.slots n AccSlot.zero =
                if x.keepState = false ∨ cl.ranInJig = false then AccSlot.zero else SMap.get cl.slots n AccSlot.zero)
            else x = cl
          | none => x = cl) ∧
        Within [.frame, .lanes] u t) ∧
    (due (1440 + 1440 * k16.val) → k.arraysDone.contains k16.val = false → ((u.unitEntry a).isSome = true → ¬ arrayBusy) →
      ∃ t, exec (.arrayStart k16 t0) s = .next t ∧ t.frame.kerf = { k with arraysDone := k16.val :: k.arraysDone } ∧
        (let c := u.cycleOf (a / 4) 4 (at_ (1440 + 1440 * k16.val))
         ∀ m, t.array m = match u.unitEntry m with
          | some e => if m = a then
              { u.array m with entry := some e.1, nextDesc := 0, loadFree := c, passFree := c, footFree := c, issueFree := c,
                               loadAfter := [c, c], passAfter := [c, c], outstanding := [], settled := [], deferred := [],
                               stopped := false, done := false }
            else u.array m
          | none => u.array m) ∧
        Within [.frame, .arrays, .shim] u t) ∧
    (∀ p pj, due (1440 + 1440 * k16.val) → k.arraysDone.contains k16.val = false → (u.unitEntry a).isSome = true → arrayBusy →
      u.ownerOfUnit a = some p → u.partJig p = some pj → p < 16 →
      ∃ t, exec (.arrayStart k16 t0) s = .next t ∧ t.arrays = u.arrays ∧
        raisedOf u.now .hd FC.overrun 0xFFFF none 0 false ∈ t.fc.raised ∧ (t.partJig p).map (·.halting) = some true ∧
        t.frame.overrunCount = min 0xFFFFFFFF (u.frame.overrunCount + 1))

/-- R34 to R36: marks, of either reference that is not lost. A word is 0xB1, its number and the low half of their check; an unlocked module
locks at the second of two consecutive numbers, when RT takes the mark's value; a locked one ignores a mark that disagrees, until a second
consecutive one moves RT, raises `MARK_MISMATCH` and forces it out of its domain. R36, R37: references. `MARK_MISSING` after 3 ms; three
edges missing of the active one change over to the other reference, or begin holdover, those of the other mark it lost; a lost reference
returns with a mark that agrees after 1 ms of edges, and ends holdover; after 20 ms of holdover the module leaves its domain. -/
def Obligations.ReferenceTimeIsKept : Prop :=
  ((∀ n, n < 2 ^ 40 →
     let word := BitVec.ofNat 64 (0xB1 + 2 ^ 8 * n + 2 ^ 48 * ((crc32c (leBytes 5 n)).toNat % 65536))
     markValid word = true ∧ markNumber word = n) ∧
   (∀ (t0 edges : Nat) (b : Bool) (word : BitVec 64) (s : State),
     let u := s.upTo t0
     let n := markNumber word
     let f := u.frame
     (markValid word = false → ∃ t, exec (.frameMark t0 b word edges) s = .next t ∧ t.frame = f ∧ Within [.ob] u t) ∧
     (markValid word = true → (if b then f.refBLost else f.refALost) = false →
       ∃ t, exec (.frameMark t0 b word edges) s = .next t ∧ t.frame.lastMarkAt = u.now ∧ t.frame.markMissing = false ∧
         (f.rtLocked = false → f.lastMark = some (n - 1) → 0 < n →
           t.frame.rtLocked = true ∧ t.rt = n * 100000 ∧ t.frame.refALost = false ∧ t.frame.refBLost = false ∧ t.fc = u.fc) ∧
         (f.rtLocked = false → f.lastMark.map (· + 1) ≠ some n →
           t.frame = { f with lastMarkAt := u.now, markMissing := false, lastMark := some n }) ∧
         (f.rtLocked = true → u.rt = n * 100000 → t.rt = u.rt ∧ t.frame.lastMark = some n ∧ t.frame.lastDisagreeing = none ∧
           t.fc = u.fc) ∧
         (f.rtLocked = true → u.rt ≠ n * 100000 → f.lastDisagreeing.map (· + 1) ≠ some n →
           t.rt = u.rt ∧ t.frame.lastDisagreeing = some n ∧ t.frame.marksIgnored = f.marksIgnored + 1 ∧ t.fc = u.fc) ∧
         (f.rtLocked = true → u.rt ≠ n * 100000 → f.lastDisagreeing.map (· + 1) = some n →
           t.rt = n * 100000 ∧ raisedOf u.now .hd FC.markMismatch 0xFFFF none 0 false ∈ t.fc.raised ∧
           (f.domain.isSome = true → t.frame.forcedLeave = true))))) ∧
  (∀ (t0 n edges : Nat) (b : Bool) (word : BitVec 64) (s : State),
     let u := s.upTo t0
     let f := u.frame
     let lost := if b then f.refBLost else f.refALost
     let other := if b then f.refALost else f.refBLost
     (f.lastMarkAt + 21600000 ≤ u.now → f.markMissing = false →
       ∃ t, exec (.markMissing t0) s = .next t ∧ t.frame = { f with markMissing := true } ∧
         Raises u t [raisedOf u.now .hd FC.markMissing 0xFFFF none 0 true] ∧ Within [.frame, .fc] u t) ∧
     (f.activeRef = some (b2n b) →
       ∃ t, exec (.referenceLost t0 b) s = .next t ∧ (if b then t.frame.refBLost else t.frame.refALost) = true ∧
         (if other then t.frame.activeRef = none ∧ t.frame.holdoverSince = some u.now ∧
             Raises u t [raisedOf u.now .hd FC.refHoldover 0xFFFF none 0 true]
          else t.frame.activeRef = some (1 - b2n b) ∧ t.frame.holdoverSince = f.holdoverSince ∧
             Raises u t [raisedOf u.now .hd FC.refChangeover 0xFFFF none 0 false])) ∧
     (f.activeRef ≠ some (b2n b) → ∃ t, exec (.referenceLost t0 b) s = .next t ∧
       t.frame = (if b then { f with refBLost := true } else { f with refALost := true }) ∧ Within [.frame] u t) ∧
     (markValid word = true → markNumber word = n → lost = true → 7200000 ≤ edges → f.rtLocked = true →
       u.rt = n * 100000 →
       ∃ t, exec (.frameMark t0 b word edges) s = .next t ∧ (if b then t.frame.refBLost else t.frame.refALost) = false ∧
         Raises u t [raisedOf u.now .hd FC.refRestored 0xFFFF none 0 false] ∧ t.rt = u.rt ∧
         (f.activeRef = none → t.frame.activeRef = some (b2n b) ∧ t.frame.holdoverSince = none) ∧
         (∀ r, f.activeRef = some r → t.frame.activeRef = some r)) ∧
     (∀ h, f.holdoverSince = some h → h + 144000000 ≤ u.now → f.domain.isSome = true → f.forcedLeave = false →
       ∃ t, exec (.holdoverExpiry t0) s = .next t ∧ t.frame.forcedLeave = true ∧
         raisedOf u.now .hd FC.forcedLeave 0xFFFF none 0 false ∈ t.fc.raised))

/-- R41, R42, R53, R54, R57, R64: local done and the barrier watchdog. Under FIXED cadence done is only noted; under BARRIER a module without a
parent fixes the start of the next kerf, and one with a parent sends it `DONE`, once every child that counts is done; one about to be
the root of a domain it joins sends its first `GO`; the watchdog raises its fault once, and halts the jobs that are not done, or all. -/
def Obligations.BarrierDoneAndWatchdog : Prop :=
  ∀ (t0 : Nat) (s : State),
    let u := s.upTo t0
    let f := u.frame
    let noted : FrameState := { f with ownDone := true, ownDoneAt := u.now }
    let go : Domain → Dowel := fun d =>
      { kind := 2, relay := false, member := d.memberIndex, domainId := d.id, frame := f.number + 1,
        startRt := u.goStart d.releaseMarginNs, jobId := 0 }
    let done : Domain → Dowel := fun d =>
      { kind := 1, relay := false, member := d.memberIndex, domainId := d.id, frame := f.number, startRt := 0, jobId := 0 }
    let all := u.countedChildren.all (fun c => f.childrenDone.contains c)
    (u.localDone = true → f.ownDone = false → f.anyKerf = true →
      ∃ t, exec (.localDone t0) s = .next t ∧ t.frame.ownDone = true ∧ t.frame.ownDoneAt = u.now ∧
        (f.opens = none → f.modes.cadence = .fixed ∨ all = false → t = { u with frame := noted }) ∧
        (∀ j, f.opens = some j → f.donePassed = false → t.frame.donePassed = true ∧
          t.frame.go = some (f.number + 1, u.goStart j.dom.releaseMarginNs) ∧
          t.fabric = (u.dowelToChildrenOf j.dom (go j.dom)).fabric) ∧
        (f.opens = none → f.modes.cadence = .barrier → f.donePassed = false → all = true → t.frame.donePassed = true ∧
          (f.domain = none → t.frame.go = some (f.number + 1, u.goStart 0) ∧ t.fabric = u.fabric) ∧
          (∀ d, f.domain = some d → d.parent = none → t.frame.go = some (f.number + 1, u.goStart d.releaseMarginNs) ∧
            t.fabric = (u.goDown (go d)).fabric) ∧
          (∀ d p, f.domain = some d → d.parent = some p → t.frame.go = f.go ∧
            t.fabric = (u.dowelToParent (done d)).fabric))) ∧
    (f.modes.cadence = .barrier → f.anyKerf = true → f.watchdogFired = false →
      f.kerf.strobe + u.longestClass.getD 8000000 * 7200 * f.domain.elim 32 (·.watchdogFactor) / 16 ≤ u.now →
      ∃ t, exec (.barrierWatchdog t0) s = .next t ∧ t.frame.watchdogFired = true ∧
        raisedOf u.now .hd FC.barrierWatchdog 0xFFFF none 0 false ∈ t.fc.raised ∧
        ∀ p j, u.partJig p = some j → j.phase = .running → p < 16 →
          (u.partitionDone p = false ∨ ∀ p', p' < 16 → u.jobRuns p' = true → u.partitionDone p' = true) →
          (t.partJig p).map (·.halting) = some true)

/-- R58, R64, R67, R320, R322, R323: dowels. A token of another domain is refused with `DOWEL_FOREIGN`; `DONE` of a child is noted for its
frame; `GO` of the parent fixes the next kerf, on the next edge if its time has passed, and goes down, to a module that joins as the
joining go; `HALT` halts its job here and goes on; `LEAVE` notes from which frame a child no longer counts; a relayed token names its
stand-in, and a stand-in passes tokens up to the parent. -/
def Obligations.DowelsAreHandled : Prop :=
  ∀ (src : DowelFrom) (d : Dowel) (t0 c : Nat) (s : State),
    let u := (s.upTo t0).takeDowel src d
    let f := u.frame
    let r := u.dowelRole src d
    let late := f.timeOfRt d.startRt < u.now
    let start := if late then u.rt + 1 else d.startRt
    let lateness := if late then [raisedOf u.now .hd FC.goLate 0xFFFF none 0 false] else []
    (u.dowelKnown d = false →
      ∀ i ∈ [.dowelDone src d t0, .dowelGo src d t0, .dowelHalt src d t0, .dowelLeave src d t0, .relayNotice src d t0],
        ∃ t, exec i s = .next t ∧ Raises u t [raisedOf u.now .hd FC.dowelForeign 0xFFFF none 0 false] ∧ Within [.fc] u t) ∧
    (u.dowelKnown d = true → r = .passUp →
      ∀ i ∈ [.dowelDone src d t0, .dowelGo src d t0, .dowelHalt src d t0, .dowelLeave src d t0, .relayNotice src d t0],
        exec i s = .next (u.dowelToParent { d with relay := true })) ∧
    (u.dowelKnown d = true → r = .fromChild c → d.frame = f.number → f.childrenDone.contains c = false →
      ∃ t, exec (.dowelDone src d t0) s = .next t ∧ t.frame.childrenDone = c :: f.childrenDone ∧
        (f.ownDone = false → t.frame = { f with childrenDone := c :: f.childrenDone } ∧ t.fabric = u.fabric) ∧
        (f.modes.cadence = .barrier → f.ownDone = true → f.opens = none →
          u.countedChildren.all (fun x => (c :: f.childrenDone).contains x) = true → t.frame.donePassed = true)) ∧
    (u.dowelKnown d = true → r = .fromChild c → d.frame ≠ f.number → exec (.dowelDone src d t0) s = .next u) ∧
    (u.dowelKnown d = true → r = .fromParent → f.domain.isSome = true → f.number < d.frame →
      ∃ t, exec (.dowelGo src d t0) s = .next t ∧ t.frame = { f with go := some (d.frame, start) } ∧
        t.fabric = (u.goDown d).fabric ∧ Raises u t lateness) ∧
    (∀ j, u.dowelKnown d = true → r = .fromParent → f.domain = none → f.pendingJoin = some j → j.joinFrame ≤ d.frame →
      ∃ t, exec (.dowelGo src d t0) s = .next t ∧ t.frame = { f with joinGo := some (d.frame, start) } ∧
        t.fabric = (u.dowelToChildrenOf j.dom d).fabric ∧ Raises u t lateness) ∧
    (u.dowelKnown d = true → (r = .fromParent ∨ r = .fromChild c) →
      ∃ t, exec (.dowelHalt src d t0) s = .next t ∧
        (∀ p j, p < 16 → u.partJig p = some j → j.jig.jobId = d.jobId →
          if j.phase = .running then (t.partJig p).map (·.halting) = some true else t.partJig p = none) ∧
        (∀ p j, u.partJig p = some j → j.jig.jobId ≠ d.jobId → t.partJig p = some j) ∧
        (u.haltsSomething d.jobId = true → raisedOf u.now .hd FC.jobHalted 0xFFFF none 0 false ∈ t.fc.raised)) ∧
    (u.dowelKnown d = true → r = .fromChild c →
      ∃ t, exec (.dowelLeave src d t0) s = .next t ∧ t.frame = { f with childLeaves := (c, d.frame) :: f.childLeaves } ∧
        Within [.frame] u t) ∧
    (u.dowelKnown d = true → ∃ t, exec (.relayNotice src d t0) s = .next t ∧ t.frame = f ∧ t.jigs = u.jigs ∧
      ∀ n, src = .member n → (s.upTo t0).dowelRole src d = .fromChild c → d.relay = true → c ≠ n →
        (c, n) ∈ t.fabric.relayed ∧ ∀ n', (c, n') ∈ t.fabric.relayed → n' = n)

/-! ### Jigs and the host interface -/

/-- R81, R104 to R106, R108, R115: a doorbell is taken up. A jig that passes every check in its order is held by its partition, and its plans
are to be sent; one that fails a check leaves nothing but its load result, naming the first check that fails, and `JIG_REJECTED`. The
bytes that the checks look at are those of memory, none of them poisoned. R25, R95, R108, R110, R113, R372: the PWC receives the plans of
the jig in hand, and its acknowledgement ends the load: the jig is loaded for its start frame, the result `LOADED` names it, the loader is
free, and the shim stage holds the jig's steps. -/
def Obligations.LoaderTakesUpAJig : Prop :=
  (∀ (t0 : Nat) (s : State) (d : Doorbell),
     let u := s.upTo t0
     let p := d.partition
     let a := d.address
     let byte := fun i => u.mem.byteAt (a + i)
     let own := u.owns p a 64
     let size := if own then leNat ((List.range 4).map (fun i => byte (24 + i))) else 0
     let b := (List.range size).map byte
     let rejected : State → Nat → LoadErr → Prop := fun t job e =>
       t.jigs = { u.jigs with doorbells := u.jigs.doorbells.erase d,
                              results := u.jigs.results ++ [{ partition := p, status := 1, error := e.error.code,
                                                              sectionIndex := e.section_, itemIndex := e.item,
                                                              byteOffset := e.byte, jobId := job, frame := 0 }] } ∧
       Raises u t [raisedOf u.now .hd FC.jigRejected (p + 1) (some p) 0 false] ∧ Within [.jigs, .fc] u t
     u.loaderFree = true → u.nextDoorbell = some d → (own = true → (regionOf a).1 = .tier2) →
     (∀ i, i < max 64 size → own = true → (u.mem.readByte (a + i)).isSome = true) →
     ∃ t, exec (.loaderTakeJig t0) s = .next t ∧
       match u.locationCheck p a size with
       | .error e => rejected t 0 e
       | .ok _ => match headerCheck b with
         | .error e => rejected t 0 e
         | .ok _ => match u.admissionCheck p b with
           | .error e => rejected t (rd b 12 4) e
           | .ok _ => match directoryCheck b with
             | .error e => rejected t (rd b 12 4) e
             | .ok l => match u.imageCheck { bytes := b, address := a, partition := p, record := u.record p } l with
               | .error e => rejected t (rd b 12 4) e
               | .ok _ =>
                 t.jigs.inHand = some p ∧ t.jigs.plansToSend = (jigOf b l).classes.map (·.id) ∧ t.jigs.ackDue = false ∧
                 t.jigs.doorbells = u.jigs.doorbells.erase d ∧ t.jigs.results = u.jigs.results ∧
                 (∀ p', p' ≠ p → t.partJig p' = u.partJig p') ∧
                 (∃ j, t.partJig p = some j ∧ j.jig = jigOf b l ∧ j.phase = .loading ∧ j.halting = false ∧
                   j.startFrame = (if j.jig.startField = 0 then none else some j.jig.startField)) ∧
                 Within [.jigs, .fabric] u t) ∧
  (∀ (t0 p c : Nat) (rest : List Nat) (j : PartJig) (s : State),
     let u := s.upTo t0
     let start := j.startFrame.getD (u.frame.number + 1)
     u.jigs.inHand = some p → u.partJig p = some j →
     (u.jigs.plansToSend = c :: rest → ∃ t, exec (.planRecord t0) s = .next t ∧ t.jigs.plansToSend = rest ∧
       t.jigs.ackDue = rest.isEmpty ∧ (∀ p', t.partJig p' = u.partJig p') ∧ t.jigs.results = u.jigs.results ∧
       (∀ c', SMap.get t.jigs.planStore c' none = if c' = c then classPlan p j.jig c else SMap.get u.jigs.planStore c' none) ∧
       Within [.jigs] u t) ∧
     (u.jigs.ackDue = true → u.mpServes = true → ∃ t, exec (.planAck t0) s = .next t ∧ t.jigs.inHand = none ∧ t.jigs.ackDue = false ∧
       (∀ p', t.partJig p' = if p' = p then some { j with phase := .loaded, startFrame := some start } else u.partJig p') ∧
       t.jigs.results = u.jigs.results ++ [plainResult p 0 j.jig.jobId start] ∧
       t.shim = { u.shim with steps := u.shim.steps ++ u.jigSteps p start j.jig } ∧ Within [.jigs, .shim] u t) ∧
     (u.jigs.ackDue = true → u.mpServes = false → exec (.planAck t0) s = .next u))

/-- R29, R336, R337, R345 to R347: doorbells join the loader's queue behind all others, at most four of a partition; others are dropped with
their fault. An enable or disable is answered at once and waits for a kerf; nothing is accepted while one is pending. R332, R354 to R356:
resets. A VF's FLR clears its registers, its MSI-X, its traffic and its doorbells, and starts a partition reset: a running job halts, a
jig not started is abandoned, held records go. A PF FLR clears the PF and removes every VF; a link reset clears what the host sees of
every function; a fatal PCI Express error is counted, set in its status and raised. That a PF FLR gives up a pending enable or disable is
the model's choice (log entry 9). -/
def Obligations.PartitionsAreControlledAndReset : Prop :=
  (∀ (p : Fin 16) (adr : Fin 0x20000000) (t0 : Nat) (s : State),
     let u := s.onEdge t0 7
     let mine := (u.jigs.doorbells.filter (fun d => d.partition == p.val)).length
     let taken := u.host.enabled.contains p.val = true ∧ (u.vf p).quiescing = false ∧ mine < 4
     (∃ t, exec (.jigDoorbell p adr t0) s = .next t ∧ Within [.jigs, .host, .fc, .ob] u t ∧
       (taken → t.jigs = { u.jigs with doorbells := u.jigs.doorbells ++
         [{ partition := p, address := 0x20000000000 + 4096 * adr.val, after := (u.vf p).nextTlp }] } ∧ t.host = u.host ∧ t.fc = u.fc) ∧
       (¬ taken → t.jigs = u.jigs ∧ (∀ q, t.vf q = if q = p.val then { u.vf q with doorbellDropped := 1 } else u.vf q) ∧
         Raises u t [raisedOf u.now .hd FC.doorbellDropped (p.val + 1) (some p.val) 0 false])) ∧
     (u.host.ctrlPending = true → ∀ c ∈ [.partCtrlEnable p t0, .partCtrlDisable p t0], ∃ t, exec c s = .next t ∧
       t.host = { u.host with ctrlResult := 1 } ∧ Within [.host, .ob] u t) ∧
     (u.host.ctrlPending = false → ∃ t, exec (.partCtrlEnable p t0) s = .next t ∧ Within [.host, .ob] u t ∧
       t.host = (let h := { u.host with ctrlPartition := p, ctrlAction := 1, ctrlResult := u.enableResult p }
         if u.enableResult p = 0 then { h with ctrlPending := true, ctrlPc := u.now / 30, pendingEnable := [p.val] } else h)) ∧
     (u.host.ctrlPending = false → ∃ t, exec (.partCtrlDisable p t0) s = .next t ∧ Within [.host, .ob] u t ∧
       t.host = (let r := if (u.partJig p).isSome then 4 else if (u.vf p).quiescing then 1 else 0
         let h := { u.host with ctrlPartition := p, ctrlAction := 2, ctrlResult := r }
         if r = 0 then { h with ctrlPending := true, ctrlPc := u.now / 30, pendingDisable := [p.val] } else h))) ∧
  (∀ (p : Fin 16) (removed : Bool) (cause : LinkResetCause) (bit : Fin 32) (t0 : Nat) (s : State),
     let u := s.upTo t0
     let fresh : Vf → Vf := fun v => { Vf.reset with nextTlp := v.nextTlp, nextRead := v.nextRead, completions := v.completions,
                                                     deniedRaised := v.deniedRaised }
     (∃ t, exec (.vfFlr p removed t0) s = .next t ∧
       (∀ q, t.vf q = if q = p.val then { fresh (u.vf p) with present := !removed, quiescing := true } else u.vf q) ∧
       t.msixOf (p.val + 1) = MsixFn.reset ∧
       (∀ d, d ∈ t.jigs.doorbells ↔ d ∈ u.jigs.doorbells ∧ d.partition ≠ p.val) ∧
       (∀ h, h ∈ t.mem.held ↔ h ∈ u.mem.held ∧ h.who ≠ .host p.val) ∧ (∀ r ∈ t.jigs.results, r.partition ≠ p.val) ∧
       (∀ j, u.partJig p = some j → if j.phase = .running then (t.partJig p).map (·.halting) = some true else t.partJig p = none) ∧
       (if (u.slot (p.val + 1)).request.isSome then (t.slot (p.val + 1)).silent = true else (t.slot (p.val + 1)).window = [])) ∧
     (∃ t, exec (.pfFlr t0) s = .next t ∧ t.host.pfIntStatus = 0 ∧ t.host.pfIntEnable = 0 ∧ t.host.pfBusMaster = false ∧
       t.host.ctrlResult = 0 ∧ t.host.ctrlPending = false ∧ t.host.pendingEnable = [] ∧ t.host.pendingDisable = [] ∧
       t.msixOf 0 = MsixFn.reset ∧ t.host.enabled = u.host.enabled ∧ t.host.records = u.host.records ∧
       ∀ q, q < 16 → t.vf q = if (u.vf q).present then { fresh (u.vf q) with quiescing := true } else u.vf q) ∧
     (∃ t, exec (.linkReset cause t0) s = .next t ∧ t.host.linkUp = false ∧ t.host.pfIntStatus = 0 ∧ t.host.bars = [] ∧
       t.host.aspmL1 = false ∧ t.host.aerStatus = 0 ∧ t.pins.perstN = decide (cause ≠ .perst) ∧
       (∀ d ∈ t.jigs.doorbells, 16 ≤ d.partition) ∧
       (∀ q, q < 16 → t.vf q = { fresh (u.vf q) with quiescing := (u.vf q).quiescing }) ∧
       (∀ g, g < 17 → t.msixOf g = MsixFn.reset) ∧ (∀ q, t.partJig q = u.partJig q) ∧
       Raises u t (if u.host.linkUp = true ∧ cause = .linkDown then [raisedOf u.now .hd FC.pcieLinkDown 0 none 0 false] else [])) ∧
     (∃ t, exec (.pcieUncorrectable bit t0) s = .next t ∧
       t.host = { u.host with aer := u.host.aer + 1, aerStatus := u.host.aerStatus ||| 2 ^ bit.val } ∧
       Raises u t [raisedOf u.now .hd FC.pcieUncorrectable 0 none 0 false] ∧ Within [.host, .fc] u t))

/-- R8, R10, R333, R335, R346, R348, R350, R353: what a 64-bit write changes in each register of the PF and of a VF; interrupt status bits are
cleared by writing one; a record of an enabled partition is not written. A read gives what was written, a reserved bit and a write-only
field zero. R332 to R334, R353, R587: the other writes. `JIG_DOORBELL` and `PART_CTRL` act as their commands do; an MSI-X entry takes
address, data and mask, and a message that waits is sent once its vector may; configuration space takes bus mastering, the number of VFs,
base addresses and ASPM L1, clears error status by ones, and keeps nothing else. A write of another size than 64 bits leaves the register
at each word it touches as it is, or as some 64-bit write leaves it. -/
def Obligations.RegisterWrites : Prop :=
  (∀ (p : Fin 16) (off t0 : Nat) (b : Bytes) (s : State),
     let f : Fin 17 := ⟨p.val + 1, by omega⟩
     let u := s.onEdge t0 7
     let v := leNat b
     let x := u.vf p
     let pf : Nat → HostState → Nat → Prop := fun o h n => ∃ t, exec (.registerWrite 0 (.bar0 o) b t0) s = .next t ∧ t.host = h ∧
       Within [.host, .ob] u t ∧ t.registerRead 0 o = some n
     let vf : Nat → Vf → Nat → Prop := fun o y n => ∃ t, exec (.registerWrite f (.bar0 o) b t0) s = .next t ∧
       (∀ q, t.vf q = if q = p.val then y else u.vf q) ∧ Within [.host, .ob] u t ∧ t.registerRead f o = some n
     (b.length = 8 →
       pf 0x140 { u.host with pfIntStatus := u.host.pfIntStatus &&& (7 - v % 8) } (u.host.pfIntStatus &&& (7 - v % 8)) ∧
       pf 0x148 { u.host with pfIntEnable := v % 8 } (v % 8) ∧
       (off % 8 = 0 → off < 320 → pf (0x1000 + 512 * p.val + off)
         (if u.host.enabled.contains p.val then u.host
          else { u.host with records := SMap.set u.host.records p ((u.recordOf p).take off ++ leBytes 8 v ++ (u.recordOf p).drop (off + 8)) [] })
         (if u.host.enabled.contains p.val then rd (u.recordOf p) off 8 else v)) ∧
       (∃ n, vf 0x08 { x with doorbellDropped := if bitAt v 8 then 0 else x.doorbellDropped } n) ∧
       vf 0x10 { x with ringBase := v / 4096 * 4096 } (v / 4096 * 4096) ∧
       (∃ n, vf 0x18 { x with ringSizeLog2 := v % 16, ringEnabled := bitAt v 4 } n ∧ n % 32 = v % 32) ∧
       vf 0x28 { x with resultTail := v % 2 ^ 32 } (v % 2 ^ 32) ∧
       vf 0x40 { x with intStatus := x.intStatus &&& (127 - v % 128) } (x.intStatus &&& (127 - v % 128)) ∧
       vf 0x48 { x with intEnable := v % 128 } (v % 128) ∧
       (∀ q h, q < 4 → x.hqs[q]? = some h →
         vf (0x100 + 0x40 * q) { x with hqs := x.hqs.set q { h with base := v / 4096 * 4096 } } (v / 4096 * 4096) ∧
         vf (0x108 + 0x40 * q) { x with hqs := x.hqs.set q { h with sizeLog2 := v % 16, enabled := bitAt v 4 } } (v % 32) ∧
         vf (0x118 + 0x40 * q) { x with hqs := x.hqs.set q { h with tail := v % 2 ^ 32 } } (v % 2 ^ 32)))) ∧
  (∀ (p : Fin 16) (g : Fin 17) (off k t0 : Nat) (n : Fin 3) (b : Bytes) (s : State),
     let f : Fin 17 := ⟨p.val + 1, by omega⟩
     let u := s.onEdge t0 7
     let v := leNat b
     let m := u.msixOf g
     let base := if g.val = 0 then 0xFE000 else 0xF000
     let size := if n = 0 then 0x100000 else if n = 1 then 0x10000 else 0x40000000000
     let counted := u.bump (0x980 + 8 * g.val) 1
     let becomes : RegSpace → MsixFn → Prop := fun r m' => exec (.registerWrite g r b t0) s = .next ((counted.setMsixOf g m').settleMsix g)
     let entry : Nat → MsixEntry := fun k => SMap.get m.table k MsixEntry.reset
     (∃ t, exec (.registerWrite f .busMaster b t0) s = .next t ∧
       (∀ q, t.vf q = if q = p.val then { u.vf p with busMaster := v % 2 == 1 } else u.vf q) ∧ Within [.host, .ob] u t) ∧
     (∃ t, exec (.registerWrite 0 .numVfs b t0) s = .next t ∧ ∀ q, q < v → q < 16 → t.vf q = { u.vf q with present := true }) ∧
     (b.length = 8 → k < (if g.val = 0 then 3 else 7) →
       becomes (.bar0 (base + 16 * k))
         { m with table := SMap.set m.table k { entry k with address := v / 4 * 4 } MsixEntry.reset } ∧
       becomes (.bar0 (base + 16 * k + 8))
         { m with table := SMap.set m.table k { entry k with data := v % 2 ^ 32, masked := bitAt v 32 } MsixEntry.reset }) ∧
     becomes .msixControl { m with enabled := bitAt v 0, masked := bitAt v 1 } ∧
     (∃ t, exec (.registerWrite 0 .aspm b t0) s = .next t ∧ t.host = { u.host with aspmL1 := bitAt v 1 } ∧ Within [.host, .ob] u t) ∧
     (∃ t, exec (.registerWrite 0 .aerStatus b t0) s = .next t ∧ Within [.host, .ob] u t ∧
       t.host = { u.host with aerStatus := t.host.aerStatus } ∧
       ∀ i, t.host.aerStatus.testBit i = (u.host.aerStatus.testBit i && !v.testBit i)) ∧
     (∃ t, exec (.registerWrite 0 (.bar n) b t0) s = .next t ∧ Within [.host, .ob] u t ∧
       t.host = { u.host with bars := SMap.set u.host.bars n (v % 2 ^ 64 / size * size) 0 }) ∧
     (∃ t, exec (.registerWrite g .config b t0) s = .next t ∧ Within [.ob] u t) ∧
     (off < 0x1000 → b.length ≠ 8 ∨ off % 8 ≠ 0 → ∃ l : List (Nat × Option Nat), l.map (·.1) = wordsTouched off b.length ∧
       (∀ x ∈ l, ∀ n, x.2 = some n → n < 2 ^ 64) ∧
       exec (.registerWrite g (.bar0 off) b t0) s = .next (l.foldl (fun w x =>
         let w1 : State := { w with free := w.free + 1 }
         match x.2 with
         | some n => w1.registerWrite64 g x.1 n
         | none => w1) counted)))

/-- R106, R337, R348, R350 to R353: entries from and to the host, and load results. The write that covers byte 511 of a send position sends
the whole of it where a credit is left, else it is dropped with `HQ_NO_CREDIT`; one of a disabled partition is denied. What goes to the
host goes to its ring slot, bad words as zeros and a signal as zeros, its head moves on, and its interrupt bit is set. -/
def Obligations.HostRings : Prop :=
  (∀ (p : Fin 16) (q : Fin 4) (off : Fin 512) (b : Bytes) (t0 id : Nat) (h : HostQueue) (s : State),
    let u := s.upTo t0
    let v := u.vf p
    let position : Nat → Byte := fun i => if off.val ≤ i ∧ i < off.val + b.length then b.getD (i - off.val) 0 else SMap.get h.sendBytes i 0
    (u.host.enabled.contains p.val = false → ∃ t, exec (.hqSendEntry p q off b t0) s = .next t ∧
      t.vf p = { v with deniedRaised := true } ∧ t.qf = u.qf ∧
      Raises u t (if v.deniedRaised then [] else [raisedOf u.now .hd FC.apertureDenied (p.val + 1) (some p.val) 0 false])) ∧
    (v.hqs[q.val]? = some h → u.host.enabled.contains p.val = true →
      (off.val + b.length < 512 → ∃ t, exec (.hqSendEntry p q off b t0) s = .next t ∧ t.qf = u.qf ∧ t.fc = u.fc ∧
        ∃ h', (t.vf p).hqs[q.val]? = some h' ∧ ∀ i, i < 512 → SMap.get h'.sendBytes i 0 = position i) ∧
      (512 ≤ off.val + b.length → u.hostQueue (4 * p.val + q.val) true = some id → (u.queue id).canSend = true →
        ∃ t, exec (.hqSendEntry p q off b t0) s = .next t ∧ t.fc = u.fc ∧
          SentOn u t id { data := some ((List.range 512).map (fun i => some (position i))) }) ∧
      (512 ≤ off.val + b.length → (∀ k, u.hostQueue (4 * p.val + q.val) true = some k → (u.queue k).canSend = false) →
        ∃ t, exec (.hqSendEntry p q off b t0) s = .next t ∧ t.qf = u.qf ∧
          Raises u t [raisedOf u.now .hd FC.hqNoCredit (p.val + 1) (some p.val) 0 false])) ∧
    (v.hqs[q.val]? = some h → u.hostQueue (4 * p.val + q.val) false = some id → (u.queue id).canReceive = true → h.enabled = true →
      ringFill h.head h.tail < ringSize h.sizeLog2 →
      ∃ t, exec (.hqToHostWrite p q t0) s = .next t ∧ (∀ k, t.queue k = if k = id then (u.queue id).receive else u.queue k) ∧
        t.host.hostWrites = { function := p.val + 1, address := h.base + 512 * (h.head % ringSize h.sizeLog2),
                              data := match (u.queue id).visible.head?.bind (·.data) with
                                | some d => d.map (fun b => some (b.getD 0))
                                | none => List.replicate 512 (some 0) } :: u.host.hostWrites ∧
        (t.vf p).hqs[q.val]? = some { h with head := (h.head + 1) % 2 ^ 32 } ∧ bitAt (t.vf p).intStatus (2 + q.val) = true)) ∧
  (∀ (p : Fin 16) (t0 : Nat) (r : LoadResult) (s : State),
    let u := s.upTo t0
    let v := u.vf p
    u.jigs.results.find? (fun r => r.partition == p.val) = some r → v.ringEnabled = true → v.busMaster = true →
      ringFill v.resultHead v.resultTail < ringSize v.ringSizeLog2 →
      ∃ t, exec (.resultRecordWrite p t0) s = .next t ∧ t.jigs = { u.jigs with results := u.jigs.results.erase r } ∧
        t.host.hostWrites = { function := p.val + 1, address := v.ringBase + 32 * (v.resultHead % ringSize v.ringSizeLog2),
                              data := r.bytes.map some } :: u.host.hostWrites ∧ r.bytes.length = 32 ∧
        (t.vf p).resultHead = (v.resultHead + 1) % 2 ^ 32 ∧ bitAt (t.vf p).intStatus 0 = true)

/-- R332, R334, R341 to R344, R618: traffic of the aperture. Offsets below 0x180_0000_0000 are Tier 2, those from 0x200_0000_0000 on Tier 3.
An access within the partition's granules joins those of its function in order, where the hub has room: 262,144 bytes of posted writes and
32 sector buffers, in which Tier 3 writes are put together until all 4,096 bytes of the sector have come. An access outside is dropped, or
aborted if it is a read, with `APERTURE_DENIED` once per frame; other offsets answer as unsupported. A sector incomplete after 1 ms is
discarded. R240 to R246, R340 to R342: a host slot. A slot of Tier 2 or Tier 3 that the partition's record keeps for its host port, or its
jig grants it, and that nothing has used yet, serves the function's first access, or its first writes where they fall in one stripe; a
read is held for delivery, a write changes the bytes it enables, a sector is written whole while Tier 3 takes writes. Without such a slot
nothing is served. -/
def Obligations.ApertureAccesses : Prop :=
  (∀ (p : Fin 16) (off len t0 : Nat) (b : Bytes) (en : List Bool) (c : Sector) (z : ApertureTlp) (r : List ApertureTlp) (s : State),
     let u := s.upTo t0
     let v := u.vf p
     let a := 0x20000000000 + off
     let mapped := off < 0x18000000000 ∨ (0x20000000000 ≤ off ∧ off < 0x40000000000)
     let others : State → Prop := fun t => ∀ q, q ≠ p.val → t.vf q = u.vf q
     let denied := if v.deniedRaised then [] else [raisedOf u.now .hd FC.apertureDenied (p.val + 1) (some p.val) 0 false]
     let w : ApertureTlp := { seq := v.nextTlp, address := a, kind := .write b en }
     let room := v.postedBytes + b.length ≤ 262144
     (mapped → u.mod.mode ≠ .standby → b.length ≤ 512 → u.owns p a b.length = true → v.stalled = [] →
       (off < 0x18000000000 → room → ∃ t, exec (.apertureWrite p off b en t0) s = .next t ∧ others t ∧
         t.vf p = { v with nextTlp := v.nextTlp + 1, accesses := v.accesses ++ [w] }) ∧
       (0x20000000000 ≤ off → room → (∀ x ∈ v.sectors, x.address ≠ a - a % 4096) → v.sectorsUsed < 32 → en.all id = true →
         ∃ t, exec (.apertureWrite p off b en t0) s = .next t ∧ others t ∧ ∃ cells,
           t.vf p = { v with nextTlp := v.nextTlp + 1, sectors :=
             { seq := v.nextTlp, address := a - a % 4096, bytes := cells, firstAt := u.now } :: v.sectors } ∧
           ∀ i, SMap.get cells i none = if a % 4096 ≤ i ∧ i < a % 4096 + b.length then b[i - a % 4096]? else none) ∧
       (0x20000000000 ≤ off → (∀ x ∈ v.sectors, x.address ≠ a - a % 4096) → 32 ≤ v.sectorsUsed →
         ∃ t, exec (.apertureWrite p off b en t0) s = .next t ∧ others t ∧
           t.vf p = { v with nextTlp := v.nextTlp + 1, stalled := [w] }) ∧
       (¬ room → ∃ t, exec (.apertureWrite p off b en t0) s = .next t ∧ others t ∧
         t.vf p = { v with nextTlp := v.nextTlp + 1, stalled := [w] })) ∧
     (v.stalled = z :: r → v.canTake z = false → mapped → u.mod.mode ≠ .standby → b.length ≤ 512 → u.owns p a b.length = true →
       ∃ t, exec (.apertureWrite p off b en t0) s = .next t ∧ others t ∧
         t.vf p = { v with nextTlp := v.nextTlp + 1, stalled := v.stalled ++ [w] }) ∧
     (mapped → u.mod.mode ≠ .standby → b.length ≤ 512 → u.owns p a b.length = false →
       ∃ t, exec (.apertureWrite p off b en t0) s = .next t ∧
         (t.vf p).accesses = v.accesses ∧ (t.vf p).sectors = v.sectors ∧ t.mem = u.mem ∧ Raises u t denied) ∧
     (¬ mapped ∨ u.mod.mode = .standby ∨ 512 < b.length → ∃ t, exec (.apertureWrite p off b en t0) s = .next t ∧ Within [.ob] u t) ∧
     (mapped → u.mod.mode ≠ .standby → u.owns p a len = true → v.stalled = [] →
       ∃ t, exec (.apertureRead p off len t0) s = .next t ∧ others t ∧
         t.vf p = { v with nextTlp := v.nextTlp + 1, nextRead := v.nextRead + 1,
                           accesses := v.accesses ++ [{ seq := v.nextTlp, address := a, kind := .read v.nextRead len }] }) ∧
     (mapped → u.mod.mode ≠ .standby → u.owns p a len = false → ∃ t, exec (.apertureRead p off len t0) s = .next t ∧
       (t.vf p).completions = v.completions ++ [(v.nextRead, .aborted)] ∧ (t.vf p).accesses = v.accesses ∧ Raises u t denied) ∧
     (¬ mapped ∨ u.mod.mode = .standby → ∃ t, exec (.apertureRead p off len t0) s = .next t ∧
       (t.vf p).completions = v.completions ++ [(v.nextRead, .unsupported)] ∧ (t.vf p).accesses = v.accesses ∧ t.fc = u.fc) ∧
     (v.sectors.find? (fun y => decide (y.firstAt + 7200000 ≤ u.now)) = some c → v.stalled = [] →
       ∃ t, exec (.sectorIncomplete p t0) s = .next t ∧ (t.vf p).sectors = v.sectors.erase c ∧ t.mem = u.mem ∧
         Raises u t [raisedOf u.now .hd FC.sectorIncomplete (p.val + 1) (some p.val) 0 false])) ∧
  (∀ (p : Fin 16) (t0 n len : Nat) (b : Bytes) (en : List Bool) (x : ApertureTlp) (l rest : List ApertureTlp) (y : TierSlot) (s : State),
     let u := s.upTo t0
     let v := u.vf p
     let served : State → Prop := fun t => (t.vf p).accesses = rest ∧ (∀ q, q ≠ p.val → t.vf q = u.vf q) ∧
       t.mem.lastSlot = SMap.set u.mem.lastSlot y.schedule (some y.instant) none
     slotBatch v.accesses = (x :: l, rest) → v.stalled = [] →
     (u.tierSlot x.address x.writes = some y → u.hostGrant p y = true → u.slotUnused y = true →
       (x.kind = .read n len → ∃ t, exec (.hostSlotAccess p t0 [] none) s = .next t ∧ served t ∧
         t.mem.held = u.mem.held ++ [{ tier := tierOf x.address, who := .host p, tag := n, address := x.address, slot := y.instant
                                       data := if tierOf x.address = 3 then u.sectorBefore x.address len y.instant
                                         else u.mem.readData x.address len }]) ∧
       (x.kind = .write b en → tierOf x.address ≠ 3 → ∃ t, exec (.hostSlotAccess p t0 [] none) s = .next t ∧ served t ∧
         (l = [] → ∀ i, t.mem.byteAt i = if x.address ≤ i ∧ i < x.address + b.length ∧ en.getD (i - x.address) true = true then
           b.getD (i - x.address) 0 else u.mem.byteAt i) ∧
         (∀ i, (∀ z ∈ x :: l, ∀ d e, z.kind = .write d e → ¬ (z.address ≤ i ∧ i < z.address + d.length)) →
           t.mem.byteAt i = u.mem.byteAt i) ∧
         ∀ z ∈ l, z.address / 4096 = x.address / 4096 ∧ z.writes = true) ∧
       (x.kind = .write b en → tierOf x.address = 3 → u.mem.t3Refusing = false → u.mem.t3Programmed < 1100 * 10 ^ 13 →
         ∃ t, exec (.hostSlotAccess p t0 [] none) s = .next t ∧ served t ∧
           t.mem.cells = (u.mem.store x.address (goodData b)).cells ∧ t.mem.t3Programmed = u.mem.t3Programmed + 4096 ∧ l = [])) ∧
     ((∀ y, u.tierSlot x.address x.writes = some y → u.hostGrant p y = false ∨ u.slotUnused y = false) →
       exec (.hostSlotAccess p t0 [] none) s = .next u))

/-! ### Fabric -/

/-- R290, R293 to R298, R322: ports. A port that completes training within 500 ms is up with its neighbour, serial and delay, or waits for
the kerf where its link already runs; one that has not trained by then stays down; a path goes down for want of FEC lock, of progress for
20 microseconds, or after eight failed replays of one flit, and is retrained, its link going on with the other path or going down; a
flit counts as received only in sequence and with a good check, one that does not asks for a replay, and what a `NAK` asks for is
sent again. -/
def Obligations.FabricPortsTrainAndFail : Prop :=
  ∀ (port : Fin 32) (nb level delay t0 : Nat) (serial raw : Bytes) (fecBad fecFixed lockLost : Bool) (w : Option LinkWord) (s : State),
    let k := port.val / 2
    let h := port.val % 2
    let u := s.upTo t0
    let l := u.link k
    let p := l.path h
    let f := Flit.ofBytes raw
    let only : State → Prop := fun t => ∀ k', k' ≠ k → t.link k' = u.link k'
    let fails := lockLost = true ∨ 8 ≤ p.failedReplays ∨ (p.unacked ≠ [] ∧ p.ackAt + 144000 ≤ u.now)
    let taken := f.channel = 3 ∨ f.seq = (p.lastGood + 1) % 4096
    (p.state = .training →
      (u.now ≤ p.trainAt + 3600000000 → ∃ t, exec (.portTrainingComplete port nb serial level delay t0) s = .next t ∧ only t ∧
        ((t.link k).path h).state = (if l.split = false ∧ (l.path (1 - h)).live = true then .upWaiting else .up) ∧
        ((t.link k).path h).neighbour = some nb ∧ ((t.link k).path h).serial = serial ∧ ((t.link k).path h).delayNs = delay ∧
        (∀ x ∈ t.fabric.relayed, x.1 ≠ nb) ∧ ((t.link k).skew = (t.link k).skewed) ∧
        Raises u t (if (t.link k).skew && !l.skew then [raisedOf u.now .hd FC.pathSkew (0x100 + k) none 0 false] else [])) ∧
      (p.trainAt + 3600000000 ≤ u.now → ∃ t, exec (.trainFail port t0) s = .next t ∧ only t ∧ ((t.link k).path h).state = .down ∧
        (t.link k).path (1 - h) = l.path (1 - h) ∧ Raises u t [raisedOf u.now .hd FC.trainFail port none 0 false])) ∧
    (p.state ≠ .training ∨ p.trainAt + 3600000000 < u.now →
      exec (.portTrainingComplete port nb serial level delay t0) s = .next u) ∧
    (p.state ≠ .training ∨ u.now < p.trainAt + 3600000000 → exec (.trainFail port t0) s = .next u) ∧
    (p.live = true → fails → ∃ t, exec (.pathDown port lockLost t0) s = .next t ∧ ((t.link k).path h).state = .training ∧
      ((t.link k).path h).trainAt = u.now ∧
      (if l.split = false ∧ (l.path (1 - h)).live = true then
        ((t.link k).path (1 - h)).state = .up ∧ (t.link k).level = l.level ∧
          Raises u t [raisedOf u.now .hd FC.pathDown port none 0 false]
       else ((t.link k).path (1 - h)).state = (l.path (1 - h)).state ∧
        ∃ more, Raises u t ([raisedOf u.now .hd FC.pathDown port none 0 false,
          raisedOf u.now .hd FC.linkDown (0x100 + k) none 0 false] ++ more))) ∧
    (p.live = false ∨ ¬ fails → exec (.pathDown port lockLost t0) s = .next u) ∧
    (p.live = true →
      ((fecBad = true ∨ raw.length ≠ 256 ∨ crcGood raw 0 252 = false) →
        ∃ t, exec (.flitReceive port t0 raw fecBad fecFixed w) s = .next t ∧
          ((t.link k).path h).nakSent = true ∧ ((t.link k).path h).lastGood = p.lastGood ∧
          ((t.link k).path h).fecUncorrected = (if fecBad then min 0xFFFFFFFF (p.fecUncorrected + 1) else p.fecUncorrected) ∧
          t.fabric.toRelease = u.fabric.toRelease ∧ t.fabric.toForward = u.fabric.toForward ∧ t.fabric.dowelsIn = u.fabric.dowelsIn ∧
          t.fc = u.fc) ∧
      (fecBad = false → raw.length = 256 → crcGood raw 0 252 = true →
        ∃ t, exec (.flitReceive port t0 raw fecBad fecFixed w) s = .next t ∧
          (if f.channel ≠ 3 ∧ taken then
            ((t.link k).path h).lastGood = f.seq ∧ ((t.link k).path h).nakSent = false
           else ((t.link k).path h).lastGood = p.lastGood ∧ ((t.link k).path h).nakSent = p.nakSent) ∧
          (taken → f.nak = true → ∀ g ∈ dropAcked f.ack p.unacked, ∃ ack nak, (port.val, { g with ack := ack, nak := nak }.bytes) ∈ t.fabric.out)))

/-- R302, R304 to R306, R311, R312, R314, R315, R317, R318: transactions. One for another node goes on by its route, with one hop more, or
is discarded with its fault; one held here is released at its edge, or at the next if it came late, in order of its binding, for the job
that runs: a put's entries enter the sink's queue, credits, requests and partials of children are counted; another job's is discarded. -/
def Obligations.FabricTransactionsArrive : Prop :=
  ∀ (t0 i : Nat) (upset : Bool) (x : HeldTx) (rest : List HeldTx) (q : QueueDecl) (s : State),
    let u := s.upTo t0
    let e := x.tx.destEndpoint
    let b := u.binding e
    let seq := (u.endpoint e).expects x.tx.peer
    let ep := (u.nextTurn x.tx).endpoint e
    let n := x.tx.count
    let p := u.ownerOfEndpoint e
    let room := (u.queue q.id).declared = true ∧ (u.queue q.id).failed = false ∧ n ≤ (u.queue q.id).credits
    let released : (State → Prop) → Prop := fun ok => ∃ t, exec (.transactionRelease t0) s = .next t ∧
      t.fabric.toRelease = u.fabric.toRelease.erase x ∧ ok t
    (u.fabric.toForward = x :: rest →
      (∃ t, exec (.transactionForward t0 upset) s = .next t ∧ t.fabric.toForward = rest ∧ t.fabric.toRelease = u.fabric.toRelease) ∧
      (8 ≤ x.tx.hops → ∃ t, exec (.transactionForward t0 upset) s = .next t ∧
        Raises u t [raisedOf u.now .hd FC.hopLimit (0x100 + x.link) none 0 false]) ∧
      (x.tx.hops < 8 → u.route x.tx.destNode = none → ∃ t, exec (.transactionForward t0 upset) s = .next t ∧
        Raises u t [raisedOf u.now .hd FC.noRoute (0x100 + x.link) none 0 false]) ∧
      (∀ r, x.tx.hops < 8 → u.route x.tx.destNode = some r → x.tx.level ≤ (u.link r.1).levelOf r.2.1 →
        ∃ t, exec (.transactionForward t0 upset) s = .next t ∧ t.fc = u.fc ∧
          t.fabric = ((({ u with fabric := { u.fabric with toForward := rest } } : State).creditHeld x).transmit r.1 r.2.1
            ({ x.tx with hops := x.tx.hops + 1,
                         crcGood := x.tx.crcGood && !(upset && !x.tx.data.isEmpty) } : Transaction).flits).fabric)) ∧
    (u.nextRelease = some x →
      (edgeCome u.rt (if x.late then (x.arrivedRt + 1) % 2 ^ 32 else x.tx.releaseRt) = true) ∧
      (u.jobOfEndpoint e = some x.tx.jobId → ep.expects x.tx.peer = if x.tx.bindSeq = seq then (x.tx.bindSeq + 1) % 65536 else seq) ∧
      (u.jobOfEndpoint e = some x.tx.jobId → x.late = false → x.tx.crcGood = true →
        (b.mode = 2 → x.tx.kind = 1 → u.producedQueue e = some q → room → released (fun t => t.fc = u.fc ∧
          t.endpoint e = { ep with reserved := ep.reserved - n } ∧
          (t.queue q.id).transit = (u.queue q.id).transit ++ entriesOf x.tx ∧
          (t.queue q.id).credits = (u.queue q.id).credits - n ∧ ∀ k, k ≠ q.id → t.queue k = u.queue k)) ∧
        (b.mode = 4 → x.tx.kind = 3 → u.producedQueue e = some q → room → released (fun t => t.fc = u.fc ∧
          t.endpoint e = { ep with reserved := ep.reserved - n } ∧
          (t.queue q.id).transit = (u.queue q.id).transit ++ entriesOf x.tx)) ∧
        (b.mode = 1 → x.tx.kind = 4 → released (fun t => t.endpoint e = { ep with remoteCredits := ep.remoteCredits + n })) ∧
        (b.mode = 3 → x.tx.kind = 2 → released (fun t => t.endpoint e = { ep with requests := ep.requests + 1 })) ∧
        (b.mode = 5 → x.tx.kind = 5 → b.children.findIdx? (fun c => c.1 == x.tx.srcNode && c.2 == x.tx.srcEndpoint) = some i →
          released (fun t => ∃ c : ChildPartial, t.endpoint e = { ep with partials := ep.partials ++ [c] } ∧
            c.child = i ∧ c.op = x.tx.bindSeq ∧ c.values = valuesOf n x.tx.data ∧ c.flags = x.tx.waFlags ∧
            Raises u t (if x.tx.window ≠ b.window then [raisedOf u.now .hd FC.redWindow 0xFFFF p 0 false] else []))) ∧
        (b.mode = 5 → x.tx.kind = 6 → released (fun t => (t.endpoint e).results = ep.results + 1 ∧
          ∃ r : RedResult, (t.endpoint e).toForward = ep.toForward ++ [r] ∧ r.op = x.tx.bindSeq ∧ r.rt = u.rt ∧
            r.values = valuesOf n x.tx.data ∧ r.flags = x.tx.waFlags ∧ r.mismatch = x.tx.windowMismatch))) ∧
      (u.jobOfEndpoint e ≠ some x.tx.jobId → x.late = false → released (fun t => (∀ e', t.endpoint e' = u.endpoint e') ∧ t.qf = u.qf ∧
        Raises u t (if p.elim false (fun p => u.jigs.halted.contains p) then []
          else [raisedOf u.now .hd FC.jobMismatch (0x100 + x.link) p 0 false]))) ∧
      (x.late = true → released (fun t => t.fabric.lateRaised = true ∧
        (u.fabric.lateRaised = false → raisedOf u.now .hd FC.lateRelease (0x100 + x.link) p 0 false ∈ t.fc.raised))))

/-- R311, R312, R316 to R318, R129: what endpoints form. A put takes a batch of entries and as many remote credits; a sink returns its
credits; a get spends a signal entry and reserves credits; a server answers its oldest request; a reduction's member adds its
contribution to its children's, whatever their order, and sends the sum up for the first edge 120 ns after its last input, or at the
root takes the result and sends it down; a result goes on to the children for the second edge after its release. -/
def Obligations.FabricEndpointsForm : Prop :=
  (∀ (n : Nat) (w : Int) (own : List QEntry) (ps qs : List ChildPartial), ps.Perm qs → combine n w own ps = combine n w own qs) ∧
  (∀ (e : Fin 256) (t0 : Nat) (r : RedResult) (rest : List RedResult) (s : State),
    let u := s.upTo t0
    let b := u.binding e
    let ep := u.endpoint e
    let q := 0x1000 + e.val
    let data := fun n => ((u.queue q).visible.take n).flatMap entryBytes
    let forms : Instr → Nat → EpState → Transaction → Prop := fun i taken y x => ∃ t, exec i s = .next t ∧
      (∀ k, t.queue k = if k = q then { u.queue q with visible := (u.queue q).visible.drop taken,
                                                       creditsTransit := (u.queue q).creditsTransit + taken } else u.queue k) ∧
      t.fabric = ((u.setEndpoint e { y with bindSeq := (ep.bindSeq + 1) % 65536, seen := ep.seen.drop taken }).originate x).fabric
    (ep.toForward = r :: rest → r.rt + 2 ≤ u.rt → ∃ t, exec (.reduceResultForward e t0) s = .next t ∧
      t.fabric = ((u.setEndpoint e { ep with toForward := rest }).resultToChildren e (r.rt + 2) r).fabric ∧ t.qf = u.qf) ∧
    (u.epRuns e = true → 0 < b.batch →
    (b.mode = 1 → b.batch ≤ u.epVisible e → b.batch ≤ ep.remoteCredits →
      forms (.putForm e t0) b.batch { ep with remoteCredits := ep.remoteCredits - b.batch } (u.epTx e 1 b.batch (data b.batch))) ∧
    (b.mode = 2 → b.batch ≤ u.epCredits e →
      forms (.creditSend e t0) 0 { ep with reserved := ep.reserved + u.epCredits e } (u.epTx e 4 (u.epCredits e) [])) ∧
    (b.mode = 4 → 0 < u.epVisible e → b.batch ≤ u.epCredits e →
      forms (.getForm e t0) 1 { ep with reserved := ep.reserved + b.batch } (u.epTx e 2 b.batch [])) ∧
    (b.mode = 3 → 0 < ep.requests → b.batch ≤ u.epVisible e →
      forms (.responseForm e t0) b.batch { ep with requests := ep.requests - 1 } (u.epTx e 3 b.batch (data b.batch))) ∧
    (u.reduceReady e = true → u.combineEdge e ≤ u.rt →
      let c := combine b.batch b.window ((u.queue q).visible.take (b.batch + 1)) (ep.partialsOf ep.nextOp b.children.length)
      ∃ t, exec (.reduceCombine e t0) s = .next t ∧ (t.endpoint e).nextOp = ep.nextOp + 1 ∧
        (t.endpoint e).partials = ep.partials.filter (fun x => x.op != ep.nextOp % 65536) ∧
        (b.remoteNode.isSome = true → (t.queue q).visible = (u.queue q).visible.drop (b.batch + 1) ∧
          (t.endpoint e).results = ep.results ∧ (t.endpoint e).reserved = ep.reserved + b.batch + 1 ∧
          ∃ y, t.fabric = ((u.setEndpoint e y).originateAt (u.combineEdge e)
            { u.epTx e 5 b.batch (c.1.flatMap (fun v => leBytes 8 v)) with
              bindSeq := ep.nextOp % 65536, window := b.window, waFlags := c.2.1, windowMismatch := c.2.2 }).fabric) ∧
        (b.remoteNode = none → (t.endpoint e).results = ep.results + 1 ∧
          t.qf = ((u.takeEntries e (b.batch + 1)).2.produce e
            (resultEntries (if c.2.2 then List.replicate (64 * b.batch) 0 else c.1) (if c.2.2 then c.2.1 ||| waInvalid else c.2.1))).qf))))

/-- R293, R313, R319: tokens, transactions and flits as bytes spell themselves back, with every field at every value its bytes hold; a
flit's check is good. -/
def Obligations.FabricFormatsAreReadBack : Prop :=
  (∀ f : Flit, f.channel < 4 → f.creditVc < 4 → f.creditCount < 4096 → f.seq < 4096 → f.ack < 4096 → f.lseq < 65536 →
    f.payload.length = 240 → f.bytes.length = 256 ∧ crcGood f.bytes 0 252 = true ∧ Flit.ofBytes f.bytes = f) ∧
  (∀ d : Dowel, d.kind < 256 → d.member < 2 ^ 16 → d.domainId < 2 ^ 32 → d.frame < 2 ^ 48 → d.startRt < 2 ^ 64 → d.jobId < 2 ^ 32 →
    d.bytes.length = 32 ∧ Dowel.ofBytes d.bytes = d) ∧
  (∀ x : Transaction, x.kind < 256 → x.hops < 256 → x.destNode < 8192 → x.srcNode < 8192 → x.destEndpoint < 256 →
    x.srcEndpoint < 256 → x.sendRt < 2 ^ 32 → x.delayClass < 256 → x.count < 2 ^ 16 → x.bindSeq < 2 ^ 16 → -512 ≤ x.window →
    x.window < 512 → x.waFlags < 256 → x.level < 256 → x.jobId < 2 ^ 32 → x.data.length = txDataLen x.kind x.count →
    (x.data = [] → x.crcGood = true) → Transaction.ofBytes x.bytes = x)

/-! ### Management processors and the mailbox -/

/-- R563, R564, R568, R572, R573, R579: a kick is noted; 3.0 ms without one, or a declared failure, begins a coast: the processor in control
stops, nobody holds control, and a command it had begun stands in the journal as not complete. 50 ms and 1.0 s of coast raise their
faults, once each; a standby without a kick for 300 ms is lost; a lost processor boots again as standby, or is HELD after three failures
within an hour. R561, R562, R568, R581 to R583, R611, R626: a boot uses the bank of the boot record, or the other one with
`FW_VERIFY_FAIL`. At a cold start the first processor to pass, MP-A before MP-B, takes control and the staged start begins; a later one is
a standby. Where no bank verifies at a cold start the RECOVERY program runs. A standby that passes its self-test and can read the newest
image is READY; one that fails stops. -/
def Obligations.ManagementProcessorsFailAndBoot : Prop :=
  (∀ (who : Fin 2) (mid : Bool) (t0 i : Nat) (s : State),
     let u := s.upTo t0
     let p := u.proc who
     let b := u.standby
     let coasts : State → Prop := fun t =>
       t.mp.owner = none ∧ t.mp.coastSince = some u.now ∧ t.mp.handover = false ∧ t.mp.failedOver = true ∧
       (t.proc i).role = .none ∧ (t.proc i).failures.head? = some u.now ∧ t.proc (1 - i) = u.proc (1 - i) ∧
       t.mp.image0 = u.mp.image0 ∧ t.mp.image1 = u.mp.image1 ∧ t.mp.copying = none ∧ t.fc = u.fc ∧ Within [.mp, .ob] u t ∧
       (mid = false → t.mp.slots = u.mp.slots ∧ t.mp.readyOrder = u.mp.readyOrder ∧ t.mp.journal = u.mp.journal) ∧
       (∀ k pc rest r, mid = true → u.mp.readyOrder = (k, pc) :: rest → (u.slot k).request = some r →
         ∃ e, t.mp.journal = u.mp.keptJournal ++ [e] ∧ e.seq = u.mp.jseq + 1 ∧ e.complete = false ∧ e.request = r ∧
           e.source = slotSource k)
     (p.role = .active ∨ p.role = .selfTest ∨ p.role = .ready →
       ∃ t, exec (.watchdogKick who t0) s = .next t ∧ t.proc who = { p with lastKick := u.now } ∧
         t.proc (1 - who.val) = u.proc (1 - who.val) ∧ Within [.mp] u t) ∧
     (u.mp.owner = some i → i < 2 → (u.proc i).lastKick + 21600000 ≤ u.now →
       ∃ t, exec (.watchdogExpiry mid t0) s = .next t ∧ coasts t) ∧
     (u.mp.owner = some i → i < 2 → u.now < (u.proc i).lastKick + 21600000 → exec (.watchdogExpiry mid t0) s = .next u) ∧
     (u.mp.owner = some i → i < 2 → ∃ t, exec (.mpFailureDeclared mid t0) s = .next t ∧ coasts t) ∧
     (∀ a, u.mp.coastSince = some a → a + 360000000 ≤ u.now → u.mp.coastRaised = false →
       ∃ t, exec (.coastTimeout t0) s = .next t ∧ t.mp = { u.mp with coastRaised := true } ∧
         Raises u t [raisedOf u.now .pwc FC.mpCoastTimeout 0xFFFF none 0 true] ∧ Within [.mp, .fc] u t) ∧
     (∀ a, u.mp.coastSince = some a → a + 7200000000 ≤ u.now → u.mp.noneRaised = false →
       ∃ t, exec (.mpNoneTimeout t0) s = .next t ∧ t.mp = { u.mp with noneRaised := true } ∧
         Raises u t [raisedOf u.now .pwc FC.mpNone 0xFFFF none 0 true] ∧ Within [.mp, .fc] u t) ∧
     (b.role = .selfTest ∨ b.role = .ready → u.mp.owner.isSome = true → b.lastKick + 2160000000 ≤ u.now →
       ∃ t, exec (.standbyWatchdogExpiry t0) s = .next t ∧ t.standby.role = .none ∧ t.standby.failures.head? = some u.now ∧
         t.mp.owner = u.mp.owner ∧ Raises u t [raisedOf u.now .pwc FC.mpStandbyLost 0xFFFF none 0 false] ∧ Within [.mp, .fc] u t) ∧
     (p.role = .none → p.failures ≠ [] → u.mod.processorsUp = true → u.mod.mode ≠ .parked → u.recoveryServes = false →
       ∃ t, exec (.processorRestart who t0) s = .next t ∧ t.proc (1 - who.val) = u.proc (1 - who.val) ∧ t.mp.owner = u.mp.owner ∧
         if 3 ≤ (p.failures.filter (fun a => decide (u.now < a + 25920000000000))).length then
           t.proc who = { p with role := .held } ∧ Raises u t [raisedOf u.now .pwc FC.mpStandbyLost 0xFFFF none 0 false]
         else t.proc who = { p with role := .booting } ∧ t.fc = u.fc)) ∧
  (∀ (who : Fin 2) (pass corrected : Bool) (t0 : Nat) (s : State),
     let u := s.upTo t0
     let p := u.proc who
     let q := u.proc (1 - who.val)
     let first := u.mp.owner = none ∧ u.mp.coastSince = none ∧ u.mp.mpA.role ≠ .recovery
     let b := if (u.fwBank p.bank).valid then p.bank else 1 - p.bank
     let x := u.fwBank b
     let verifyFail := if b = p.bank then [] else [raisedOf u.now .pwc FC.fwVerifyFail 0xFFFF none 0 false]
     let c := u.standby
     let found := if corrected then [raisedOf u.now .pwc FC.mpMemoryCorrected 0xFFFF none 0 false] else []
     (p.role = .booting → u.mod.processorsUp = true → (first → u.rails.stopNext = none) → p.bank < 2 → x.valid = true →
       ∃ t, exec (.mpBootComplete who pass t0) s = .next t ∧ Raises u t verifyFail ∧
         (pass = true → (t.proc who).bank = b ∧ (t.proc who).fwMajor = x.fwMajor ∧ (t.proc who).fwMinor = x.fwMinor ∧
           (t.proc who).capLevel = x.capLevel ∧ (t.proc who).format = x.format ∧ (t.proc who).formatMin = x.formatMin ∧
           (t.proc who).lastKick = u.now ∧ t.proc (1 - who.val) = q) ∧
         (pass = true → first ∧ (who = 0 ∨ q.role = .none) → (t.proc who).role = .active ∧ t.mp.owner = some who.val ∧
           t.mp.copyDue = true ∧ t.rails.startAt = some u.now ∧ t.rails.startStep = 0) ∧
         (pass = true → ¬ (first ∧ (who = 0 ∨ q.role = .none)) → (t.proc who).role = .selfTest ∧ t.mp.owner = u.mp.owner ∧
           t.rails = u.rails) ∧
         (pass = false → (t.proc who).role = .none ∧ (t.proc who).failures.head? = some u.now) ∧
         (pass = false → first → q.role = .selfTest → (t.proc (1 - who.val)).role = .active ∧ t.mp.owner = some (1 - who.val))) ∧
     (p.role = .booting → u.mod.processorsUp = true → first → u.rails.stopNext = none → u.mp.bank0.valid = false →
       u.mp.bank1.valid = false → ∃ t, exec (.mpBootComplete who pass t0) s = .next t ∧ t.mp.mpA.role = .recovery ∧
         t.mp.mpB.role = .none ∧ t.mod.mode = .recovery ∧ t.mp.owner = none ∧ t.rails.startAt = some u.now ∧
         Raises u t [raisedOf u.now .pwc FC.fwNoValidImage 0xFFFF none 0 false]) ∧
     (c.role = .selfTest ∨ c.role = .ready → u.mp.owner.isSome = true →
       ∃ t, exec (.standbySelfTest pass corrected t0) s = .next t ∧ t.mp.owner = u.mp.owner ∧ Within [.mp, .fc, .ob] u t ∧
         (pass = true → u.compatible c = true → Raises u t found ∧
           t.standby = { c with role := .ready,
                                readySince := if c.role = .ready ∧ corrected = false then c.readySince else u.now }) ∧
         (pass = true → u.compatible c = false → Raises u t found ∧ t.standby = { c with role := .selfTest }) ∧
         (pass = false → t.standby.role = .none ∧
           Raises u t (found ++ [raisedOf u.now .pwc FC.mpStandbyLost 0xFFFF none 0 false]))))

/-- R565 to R567, R571 to R574, R582: an image goes into the slot that does not hold the newest good one, which stands; complete, it frees the
journal up to the lowest mark. A takeover loads a good image that the standby can read, discards the journal from an entry that fails
its check, and takes control with the hardware as it is, in a hand-over the processor it was handed to while that runs; with no good image firmware starts as at cold start. -/
def Obligations.TakeoversReplayTheJournal : Prop :=
  ∀ (who : Fin 2) (bad0 bad1 corrected : Bool) (bad : Option Nat) (t0 : Nat) (s : State),
    let u := s.upTo t0
    let m := u.mp
    let first := m.image0.good = true ∧ (m.image1.good = true → m.image1.seq < m.image0.seq)
    let x0 := { m.image0 with good := m.image0.good && !bad0 }
    let x1 := { m.image1 with good := m.image1.good && !bad1 }
    let p := u.proc who
    let load0 := x0.good = true ∧ p.reads x0 = true
    let load1 := x1.good = true ∧ p.reads x1 = true
    let mark := if load0 ∧ (load1 → x1.seq ≤ x0.seq) then x0.mark else x1.mark
    let gone : JournalEntry → Prop := fun e => mark < e.seq ∧ bad.elim False (fun n => n ≤ e.seq)
    let inControl : State → Prop := fun t =>
      t.mp.owner = some who.val ∧ t.mp.coastSince = none ∧ (t.proc who).role = .active ∧ (t.proc who).lastKick = u.now ∧
      t.mp.takeovers = m.takeovers + 1 ∧ t.mp.copyDue = true ∧
      t.mp.lastCoastUs = min (m.coastSince.elim 0 (fun a => (u.now - a) / 7200)) 0xFFFFFFFF ∧
      (if who.val = 0 then t.mp.bootA else t.mp.bootB) = p.bank
    let found := if corrected then [raisedOf u.now .pwc FC.mpMemoryCorrected 0xFFFF none 0 false] else []
    let may := m.handover = true → who.val = m.lastOwner ∨ (u.proc m.lastOwner).hasBooted = false
    let failover := if m.handover then [] else [raisedOf u.now .pwc FC.mpFailover 0xFFFF none 0 false]
    (u.mpServes = true → m.copying = none → m.copyDue = true ∨ m.lastImageAt + 7200000000 ≤ u.now →
      ∃ t, exec (.imageCopyStart t0) s = .next t ∧ Within [.mp] u t ∧ t.mp.lastImageAt = u.now ∧ t.mp.copyDue = false ∧
        (first → t.mp.copying = some (1, m.jseq, u.frame.number % 2 ^ 48, u.now) ∧ t.mp.image1.good = false ∧
          t.mp.image0 = m.image0) ∧
        (¬ first → t.mp.copying = some (0, m.jseq, u.frame.number % 2 ^ 48, u.now) ∧ t.mp.image0.good = false ∧
          t.mp.image1 = m.image1)) ∧
    (∀ k j f a, u.mpServes = true → m.copying = some (k, j, f, a) →
      ∃ t, exec (.imageCopyComplete corrected t0) s = .next t ∧ Within [.mp, .fc, .ob] u t ∧ Raises u t found ∧ t.mp.copying = none ∧
        (if k = 0 then t.mp.image1 = m.image1 else t.mp.image0 = m.image0) ∧
        (let x := if k = 0 then t.mp.image0 else t.mp.image1
         x.good = true ∧ x.seq = m.nextImageSeq ∧ x.mark = j ∧ x.frame = f ∧ x.format = u.controller.format ∧
         x.fwMajor = u.controller.fwMajor ∧ x.fwMinor = u.controller.fwMinor ∧ x.capLevel = u.controller.capLevel) ∧
        ∀ e, e ∈ t.mp.journal ↔ e ∈ m.journal ∧ ∃ x ∈ [t.mp.image0, t.mp.image1], x.good = true ∧ x.mark < e.seq) ∧
    (m.coastSince.isSome = true → p.role = .selfTest ∨ p.role = .ready → may → load0 ∨ load1 → u.mod.restartDue = none →
      (∀ e ∈ m.journal, e.complete = true) →
      ∃ t, exec (.takeoverComplete who bad0 bad1 corrected bad t0) s = .next t ∧ inControl t ∧ Within [.host, .fc, .mp, .ob] u t ∧
        t.mp.resumedOlder = (!x0.good || !x1.good) ∧ t.proc (1 - who.val) = u.proc (1 - who.val) ∧
        (∀ e, e ∈ t.mp.journal ↔ e ∈ m.journal ∧ ¬ gone e) ∧
        ((∀ e ∈ m.journal, ¬ gone e) → Raises u t (found ++ failover ++
          (if x0.good && x1.good then [] else [raisedOf u.now .pwc FC.resumedFromOlderImage 0xFFFF none 0 false]))) ∧
        ((∃ e ∈ m.journal, gone e) → raisedOf u.now .pwc FC.journalTruncated 0xFFFF none 0 false ∈ t.fc.raised)) ∧
    (m.coastSince.isSome = true → p.role = .selfTest ∨ p.role = .ready → may → x0.good = false → x1.good = false →
      ∃ t, exec (.takeoverComplete who bad0 bad1 corrected bad t0) s = .next t ∧ inControl t ∧ t.shim.lease = none ∧ t.shim.pendingLease = none ∧
        t.cells.rest = none ∧ t.cells.ticket = none ∧ t.cells.u = 15 ∧ t.mp.journal = [] ∧ t.mp.switchAuto = false ∧
        t.rails = u.rails ∧ t.frame = u.frame ∧ t.jigs = u.jigs ∧
        Raises u t (found ++ failover ++ [raisedOf u.now .pwc FC.stateImageLost 0xFFFF none 0 false]))

/-- R587, R589 to R592, R604, R645: how messages reach the module. A write of a PCIe slot's control word with `GO` makes its request ready, and
counts as ignored while one is in progress. A datagram needs an allowed source, its length, its CRC and a free slot; a private write
its length and CRC. Bad ones leave no request, and raise `MAILBOX_MSG_BAD` once per second. Links, time of day, and neighbour
messages; the ICMPv6 types of the answers and the interface identifiers are the model's, after the family's standards (log entry 27). -/
def Obligations.MessagesReachTheirSlots : Prop :=
  ∀ (f : Fin 17) (port : Fin 2) (word : BitVec 64) (src srcPort dstPort t0 timeNs pre : Nat) (data : Bytes) (adr : Fin 128) (s : State),
    let u := s.upTo t0
    let head := leBytes 8 word.toNat
    let m := u.slot f
    let n := 32 + min (rd head 0 2) 4064
    let r := (List.range n).map (fun i => if 8 ≤ i ∧ i < 16 then head.getD (i - 8) 0 else SMap.get m.window i 0)
    let e := u.slot 17
    let c := u.slot 18
    let known : Bytes → Prop := fun b => rd b 0 2 ∈ commandIndex ∨ (u.mpServes = false ∧ u.recoveryServes = false)
    let good := 32 ≤ data.length ∧ data.length = 32 + rd data 8 2 ∧
      rd data 28 4 = (crc32c (data.take 28 ++ data.drop 32)).toNat
    let due := u.mp.msgBadAt.elim True (fun a => a + 7200000000 ≤ u.now)
    let bad : State → Prop := fun t => (due → t.mp.msgBadAt = some u.now ∧ Raises u t [raisedOf u.now .pwc FC.mailboxMsgBad 0xFFFF none 0 false]) ∧
      (¬ due → t.mp.msgBadAt = u.mp.msgBadAt ∧ t.fc = u.fc)
    let allowed := ∃ x ∈ u.mp.prefixes, src / 2 ^ (128 - x.length) = leNat x.bytes.reverse / 2 ^ (128 - x.length)
    let up := u.mod.processorsUp = true ∧ (if port.val = 0 then u.mp.linkA else u.mp.linkB) = true
    let arrives := up ∧ dstPort = u.mp.udpPort ∧ data.length ≤ 4160
    let i3c := u.mp.i3cAddress.isSome = true ∧ u.mod.processorsUp = true
    (m.request.isSome = true → ∃ t, exec (.mailboxRequestPcie f word t0) s = .next t ∧
      t.slot f = { m with ignoredWrites := m.ignoredWrites + 1 } ∧ t.mp.readyOrder = u.mp.readyOrder ∧ Within [.mp, .ob] u t) ∧
    (m.request = none → rd head 2 2 % 4 = 1 → known r → ∃ t, exec (.mailboxRequestPcie f word t0) s = .next t ∧
      (t.slot f).request = some r ∧ (t.slot f).silent = false ∧ (t.slot f).ignoredWrites = m.ignoredWrites ∧
      (f.val, u.now / 30) ∈ t.mp.readyOrder ∧ Within [.host, .mp, .ob] u t) ∧
    (m.request = none → rd head 2 2 % 4 ≠ 1 → ∃ t, exec (.mailboxRequestPcie f word t0) s = .next t ∧
      (t.slot f).request = none ∧ t.mp.readyOrder = u.mp.readyOrder ∧
      ∀ i, SMap.get (t.slot f).window i 0 = if 8 ≤ i ∧ i < 16 then head.getD (i - 8) 0 else SMap.get m.window i 0) ∧
    (¬ arrives → exec (.mailboxDatagram port src srcPort dstPort data t0) s = .next u) ∧
    (arrives → ∃ t, exec (.mailboxDatagram port src srcPort dstPort data t0) s = .next t ∧
      (¬ allowed → t.mp = { u.mp with ethDiscarded := u.mp.ethDiscarded + 1 } ∧ t.fc = u.fc) ∧
      (allowed → ¬ good → t.slot 17 = e ∧ t.mp.ethDiscarded = u.mp.ethDiscarded + 1 ∧ t.mp.readyOrder = u.mp.readyOrder ∧ bad t) ∧
      (allowed → good → e.request.isSome = true → t.mp = { u.mp with ethDiscarded := u.mp.ethDiscarded + 1 } ∧ t.fc = u.fc) ∧
      (allowed → good → e.request = none → known data →
        t.slot 17 = { e with request := some data, silent := false, replyTo := (port.val, src * 65536 + srcPort) } ∧
        (17, u.now / 30) ∈ t.mp.readyOrder ∧ t.fc = u.fc)) ∧
    (i3c → c.request = none → data.length ≤ 256 → ∃ t, exec (.i3cPrivateWrite data t0) s = .next t ∧
      (¬ good → t.slot 18 = { c with response := none } ∧ t.mp.readyOrder = u.mp.readyOrder ∧ bad t) ∧
      (good → known data → (t.slot 18).request = some data ∧ (t.slot 18).response = none ∧ (18, u.now / 30) ∈ t.mp.readyOrder ∧
        t.fc = u.fc)) ∧
    (i3c → c.request = none → 256 < data.length → ∃ t, exec (.i3cPrivateWrite data t0) s = .next t ∧ t.mp = u.mp ∧
      Raises u t [raisedOf u.now .pwc FC.inputOutOfRange 0xFFFF none 11 false]) ∧
    (i3c → c.request.isSome = true → exec (.i3cPrivateWrite data t0) s = .next u) ∧
    (∀ b, i3c → c.response = some b → ∃ t, exec (.i3cPrivateRead t0) s = .next t ∧
      t.mp = { u.mp with sent := { port := 2, dest := 0, data := b } :: u.mp.sent } ∧ Within [.mp] u t) ∧
    (c.response = none → exec (.i3cPrivateRead t0) s = .next u) ∧
    (u.fc.inputOutOfRange.contains 11 = false → ∃ t, exec (.i3cSclStuck t0) s = .next t ∧ t.mp = u.mp ∧
      t.fc.inputOutOfRange = 11 :: u.fc.inputOutOfRange ∧
      t.fc.raised = u.fc.raised ++ [raisedOf u.now .pwc FC.inputOutOfRange 0xFFFF none 11 true]) ∧
    (u.mod.processorsUp = true → ∃ t, exec (.i3cAddressAssignment adr none t0) s = .next t ∧
      t.mp = { u.mp with i3cAddress := some adr.val } ∧ Within [.mp] u t) ∧
    (∀ a : Fin 128, u.mod.processorsUp = true → ∃ t, exec (.i3cAddressAssignment adr (some a) t0) s = .next t ∧
      t.mp.i3cAddress = if u.pins.slotId.map (fun k => 72 + k % 4) = some a.val then some adr.val else u.mp.i3cAddress) ∧
    (u.mod.processorsUp = true → ∃ t, exec (.mgmtLinkUp port t0) s = .next t ∧
      t.mp = (if port.val = 0 then { u.mp with linkA := true } else { u.mp with linkB := true }) ∧ Within [.mp] u t) ∧
    ((if port.val = 0 then u.mp.linkA else u.mp.linkB) = true → ∃ t, exec (.mgmtLinkDown port t0) s = .next t ∧
      t.mp = (if port.val = 0 then { u.mp with linkA := false } else { u.mp with linkB := false }) ∧
      Raises u t [raisedOf u.now .pwc FC.mgmtLinkDown 0xFFFF none 0 false] ∧ Within [.mp, .fc] u t) ∧
    (up → u.mp.ptpEnabled = true → port.val = 0 ∨ u.mp.linkA = false → ∃ t, exec (.ptpMessage port timeNs t0) s = .next t ∧
      t.mp = { u.mp with ptp := some (timeNs, u.rt) } ∧ Within [.mp, .ob] u t) ∧
    (up → (∃ t, exec (.icmpv6Message port src (.echo data) t0) s = .next t ∧ Within [.mp] u t ∧
        t.mp = { u.mp with sent := { port := port, dest := src * 65536, data := (129 : Byte) :: data } :: u.mp.sent }) ∧
      (∃ t, exec (.icmpv6Message port src (.solicit (linkLocal port)) t0) s = .next t ∧ Within [.mp] u t ∧ t.mp =
        { u.mp with sent := { port := port, dest := src * 65536, data := (136 : Byte) :: (leBytes 16 (linkLocal port)).reverse } :: u.mp.sent }) ∧
      (∃ t, exec (.icmpv6Message port src (.routerAdvert pre) t0) s = .next t ∧ Within [.mp] u t ∧
        (if port.val = 0 then t.mp.addressA else t.mp.addressB) = some (pre % 2 ^ 64 * 2 ^ 64 + interfaceId port)))

/-- R29, R569, R570, R584 to R587, R590, R592 to R597: what every mailbox command does with the first ready request, apart from its own effect. A
request that passes steps 1 to 7 is refused without effect or carried out; a state-changing one joins the journal. A repeated
`SEQ` returns the stored response again, or RANGE for another request. Slot, version, length and header are refused in their order.
With no processor in control nothing is served, and nothing before a kerf strobe that is due in the same pc. -/
def Obligations.MailboxAnswersCommands : Prop :=
  (∀ x ∈ mailbox, ∀ (slot : Fin 19) (t0 : Nat) (s : State) (r : Bytes),
    let u := s.onEdge t0 7
    let k := slot.val
    let c := x.2
    let b := r.drop 32
    let plain := fun (st : Nat) => responseBytes r (slotCrc k) st 0 u.frame.number []
    let turned : Bytes → Prop := fun resp =>
      ∃ t, exec (x.1 slot t0) s = .next t ∧ Answered u t k resp ∧ MailOnly u t ∧ t.mp.journal = u.mp.journal
    let asked := u.mpServes = true ∧ u.recoveryServes = false ∧ u.strobeDue = false ∧ u.firstReady k c.code = some r ∧ u.mod.restartDue = none
    (u.mpServes = false → u.recoveryServes = false → u.mod.restartDue = none → exec (x.1 slot t0) s = .next u) ∧
    (u.firstReady k c.code = none ∨ u.strobeDue = true → u.mod.restartDue = none → exec (x.1 slot t0) s = .next u) ∧
    (∀ st, u.Asks k c r → u.mod.restartDue = none → c.act u k b = .refused st → st ≠ 1 →
      ∃ t, exec (x.1 slot t0) s = .next t ∧ Answered u t k (plain st) ∧ MailOnly u t ∧
        (c.changes k b = true → Journalled u t k r (plain st)) ∧ (c.changes k b = false → t.mp.journal = u.mp.journal)) ∧
    (∀ st v p, u.Asks k c r → c.act u k b = .done st v p → v.mod.restartDue = none → p.length ≤ 4064 →
      let resp := responseBytes r (slotCrc k) st 0 u.frame.number p
      ∃ t, exec (x.1 slot t0) s = .next t ∧ Answered v t k resp ∧ MailOnly v t ∧
        (c.changes k b = true → Journalled v t k r resp) ∧ (c.changes k b = false → t.mp.journal = v.mp.journal)) ∧
    (∀ l, asked → headerStatus r = 0 → c.via.accepts k = true → rd r 2 1 = 0 → c.lengthOk b = true → c.changes k b = true →
      (u.slot k).last = some l → rd l.1 4 4 = rd r 4 4 →
      turned (if comparable l.1 = comparable r then replayed k l.2 else plain 4)) ∧
    (asked → headerStatus r ≠ 0 → turned (plain (headerStatus r))) ∧
    (asked → headerStatus r = 0 → c.via.accepts k = false → turned (plain 6)) ∧
    (asked → headerStatus r = 0 → c.via.accepts k = true → rd r 2 1 ≠ 0 →
      turned (responseBytes r (slotCrc k) 7 8 u.frame.number [])) ∧
    (asked → headerStatus r = 0 → c.via.accepts k = true → rd r 2 1 = 0 → c.lengthOk b = false → turned (plain 3))) ∧
  (∀ (r p : Bytes) (crc : Bool) (st fl frame : Nat), st < 256 → fl < 2 ^ 15 → p.length < 65536 →
    let resp := responseBytes r crc st fl frame p
    resp.length = 32 + p.length ∧ resp.drop 32 = p ∧ rd resp 0 2 = rd r 0 2 ∧ rd resp 3 1 = st ∧ rd resp 4 4 = rd r 4 4 ∧
    rd resp 8 2 = p.length ∧ rd resp 10 2 = 2 + fl ∧ rd resp 16 8 = frame % 2 ^ 48 ∧
    rd resp 28 4 = if crc then (crc32c (resp.take 28 ++ p)).toNat else 0)

/-- R394, R436, R437, R439, R470, R515, R519 to R522, R553, R554, R557 to R559, R598, R634, R682, R79, R328: what reports say, and that a
report changes nothing: every one answers with its length and its fields and leaves the state as it was, but for telemetry through
the privileged mailbox, which has the peaks reset, and counters, whose span is the module's own. -/
def Obligations.ReportsLeaveTheState : Prop :=
  ∀ (slot : Fin 19) (t0 : Nat) (s : State) (r : Bytes),
    let u := s.onEdge t0 7
    let b := r.drop 32
    let m := u.mp
    let n := rd b 0 1
    let mbp := slotMbp slot = true
    (u.Asks slot mpGetStatus r → ∃ p, Answers .mpGetStatus slot t0 s r 0 p u ∧ p.length = 48 ∧ rd p 0 1 = m.lastOwner % 256 ∧
      rd p 12 4 = min m.takeovers 0xFFFFFFFF ∧ rd p 16 8 = m.handoverFrame.getD 0 % 2 ^ 64 ∧ rd p 32 8 = m.jseq % 2 ^ 64 ∧
      rd p 40 4 = m.lastCoastUs % 2 ^ 32) ∧
    (u.Asks slot modGetState r → ∃ p, Answers .modGetState slot t0 s r 0 p u ∧ p.length = 32 ∧
      rd p 0 1 = u.mod.mode.number ∧ rd p 8 4 = min ((u.now - u.mod.since) / 7200000) 0xFFFFFFFF ∧
      rd p 12 4 = u.mod.changes % 2 ^ 32 ∧ rd p 16 8 = u.mod.scheduled.elim 0 (·.2) % 2 ^ 64) ∧
    (u.Asks slot shimGetStatus r → ∃ p, Answers .shimGetStatus slot t0 s r 0 p u ∧ p.length = 64 ∧ rd p 0 1 = u.shim.policy.number ∧
      rd p 1 1 = u.shim.commanded.number ∧ rd p 30 2 = min u.shim.supply 65535 ∧ rd p 36 4 = u.shim.lastLeaseId % 2 ^ 32 ∧
      rd p 40 4 = u.leaseMs % 2 ^ 32 ∧ rd p 44 4 = u.shim.excursionCount % 2 ^ 32) ∧
    (u.Asks slot cellGetStatus r → ∃ p, Answers .cellGetStatus slot t0 s r 0 p u ∧ p.length = 48 ∧
      (u.cells.statusBytes.length = 48 → p = u.cells.statusBytes)) ∧
    (u.Asks slot cellGetCells r → ∃ p, Answers .cellGetCells slot t0 s r 0 p u ∧ p.length = 456 ∧
      (u.cells.cellsBytes.length = 456 → p = u.cells.cellsBytes)) ∧
    (u.Asks slot cellSaveState r →
      (u.cells.restorePending = false → u.cells.enumerated = true → Answers .cellSaveState slot t0 s r 0 u.cells.blob u) ∧
      (u.cells.restorePending = true ∨ u.cells.enumerated = false → Answers .cellSaveState slot t0 s r 5 [] u)) ∧
    (u.Asks slot regGetTelemetry r → n ≤ 16 → zeroAt b 1 3 = true → ∃ p, p.length = 72 ∧ rd p 0 1 = n ∧
      rd p 3 1 = (u.rail n).mode.number ∧
      Answers .regGetTelemetry slot t0 s r 0 p (if mbp then u.setRail n { u.rail n with peakResetDue := true } else u)) ∧
    (u.Asks slot gvGetStatus r → ∃ p, Answers .gvGetStatus slot t0 s r 0 p u ∧ rd p 0 1 = u.gov.running % 256 ∧
      rd p 1 1 = u.gov.armed % 256 ∧ rd p 2 1 = u.gov.ready % 256 ∧ rd p 3 1 = u.gov.primary % 256 ∧
      rd p 6 2 = u.gov.limits.module % 65536 ∧ rd p 8 2 = u.gov.limits.supply % 65536) ∧
    (u.Asks slot gvGetThrottle r → n ≤ 1 → rd b 1 1 ≤ 15 → (n = 0 → rd b 1 1 = 0) → zeroAt b 2 2 = true →
      (mbp ∨ (n = 1 ∧ rd b 1 1 + 1 = slot.val) → ∃ p, Answers .gvGetThrottle slot t0 s r 0 p u ∧ p.length = 120 ∧
        ∀ i, i < 14 → rd p (8 + 8 * i) 8 = u.throttleUs (if n = 0 then 0 else rd b 1 1 + 1) (i + 1)) ∧
      (slotMbk slot = true → n = 0 ∨ rd b 1 1 + 1 ≠ slot.val → Answers .gvGetThrottle slot t0 s r 6 [] u)) ∧
    (u.Asks slot gvGetEnergy r → n = 0 → zeroAt b 1 7 = true → ∃ p, Answers .gvGetEnergy slot t0 s r 0 p u ∧ p.length = 144 ∧
      ∀ i, i < 17 → rd p (8 + 8 * i) 8 = if mbp ∨ i + 1 = slot.val then SMap.get u.gov.energy i 0 % 2 ^ 64 else 0) ∧
    (u.Asks slot gvGetThermal r → n ≤ 4 → zeroAt b 1 3 = true → ∃ p, Answers .gvGetThermal slot t0 s r 0 p u ∧ p.length = 168 ∧
      rd p 0 1 = n) ∧
    (u.Asks slot fcGetSummary r → ∃ p, Answers .fcGetSummary slot t0 s r 0 p u ∧ p.length = 208 ∧ rd p 6 1 = u.levelInForce % 256 ∧
      rd p 8 4 = u.fc.nextSeq % 2 ^ 32 ∧ rd p 12 4 = u.fc.logLost % 2 ^ 32) ∧
    (u.Asks slot fcGetLog r → 1 ≤ rd b 4 1 → rd b 4 1 ≤ 126 → zeroAt b 5 3 = true → ∃ (l : List FaultRec) (p : Bytes), Answers .fcGetLog slot t0 s r 0 p u ∧
      l.length ≤ rd b 4 1 ∧ p.length = 8 + 32 * l.length ∧ rd p 0 2 = l.length ∧ p.drop 8 = l.flatMap FaultRec.bytes ∧
      ∀ x ∈ l, x ∈ u.fc.log ∧ rd b 0 4 ≤ x.seq ∧ (mbp ∨ x.scope + 1 = slot.val)) ∧
    (u.Asks slot idGetIdentity r → ∃ p, Answers .idGetIdentity slot t0 s r 0 p u ∧ p.length = 80 ∧ p.take 16 = fuseBytes 0 16 ∧
      rd p 49 1 = u.controller.fwMajor % 256 ∧ rd p 50 1 = u.controller.fwMinor % 256 ∧ rd p 51 1 = u.controller.capLevel % 256) ∧
    (u.Asks slot fuseReadGroup r → ∀ g ∈ fuseGroups, g.1 ≤ rd b 0 2 → rd b 0 2 % 64 = 0 → rd b 2 2 % 64 = 0 → 0 < rd b 2 2 →
      rd b 2 2 ≤ 4032 → rd b 0 2 + rd b 2 2 ≤ g.1 + g.2 → ∃ p, Answers .fuseReadGroup slot t0 s r 0 p u ∧
        p.drop 8 = fuseBytes (rd b 0 2) (rd b 2 2) ∧ p.length = 8 + rd b 2 2) ∧
    (u.Asks slot obReadCounters r → 1 ≤ rd b 2 2 → rd b 2 2 ≤ 506 → rd b 0 2 + rd b 2 2 ≤ 3072 → zeroAt b 4 4 = true →
      ∃ v p, Answers .obReadCounters slot t0 s r 0 p v ∧ Within [.ob, .free] u v ∧ v.ob.values = u.ob.values ∧
        p.length = 16 + 8 * rd b 2 2 ∧ rd p 0 8 = u.rt % 2 ^ 64 ∧ rd p 8 4 ≤ 2000 ∧
        (mbp → ∀ i, i < rd b 2 2 → rd p (16 + 8 * i) 8 = u.counterWord (rd b 0 2 + i))) ∧
    (u.Asks slot obReadSnapshot r → n ≤ 3 → zeroAt b 1 1 = true → 1 ≤ rd b 4 2 → rd b 4 2 ≤ 505 → rd b 2 2 + rd b 4 2 ≤ 3072 →
      zeroAt b 6 2 = true → ∃ p, Answers .obReadSnapshot slot t0 s r 0 p u ∧ p.length = 24 + 8 * rd b 4 2 ∧
        let x := u.ob.snaps.getD n Snapshot.none
        rd p 0 1 = x.state.number ∧ rd p 8 8 = x.frame % 2 ^ 64 ∧
        (x.state ≠ .taken → ∀ i, i < rd b 4 2 → rd p (24 + 8 * i) 8 = 0) ∧
        (x.state = .taken → mbp → ∀ i, i < rd b 4 2 → rd p (24 + 8 * i) 8 = SMap.get x.words (rd b 2 2 + i) 0 % 2 ^ 64)) ∧
    (u.Asks slot ftGetFrameStatus r → ∃ p, Answers .ftGetFrameStatus slot t0 s r 0 p u ∧ p.length = 56 ∧
      rd p 0 8 = u.frame.status.frameNumber % 2 ^ 48 ∧ rd p 8 8 = u.frame.status.kerfRt % 2 ^ 64 ∧
      rd p 40 4 = u.frame.status.overrunCount % 2 ^ 32) ∧
    (u.Asks slot ofGetLinkStatus r → n ≤ 15 → zeroAt b 1 3 = true → ∃ p, Answers .ofGetLinkStatus slot t0 s r 0 p u ∧ p.length = 40 ∧
      rd p 0 1 = n ∧ rd p 3 1 = (u.link n).pathA.state.number ∧ rd p 4 1 = (u.link n).pathB.state.number)

/-- R580, R581, R599 to R603, R618, R620, R621, R628, R631, R633: management and state commands. Staging erases with `FIRST`, appends, and
verifies with `LAST`; a bank in use answers STATE, one open from another slot BUSY. The standby restarts from a bank; a hand-over is
scheduled or cancelled; settings act at once; a change of module state waits for its frame, and RESTART begins a cold start from B. -/
def Obligations.ManagementCommands : Prop :=
  ∀ (slot : Fin 19) (t0 : Nat) (s : State) (r : Bytes),
    let u := s.onEdge t0 7
    let b := r.drop 32
    let m := u.mp
    let i := rd b 0 1
    let d := b.drop 16
    let x := u.fwBank i
    let mine := ∀ k, x.openFrom = some k → k = slot.val
    let chunk := u.Asks slot mpStageImage r ∧ i ≤ 1 ∧ rd b 2 2 ≤ 4032 ∧ zeroAt b 8 8 = true
    let next := fun (res n : Nat) => leBytes 1 res ++ zeros 3 ++ leBytes 4 n
    let p := u.standby
    let f := rd b 8 8
    let change := if f = 0 then u.frame.number + 1 else f
    let timely := f = 0 ∨ (u.frame.number + 1 ≤ f ∧ f < 2 ^ 48)
    let state := u.Asks slot modSetState r ∧ u.mod.restartDue = none ∧ zeroAt b 2 6 = true
    let lives := u.mod.mode = .active ∨ u.mod.mode = .standby
    let scheduled : ModState → Prop := fun q => Answers .modSetState slot t0 s r 0 (leBytes 8 (change % 2 ^ 48))
      { u with mod := { u.mod with scheduled := some (q, change) } }
    let restarts : State → Nat → Nat → Prop := fun t bank cause =>
      t.mod.mode = .starting ∧ t.mod.coldCause = cause ∧ t.mod.coldAt = u.now ∧ t.mod.processorsUp = true ∧ t.mod.restartDue = none ∧
      t.mp.mpA.role = .booting ∧ t.mp.mpA.bank = bank ∧ t.mp.mpB.role = .booting ∧ t.mp.mpB.bank = bank ∧ t.mp.owner = none ∧
      t.rails.rails = u.rails.rails ∧ t.rails.stopNext = some 0 ∧ t.rails.stopOnly = List.range 17 ∧ t.rails.stopLast = 4 ∧
      t.shim.input.running = u.shim.input.running ∧ t.shim.storage.running = false ∧ t.shim.stackSwitchOpen = true ∧ t.pins = u.pins
    (chunk → rd b 1 1 = 1 → rd b 2 2 % 64 = 0 → rd b 4 4 = 0 → u.bankInUse i = false → mine →
      Answers .mpStageImage slot t0 s r 0 (next 0 d.length) (u.setBank i { FwBank.empty with staged := d, openFrom := some slot.val })) ∧
    (chunk → rd b 1 1 = 0 → rd b 2 2 % 64 = 0 → rd b 4 4 = x.staged.length → rd b 4 4 + rd b 2 2 ≤ 2097152 →
      u.bankInUse i = false → x.openFrom = some slot.val →
      Answers .mpStageImage slot t0 s r 0 (next 0 (x.staged ++ d).length) (u.setBank i { x with staged := x.staged ++ d })) ∧
    (chunk → rd b 1 1 = 3 → rd b 4 4 = 0 → u.bankInUse i = false → mine →
      ∃ v, Answers .mpStageImage slot t0 s r 0 (next (verifyImage d) d.length) v ∧ Within [.mp, .fc] u v ∧
        (v.fwBank i).staged = d ∧ (v.fwBank i).openFrom = none ∧ ((v.fwBank i).valid = true ↔ verifyImage d = 1) ∧
        Raises u v (if verifyImage d = 1 then [] else [raisedOf u.now .pwc FC.fwVerifyFail 0xFFFF none 0 false])) ∧
    (chunk → rd b 1 1 = 1 → rd b 2 2 % 64 = 0 → rd b 4 4 = 0 → u.bankInUse i = true → Answers .mpStageImage slot t0 s r 5 [] u) ∧
    (∀ k, chunk → rd b 1 1 = 1 → rd b 2 2 % 64 = 0 → rd b 4 4 = 0 → u.bankInUse i = false → x.openFrom = some k → k ≠ slot.val →
      Answers .mpStageImage slot t0 s r 1 [] u) ∧
    (u.Asks slot mpRestartStandby r → u.mod.restartDue = none → i ≤ 1 → zeroAt b 1 7 = true →
      (x.valid = false ∨ m.handoverFrame.isSome = true → Answers .mpRestartStandby slot t0 s r 5 [] u) ∧
      (x.valid = true → m.handoverFrame = none → (∀ d, u.frame.domain = some d → d.level ≤ x.capLevel) →
        ∃ v, Answers .mpRestartStandby slot t0 s r 0 [] v ∧ Within [.mp, .ob] u v ∧ v.mp.owner = m.owner ∧
          v.standby = { p with role := .booting, bank := i, failures := [] } ∧
          (if u.otherIndex = 0 then v.mp.bootA else v.mp.bootB) = i)) ∧
    (u.recoveryServes = true → u.strobeDue = false → u.firstReady slot 0x0103 = some r → headerStatus r = 0 → slot.val = 0 → rd r 2 1 = 0 → b.length = 8 →
      (u.slot slot).last = none → journalUsed m.keptJournal + r.length + 4191 ≤ journalSize → i ≤ 1 → zeroAt b 1 7 = true →
      x.valid = true → ∃ t, exec (.mpRestartStandby slot t0) s = .next t ∧ restarts t i 2 ∧ t.mp.bootA = i ∧ t.mp.bootB = i) ∧
    (u.Asks slot mpHandover r → rd b 0 8 = 0 ∨ (u.frame.number + 2 ≤ rd b 0 8 ∧ rd b 0 8 < 2 ^ 48) → rd b 8 1 = 0 → zeroAt b 9 7 = true →
      let h := if rd b 0 8 = 0 then u.frame.number + 2 else rd b 0 8
      (p.role = .ready → u.compatible p = true → m.handoverFrame = none → (∀ d, u.frame.domain = some d → d.level ≤ p.capLevel) →
        (∀ q j, u.partJig q = some j → j.jig.capLevel ≤ p.capLevel) →
        Answers .mpHandover slot t0 s r 0 (leBytes 8 (h % 2 ^ 48)) { u with mp := { m with handoverFrame := some h } }) ∧
      (p.role ≠ .ready ∨ u.compatible p = false ∨ m.handoverFrame.isSome = true → Answers .mpHandover slot t0 s r 5 [] u)) ∧
    (u.Asks slot mpHandover r → rd b 0 8 = 0 → rd b 8 1 = 1 → zeroAt b 9 7 = true →
      (m.handoverFrame.isSome = true → Answers .mpHandover slot t0 s r 0 (leBytes 8 0) { u with mp := { m with handoverFrame := none } }) ∧
      (m.handoverFrame = none → Answers .mpHandover slot t0 s r 5 [] u)) ∧
    (u.Asks slot mpSetSwitchback r → i ≤ 1 → zeroAt b 1 7 = true →
      Answers .mpSetSwitchback slot t0 s r 0 [] { u with mp := { m with switchAuto := i == 1 } }) ∧
    (u.Asks slot mpSetMgmt r → rd b 0 2 = 0 ∨ 49152 ≤ rd b 0 2 → rd b 2 1 ≤ 1 ∨ rd b 2 1 = 0xFF → rd b 3 1 ≤ 8 → zeroAt b 4 4 = true →
      (∀ k, k < 8 → if k < rd b 3 1 then rd b (24 + 24 * k) 1 ≤ 128 ∧ zeroAt b (25 + 24 * k) 7 = true
        else zeroAt b (8 + 24 * k) 24 = true) →
      Answers .mpSetMgmt slot t0 s r 0 [] { u with mp := { m with
        udpPort := if rd b 0 2 = 0 then m.udpPort else rd b 0 2,
        ptpEnabled := if rd b 2 1 = 0xFF then m.ptpEnabled else rd b 2 1 == 1,
        prefixes := (List.range (rd b 3 1)).map (fun k => { bytes := slice b (8 + 24 * k) 16, length := rd b (24 + 24 * k) 1 }) } }) ∧
    (state → rd b 1 1 = 0 → timely →
      (i = 1 → u.mod.mode = .standby → scheduled .active) ∧
      (i = 2 → u.mod.mode = .active → u.mayLeave = true → scheduled .standby) ∧
      (i = 3 → lives → u.mayLeave = true → m.prefixes ≠ [] → scheduled .parked) ∧
      (i = 2 ∨ i = 3 → u.mayLeave = false → Answers .modSetState slot t0 s r 5 [] u)) ∧
    (state → rd b 1 1 = 0 → i = 1 → f = 0 → u.mod.mode = .parked →
      ∃ v, Answers .modSetState slot t0 s r 0 (leBytes 8 0) v ∧ Within [.rails, .mp, .mod] u v ∧ v.mod.mode = .starting ∧
        v.rails.startAt = some u.now ∧ v.rails.startStep = 0 ∧ v.standby.role = .booting ∧ v.mod.wakeDue = true) ∧
    (state → i = 6 → rd b 1 1 ≤ 1 → f = 0 → lives → u.mayLeave = true → (u.fwBank (rd b 1 1)).valid = true →
      ∃ t, exec (.modSetState slot t0) s = .next t ∧ restarts t (rd b 1 1) 1)

/-- R365, R371, R376, R378, R380, R391, R395 to R397, R424, R425, R428: commands to the shim stage and the cells. A change of policy waits for
its frame, and STATE refuses one that no lease permits; a lease waits for the kerf; limits may only tighten the fuses; a rest ticket is
granted, or cancelled with its rest; a restore adopts the blob, or none, ends `RESTORE_PENDING`, and starts the storage converter. -/
def Obligations.ShimAndCellCommands : Prop :=
  ∀ (slot : Fin 19) (t0 : Nat) (s : State) (r : Bytes),
    let u := s.onEdge t0 7
    let b := r.drop 32
    let h := u.shim
    let c := u.cells
    let n := u.frame.number
    let p := rd b 0 1
    let f := rd b 8 8
    let frame := if f = 0 then n + 1 else f
    let timely := f = 0 ∨ (n + 1 ≤ f ∧ f < 2 ^ 48)
    let in0 : Nat → Nat → Nat → Prop := fun v lo hi => v = 0 ∨ (lo ≤ v ∧ v ≤ hi)
    let opt := fun (v : Nat) => if v = 0 then none else some v
    let policyOk := (p ≤ 3 ∨ p = 0xFF) ∧ in0 (rd b 1 1) 20 85 ∧ in0 (rd b 2 2) 1 2000 ∧ in0 (rd b 4 2) 60 3600 ∧ zeroAt b 6 2 = true
    let lends := bitAt (rd b 6 1) 3 = true
    let l := h.nextLimits
    let limits : ShimLimits :=
      { importW := if rd b 0 2 = 0 then l.importW else rd b 0 2, exportW := if rd b 2 2 = 0xFFFF then l.exportW else rd b 2 2,
        stackDa := if rd b 4 2 = 0 then l.stackDa else rd b 4 2, lowPct := if rd b 6 1 = 0 then l.lowPct else rd b 6 1,
        highPct := if rd b 7 1 = 0 then l.highPct else rd b 7 1,
        shortImport := if rd b 8 1 = 0xFF then l.shortImport else rd b 8 1 == 1 }
    let tight := (rd b 0 2 = 0 ∨ 100 ≤ rd b 0 2) ∧ (rd b 4 2 = 0 ∨ 10 ≤ rd b 4 2) ∧ rd b 6 1 ≤ 45 ∧ (rd b 7 1 = 0 ∨ 55 ≤ rd b 7 1) ∧
      (rd b 8 1 ≤ 1 ∨ rd b 8 1 = 0xFF) ∧ zeroAt b 9 7 = true
    let fused := rd b 0 2 ≤ 2800 ∧ (rd b 2 2 = 0xFFFF ∨ rd b 2 2 ≤ 1500) ∧ rd b 4 2 ≤ 300 ∧ (rd b 6 1 = 0 ∨ 15 ≤ rd b 6 1) ∧ rd b 7 1 ≤ 90
    let ticket := u.Asks slot cellGrantRest r ∧ rd b 0 4 ≠ 0 ∧ zeroAt b 5 3 = true
    let blob := b.drop 8
    let restore := u.Asks slot cellRestoreState r ∧ zeroAt b 1 7 = true ∧ c.restorePending = true
    let restored : State → Nat → Prop := fun v result =>
      v.cells.restorePending = false ∧ v.cells.restoreResult = result ∧ v.mod.restored = true ∧
      v.shim.target = (h.meter.busDraw : Rat) ∧ inhRestore ∉ v.cells.chargeInhibit ∧ inhRestore ∉ v.cells.dischargeInhibit ∧
      (h.storage.stoppedBy = none → c.enumFailed = false → v.shim.storage.running = true ∧ v.shim.stackSwitchOpen = false) ∧
      (u.mod.mode = .starting → u.mod.railsDone = true → v.mod.mode = .active ∧ v.mod.phase = 4) ∧
      Within [.shim, .cells, .fc, .mod, .ob] u v
    (u.Asks slot shimSetPolicy r → timely → policyOk → (p = 0 ∨ p = 0xFF ∨ ∃ x, h.lease = some x ∧ bitAt x.allowed p = true) →
      Answers .shimSetPolicy slot t0 s r 0 (leBytes 8 (frame % 2 ^ 48)) { u with shim := { h with
        changes := h.changes ++ [{ frame := frame, policy := Policy.ofNumber p, targetPct := opt (rd b 1 1), ramp := opt (rd b 2 2),
                                   tau := opt (rd b 4 2) }],
        commanded := (Policy.ofNumber p).getD h.commanded } }) ∧
    (u.Asks slot shimSetPolicy r → timely → policyOk → p ≠ 0 → p ≤ 3 → (∀ x, h.lease = some x → bitAt x.allowed p = false) →
      Answers .shimSetPolicy slot t0 s r 5 [] u) ∧
    (u.Asks slot shimGrantLease r → rd b 0 4 ≠ 0 → 1 ≤ rd b 4 2 → rd b 4 2 ≤ 2000 → bitAt (rd b 6 1) 0 = true → rd b 6 1 < 16 →
      (if lends then 20 ≤ rd b 7 1 ∧ rd b 7 1 ≤ 85 ∧ 1 ≤ rd b 8 2 ∧ rd b 8 2 ≤ 1500 else rd b 7 1 = 0 ∧ rd b 8 2 = 0) →
      rd b 10 2 ≤ 2800 → 100 ≤ rd b 12 2 → rd b 12 2 ≤ 10000 → zeroAt b 14 2 = true →
      ∃ q, q.length = 8 ∧ q.drop 4 = leBytes 4 (rd b 12 2) ∧ Answers .shimGrantLease slot t0 s r 0 q { u with shim := { h with
        pendingLease := some { id := rd b 0 4, ramp := rd b 4 2, allowed := rd b 6 1, floorPct := rd b 7 1, exportW := rd b 8 2,
                               ceilingW := rd b 10 2, expires := u.now + rd b 12 2 * 7200000 } } }) ∧
    (u.Asks slot shimSetLimits r → limits.highPct < limits.lowPct + 20 → Answers .shimSetLimits slot t0 s r 4 [] u) ∧
    (u.Asks slot shimSetLimits r → tight → fused → limits.lowPct + 20 ≤ limits.highPct →
      Answers .shimSetLimits slot t0 s r 0 [] { u with shim := { h with nextLimits := limits } }) ∧
    (u.Asks slot shimSetLimits r → tight → limits.lowPct + 20 ≤ limits.highPct → ¬ fused → Answers .shimSetLimits slot t0 s r 10 [] u) ∧
    (ticket → rd b 4 1 = 0 → n + 2 ≤ f → f < 2 ^ 48 →
      (c.ticket = none → c.rest = none → h.policy = .flatten ∨ h.policy = .follow → c.restorePending = false → c.enumerated = true →
        Answers .cellGrantRest slot t0 s r 0 (leBytes 8 (f % 2 ^ 48)) { u with cells := { c with ticket := some (rd b 0 4, f) } }) ∧
      (c.ticket.isSome = true ∨ c.rest.isSome = true ∨ h.policy = .island ∨ h.policy = .lend ∨ c.restorePending = true ∨ c.enumerated = false →
        Answers .cellGrantRest slot t0 s r 5 [] u)) ∧
    (ticket → rd b 4 1 = 1 → f = 0 → c.ticket.isSome = true → ∃ v, Answers .cellGrantRest slot t0 s r 0 (leBytes 8 0) v ∧
      v.cells.ticket = none ∧ (∀ x, c.rest = some x → x.complete = false → v.cells.rest = none ∧ v.shim.target = (h.meter.busDraw : Rat)) ∧
      v.fc = u.fc ∧ Within [.shim, .cells] u v) ∧
    (ticket → rd b 4 1 = 1 → f = 0 → c.ticket = none → Answers .cellGrantRest slot t0 s r 5 [] u) ∧
    (restore → p = 0 → blobGood blob = true → u.frame.rtLocked = true → u.blobReason blob = 0 →
      ∃ v q, Answers .cellRestoreState slot t0 s r 0 q v ∧ q.length = 8 ∧ rd q 0 2 = 0 ∧ restored v 1 ∧ v.fc = u.fc ∧
        v.cells.probation = some (u.now, 0, 0) ∧ v.cells.u = min 25 ((rd blob 6 2 : Rat) / 100 +
          3 / 10 * ((max 0 (((u.rt / 100000 : Nat) : Int) - ((rd blob 40 6 : Nat) : Int)) : Int) : Rat) / 3600000) ∧
        ∀ i, i < 48 → (v.cells.cell i).charge = (rd blob (48 + 2 * i) 2 : Rat) * 9 / 10 ∧
          (v.cells.cell i).capacity = (50 + (rd blob (144 + i) 1 : Rat) / 4) / 100 * c.capacityBol) ∧
    (restore → (p = 1 ∧ zeroAt b 8 256 = true ∨
        p = 0 ∧ (blobGood blob = true ∨ c.packChanged = true) ∧ u.frame.rtLocked = true ∧ u.blobReason blob ≠ 0) →
      ∃ v q, Answers .cellRestoreState slot t0 s r 9 q v ∧ q.length = 8 ∧ rd q 0 1 = 1 ∧
        rd q 1 1 = (if p = 1 then 5 else if c.packChanged then 4 else u.blobReason blob) ∧ restored v 3 ∧ v.cells.cells = c.cells ∧
        Raises u v [raisedOf u.now .pwc FC.restoreRejected 0xFFFF none 0 false])

/-- R29, R447 to R450, R471, R472, R481, R496, R516 to R518: commands to the regulators and the governor, all of which wait for a kerf. A bank
goes to staging with its frame; a trim only lowers; clamps, quotas and limits change the settings of the next kerf where a field is
given, and may not be looser than the fuses. -/
def Obligations.RailAndGovernorCommands : Prop :=
  ∀ (slot : Fin 19) (t0 : Nat) (s : State) (r : Bytes),
    let u := s.onEdge t0 7
    let b := r.drop 32
    let g := u.gov
    let n := u.frame.number
    let k := rd b 0 1
    let v := u.rail k
    let next := leBytes 8 ((n + 1) % 2 ^ 48)
    let due : Nat → Prop := fun f => f = 0 ∨ (n + 1 ≤ f ∧ f < 2 ^ 48)
    let frame := fun (f : Nat) => if f = 0 then n + 1 else f
    let trim := (List.range 6).map (fun i => rdInt b (2 + i) 1)
    let set : State → GovSettings → Prop := fun v x => v = { u with gov := { g with nextSettings := x } }
    let given := fun (old x : Nat) => if x = 0 then old else if x = 0xFFFF then 0 else x
    let part : Nat → Prop := fun x => x = 0 ∨ x = 0xFFFF ∨ (10 ≤ x ∧ x ≤ 4000)
    let x := g.nextSettings
    let clamp := u.Asks slot gvSetClamp r ∧ zeroAt b 2 2 = true ∧ zeroAt b 12 4 = true ∧ (rd b 0 2 = 0 ∨ 100 ≤ rd b 0 2) ∧
      (∀ i, i < 4 → rd b (4 + 2 * i) 2 = 0 ∨ 50 ≤ rd b (4 + 2 * i) 2) ∧ ∀ i, i < 16 → part (rd b (16 + 2 * i) 2)
    let limit := u.Asks slot gvSetLimits r ∧ zeroAt b 12 4 = true ∧
      ∀ i, i < 4 → (rd b i 1 = 0 ∨ 4 ≤ rd b i 1) ∧ (rd b (4 + 2 * i) 2 = 0 ∨ 100 ≤ rd b (4 + 2 * i) 2)
    (u.Asks slot regSetCompensator r → k ≤ 15 → due (rd b 40 8) → zeroAt b 36 4 = true →
      (rd b 1 1 = 1 → zeroAt b 2 34 = true → Answers .regSetCompensator slot t0 s r 0 (leBytes 8 (frame (rd b 40 8) % 2 ^ 48))
        (u.setRail k { v with staging := none, change := some (frame (rd b 40 8), true) })) ∧
      (rd b 1 1 = 0 → (Bank.ofBytes ((b.drop 2).take 34)).inRange = true →
        Answers .regSetCompensator slot t0 s r 0 (leBytes 8 (frame (rd b 40 8) % 2 ^ 48))
          (u.setRail k { v with staging := some (Bank.ofBytes ((b.drop 2).take 34)), change := some (frame (rd b 40 8), false) })) ∧
      (rd b 1 1 = 0 → (Bank.ofBytes ((b.drop 2).take 34)).inRange = false → Answers .regSetCompensator slot t0 s r 4 [] u)) ∧
    (u.Asks slot regSetTrim r → k < 4 → due (rd b 8 8) → zeroAt b 1 1 = true → (∀ i, i < 6 → -50 ≤ trim.getD i 0) →
      (∀ i, i < 6 → 550 ≤ (vcoreFused k i : Int) + trim.getD i 0) →
      ((∀ i, i < 6 → trim.getD i 0 ≤ 0) → Answers .regSetTrim slot t0 s r 0 (leBytes 8 (frame (rd b 8 8) % 2 ^ 48))
        (u.setRail k { v with trimPending := some (frame (rd b 8 8), trim) })) ∧
      ((∃ i, i < 6 ∧ 0 < trim.getD i 0) → Answers .regSetTrim slot t0 s r 10 [] u)) ∧
    (u.Asks slot regSetTrim r → k = 4 → due (rd b 8 8) → zeroAt b 1 1 = true → (∀ i, i < 6 → i ≠ 1 → trim.getD i 0 = 0) →
      -50 ≤ trim.getD 1 0 → (railLow 4 : Int) ≤ vhubFused + trim.getD 1 0 →
      if trim.getD 1 0 ≤ 0 then Answers .regSetTrim slot t0 s r 0 (leBytes 8 (frame (rd b 8 8) % 2 ^ 48))
        (u.setRail k { v with trimPending := some (frame (rd b 8 8), trim) })
      else Answers .regSetTrim slot t0 s r 10 [] u) ∧
    (clamp → rd b 0 2 ≤ 4000 → (∀ i, i < 4 → rd b (4 + 2 * i) 2 ≤ 900) →
      ∃ v y, Answers .gvSetClamp slot t0 s r 0 next v ∧ set v y ∧ y.clampM = (if rd b 0 2 = 0 then x.clampM else rd b 0 2) ∧
        (∀ i, i < 4 → y.clampDie.getD i 900 = if rd b (4 + 2 * i) 2 = 0 then x.clampDie.getD i 900 else rd b (4 + 2 * i) 2) ∧
        (∀ i, SMap.get y.clampPart i 0 = if i < 16 then given (SMap.get x.clampPart i 0) (rd b (16 + 2 * i) 2) else SMap.get x.clampPart i 0) ∧
        y.quota = x.quota ∧ y.droop = x.droop ∧ y.railCurrent = x.railCurrent) ∧
    (clamp → 4000 < rd b 0 2 ∨ (∃ i, i < 4 ∧ 900 < rd b (4 + 2 * i) 2) → Answers .gvSetClamp slot t0 s r 10 [] u) ∧
    (u.Asks slot gvSetQuota r → zeroAt b 32 8 = true → (∀ i, i < 16 → part (rd b (2 * i) 2)) →
      ∃ v y, Answers .gvSetQuota slot t0 s r 0 next v ∧ set v y ∧
        (∀ i, SMap.get y.quota i 0 = if i < 16 then given (SMap.get x.quota i 0) (rd b (2 * i) 2) else SMap.get x.quota i 0) ∧
        y.clampM = x.clampM ∧ y.clampDie = x.clampDie ∧ y.clampPart = x.clampPart ∧ y.droop = x.droop ∧ y.railCurrent = x.railCurrent) ∧
    (limit → (∀ i, i < 4 → rd b i 1 ≤ droopFused i ∧ rd b (4 + 2 * i) 2 ≤ g.rated.getD i 1000) →
      ∃ v y, Answers .gvSetLimits slot t0 s r 0 next v ∧ set v y ∧ y.quota = x.quota ∧ y.clampM = x.clampM ∧
        ∀ i, i < 4 → y.droop.getD i none = (if rd b i 1 = 0 then x.droop.getD i none else some (rd b i 1)) ∧
          y.railCurrent.getD i 1000 = if rd b (4 + 2 * i) 2 = 0 then x.railCurrent.getD i 1000 else rd b (4 + 2 * i) 2) ∧
    (limit → (∃ i, i < 4 ∧ (droopFused i < rd b i 1 ∨ g.rated.getD i 1000 < rd b (4 + 2 * i) 2)) →
      Answers .gvSetLimits slot t0 s r 10 [] u)

/-- R536, R543, R544, R555 to R557, R673, R679 to R682: acknowledgement of a class, by its last record's number; a level that may only be
raised; an injected fault, recorded as such, and refused from MAJOR on outside factory test mode; the fold of the counters, which
changes no counter's value; snapshots armed and cancelled, and grants. -/
def Obligations.FaultAndCounterCommands : Prop :=
  ∀ (slot : Fin 19) (t0 c : Nat) (s : State) (r : Bytes),
    let u := s.onEdge t0 7
    let b := r.drop 32
    let f := u.fc
    let x := u.classSlot (c + 1)
    let ack := u.Asks slot fcAckFaults r ∧ c < 12 ∧ rd b 0 2 = 2 ^ c ∧ zeroAt b 2 6 = true ∧
      ∀ i, i < 12 → i ≠ c → zeroAt b (8 + 4 * i) 4 = true
    let last := x.lastSeq = rd b (8 + 4 * c) 4
    let slots : State → ClassSlot → Prop := fun v y => ∀ i, v.classSlot i = if i = c + 1 then y else u.classSlot i
    let code := rd b 0 2
    let lv := if rd b 2 1 = 0 then u.levelOf code else rd b 2 1
    let inject := u.Asks slot fcInjectFault r ∧ baseLevel code ≠ 0 ∧ rd b 2 1 ≤ 5 ∧ (rd b 3 1 ≤ 15 ∨ rd b 3 1 = 0xFF) ∧
      zeroAt b 6 2 = true ∧ zeroAt b 12 4 = true
    let n := rd b 8 8
    (ack → x.recs = [] ∨ (last ∧ x.level ≠ 5 ∧ x.condPresent = false) → ∃ v p, Answers .fcAckFaults slot t0 s r 0 p v ∧
      slots v emptySlot ∧ rd p 0 2 = 2 ^ c ∧ Within [.rails, .fc, .mod, .ob] u v ∧
      (u.mod.mode = .safe → u.mod.prior = some .active → u.mod.fatal = false → v.levelInForce < 4 → v.mod.mode = .active)) ∧
    (ack → x.recs ≠ [] → ¬ last → ∃ v p, Answers .fcAckFaults slot t0 s r 9 p v ∧ slots v x ∧ rd p 2 2 = 2 ^ c) ∧
    (ack → x.recs ≠ [] → last → x.level ≠ 5 → x.condPresent = true → ∃ v p, Answers .fcAckFaults slot t0 s r 0 p v ∧
      slots v { x with ackPending := true } ∧ rd p 4 2 = 2 ^ c) ∧
    (ack → x.recs ≠ [] → last → x.level = 5 → ∃ v p, Answers .fcAckFaults slot t0 s r 9 p v ∧ slots v x ∧ rd p 6 2 = 2 ^ c) ∧
    (u.Asks slot fcSetLevel r → baseLevel code ≠ 0 → rd b 2 1 ≠ 0 → rd b 2 1 ≤ 4 → zeroAt b 3 5 = true →
      (baseLevel code ≤ rd b 2 1 → ∃ v, Answers .fcSetLevel slot t0 s r 0 [] v ∧ v = { u with fc := { f with setLevels := v.fc.setLevels } } ∧
        ∀ k, v.levelOf k = if k = code then rd b 2 1 else u.levelOf k) ∧
      (rd b 2 1 < baseLevel code → Answers .fcSetLevel slot t0 s r 10 [] u)) ∧
    (inject → 3 ≤ lv → testMode = false → Answers .fcInjectFault slot t0 s r 6 [] u) ∧
    (inject → 1 ≤ lv → lv ≤ 2 → ∃ v p, Answers .fcInjectFault slot t0 s r 0 p v ∧ Within [.fc, .ob] u v ∧
      rd p 0 4 = f.nextSeq % 2 ^ 32 ∧ rd p 4 1 = lv ∧ v.fc.nextSeq = (f.nextSeq + 1) % 2 ^ 32 ∧
      (lv = 2 → ∃ q, (v.classSlot (code / 256)).recs = (u.classSlot (code / 256)).recs ++ [q] ∧ q.code = code ∧ q.injected = true ∧
        q.level = 2 ∧ q.cond = false ∧ q.seq = f.nextSeq ∧ q.scope = rd b 3 1 ∧ q.unit = rd b 4 2 ∧ q.detail = rd b 8 4 ∧
        q.escalated = false) ∧
      (lv = 1 → v.fc.slots = f.slots)) ∧
    (SMap.wf u.ob.local32 0 = true → ∃ t, exec (.counterFold t0) s = .next t ∧ t.ob.local32 = [] ∧ (∀ i, t.counter i = u.counter i) ∧
      t.ob.snaps = u.ob.snaps ∧ t.ob.grants = u.ob.grants ∧ Within [.ob] u t) ∧
    (u.Asks slot obArmSnapshot r → rd b 0 1 ≤ 3 → zeroAt b 2 6 = true → u.mod.mode ≠ .parked →
      (rd b 1 1 = 0 → u.frame.number + 2 ≤ n → n < 2 ^ 48 → Answers .obArmSnapshot slot t0 s r 0 (leBytes 8 n)
        { u with ob := { u.ob with snaps := u.ob.snaps.set (rd b 0 1) { state := .armed, frame := n, rt := 0, words := [], owners := [] } } }) ∧
      (rd b 1 1 = 1 → n = 0 → Answers .obArmSnapshot slot t0 s r 0 (leBytes 8 0)
        { u with ob := { u.ob with snaps := u.ob.snaps.set (rd b 0 1) Snapshot.none } })) ∧
    (u.Asks slot obSetGrant r → rd b 0 1 ≤ 15 → rd b 1 1 ≤ 3 → zeroAt b 2 6 = true →
      (u.host.enabled.contains (rd b 0 1) = true → ∃ v, Answers .obSetGrant slot t0 s r 0 [] v ∧
        v = { u with ob := { u.ob with grants := v.ob.grants } } ∧
        ∀ p, SMap.get v.ob.grants p 0 = if p = rd b 0 1 then rd b 1 1 else SMap.get u.ob.grants p 0) ∧
      (u.host.enabled.contains (rd b 0 1) = false → Answers .obSetGrant slot t0 s r 5 [] u))

/-- R62, R63, R66, R67, R69, R76 to R78, R291, R301, R303, R309, R316, R325, R329 to R331: commands to the frame timing unit and the fabric. A
join is accepted where its conditions hold, and refused with `JOIN_REFUSED` above the module's level; leaving and changes wait for
their frames; links that change mode or are named train again; routes go to the staging table; an endpoint is bound unless a jig has
declared it. -/
def Obligations.FrameAndFabricCommands : Prop :=
  ∀ (slot : Fin 19) (t0 : Nat) (s : State) (r : Bytes),
    let u := s.onEdge t0 7
    let b := r.drop 32
    let f := u.frame
    let x := u.fabric
    let j := joinOf b
    let level := u.moduleLevel
    let tree : PendingTree :=
      { frame := rd b 8 8, parent := j.dom.parent, children := j.dom.children, releaseMarginNs := rd b 36 4 }
    let join := u.Asks slot ftJoinDomain r ∧ joinInRange b = true
    let fresh := f.domain = none ∧ u.mod.mode = .active ∧ f.rtLocked = true ∧ u.treeTrained j.dom = true ∧ testMode = false ∧
      (rd b 5 1 = 0 → u.rt + 500000 ≤ rd b 16 8)
    let leave := if rd b 0 8 = 0 then f.number + 2 else rd b 0 8
    let leaves := u.Asks slot ftLeaveDomain r ∧ f.number + 2 ≤ leave ∧ rd b 0 8 < 2 ^ 48 ∧ zeroAt b 9 7 = true
    let c := changeOf b
    let m := u.modesAt (rd b 0 8)
    let changes := u.Asks slot ftSetDomain r ∧ u.changeInRange b = true
    let links := u.Asks slot ofSetLinks r ∧ (rd b 0 2 ≤ 8191 ∨ rd b 0 2 = 0xFFFF) ∧ (rd b 2 2 ≤ 8191 ∨ 0xFFFE ≤ rd b 2 2) ∧
      zeroAt b 8 24 = true
    let again : Path → Path := fun p => { Path.cold with state := .training, trainAt := u.now, replays := p.replays, fecUncorrected := p.fecUncorrected }
    let first := rd b 0 2
    let n := rd b 2 2
    let routes := u.Asks slot ofSetRoutes r ∧ first + n ≤ 8192 ∧ n ≤ 1008 ∧ first ≤ 8191 ∧ zeroAt b 5 3 = true ∧
      ∀ i, i < n → routeEntryOk (rd b (16 + 4 * i) 4) = true
    let e := rd b 0 1
    let mine := slotMbk slot = true → u.ownerOfEndpoint e = some (slot.val - 1)
    let free := u.endpointDeclared e = false ∧ ∀ d, f.domain = some d → modeLevel (rd b 1 1) ≤ d.level
    (join → fresh → rd b 4 1 ≤ level → ∃ p, Answers .ftJoinDomain slot t0 s r 0 p { u with frame := { f with pendingJoin := some j } } ∧
      rd p 0 1 = 0 ∧ rd p 1 1 = level % 256 ∧ j.dom.id = rd b 0 4 ∧ j.joinFrame = rd b 8 8) ∧
    (join → fresh → level < rd b 4 1 → ∃ v p, Answers .ftJoinDomain slot t0 s r 6 p v ∧ v.frame = f ∧ rd p 0 1 = 1 ∧
      Raises u v [raisedOf u.now .hd FC.joinRefused 0xFFFF none 0 false]) ∧
    (∀ d, join → f.domain = some d → d.id = rd b 0 4 → u.keepsDomain d j = true →
      ∃ p, Answers .ftJoinDomain slot t0 s r 0 p { u with frame := { f with pendingTree := some tree } }) ∧
    (join → testMode = false → (rd b 5 1 = 0 → u.rt + 500000 ≤ rd b 16 8) → f.domain = none → u.mod.mode ≠ .active ∨ f.rtLocked = false →
      Answers .ftJoinDomain slot t0 s r 5 [] u) ∧
    (leaves → rd b 8 1 ≤ 1 → f.domain.isSome = true → u.runningJobs = [] →
      Answers .ftLeaveDomain slot t0 s r 0 (leBytes 8 (leave - 1)) { u with frame := { f with leaveFrame := some leave } }) ∧
    (leaves → rd b 8 1 = 1 → f.domain.isSome = true → ∃ v, Answers .ftLeaveDomain slot t0 s r 0 (leBytes 8 (leave - 1)) v ∧
      v.frame.leaveFrame = some leave ∧
      ∀ p q, u.partJig p = some q → q.phase = .running → p < 16 → (v.partJig p).map (·.halting) = some true) ∧
    (leaves → rd b 8 1 = 0 → f.domain = none ∨ u.runningJobs ≠ [] → Answers .ftLeaveDomain slot t0 s r 5 [] u) ∧
    (changes → f.domain.isSome = true → m.after c = m ∨ u.runningJobs = [] →
      (∀ l, c.level = some l → u.jigAbove l = false ∧ l ≤ level) →
      ∃ v p, Answers .ftSetDomain slot t0 s r 0 p v ∧ v = { u with frame := { f with changes := v.frame.changes } } ∧
        (f.changes = [] → v.frame.changes = [c])) ∧
    (changes → f.domain = none ∨ (m.after c ≠ m ∧ u.runningJobs ≠ []) → Answers .ftSetDomain slot t0 s r 5 [] u) ∧
    (links → f.domain = none → ∃ v p, Answers .ofSetLinks slot t0 s r 0 p v ∧ p.length = 8 ∧ Within [.fabric] u v ∧
      v.fabric.nodeId = (if rd b 0 2 = 0xFFFF then x.nodeId else rd b 0 2) ∧
      v.fabric.standIn = (if rd b 2 2 = 0xFFFF then x.standIn else if rd b 2 2 = 0xFFFE then none else some (rd b 2 2)) ∧
      ∀ k, k < 16 → v.link k = if (u.link k).split ≠ bitAt (rd b 4 2) k ∨ bitAt (rd b 6 2) k = true then
          { Link.cold with split := bitAt (rd b 4 2) k, pathA := again (u.link k).pathA, pathB := again (u.link k).pathB }
        else u.link k) ∧
    (links → f.domain.isSome = true → (rd b 0 2 ≠ 0xFFFF ∧ x.nodeId ≠ rd b 0 2) ∨
      (∃ k, k < 16 ∧ (u.link k).split ≠ bitAt (rd b 4 2) k) → Answers .ofSetLinks slot t0 s r 5 [] u) ∧
    (routes → (rd b 4 1 = 0 ∧ rd b 8 8 = 0 ∨ rd b 4 1 = 1 ∧ f.number + 2 ≤ rd b 8 8 ∧ rd b 8 8 < 2 ^ 48) →
      ∃ v, Answers .ofSetRoutes slot t0 s r 0 [] v ∧
        v = { u with fabric := { x with staging := v.fabric.staging, commits := v.fabric.commits } } ∧
        (∀ k, SMap.get v.fabric.staging k 0 = if first ≤ k ∧ k < first + n then rd b (16 + 4 * (k - first)) 4
          else SMap.get x.staging k 0) ∧
        v.fabric.commits = if rd b 4 1 = 1 then rd b 8 8 :: x.commits.filter (fun g => decide (rd b 8 8 < g)) else x.commits) ∧
    (u.Asks slot ofBindEndpoint r → bindingInRange b = true → mine → free → ∃ v, Answers .ofBindEndpoint slot t0 s r 0 [] v ∧
      v = { u with fabric := { x with bindings := v.fabric.bindings, endpoints := v.fabric.endpoints } } ∧
      (∀ k, SMap.get v.fabric.bindings k Binding.unbound = if k = e then bindingOf b else SMap.get x.bindings k Binding.unbound)) ∧
    (u.Asks slot ofBindEndpoint r → bindingInRange b = true → ¬ mine → Answers .ofBindEndpoint slot t0 s r 6 [] u) ∧
    (u.Asks slot ofBindEndpoint r → bindingInRange b = true → mine → ¬ free → Answers .ofBindEndpoint slot t0 s r 5 [] u)

/-! ### Bring-up, module states and clocks -/

/-- R546, R551, R608 to R615, R621, R641, R642, R645, R646, R667: power-up and the inputs at the connector. Power-up begins a cold start, with
its fuse and calibration checks; PRESENT_N begins a hold-off of 2 s, or, once precharge has begun, removal stops everything; the token is
a low, then a high of TRAY_START; the emergency stop acts once precharge has begun; SLOT_ID is sampled once; the PCIe link trains with
VHUB, and WAKE_N ends with the link or after 1 s. -/
def Obligations.InputsAtTheConnector : Prop :=
  ∀ (mated high calBad : Bool) (first second : List (Fin 12)) (v : Fin 32) (rate : LinkRate) (t0 : Nat) (s : State),
    let u := s.upTo t0
    let w := s.onEdge t0 1
    let m := s.mod
    let p := s.pins
    let both : Fin 12 → Prop := fun i => i ∈ first ∧ i ∈ second
    let waits := if p.trayStart then TokenPhase.waitLow else TokenPhase.waitHigh
    (m.powered = false → ∃ t, exec (.alwaysOnPowerUp mated first second calBad t0) s = .next t ∧ t.mod.powered = true ∧
      t.mod.mode = .starting ∧ t.mod.coldAt = u.now ∧ t.mod.coldCause = 0 ∧ t.mod.prechargeStarted = false ∧ t.mod.token = waits ∧ t.mod.tokenLow = u.now + 7200000 ∧
      (t.mod.fuseOk = true ↔ ∀ i, ¬ both i) ∧ (t.mod.ended = true ↔ ∃ i, both i) ∧
      t.mod.holdOff = (if mated then some u.now else none) ∧ t.pins = { p with presentMated := mated, slotId := none } ∧
      (∀ i : Fin 12, SMap.get t.fc.fuseCopy (fuseGroups.getD i (0, 0)).1 0 = if i ∈ first ∧ i ∈ second then 2 else if i ∈ first then 1 else 0) ∧
      (calBad = true → inhCalibration ∈ t.cells.chargeInhibit ∧ inhCalibration ∈ t.cells.dischargeInhibit ∧
        raisedOf u.now .pwc FC.calibrationInvalid 0xFFFF none 0 false ∈ t.fc.raised) ∧
      (∀ i, both i → raisedOf u.now .pwc FC.fuseGroupInvalid (fuseGroups.getD i (0, 0)).1 none 0 true ∈ t.fc.raised) ∧
      (first = [] → second = [] → calBad = false → testMode = false → t.fc.raised = []) ∧
      t.frame = FrameState.reset ∧ t.jigs = JigState.reset ∧ t.rails = RailState.reset ∧ t.gov = GovState.reset ∧
      t.mem = u.mem.onlyTier3 ∧ t.mp.bank0 = u.mp.bank0 ∧ t.mp.bank1 = u.mp.bank1 ∧ t.cells.packRecord = u.cells.packRecord ∧
      t.cells.trims = u.cells.trims) ∧
    (m.powered = true → p.presentMated = false → m.removed = false → m.prechargeStarted = false →
      exec (.presentNMate t0) s = .next { w with pins := { p with presentMated := true },
                                                 mod := { m with holdOff := some w.now, holdOffDone := false } }) ∧
    (m.powered = true → p.presentMated = false → m.removed = true →
      ∃ t, exec (.presentNMate t0) s = .next t ∧ t.mod.removed = false ∧ t.mod.mode = .starting ∧ t.mod.coldAt = w.now ∧
        t.mod.holdOff = some w.now ∧ t.mod.token = waits ∧ t.pins = { p with presentMated := true, slotId := none } ∧
        t.mod.fuseOk = m.fuseOk) ∧
    (m.powered = true → m.removed = false → m.prechargeStarted = false →
      exec (.presentNBreak t0) s = .next
        { w with pins := { p with presentMated := false },
                 mod := { m with holdOff := none, holdOffDone := false, token := waits, tokenLow := w.now + 7200000 } }) ∧
    (m.powered = true → m.removed = false → m.prechargeStarted = true → s.shim.busDead = false →
      ∃ t, exec (.presentNBreak t0) s = .next t ∧ t.mod.removed = true ∧ t.pins.presentMated = false ∧
        t.shim.input.running = false ∧ t.shim.storage.running = false ∧ t.shim.isolationOpen = true ∧ t.shim.stackSwitchOpen = true ∧
        t.gov.stop = .stopped ∧ t.mod.processorsUp = false ∧ ∀ r, r < 17 → (t.rail r).live = false) ∧
    (∀ a, m.holdOff = some a → a + 14400000000 ≤ u.now →
      exec (.holdOffExpiry t0) s = .next { u with mod := { m with holdOffDone := true } }) ∧
    (∃ t, exec (.trayStartChange high t0) s = .next t ∧ t.pins = { p with trayStart := high, trayStartSince := w.now } ∧
      Within [.mod, .pins] w t ∧
      (m.powered = true → m.prechargeStarted = false → t.mod = { m with token :=
        if m.token = .waitLow ∧ high = false then .waitHigh
          else if m.token = .waitHigh ∧ high = true then (if m.tokenLow + 7200000 ≤ w.now then .granted else .waitLow)
          else m.token }) ∧
      (m.powered = false ∨ m.prechargeStarted = true → t.mod = m)) ∧
    (p.emergencyStopN = true → m.powered = true → ∃ t, exec (.emergencyStop true t0) s = .next t ∧
      t.pins = { p with emergencyStopN := false } ∧ Within [.pins, .fc] w t ∧
      Raises w t (if m.prechargeStarted then [raisedOf w.now .pwc FC.emergencyStop 0xFFFF none 0 true] else [])) ∧
    exec (.emergencyStop false t0) s = .next { w with pins := { p with emergencyStopN := true } } ∧
    (∀ a, m.holdOff = some a → a + 72000000 ≤ u.now → p.slotId = none →
      exec (.slotIdSample v t0) s = .next { u with pins := { p with slotId := some v.val } }) ∧
    (p.slotId.isSome = true → u.fc.inputOutOfRange.contains 6 = false → ∃ t, exec (.slotIdMismatch t0) s = .next t ∧ t.pins = p ∧
      t.fc.inputOutOfRange = 6 :: u.fc.inputOutOfRange ∧
      t.fc.raised = u.fc.raised ++ [raisedOf u.now .pwc FC.inputOutOfRange 0xFFFF none 6 true]) ∧
    ((u.rail 4).good = true → exec (.pcieLinkTrainingStart t0) s =
      .next { u with pins := { p with perstN := true }, host := { u.host with training := !u.host.linkUp } }) ∧
    ((u.rail 4).good = true → u.host.training = true → exec (.pcieLinkUp rate t0) s =
      .next { u with host := { u.host with training := false, linkUp := true, rate := rate }, pins := { p with wakeN := true },
                     mod := { m with wakeSince := none } }) ∧
    (∀ a, m.wakeSince = some a → a + 7200000000 ≤ u.now →
      exec (.wakeNTimeout t0) s = .next { u with pins := { p with wakeN := true }, mod := { m with wakeSince := none } })

/-- R460, R565, R605, R618 to R620: a change of module state at the kerf of its frame. STANDBY turns the compute dies off, and the optical
rails in the next step; ACTIVE begins the staged start; PARKED clears the state store, the partition records, bindings and routes, freezes
the frame count and stops every rail. R654, R656, R659, R664, R665, R671: clocks. A standby PLL holds the state it was armed for; one that
loses lock holds none; a lost lock of a PLL that runs a die, of a memory PLL or of the hub's stops the compute dies' clocks; the power
controller changes over once VHUB is good; the oscillator's band takes its first measurement, then moves an eighth of the way, by a
rounding that is not given, while RT follows a reference, and it is read for the correction of the time that runs on the oscillator
otherwise. -/
def Obligations.StatesAndClocksChange : Prop :=
  (∀ (plan : Bool) (copies : List (Fin 5)) (s : State) (k : Nat × Nat) (m : ModState) (f : Nat),
     let v := s.onEdge (s.frame.timeOfRt (s.kerfEdge k.2)) 3
     s.frame.frozen = false → s.nextKerf = some k → s.mod.scheduled = some (m, f) → f ≤ k.1 % 2 ^ 48 →
     ∃ t, exec (.kerfStrobe plan copies) s = .next t ∧ t.now = v.now ∧
       (m = .standby → t.mod.mode = .standby ∧ t.mod.scheduled = none ∧ t.mod.since = t.now ∧ t.gov.stop = .stopped ∧
         t.gov.diesOn = false ∧ t.rails.stopNext = some 0 ∧ t.rails.stopOnly = [0, 1, 2, 3, 14, 15] ∧ t.rails.stopLast = 1 ∧
         t.rails.stopAt = t.now ∧ ∀ n, n < 4 → (t.rail n).live = false) ∧
       (m = .active → t.mod.mode = s.mod.mode ∧ t.mod.scheduled = none ∧ t.rails.startAt.isSome = true ∧
         (s.rails.startAt = none → t.rails.startAt = some t.now ∧ t.rails.startStep = 0)) ∧
       (m = .parked → s.shim.busDead = false → t.mod.mode = .parked ∧ t.mod.scheduled = none ∧ t.frame.frozen = true ∧
         t.mp.image0.good = false ∧ t.mp.image1.good = false ∧ t.mp.journal = [] ∧ t.host.records = [] ∧ t.host.enabled = [] ∧
         t.fabric.routes = [] ∧ t.fabric.bindings = [] ∧ t.fabric.endpoints = [] ∧ t.gov.stop = .stopped ∧
         t.rails.stopNext = some 0 ∧ t.rails.stopOnly = List.range 17 ∧ t.rails.stopLast = 4 ∧ t.cells.asleep = true ∧ t.cells.packRecord = s.cells.packRecord ∧ t.cells.trims = s.cells.trims ∧
         t.shim.stackSwitchOpen = true ∧ t.shim.storage.running = false)) ∧
  (∀ (n : Fin 4) (w : Fin 2) (tempDc measured : Int) (t0 : Nat) (s : State),
     let u := s.upTo t0
     let c := u.clocks
     let d := u.dieClock n
     let band := if tempDc < 150 then 0 else if 850 ≤ tempDc then 15 else (tempDc.toNat - 100) / 50
     let e := c.oscEntry band
     let set := fun (x : DieClock) => { u with clocks := { c with dies := c.dies.set n x } }
     let stopped : State → Source → Prop := fun t src =>
       raisedOf u.now src FC.pllLockLost 0xFFFF none 0 false ∈ t.fc.raised ∧ t.diesClocked = false ∧
       (u.diesClocked = true → t.gov.stop = .clocksOff u.now)
     (u.diesClocked = true → d.standbyArmed = true → exec (.standbyPllLock n t0) s =
       .next (set (if d.running = 0 then { d with pll1 := some u.gov.armed } else { d with pll0 := some u.gov.armed }))) ∧
     (d.running ≠ w.val → exec (.pllLockLost (.pingPong n w) t0) s =
       .next (set (if w.val = 0 then { d with pll0 := none } else { d with pll1 := none }))) ∧
     (d.running = w.val → u.diesClocked = true → d.reserve = false →
       ∃ t, exec (.pllLockLost (.pingPong n w) t0) s = .next t ∧ stopped t (Source.ofDie n)) ∧
     (∃ t, exec (.pllLockLost (.memory n) t0) s = .next t ∧ stopped t (Source.ofDie n)) ∧
     (∀ p ∈ [Pll.hub, Pll.reference], ∃ t, exec (.pllLockLost p t0) s = .next t ∧ stopped t .hd) ∧
     ((u.rail 4).good = true → exec (.pwcPllChangeover t0) s = .next { u with clocks := { c with pwcOnReference := true } }) ∧
     (∃ t, exec (.oscillatorCalibration tempDc measured t0) s = .next t ∧ t.clocks.oscTempDc = tempDc ∧ t.clocks.oscBand = band ∧
       t.clocks.dies = c.dies ∧ Within [.clocks] u t ∧
       (¬ (u.frame.rtLocked = true ∧ u.frame.holdoverSince = none) → t.clocks.osc = c.osc ∧ t.clocks.oscCorrection = c.correction tempDc) ∧
       (u.frame.rtLocked = true → u.frame.holdoverSince = none → t.clocks.oscCorrection = c.oscCorrection ∧
         ∃ y, t.clocks.osc = c.osc.set band y ∧ y.updates = min 255 (e.updates + 1) ∧ (e.updates = 0 → y.offset = measured) ∧
           (e.updates ≠ 0 → 8 * (y.offset - e.offset) - (measured - e.offset) < 8 ∧
             -8 < 8 * (y.offset - e.offset) - (measured - e.offset)))))

/-! ### The shim stage and the cells -/

/-- R359 to R369, R371, R376 to R378, R382, R387, R388, R390: the controller's step. `P_target` moves toward `P_goal` by at most R x 50
microseconds and never past it. In power mode the draw stays at it, within 2 percent or 20 W, but for an excursion: a limit acts, or a stopped
converter leaves the draw off target. The converters keep to their limits: nothing is exported but under LEND with the bus present and its
voltage in the bands for it, import above 2,800 W ends with its allowance, storage neither discharges below 96 V nor charges above 132 V.
Discharge at the stack-current limit below 3,000 W sets `HEADROOM`, which withdraws F0; both faults come once a frame. Planned changes are fed
forward; a lease that expires leaves its envelope. -/
def Obligations.TheTargetMovesWithinTheEnvelope : Prop :=
  ∀ (t0 : Nat) (raw : ShimInputs) (s : State),
    let u := s.upTo t0
    let h := u.shim
    let x := { raw with busMv := (u.pwcReading cvBus raw.busMv).toNat, stackMa := u.pwcReading cvStack raw.stackMa }
    let step : Rat := (h.envelope : Rat) / 20000
    let target := if h.target < h.goal then min h.goal (h.target + step) else max h.goal (h.target - step)
    let runs := decide (h.input.running = true ∧ ¬ (h.policy = .island ∧ h.islandCause = .commanded ∧ target ≤ 0))
    let v : State := { u with shim := { h with target := target, input := { h.input with running := runs } } }
    let stopped := h.input.stoppedBy.isSome = true ∧ 0 < target
    (∃ t, exec (.shimTargetStep t0 raw) s = .next t ∧ Within [.shim, .gov, .fc, .ob] u t ∧ t.shim.target = target ∧
      absRat (t.shim.target - h.target) ≤ step ∧ t.shim.goal = h.goal ∧ t.shim.policy = h.policy ∧ t.shim.input.running = runs ∧
      (let m := t.shim.meter
       let w := m.storageW
       let off := h.policy ≠ .follow ∧ ((v.powerFlow x).acts = true ∨ stopped) ∧ (m.busDraw : Rat) ≠ target
       let short := 0 < w ∧ w < 3000 ∧ w = u.currentLimitW x.stackMv
       m = { busDraw := (v.powerFlow x).busDraw, storageW := (v.powerFlow x).storageW, load := x.load, busMv := x.busMv,
             stackMv := x.stackMv, stackMa := x.stackMa, ibusMv := (v.powerFlow x).ibusMv } ∧
       (runs = true → h.storage.running = true → h.policy ≠ .follow → ¬ off →
         absRat ((m.busDraw : Rat) - target) ≤ max 20 (absRat target / 50)) ∧
       (m.busDraw + w = x.load → 48500 ≤ m.ibusMv ∧ m.ibusMv ≤ 51500) ∧
       (h.policy ≠ .lend ∨ h.busPresent = false ∨ x.busMv < 680000 ∨ 920000 ≤ x.busMv → 0 ≤ m.busDraw) ∧
       m.busDraw ≤ (if h.shortExhausted = true ∨ h.limits.shortImport = false then 2800 else 3000) ∧
       (h.input.hot = true → m.busDraw ≤ 2000 ∧ -2000 ≤ m.busDraw) ∧
       w ≤ (if h.storage.running = false ∨ x.stackMv < 96000 then 0 else if h.storage.hot = true then 2000 else 3000) ∧
       -(if h.storage.running = false ∨ 132000 < x.stackMv then 0 else if h.storage.hot = true then 2000 else 3000 : Int) ≤ w ∧
       (t.shim.excursion = true ↔ off) ∧
       (off → t.shim.excursionCount = min (h.excursionCount + 1) 0xFFFFFFFF) ∧ (¬ off → t.shim.excursionCount = h.excursionCount) ∧
       (short → t.shim.headroom = true ∧ t.shim.f0Permitted = false ∧ t.shim.headroomAt = u.now) ∧
       (¬ short → t.shim.f0Permitted = h.f0Permitted ∧
         (t.shim.headroom = true ↔ h.headroom = true ∧ u.now < h.headroomAt + 7200000)) ∧
       ∃ a b, Raises u t (a ++ b) ∧
         (a = [raisedOf u.now .pwc FC.envelopeExcursion 0xFFFF none 0 false] ∧ off ∧ h.excursionRaised = false ∨
           a = [] ∧ ¬ (off ∧ h.excursionRaised = false)) ∧
         (b = [raisedOf u.now .pwc FC.headroom 0xFFFF none w.toNat false] ∧ short ∧ h.headroomRaised = false ∨
           b = [] ∧ ¬ (short ∧ h.headroomRaised = false)))) ∧
    (∀ b, u.planBoundaries[h.nextSegment]? = some b → h.noFeedForward = false → (u.kerfEndTime : Rat) + b * 7200 ≤ (u.now : Rat) →
      ∃ t, exec (.feedForwardStep t0) s = .next t ∧ t.shim = { h with
          nextSegment := h.nextSegment + 1,
          feedForward := h.feedForward + ((u.planPowerAt b : Rat) -
            ((if h.nextSegment = 0 then u.planFirst else u.planPowerAt (u.planBoundaries.getD (h.nextSegment - 1) 0) : Nat) : Rat)) } ∧
        Within [.shim] u t) ∧
    (∃ t, exec (.shortImportExhausted t0) s = .next t ∧ Within [.shim] u t ∧
      (∀ x, x ∈ t.shim.shortImport ↔ x ∈ h.shortImport ∧ u.now / 7200000 < x + 60000) ∧
      (t.shim.shortExhausted = true ↔ h.shortExhausted = true ∨ 10000 ≤ t.shim.shortImport.length)) ∧
    (∀ l, h.lease = some l → l.expires ≤ u.now → h.pendingLease = none → ∃ t, exec (.leaseExpiry t0) s = .next t ∧
      t.shim = { h with lease := none, leaseExpired := true, lastRamp := some l.ramp, lastCeiling := some l.ceilingW } ∧
      t.shim.envelope = l.ramp ∧ Raises u t [raisedOf u.now .pwc FC.leaseExpired 0xFFFF none 0 false] ∧ Within [.shim, .fc, .ob] u t)

/-- R23, R362, R363, R383 to R386, R428, R610, R611, R613, R615: the bus. With storage running the module goes into ISLAND at once; without, a
lost bus takes the power of the always-on domain. Over-voltage opens the isolation whether or not the bus is present. Precharge begins by
its conditions and completes only while TRAY_START is high; complete, it starts the input converter and the
processors boot; after 200 ms it fails. -/
def Obligations.TheBusComesAndGoes : Prop :=
  ∀ (t0 cap : Nat) (s : State),
    let u := s.upTo t0
    let h := u.shim
    let m := u.mod
    let gone : State → Prop := fun t =>
      t.shim.policy = .island ∧ t.shim.islandCause = .busLoss ∧ t.shim.target = 0 ∧ t.shim.goal = 0 ∧ t.shim.busPresent = false ∧
      t.shim.input.running = false ∧ t.shim.storage.running = true ∧ t.shim.exhaustedAt = none ∧ t.shim.busReturned = false
    let detail := h.meter.busMv / 100
    let cold := m.powered = true ∧ m.fuseOk = true ∧ m.ended = false ∧ m.holdOffDone = true ∧ m.token = .granted ∧
      m.prechargeStarted = false ∧ u.pins.emergencyStopN = true ∧ u.pins.trayStart = true ∧ h.input.running = false
    let again := m.prechargeWanted = true ∧ h.busReturned = false ∧ h.busPresent = true ∧ u.pins.trayStart = true
    let back := h.islandCause = .busLoss
    (h.busPresent = true → h.storage.running = true →
      (∃ t, exec (.busLoss t0) s = .next t ∧ gone t ∧ t.shim.busDead = true ∧ t.shim.isolationOpen = h.isolationOpen ∧
        raisedOf u.now .pwc FC.busLoss 0xFFFF none detail true ∈ t.fc.raised) ∧
      (∃ t, exec (.busOvervoltage t0) s = .next t ∧ gone t ∧ t.shim.isolationOpen = true ∧
        raisedOf u.now .pwc FC.busOvervoltage 0xFFFF none detail true ∈ t.fc.raised)) ∧
    (h.busPresent = true → h.storage.running = true → u.cells.rest = none → m.powered = true → m.processorsUp = true →
      (∃ t, exec (.busLoss t0) s = .next t ∧ Within [.shim, .fc, .ob] u t ∧
        Raises u t [raisedOf u.now .pwc FC.busLoss 0xFFFF none detail true]) ∧
      (∃ t, exec (.busOvervoltage t0) s = .next t ∧ Within [.shim, .fc, .ob] u t ∧
        Raises u t [raisedOf u.now .pwc FC.busOvervoltage 0xFFFF none detail true])) ∧
    (m.powered = true → h.busPresent = true → h.storage.running = false → u.cells.rest = none →
      ∃ t, exec (.busLoss t0) s = .next t ∧ t.mod = ModuleState.reset ∧ t.mod.powered = false ∧ t.mem = u.mem.onlyTier3 ∧
        t.pins = u.pins) ∧
    (h.busPresent = false → h.busDead = false → ∃ t, exec (.busOvervoltage t0) s = .next t ∧ t.shim.input.running = false ∧
      t.shim.isolationOpen = true ∧ t.shim.precharging = none ∧ (h.input.running = false → t.shim.policy = h.policy) ∧
      raisedOf u.now .pwc FC.busOvervoltage 0xFFFF none detail true ∈ t.fc.raised) ∧
    (∃ t, exec (.busPresent t0 cap) s = .next t ∧ t.shim = { h with
        busPresent := true, busDead := false, capacitanceMv := cap, busReturned := h.busReturned || decide back } ∧
      t.mod = { m with prechargeWanted := m.prechargeWanted || (decide back && decide (cap < 400000)) } ∧ Within [.shim, .mod] u t) ∧
    (h.precharging = none → h.input.stoppedBy = none → cold ∨ again → ∃ t, exec (.prechargeStart t0) s = .next t ∧
      t.shim = { h with precharging := some u.now, isolationOpen := false } ∧ t.mod = { m with prechargeStarted := true } ∧
      Within [.shim, .mod, .ob] u t) ∧
    (h.precharging = none → ¬ cold → ¬ again → exec (.prechargeStart t0) s = .next u) ∧
    (∀ a, h.precharging = some a → u.now ≤ a + 1440000000 → u.pins.trayStart = true →
      (m.prechargeWanted = true → ∃ t, exec (.prechargeComplete t0 cap) s = .next t ∧
        t.shim = { h with precharging := none, capacitanceMv := cap, busReturned := true } ∧
        t.mod = { m with prechargeWanted := false } ∧ Within [.shim, .mod] u t) ∧
      (m.prechargeWanted = false → ∃ t, exec (.prechargeComplete t0 cap) s = .next t ∧ Within [.shim, .mp, .mod] u t ∧
        t.shim = { h with precharging := none, capacitanceMv := cap, input := { h.input with running := true } } ∧
        (m.powered = true → t.mod.processorsUp = true) ∧
        (m.powered = true → m.processorsUp = false → t.mp.mpA = { u.mp.mpA with role := .booting, bank := u.mp.bootA } ∧
          t.mp.mpB = { u.mp.mpB with role := .booting, bank := u.mp.bootB }))) ∧
    (∀ a, h.precharging = some a → a + 1440000000 ≤ u.now → ∃ t, exec (.prechargeFail t0) s = .next t ∧
      t.shim = { h with precharging := none } ∧ Within [.shim, .fc, .mod] u t ∧
      t.mod = { m with prechargeWanted := false, ended := m.ended || !m.prechargeWanted } ∧
      Raises u t [raisedOf u.now .pwc FC.prechargeFail 0xFFFF none (h.capacitanceMv / 100) false])

/-- R385, R390, R525, R532: converters stop by their protections and are held until acknowledgement; a stopped input converter puts the module
into ISLAND, where `P_target` falls at R. A hot converter is limited; after the first over-voltage of the intermediate bus the input converter restarts once and ISLAND ends; after
`ISLAND_EXHAUSTED` storage stops, and with the bus dead the always-on power goes. -/
def Obligations.ProtectionsStopConverters : Prop :=
  ∀ (t0 : Nat) (storage : Bool) (s : State),
    let u := s.upTo t0
    let h := u.shim
    let island : State → Prop := fun t => h.busIsland = false → t.shim.policy = .island ∧ t.shim.islandCause = .protection ∧
      t.shim.target = h.target ∧ t.shim.goal = 0
    let inputOff : State → Nat → Prop := fun t code =>
      t.shim.input = { h.input with running := false, stoppedBy := some code } ∧ island t
    let storageOff : State → Nat → Bool → Prop := fun t code op =>
      t.shim.storage = { h.storage with running := false, stoppedBy := some code } ∧ t.shim.stackSwitchOpen = (h.stackSwitchOpen || op)
    let alone : State → Prop := fun t => Within [.shim, .fc, .mp, .mod] u t ∧ t.mod.powered = u.mod.powered
    (h.busDead = false →
      (∃ t, exec (.inputOvercurrent t0) s = .next t ∧ inputOff t FC.inputOvercurrent ∧ t.shim.storage = h.storage ∧ alone t ∧
        Raises u t [raisedOf u.now .pwc FC.inputOvercurrent 0xFFFF none 0 false]) ∧
      (∃ t, exec (.storageOvercurrent t0) s = .next t ∧ storageOff t FC.storageOvercurrent true ∧ t.shim.input = h.input ∧
        t.shim.policy = h.policy ∧ alone t ∧
        Raises u t [raisedOf u.now .pwc FC.storageOvercurrent 0xFFFF none (h.meter.stackMa.natAbs / 10) false]) ∧
      (∃ t, exec (.ibusOvervoltage t0) s = .next t ∧ inputOff t FC.ibusOvervoltage ∧ storageOff t FC.ibusOvervoltage false ∧ alone t ∧
        Raises u t [raisedOf u.now .pwc FC.ibusOvervoltage 0xFFFF none 0 false]) ∧
      (∃ t, exec (.converterOvertemp t0 storage) s = .next t ∧ alone t ∧
        (if storage then storageOff t FC.converterOvertemp false ∧ t.shim.input = h.input
          else inputOff t FC.converterOvertemp ∧ t.shim.storage = h.storage) ∧
        Raises u t [raisedOf u.now .pwc FC.converterOvertemp 0xFFFF none 0 true])) ∧
    ((h.input.running = true ∨ h.storage.running = true) → ∃ t, exec (.ibusUndervoltage t0) s = .next t ∧ t.shim = h ∧
      Raises u t [raisedOf u.now .pwc FC.ibusUndervoltage 0xFFFF none 0 true] ∧ Within [.fc] u t) ∧
    (h.input.running = false → h.storage.running = false → exec (.ibusUndervoltage t0) s = .next u) ∧
    ((if storage then h.storage.hot else h.input.hot) = false → ∃ t, exec (.converterHot t0 storage) s = .next t ∧
      t.shim = (if storage then { h with storage := { h.storage with hot := true } } else { h with input := { h.input with hot := true } }) ∧
      Raises u t [raisedOf u.now .pwc FC.converterHot 0xFFFF none 0 true] ∧ Within [.shim, .fc] u t) ∧
    (u.fc.ibusOvSeen = true → u.fc.ovRestartDue = true → h.busPresent = true → h.input.stoppedBy = some FC.ibusOvervoltage →
      ∃ t, exec (.inputRestartAfterOv t0) s = .next t ∧ t.shim.input = { h.input with running := true, stoppedBy := none } ∧
        (h.islandCause = .protection → t.shim.islandCause ≠ .protection ∧
          t.shim.policy = if h.permits h.commanded then h.commanded else .flatten) ∧
        t.fc = { u.fc with ovRestartDue := false } ∧ Within [.shim, .fc, .mp, .mod] u t) ∧
    (h.exhaustedAt.isSome = true → h.busIsland = true →
      (h.busDead = false → ∃ t, exec (.storageFinalStop t0) s = .next t ∧ storageOff t FC.islandExhausted false ∧ t.fc = u.fc ∧ alone t) ∧
      (h.busDead = true → h.input.running = false → u.mod.powered = true → ∃ t, exec (.storageFinalStop t0) s = .next t ∧
        t.mod.powered = false ∧ t.mod = ModuleState.reset ∧ t.pins = u.pins))

/-- R399, R403, R408 to R412, R414, R418: the cell monitor. A scan takes the readings of the slices it reaches; sets the ceilings by the
highest and the lowest cell; takes each action of the table of thresholds after its consecutive scans and ends it by its condition;
loses a slice unread for five scans; moves the reported state of charge; marks and bleeds. Scans come every 10 ms, in STANDBY once a second,
and readings are those with the trims of the slices and of the power controller (R666, R667). The charge tick counts the stack current into
every cell, with each slice's own supply current, at most 2 mA. -/
def Obligations.ScansWatchTheCells : Prop :=
  ∀ (t0 : Nat) (inp : ScanInput) (ma : Int) (s : State),
    let u := s.upTo t0
    let c := u.cells
    let due := c.scannedAt + (if u.mod.mode = .standby then 7200000000 else 72000000) ≤ u.now
    (c.enumerated = false ∨ c.asleep = true ∨ ¬ due → exec (.cellScan t0 inp) s = .next u) ∧
    (c.enumerated = false ∨ c.asleep = true → exec (.chargeCountTick t0 ma) s = .next u) ∧
    (c.enumerated = true → c.asleep = false →
      (∃ q : Nat → Rat, (∀ k, 0 ≤ q k ∧ q k ≤ 2 * secOf (u.now - c.lastTick) / 1000) ∧
        ∃ t, exec (.chargeCountTick t0 ma) s = .next t ∧ Within [.cells] u t ∧ t.cells.lastTick = u.now ∧
          ∀ i, i < 48 →
            let d : Rat := (u.pwcReading cvStack ma : Rat) / 1000 * secOf (u.now - c.lastTick) + q (i / 8)
            t.cells.cell i = { c.cell i with charge := (c.cell i).charge - d, counted := (c.cell i).counted - d }) ∧
      (due → ∃ t, exec (.cellScan t0 inp) s = .next t ∧ Within [.shim, .cells, .fc, .ob] u t ∧ t.cells.scanCount = c.scanCount + 1 ∧
        t.cells.scan.currentMa = u.pwcReading cvStack inp.scan.currentMa ∧ t.cells.scannedAt = u.now ∧
        (∀ i, i < 48 → t.cells.volt i =
          if inp.unread.any (fun k => k.val == i / 8) then c.volt i
            else c.corrected (i / 8) (inp.scan.dies.getD (i / 8) 0) (inp.scan.volts.getD i 0)) ∧
        (∀ hi lo, (t.cells.known.map t.cells.volt).max? = some hi → (t.cells.known.map t.cells.volt).min? = some lo →
          let lim := u.shim.limits.stackDa * 100
          t.cells.chargeCeiling = (if hi < 27000 then lim else lim * (27500 - hi) / 500) ∧
          t.cells.dischargeCeiling = (if 20500 < lo then lim else min lim (lim * (lo - 19500) / 1000)) ∧
          (∀ th tl, (t.cells.known.map t.cells.tempOf).max? = some th → (t.cells.known.map t.cells.tempOf).min? = some tl →
            ∀ id code n : Nat, ∀ met clear chg dis ack : Bool,
              (id, code, n, met, clear, chg, dis, ack) ∈
                [(inhHigh, FC.cellHigh, 2, decide (28000 ≤ hi), decide (hi < 27500), true, false, false),
                 (inhLimitHigh, FC.cellLimitHigh, 1, decide (28500 ≤ hi), decide (hi < 28500), true, true, true),
                 (inhLow, FC.cellLow, 2, decide (lo ≤ 19000), decide (20500 ≤ lo), false, true, false),
                 (inhLimitLow, FC.cellLimitLow, 1, decide (lo ≤ 18000), decide (18000 < lo), true, true, true),
                 (inhTemp55, FC.cellTempHigh, 10, decide (550 ≤ th), decide (th < 500), true, false, false),
                 (inhTemp60, FC.cellTempHigh, 10, decide (600 ≤ th), decide (th < 550), true, true, false),
                 (inhOvertemp, FC.cellOvertemp, 2, decide (650 ≤ th), decide (th < 650), true, true, true),
                 (inhCold20, FC.cellTempLow, 10, decide (tl ≤ -200), decide (-150 < tl), true, false, false),
                 (inhCold30, FC.cellTempLow, 10, decide (tl ≤ -300), decide (-250 < tl), true, true, false)] →
              (c.inhibited id = false → met = true → n ≤ c.held id + 1 →
                t.cells.chargeInhibit.contains id = chg ∧ t.cells.dischargeInhibit.contains id = dis ∧
                ∃ r ∈ t.fc.raised.drop u.fc.raised.length, r.src = .pwc ∧ r.msg.code = code ∧ r.msg.cond = true) ∧
              (c.inhibited id = false → ¬ (met = true ∧ n ≤ c.held id + 1) →
                t.cells.inhibited id = false ∧ t.cells.held id = if met then c.held id + 1 else 0) ∧
              (c.inhibited id = true → clear = true → ack = false → t.cells.inhibited id = false) ∧
              (c.inhibited id = true → (clear = false ∨ (ack = true ∧ u.classQuiet 4 = false)) →
                t.cells.chargeInhibit.contains id = c.chargeInhibit.contains id ∧
                t.cells.dischargeInhibit.contains id = c.dischargeInhibit.contains id)) ∧
          (c.inhibited inhEndDischarge = false → lo ≤ 20000 → 199 ≤ c.held inhEndDischarge →
            inhEndDischarge ∈ t.cells.dischargeInhibit ∧ t.cells.endDischargeTaken = some 0 ∧ t.cells.lastAnchor = (u.now : Int)) ∧
          (c.inhibited inhEndCharge = false → 27400 ≤ hi → -125 < t.cells.scan.currentMa → 5999 ≤ c.held inhEndCharge →
            inhEndCharge ∈ t.cells.chargeInhibit ∧ t.cells.lastAnchor = (u.now : Int))) ∧
        (∀ k : Fin 6, c.slices.length = 6 → (c.slices.getD k Slice.reset).lost = false → k ∈ inp.unread →
          ((t.cells.slices.getD k Slice.reset).lost = true ↔ 4 ≤ (c.slices.getD k Slice.reset).unread) ∧
          (4 ≤ (c.slices.getD k Slice.reset).unread →
            inhSlice k ∈ t.cells.chargeInhibit ∧ inhSlice k ∈ t.cells.dischargeInhibit)) ∧
        (u.mpServes = true → c.rest = none →
          let moved := c.reported + c.countedScan / 90
          let most := secOf (u.now - c.lastScan) / 5
          t.cells.reported = if moved < t.cells.stackSoc then min t.cells.stackSoc (moved + most) else max t.cells.stackSoc (moved - most)) ∧
        (u.mpServes = false → t.cells.reported = c.reported ∧ t.cells.nextMask = c.nextMask) ∧
        (u.mpServes = true → ∀ k j, k < 6 → j < 8 →
          let e := t.cells.cell (8 * k + j)
          let d := e.soc - t.cells.stackSoc
          (e.marked = true ↔ (1 / 2 : Rat) < d ∨ ((1 / 5 : Rat) < d ∧ (c.cell (8 * k + j)).marked = true)) ∧
          bitAt (t.cells.nextMask.getD k 0) j = e.marked) ∧
        (∀ k : Fin 6, k ∉ inp.unread →
          let x := (t.cells.slices.getD k Slice.reset).switches
          let die := t.cells.scan.dies.getD k 0
          (c.capture.isSome = true ∨ u.mod.mode = .parked ∨ c.restorePending = true ∨ 900 ≤ die ∨ (800 ≤ die ∧ c.oddScan = true) → x = 0) ∧
          (c.rest = none → c.capture = none → u.mod.mode ≠ .parked → c.restorePending = false → die < 900 →
            (die < 800 ∨ c.oddScan = false) → x = c.nextMask.getD k 0))))

/-- R14, R399, R401, R405, R406, R417, R428, R430: rests, captures and the chain. A rest that has run 150 s is aborted with `REST_FAILED`. A
capture is armed for a forecast step of 6 A where nothing excludes it, opens every bleed switch, ends 1.2 ms after its strobe and moves
its entry of the resistance table by 1/16, or is cancelled. A slice without a command for 25 ms opens its switches. Enumeration tries
both ports; what fails inhibits both directions; a pack record that does not hold the pack's serial sets `PACK_CHANGED`, and is rewritten. That a failed enumeration leaves `RESTORE_PENDING` set is the model's reading (log
entry 22). -/
def Obligations.RestsCapturesAndTheChain : Prop :=
  ∀ (t0 stepMa : Nat) (ring : List CaptureTick) (k : Fin 6) (r : ChainRead) (s : State),
    let u := s.upTo t0
    let c := u.cells
    let got : Nat → Nat → List CaptureTick := fun armed strobe =>
      let kept := ring.filter (fun y => decide (armed + 10800000 ≤ y.start ∧ y.start + 720000 ≤ strobe + 8640000))
      let volts := fun (y : CaptureTick) => (List.range 48).map (fun i => c.corrected (i / 8) (c.scan.dies.getD (i / 8) 0) (y.volts.getD i 0))
      (kept.drop (kept.length - 32)).map (fun y =>
        { start := y.start, currentMa := u.pwcReading cvStack y.currentMa, volts := volts y })
    (∀ x, c.rest = some x → x.complete = false → x.began + 1080000000000 ≤ u.now → ∃ t, exec (.restTimeout t0) s = .next t ∧
      t.cells = { c with rest := none, ticket := none } ∧ t.shim = { u.shim with target := (u.shim.meter.busDraw : Rat) } ∧
      Raises u t [raisedOf u.now .pwc FC.restFailed 0xFFFF none 0 false] ∧ Within [.shim, .cells, .fc, .ob] u t) ∧
    ((∀ x, c.rest = some x → x.complete = true ∨ u.now < x.began + 1080000000000) → exec (.restTimeout t0) s = .next u) ∧
    (let due := (u.frame.modes.cadence = .fixed ∧ ∃ f, u.nextKerf = some f ∧ u.frame.timeOfRt f.2 = u.now + 25200000) ∨
        (u.frame.modes.cadence = .barrier ∧ u.frame.ownDone = true)
      let free := c.enumerated = true ∧ c.asleep = false ∧ c.rest = none ∧ c.capture = none ∧ c.restorePending = false ∧
        u.mod.mode ≠ .parked ∧ (∀ d ∈ c.scan.dies, d < 900) ∧ ∀ x, c.lastCapture = some x → x + 720000000 ≤ u.now
      (due → free → 6000 ≤ stepMa → ∃ t, exec (.captureArm t0 stepMa) s = .next t ∧ Within [.cells] u t ∧
        t.cells = { c with capture := some { armedAt := u.now, strobe := none, acted := false }, lastCapture := some u.now,
                           slices := c.slices.map (fun x => { x with switches := 0 }) }) ∧
      (¬ (due ∧ free ∧ 6000 ≤ stepMa) → exec (.captureArm t0 stepMa) s = .next u)) ∧
    (∀ x z, c.capture = some x → x.strobe = some z → z + 8640000 ≤ u.now →
      ∃ t, exec (.captureRead t0 ring) s = .next t ∧ Within [.cells, .fc, .ob] u t ∧ t.cells.capture = none ∧ t.cells.captureRing = got x.armedAt z ∧
        t.cells.cells = c.cells ∧
        ((x.acted = true ∨ captureMeasure (got x.armedAt z) x.armedAt z = none) → t.cells.r1 = c.r1 ∧ t.fc = u.fc) ∧
        (∀ m, x.acted = false → captureMeasure (got x.armedAt z) x.armedAt z = some m →
          let e := 6 * tempBand (meanRat ((List.range 48).map (fun i => (c.tempOf i : Rat))) 0).floor + m.2
          (∀ j, t.cells.r1.getD j 0 = if j = e ∧ e < c.r1.length then c.r1.getD e 0 + (m.1 - c.r1.getD e 0) / 16 else c.r1.getD j 0) ∧
          (t.cells.resistanceHigh = true ↔ 2 * c.r1Factory.getD 20 0 < t.cells.r1.getD 20 0) ∧
          ((∃ y ∈ t.fc.raised.drop u.fc.raised.length, y.msg.code = FC.resistanceHigh) ↔
            t.cells.resistanceHigh = true ∧ c.resistanceHigh = false) ∧
          ∃ a ∈ got x.armedAt z, ∃ b ∈ got x.armedAt z, a.start + 720000 ≤ z ∧ x.armedAt + 10800000 ≤ a.start ∧
            5000 ≤ (b.currentMa - a.currentMa).natAbs ∧ m.2 = rateBand ((a.currentMa.natAbs + b.currentMa.natAbs) / 2) ∧
            (∀ y ∈ got x.armedAt z, y.start + 720000 ≤ z → y.start ≤ a.start) ∧
            ∀ y ∈ got x.armedAt z, ((b.start + 720000 : Int) - (z + 7200000 : Int)).natAbs ≤ ((y.start + 720000 : Int) - (z + 7200000 : Int)).natAbs)) ∧
    (∀ x, c.capture = some x → x.strobe = none → x.armedAt + 144000000 ≤ u.now → u.frame.modes.cadence = .barrier →
      exec (.captureCancel t0) s = .next { u with cells := { c with capture := none } }) ∧
    ((∀ x, c.capture = some x → x.strobe ≠ none ∨ u.now < x.armedAt + 144000000 ∨ u.frame.modes.cadence ≠ .barrier) →
      exec (.captureCancel t0) s = .next u) ∧
    (c.slices.length = 6 →
      (let old := (c.slices.getD k Slice.reset).lastCommand + 180000000 ≤ u.now
      ∃ t, exec (.sliceCommandTimeout k t0) s = .next t ∧ Within [.cells] u t ∧
        ∀ j, t.cells.slices.getD j Slice.reset = (if j = k.val ∧ old then { c.slices.getD j Slice.reset with switches := 0 }
          else c.slices.getD j Slice.reset))) ∧
    (c.enumerated = false → c.enumFailed = false → u.mod.processorsUp = true →
      let south : List Raised := if r.southOk then [] else [raisedOf u.now .pwc FC.chainReversed 0xFFFF none 0 false]
      let whole := ∀ i, i < 6 → c.selfTestFails r i = false
      let failed : State → List Raised → Prop := fun t l => Raises u t l ∧ Within [.cells, .fc, .ob] u t ∧ t.cells.enumFailed = true ∧
        t.cells.enumerated = false ∧ t.cells.u = 15 ∧ t.cells.restorePending = true ∧
        (∀ i, i = inhEnumeration ∨ i = inhRestore → i ∈ t.cells.chargeInhibit ∧ i ∈ t.cells.dischargeInhibit)
      (r.southOk = false → r.northOk = false → ∃ t, exec (.chainEnumeration t0 r) s = .next t ∧
        failed t [raisedOf u.now .pwc FC.chainEnumFail 0xFFFF none 0 false]) ∧
      (r.southOk = true ∨ r.northOk = true →
        (∀ j, j < 6 → c.selfTestFails r j = true → (∀ i, i < j → c.selfTestFails r i = false) → ∃ t, exec (.chainEnumeration t0 r) s = .next t ∧
          failed t (south ++ [raisedOf u.now .pwc FC.sliceSelftest (0x100 + j) none 0 false])) ∧
        (whole → r.pack.good = false → ∃ t, exec (.chainEnumeration t0 r) s = .next t ∧
          failed t (south ++ [raisedOf u.now .pwc FC.packIdInvalid 0xFFFF none 0 false])) ∧
        (whole → r.pack.good = true → r.first.unread ≠ [] → ∃ t, exec (.chainEnumeration t0 r) s = .next t ∧
          failed t (south ++ [raisedOf u.now .pwc FC.chainEnumFail 0xFFFF none 0 false])) ∧
        (whole → r.pack.good = true → r.first.unread = [] → ∃ t, exec (.chainEnumeration t0 r) s = .next t ∧
          Within [.shim, .cells, .fc, .ob] u t ∧ t.cells.enumerated = true ∧ t.cells.enumFailed = false ∧
          t.cells.northOnly = (c.northOnly || !r.southOk) ∧ t.cells.restorePending = true ∧
          inhRestore ∈ t.cells.chargeInhibit ∧ inhRestore ∈ t.cells.dischargeInhibit ∧ t.cells.packSerial = r.pack.serial ∧
          t.cells.packChanged = (recordSerial (c.recordRead r.recordFlips) != some (slice r.pack.serial 0 16)) ∧
          t.cells.packRecord = (if t.cells.packChanged then some (packRecordOf r.pack.serial) else c.recordRead r.recordFlips) ∧ t.cells.capacityBol = (r.pack.bolMah : Rat) * 36 / 10)))

/-! ### The regulators -/

/-- R442, R444 to R446, R449, R451, R453, R455, R456, R458, R466, R667: samples, pulses, ripple and telemetry. The reference moves 10 mV a
microsecond, or by its start slope; a rail within 3 percent of its setpoint for 100 microseconds has power-good; the compensator's sum is
rounded downward and limited; a phase begins its periods at its place in the interleave, the on-time is that of R445, limited above, none
below 20 ns; a trip above the reference ends every pulse, one below begins the extra pulses; 20 bad blocks return the rail to FACTORY. Which way the
error and the on-time are rounded the manual leaves open: they are within one unit of their values. -/
def Obligations.RegulatorsFollowTheirReference : Prop :=
  ∀ (t0 code ibusMv frMa peak uv ma : Nat) (r : Fin 16) (q : Fin 17) (p : Fin 40) (iAvg iP tempDc pwcDc : Int) (limitAt : Option Nat)
    (limits : List (Fin 40 × Nat)) (s : State),
    let u := s.upTo t0
    let v := u.rail r
    let b := u.bank r
    let x := v.phase p
    let vin := 250 * ibusMv - 4 * frMa
    let sense : Int := u.pwcReading r (250 * code)
    let only : State → Nat → Rail → Prop := fun t k w => ∀ j, t.rail j = if j = k then w else u.rail j
    let high := v.vref + 1000 * (b.overshootMv : Rat) ≤ uv
    let low := (uv : Rat) ≤ v.vref - 1000 * (b.undershootMv : Rat)
    let inTurn := (u.now - v.startedAt) % 9000 = 9000 * p.val / railPhases r
    let ff : Rat := if vin = 0 then 0 else 72000 * v.vref / vin
    (v.live = false → exec (.voltageSample r code t0) s = .next u) ∧
    (v.live = false ∨ ¬ high → exec (.overshootTrip r uv t0) s = .next u) ∧
    (v.live = false ∨ ¬ low → exec (.undershootTrip r uv ibusMv frMa limits t0) s = .next u) ∧
    (v.live = true →
      (let step : Rat := if v.mode = .starting then v.startSlope else 10000 * 300 / 7200
      let ref : Rat := if v.vref < v.setpoint then min (v.setpoint : Rat) (v.vref + step) else max (v.setpoint : Rat) (v.vref - step)
      let since := if (sense - v.setpoint).natAbs * 100 ≤ 3 * v.setpoint.natAbs then some (v.goodSince.getD u.now) else none
      let reached := v.good = false ∧ ∃ a, since = some a ∧ a + 720000 ≤ u.now
      ∃ e : Int, absRat ((ref - (sense : Rat)) / 250 - e) < 1 ∧
        (∀ b0 b1 b2 b3 a1 a2 a3 e1 e2 e3 u1 u2 u3 : Int, b.coeff = [b0, b1, b2, b3, a1, a2, a3] → v.pastE = [e1, e2, e3] →
          v.pastU = [u1, u2, u3] →
          ∃ t, exec (.voltageSample r code t0) s = .next t ∧ Within [.rails, .mod, .pins] u t ∧
            (¬ (reached ∧ r.val = 4 ∧ v.mode = .starting) → Within [.rails] u t) ∧
            only t r { v with
              mode := if reached then .on else v.mode, good := v.good || decide reached
              startSlope := if reached then 0 else v.startSlope, goodSince := since
              vref := ref, vsense := sense, pastE := [e, e1, e2]
              pastU := [max (-(b.uLimit : Int)) (min (b.uLimit : Int)
                ((b0 * e + b1 * e1 + b2 * e2 + b3 * e3 - (a1 * u1 + a2 * u2 + a3 * u3)) / 65536)), u1, u2]
              steadySince := if ref = (v.setpoint : Rat) ∧ (sense - v.setpoint).natAbs ≤ 10000 then
                some (v.steadySince.getD u.now) else none })) ∧
      (high → ∃ t, exec (.overshootTrip r uv t0) s = .next t ∧ Within [.rails, .ob] u t ∧
        only t r { v with
          truncating := true, truncatedInBlock := true, truncateCount := min (v.truncateCount + 1) 0xFFFFFFFF
          phases := v.phases.map (fun y => { y with endsAt := min y.endsAt (8 * u.now) }) }) ∧
      (low → ∃ n : Nat, absRat ((n : Rat) - max 0 ff) < 1 ∧
        ∃ t, exec (.undershootTrip r uv ibusMv frMa limits t0) s = .next t ∧ Within [.rails, .ob] u t ∧
        (let z := t.rail r
        only t r { v with truncating := false, undershotInBlock := true, phases := z.phases } ∧ z.phases.length = v.phases.length ∧
        ∀ i, i < v.phases.length →
          let y := v.phase i
          let most := (limits.find? (fun l => l.1.val == i)).elim (n + b.uLimit) (fun l => min (n + b.uLimit) l.2)
          let start := max (8 * u.now) (if y.onSteps = 0 then 0 else y.endsAt + 2304)
          let stop := min (start + most) (8 * y.began + 72000 - 2304)
          z.phase i = if y.stopped = true ∨ 8 * u.now < y.endsAt ∨ y.extraGiven = true ∨ stop < start + 1152 then y
            else { y with endsAt := stop, onSteps := stop - start, extraGiven := true }))) ∧
    ((uv : Rat) < v.vref + 500 * (b.overshootMv : Rat) →
      ∃ t, exec (.overshootClear r uv t0) s = .next t ∧ Within [.rails] u t ∧ only t r { v with truncating := false }) ∧
    (v.vref + 500 * (b.overshootMv : Rat) ≤ uv → exec (.overshootClear r uv t0) s = .next u) ∧
    (v.live = false ∨ railPhases r ≤ p.val ∨ x.stopped = true ∨ ¬ inTurn →
      exec (.pwmPeriodStart r p iAvg iP ibusMv frMa limitAt t0) s = .next u) ∧
    (v.live = true → p.val < railPhases r → x.stopped = false → inTurn →
      let on : Rat := min (ff + (nth v.pastU 0 0 : Int) + (b.shareGain : Rat) / 256 * (((iAvg - iP : Int) : Rat) / 1000)) (ff + (b.uLimit : Rat))
      ∃ n : Nat, (on ≤ 1151 → n = 0) ∧ (1152 ≤ on → on ≤ 69696 → absRat ((n : Rat) - on) < 1) ∧ (69696 ≤ on → n = 69696) ∧
        (n = 0 ∨ 1152 ≤ n) ∧
        ∃ t, exec (.pwmPeriodStart r p iAvg iP ibusMv frMa limitAt t0) s = .next t ∧ Within [.rails, .ob] u t ∧ t.rails.frOutput = vin ∧
          (let cut := v.truncating = false ∧ ∃ l, limitAt = some l ∧ l < n
          let k := if v.truncating then 0 else limitAt.elim n (fun l => min l n)
          only t r (v.setPhase p { x with began := u.now, endsAt := 8 * u.now + k, onSteps := k, extraGiven := false,
                                          skipped := v.truncating, limited := if cut then x.limited + 1 else 0,
                                          uneven := if 3 * railPhaseLimit r < 10 * (iP - iAvg).natAbs then x.uneven + 1 else 0 }))) ∧
    (∃ t, exec (.rippleBlockCheck r peak t0) s = .next t ∧ Within [.rails, .fc] u t ∧
      let watched := v.live = true ∧ u.now ≤ v.watchUntil
      let n := if 25000 < peak then v.badBlocks + 1 else 0
      (¬ watched → only t r { v with badBlocks := 0 } ∧ t.fc = u.fc) ∧
      (watched → n < 20 → only t r { v with badBlocks := n } ∧ t.fc = u.fc) ∧
      (watched → 20 ≤ n → only t r { v with badBlocks := 0, watchUntil := u.now + 720000000, active := none } ∧
        Raises u t [raisedOf u.now .pwc FC.compReverted (r.val * 256 + 0xFF) none 0 false])) ∧
    (u.frame.frozen = false → u.onRtMultiple 5000 = false → exec (.telemetryBlock q uv ma tempDc pwcDc t0) s = .next u) ∧
    (u.frame.frozen = true ∨ u.onRtMultiple 5000 = true → ∃ t, exec (.telemetryBlock q uv ma tempDc pwcDc t0) s = .next t ∧
      Within [.rails, .gov, .ob, .clocks] u t ∧ t.clocks = { u.clocks with pwcTempDc := pwcDc } ∧
      (∀ j, j ≠ q.val → t.rail j = u.rail j) ∧
      t.gov = { u.gov with learning := t.gov.learning } ∧
      let w := u.rail q
      let z := t.rail q
      let volts := (t.pwcReading (cvTelemetryV q) uv).toNat
      let amps := (t.pwcReading (cvTelemetryI q) ma).toNat
      z.block = { uv := volts, ma := amps, mw := volts * amps / 1000000 } ∧ z.blocks = (z.block :: w.blocks).take 20 ∧ z.mode = w.mode ∧
      (u.rt / 5000 % 20 = 0 → z.mean1ms.mw = (z.blocks.map (·.mw)).foldl (· + ·) 0 / z.blocks.length ∧
        z.means = (z.mean1ms :: w.means).take 1000 ∧ z.mean1s.mw = (z.means.map (·.mw)).foldl (· + ·) 0 / z.means.length) ∧
      (u.rt / 5000 % 20 ≠ 0 → z.mean1ms = w.mean1ms ∧ z.means = w.means ∧ z.mean1s = w.mean1s) ∧
      (w.peakAny = true → w.peakResetDue = false →
        z.peakVMin = min w.peakVMin volts ∧ z.peakIMax = max w.peakIMax amps ∧ z.peakPMax = max w.peakPMax z.block.mw) ∧
      (w.peakResetDue = true → z.peakVMin = volts ∧ z.peakIMax = amps ∧ z.peakPMax = z.block.mw ∧ z.peakResetAt = u.now))

/-- R231, R441, R442, R461 to R465, R605: what the regulators do on faults. A failed phase stops, a class S rail with it and a class L rail at
its fifth; over-current above 125 percent of what its phases still carry, and over-voltage, stop the rail, a class L rail latching its low side; a rail still high takes the fixed-ratio
stage with it, and that stage every rail. What a stopped rail supplied is lost. -/
def Obligations.RegulatorsProtectTheirRails : Prop :=
  ∀ (t0 ma uv : Nat) (r : Fin 16) (p : Fin 40) (s : State),
    let u := s.upTo t0
    let v := u.rail r
    let x := v.phase p
    let above := 1250 * derated r v.failed < ma
    let under := 100 * (uv : Rat) < 85 * v.vref
    let high := railOverUv r < uv
    let whole := r.val * 256 + 0xFF
    let one := r.val * 256 + p.val
    let stopped : State → RailMode → Prop := fun t m =>
      (t.rail r).mode = m ∧ (t.rail r).good = false ∧ (∀ j, j ≠ r.val → t.rail j = u.rail j) ∧
      (∀ y ∈ (t.rail r).phases, y.onSteps = 0 ∧ y.endsAt = 0) ∧
      (v.live = true →
        (r.val < 4 → (∀ i, i < 4 → t.array (4 * r.val + i) = (u.array (4 * r.val + i)).lose) ∧
          (∀ c, c / 64 = r.val → SMap.get t.lanes.clusters c Cluster.reset = Cluster.reset)) ∧
        (r.val = 4 → t.jigs = JigState.reset ∧ t.qf = QueueState.reset ∧ t.fabric.routes = u.fabric.routes ∧
          t.fabric.bindings = u.fabric.bindings ∧ t.host.records = u.host.records ∧ t.host.enabled = u.host.enabled ∧
          (∀ k, k < 16 → (t.link k).pathA.state = .down ∧ (t.link k).pathB.state = .down) ∧
          t.frame = { FrameState.reset with number := u.frame.number, frozen := true }) ∧
        (r.val = 9 → t.mem = u.mem.lose 0x10000000000 0x20000000000) ∧
        (r.val = 10 ∨ r.val = 11 ∨ r.val = 12 → t.mem = u.mem.lose 0x20000000000 0x38000000000) ∧
        (r.val = 14 ∨ r.val = 15 → ∀ k, k < 16 → (t.link k).pathA.state = .down ∧ (t.link k).pathB.state = .down) ∧
        (r.val = 13 → Within [.rails, .fc] u t))
    let allOff : State → Prop := fun t => ∀ k, k < 17 → (t.rail k).live = false ∧
      ((u.rail k).live = true → (t.rail k).mode = .off ∨ k = 16) ∧ ((u.rail k).live = false → t.rail k = u.rail k)
    (v.live = true → p.val < railPhases r → (v.phase p).stopped = false → p.val < v.phases.length →
      ∃ t, exec (.phaseFail r p t0) s = .next t ∧ Raises u t [raisedOf u.now .pwc FC.phaseFail one none 0 false] ∧
        ((t.rail r).phase p).stopped = true ∧ (t.rail r).failed = v.failed + 1 ∧
        (r.val < 4 → v.failed < 4 → Within [.rails, .fc] u t ∧ (t.rail r).live = true) ∧
        (4 ≤ r.val ∨ 4 ≤ v.failed → stopped t .stoppedFault)) ∧
    ((v.live = false ∨ railPhases r ≤ p.val ∨ (v.phase p).stopped = true) → exec (.phaseFail r p t0) s = .next u) ∧
    (∃ t, exec (.phaseLimiting r p t0) s = .next t ∧ Within [.fc] u t ∧
      Raises u t (if v.live = true ∧ 100 ≤ x.limited then [raisedOf u.now .pwc FC.phaseLimiting one none 0 false] else [])) ∧
    (∃ t, exec (.currentImbalance r p t0) s = .next t ∧ Within [.fc] u t ∧
      Raises u t (if v.live = true ∧ 800 ≤ x.uneven then [raisedOf u.now .pwc FC.currentImbalance one none 0 true] else [])) ∧
    (∃ t, exec (.stageHot r p t0) s = .next t ∧ Within [.rails, .fc] u t ∧
      (p.val ∉ v.hotStages → (t.rail r).hotStages = p.val :: v.hotStages ∧
        Raises u t [raisedOf u.now .pwc FC.stageHot one none 1250 true]) ∧
      (p.val ∈ v.hotStages → t = u)) ∧
    (v.live = true → above → ∃ t, exec (.railOvercurrent r ma t0) s = .next t ∧ stopped t .stoppedFault ∧
      Raises u t [raisedOf u.now .pwc FC.railOvercurrent whole none 0 false]) ∧
    (v.live = true → under → ∃ t, exec (.railUndervoltage r uv t0) s = .next t ∧ Within [.rails, .fc] u t ∧
      (∀ j, t.rail j = if j = r.val then { v with good := false, goodSince := none, steadySince := none } else u.rail j) ∧
      Raises u t [raisedOf u.now .pwc FC.railUndervoltage whole none 0 true]) ∧
    (v.live = false ∨ ¬ above → exec (.railOvercurrent r ma t0) s = .next u) ∧
    (v.live = false ∨ ¬ under → exec (.railUndervoltage r uv t0) s = .next u) ∧
    (¬ high → exec (.railOvervoltage r uv t0) s = .next u) ∧
    (high → ∃ t, exec (.railOvervoltage r uv t0) s = .next t ∧ stopped t (if r.val < 4 then .latched else .stoppedFault) ∧
      (r.val < 4 → (t.rail r).lowLatched = true) ∧ Raises u t [raisedOf u.now .pwc FC.railOvervoltage whole none 0 true]) ∧
    (∃ t, exec (.railOvFrStop r uv t0) s = .next t ∧ t.fc = u.fc ∧ (4 ≤ r.val → v.mode = .stoppedFault → high → allOff t) ∧
      ((r.val < 4 ∨ v.mode ≠ .stoppedFault ∨ ¬ high) → t = u)) ∧
    ((u.rail 16).live = true →
      (∃ t, exec (.frOvercurrent t0) s = .next t ∧ allOff t ∧ (t.rail 16).mode = .stoppedFault ∧
        Raises u t [raisedOf u.now .pwc FC.frOvercurrent (16 * 256 + 0xFF) none 0 false]) ∧
      (∃ t, exec (.frUndervoltage t0) s = .next t ∧ Within [.fc] u t ∧
        Raises u t [raisedOf u.now .pwc FC.frUndervoltage (16 * 256 + 0xFF) none 0 true])) ∧
    ((u.rail 16).live = false → exec (.frOvercurrent t0) s = .next u ∧ exec (.frUndervoltage t0) s = .next u)

/-- R458 to R460, R462, R613, R616, R618: the staged start and the stop. Each event waits for its time and for power-good of every earlier
group; a rail that lacks it, or the fixed-ratio stage outside 12 to 13 V, ends the start with `START_TIMEOUT` and the rails it started stop; VCORE0 waits for coolant flow; complete, the
dies run at F5. A stop takes its rails step by step, 1.0 ms apart. In RECOVERY the start ends after group 2 (DEDUCED for its groups). -/
def Obligations.RailsStartAndStopInOrder : Prop :=
  ∀ (t0 frUv : Nat) (shorts : List (Fin 16 × Fin 40)) (repaired : List (Fin 5)) (s : State),
    let u := s.upTo t0
    let k := u.rails.startStep
    let recovery := u.mod.mode = .recovery
    let group : Nat → List Nat := fun i =>
      (if recovery then [[16], [], [9, 12], [4, 10, 13], []] else [[16], [], [9, 12, 15], [4, 10, 13], [5, 6, 7, 8, 11, 14], [0], [1], [2], [3]]).getD i []
    let has : Nat → Prop := fun r => if r = 16 ∧ k = 1 then 12000000 ≤ frUv ∧ frUv ≤ 13000000 else (u.rail r).good = true
    let lanes : List Raised := repaired.map (fun n => raisedOf u.now (Source.ofDie n) FC.d2dLaneRepaired 0xFFFF none 0 false)
    let due : Nat → Nat := fun a => a + [0, 2000, 2100, 3200, 4300, 5400, 6400, 7400, 8400, 9100].getD k 9100 * 7200
    (u.rails.startAt = none → exec (.stagedStartEvent frUv shorts repaired t0) s = .next u) ∧
    (∀ a, u.rails.startAt = some a → u.now < due a ∨ u.mod.mode = .safe ∨ u.mod.mode = .parked →
      exec (.stagedStartEvent frUv shorts repaired t0) s = .next u) ∧
    (∀ a, u.rails.startAt = some a → due a ≤ u.now → u.mod.mode ≠ .safe → u.mod.mode ≠ .parked → k = 5 → u.gov.flowLow = true →
      ∃ t, exec (.stagedStartEvent frUv shorts repaired t0) s = .next t ∧ Within [.mod] u t ∧
        t.mod = { u.mod with phase := if u.mod.mode = .starting then 2 else u.mod.phase }) ∧
    (∀ a, u.rails.startAt = some a → due a ≤ u.now → u.mod.mode ≠ .safe → u.mod.mode ≠ .parked → (k = 5 → u.gov.flowLow = false) →
      (recovery → k ≤ 4) → k ≤ 9 →
      (∀ i r, i < k → r ∈ group i → ¬ has r → (∀ j q, j < i → q ∈ group j → has q) →
        ∃ t, exec (.stagedStartEvent frUv shorts repaired t0) s = .next t ∧ t.rails.startAt = none ∧ t.rails.stopNext = some 0 ∧
          t.rails.stopLast = 4 ∧ t.rails.stopOnly = u.rails.startedRails ∧
          ∃ q, q ∈ group i ∧ ¬ has q ∧ Raises u t (lanes ++ [raisedOf u.now .pwc FC.startTimeout (q * 256 + 0xFF) none 0 false])) ∧
      ((∀ i r, i < k → r ∈ group i → has r) →
        (k = 9 → ∃ t, exec (.stagedStartEvent frUv shorts repaired t0) s = .next t ∧ Raises u t lanes ∧ t.rails.startAt = none ∧ t.gov.diesOn = true ∧
          t.gov.stop = .running ∧ t.gov.running = 5 ∧ t.gov.armed = 5 ∧ t.gov.stopCauses = [] ∧ t.mod.railsDone = true ∧
          t.clocks.dies = List.replicate 4 { DieClock.start with root := rootStart (tick * u.now) (statePeriod 5) } ∧
          t.mod.mode = (if u.mod.mode = .standby then .active else if u.mod.mode = .starting ∧ u.mod.restored = true then .active
            else u.mod.mode)) ∧
        (recovery → k = 4 → ∃ t, exec (.stagedStartEvent frUv shorts repaired t0) s = .next t ∧ t.rails.startAt = none ∧ t.gov = u.gov) ∧
        (k < 9 → ¬ (recovery ∧ k = 4) → ∃ t, exec (.stagedStartEvent frUv shorts repaired t0) s = .next t ∧ t.rails.startStep = k + 1 ∧
          Within [.frame, .fabric, .rails, .fc, .mod, .pins, .clocks] u t ∧
          (k = 5 → t.rails.startAt = some (u.now - 38880000)) ∧ (k = 1 → (t.rail 16).good = true) ∧
          (∀ r, r < 17 → (u.rail r).live = true → (t.rail r).live = true) ∧
          (∀ r, r ∈ group k → (u.rail r).mode = .off → (t.rail r).mode = .starting ∧ (t.rail r).vref = 0 ∧ r ∈ t.rails.startedRails ∧
            (r < 4 → (t.rail r).setpoint = (u.rail r).coreUv r 5)) ∧
          (∀ r, r ∈ group k → (u.rail r).live = false → (u.rail r).mode ≠ .off → u.classQuiet 2 = false → t.rail r = u.rail r) ∧
          (∀ r p, k = 1 → (r, p) ∈ shorts → 4 ≤ r.val → p.val < railPhases r → (u.rail r).live = false →
            (t.rail r).mode = .stoppedFault ∧ raisedOf u.now .pwc FC.hsShort (r.val * 256 + p.val) none 0 false ∈ t.fc.raised) ∧
          (∀ r, r ∉ group k → k ≠ 1 → (u.rail r).live = false → t.rail r = u.rail r) ∧
          (k ≠ 1 → Raises u t lanes)))) ∧
    (u.rails.stopNext = none → exec (.railStopStep t0) s = .next u) ∧
    (∀ j, u.rails.stopNext = some j → u.now < u.rails.stopAt + j * 7200000 → exec (.railStopStep t0) s = .next u) ∧
    (∀ j, u.rails.stopNext = some j → u.rails.stopAt + j * 7200000 ≤ u.now →
      let step : Nat → Nat := fun r =>
        if u.mod.mode = .standby ∧ r = 15 then 1 else [0, 0, 0, 0, 2, 1, 1, 1, 1, 3, 2, 1, 3, 2, 1, 3, 4].getD r 4
      let goes : Nat → Prop := fun r => r ∈ u.rails.stopOnly ∧ step r = j
      ∃ t, exec (.railStopStep t0) s = .next t ∧ t.fc = u.fc ∧ t.mod.mode = u.mod.mode ∧ t.ob.local32 = [] ∧
        t.rails.stopNext = (if j < u.rails.stopLast then some (j + 1) else none) ∧
        (∀ r, goes r → (u.rail r).live = true → (t.rail r).mode = .off ∧ (t.rail r).good = false) ∧
        (∀ r, ¬ (goes r ∧ (u.rail r).live = true) → t.rail r = u.rail r) ∧
        ((∃ r, r < 4 ∧ goes r) → t.gov.diesOn = false ∧ t.gov.stop = .stopped) ∧
        ((∀ r, r < 4 → ¬ goes r) → t.gov = u.gov))

/-! ### The governor -/

/-- R473, R477, R478, R480 to R482, R494, R496, R508, R509: pacing, droop and the alert, each completing. An update, on an RT edge that is a
multiple of 100, raises m by 4 above a limit, and with every quantity at or below 97 percent lowers it by 1, never below the floors in force;
a sense voltage below its threshold stretches the die's root, until it has stood above the recovery threshold for 32 periods, which counts as
DROOP; 6 seconds of F0 set the floor of 8; the alert puts every compute die on the reserve clock at F5 and its time counts; each partition's mean power
is taken over a thousand milliseconds. -/
def Obligations.PacingHoldsTheLimits : Prop :=
  ∀ (t0 ma uv : Nat) (n : Fin 4) (partMw : List (Fin 16 × Nat)) (s : State),
    let u := s.upTo t0
    let w := s.onEdge t0 1
    let g := u.gov
    let d := u.die n
    let clocked := g.stop = .running ∨ ∃ a, g.stop = .stopping a
    let mw : Nat := ma * (u.rail n).setpoint.toNat / 1000000
    let floor := max (max (if g.f0Floor then 8 else 0)
        (if d.throttle = true ∨ d.stackThrottle = true then (if 1 ≤ g.running ∧ g.running ≤ 4 then 16 else 32) else 0))
      (max (match g.stop with | .stopping _ => 64 | _ => 0) (u.dieClock n).emulation)
    let exceeds : Rat → Prop := fun share =>
      share * (nth g.limits.dies n 900 * 1000) < (mw : Rat) ∨ share * (nth g.limits.railA n 1000 * 1000) < (ma : Rat) ∨
      ∃ x ∈ partMw, x.1.val ∈ u.partitionsOnDie n ∧ SMap.get g.limits.parts x.1 0 ≠ 0 ∧
        share * (SMap.get g.limits.parts x.1 0 * 1000) < (x.2 : Rat)
    let updates := clocked ∧ u.frame.kerf.active = false ∧ u.onRtMultiple 100 = true
    let fuse : Int := u.droop n
    let droops := 200 * (uv : Int) < (200 - fuse) * (u.rail n).setpoint
    let recovered : Nat → Prop := fun a =>
      (201 - fuse) * (u.rail n).setpoint < 200 * (uv : Int) ∧ 32 * (u.dieClock n).heldPeriod ≤ tick * (u.now - a)
    (g.dies.length = 5 →
      (updates → ∃ t, exec (.pacingUpdate n ma partMw t0) s = .next t ∧ Within [.gov, .clocks, .ob] u t ∧
        (t.die n).pacing = max floor
          (if exceeds 1 then min 64 (d.pacing + 4) else if exceeds (97 / 100) then d.pacing else d.pacing - 1) ∧
        (t.die n).powerMw = mw ∧ (t.die n).currentMa = ma ∧ (∀ k, k ≠ n.val → t.die k = u.die k) ∧ t.gov.limits = g.limits ∧
        (nth g.limits.dies n 900 * 1000 < (mw : Rat) → SMap.get g.pacedAtUs (nth g.limits.dieReasons n 1) 0 ≠ u.now / 7200 + 1 →
          SMap.get t.gov.throttle (nth g.limits.dieReasons n 1) 0 = SMap.get g.throttle (nth g.limits.dieReasons n 1) 0 + 7200)) ∧
      (clocked → d.stretching = none → droops → ∃ t, exec (.droopCrossing n uv t0) s = .next t ∧
        Within [.gov, .clocks, .ob, .free] u t ∧
        (t.die n).stretching = some u.now ∧ (t.die n).pacing = d.pacing ∧ ∀ k, k ≠ n.val → t.die k = u.die k) ∧
      (∀ a, d.stretching = some a → recovered a → ∃ t, exec (.stretchEnd n uv t0) s = .next t ∧ Within [.gov, .clocks, .ob] u t ∧
        (t.die n).stretching = none ∧ (∀ k, k ≠ n.val → t.die k = u.die k) ∧
        SMap.get t.gov.throttle 4 0 = SMap.get g.throttle 4 0 + (u.now - a) / 2)) ∧
    (¬ updates → exec (.pacingUpdate n ma partMw t0) s = .next u) ∧
    (¬ (clocked ∧ d.stretching = none ∧ droops) → exec (.droopCrossing n uv t0) s = .next u) ∧
    ((∀ a, d.stretching = some a → ¬ recovered a) → exec (.stretchEnd n uv t0) s = .next u) ∧
    (let used := g.running = 0 ∧ clocked ∧ u.frame.kerf.active = false ∧ 43200000000 ≤ u.f0Time u.now ∧ g.f0Floor = false
     (used → ∃ t, exec (.f0TimeExhausted t0) s = .next t ∧ Within [.gov] u t ∧ t.gov.f0Floor = true ∧ 6 ∈ t.gov.pacedReasons ∧
        t.gov = { g with f0Floor := true, pacedReasons := t.gov.pacedReasons }) ∧
     (¬ used → exec (.f0TimeExhausted t0) s = .next u)) ∧
    (g.vrAlert = true → exec (.vrAlertNAssert t0) s = .next w) ∧
    (g.vrAlert = false → ∃ t, exec (.vrAlertNAssert t0) s = .next t ∧ Within [.frame, .shim, .gov, .clocks, .ob] w t ∧
      t.gov.vrAlert = true ∧ t.gov.vrAlertSince = w.now ∧ t.gov.vrCap = 5 ∧ (clocked → t.gov.running = 5) ∧
      (¬ clocked → t.gov.running = g.running) ∧ t.frame = { w.frame with kerf := { w.frame.kerf with switchDue := false } } ∧
      t.shim = { w.shim with noFeedForward := true } ∧ ∀ x ∈ t.clocks.dies, x.reserve = true) ∧
    (g.vrAlert = true → ∃ t, exec (.vrAlertNRelease t0) s = .next t ∧ Within [.gov] w t ∧ t.gov.vrAlert = false ∧ t.gov.vrCap = g.vrCap ∧
      SMap.get t.gov.throttle 11 0 = SMap.get g.throttle 11 0 + (w.now - g.vrAlertSince)) ∧
    (g.vrAlert = false → exec (.vrAlertNRelease t0) s = .next w) ∧
    (∃ t, exec (.quotaMeanUpdate t0) s = .next t ∧ Within [.gov] u t ∧
      t.gov = { g with partMeans := t.gov.partMeans, energyAt := t.gov.energyAt } ∧
      ∀ p, p < 16 → SMap.get t.gov.energyAt p 0 = SMap.get g.energy p 0 ∧
        SMap.get t.gov.partMeans p [] =
          ((SMap.get g.energy p 0 - SMap.get g.energyAt p 0) :: SMap.get g.partMeans p []).take 1000)

/-- R239, R497 to R503, R645: heat. A valid diode sample raises every node by a quarter of its difference from node 63; an invalid one makes
the diode invalid, T_d the hottest node plus 5 K and its thresholds 5 K lower; the model moves heat by its conductances; T_d is held
against the thresholds with their hystereses, and shutdown stops the dies, at once where 125 degrees lie less than 1 ms ahead. That the
first sample sets the model's temperatures is the model's choice (log entry 31). -/
def Obligations.HeatIsModelledAndLimited : Prop :=
  ∀ (t0 : Nat) (n : Fin 5) (v : Int) (k : Fin 16) (hub : List Nat) (s : State),
    let u := s.upTo t0
    let g := u.gov
    let d := u.die n
    let diff : Rat := (v : Rat) - d.nodes.getD 63 0
    let valid := -400 ≤ v ∧ v ≤ 1500 ∧ absRat diff ≤ 150
    let lower : DieGov → Rat := fun x => if x.diodeValid then 0 else 50
    let judged : DieGov → DieGov → Prop := fun x y =>
      y.temp = (if y.diodeValid then max (y.diodeGood : Rat) y.hot else y.hot + 50) ∧
      (y.warn = true ↔ 950 - lower y ≤ y.temp ∨ (x.warn = true ∧ 900 - lower y ≤ y.temp)) ∧
      (y.throttle = true ↔ 1050 - lower y ≤ y.temp ∨ (x.throttle = true ∧ 1000 - lower y ≤ y.temp)) ∧
      (1180 - lower y ≤ y.temp → y.shutdown = true) ∧
      (x.shutdown = true → 1030 - lower y ≤ y.temp → y.shutdown = true) ∧
      (x.shutdown = false → y.temp < 1180 - lower y → y.shutdown = false) ∧
      (y.fast = true ↔ 870 ≤ y.temp ∨ (850 ≤ y.temp ∧ x.fast = true))
    let fault : State → Nat → Nat → Prop := fun t code unit =>
      ∃ x ∈ t.fc.raised.drop u.fc.raised.length, x.src = .pwc ∧ x.msg.code = code ∧ x.msg.unit = unit
    (g.dies.length = 5 → d.sampled = true →
      ∃ t, exec (.diodeSample n v t0) s = .next t ∧
        (let y := t.die n
        judged d y ∧ y.diode = v ∧
        (valid → y.nodes = d.nodes.map (fun x => x + diff / 4) ∧ y.diodeGood = v ∧ y.validRun = d.validRun + 1 ∧
          (y.diodeValid = true ↔ d.diodeValid = true ∨ 1000 ≤ d.validRun + 1) ∧ ¬ fault t FC.diodeFault n) ∧
        (¬ valid → y.nodes = d.nodes ∧ y.diodeGood = d.diodeGood ∧ y.validRun = 0 ∧ y.diodeValid = false ∧
          (fault t FC.diodeFault n ↔ d.diodeValid = true)) ∧
        (fault t FC.dieWarn n ↔ y.warn = true ∧ d.warn = false) ∧ (fault t FC.dieThrottle n ↔ y.throttle = true ∧ d.throttle = false) ∧
        (fault t FC.dieShutdown n ↔ y.shutdown = true ∧ d.shutdown = false) ∧
        ((y.shutdown = false ∨ d.shutdown = true) → t.gov.stop = g.stop ∧ Within [.gov, .fc, .ob] u t) ∧
        (y.shutdown = true → d.shutdown = false → g.stop = .running →
          let rise := y.hot - y.hottest.getD 20 (y.hottest.getLast?.getD y.hot)
          (rise ≤ 0 ∨ rise ≤ 1250 - y.temp → t.gov.stop = .stopping u.now ∧ ¬ fault t FC.stopImmediate n) ∧
          (0 < rise → 1250 - y.temp < rise → t.gov.stop = .stopped ∧ fault t FC.stopImmediate n ∧
            ∀ r, r < 4 → (t.rail r).live = false)))) ∧
    (g.dies.length = 5 → d.sampled = false → -400 ≤ v → v ≤ 1500 → ∃ t, exec (.diodeSample n v t0) s = .next t ∧
      (t.die n).nodes = List.replicate 64 (v : Rat) ∧ (t.die n).sampled = true) ∧
    (g.dies.length = 5 → ∃ t, exec (.thermalModelUpdate hub t0) s = .next t ∧
      (∀ m, m < 5 → judged (u.die m) (t.die m) ∧ (t.die m).heat = [] ∧
        (t.die m).hottest = ((t.die m).hot :: (u.die m).hottest).take 21 ∧
        ∀ i, i < 64 →
          let old : Nat → Rat := fun j => (u.die m).nodes.getD j 0
          let into : Rat := if m = 4 then ((hub.getD i 0 : Nat) : Rat) else (u.die m).heat.getD i 0
          let coolant : Int := if 14 ∈ u.fc.inputOutOfRange then 450 else g.coolant
          (t.die m).nodes.getD i 0 = old i +
            (into / 100000 +
              ((List.range 64).foldl (fun a j => a + Config.conductance m i j * (old j - old i)) 0 +
                Config.coolantConductance m i * ((coolant : Rat) - old i)) / 20000) / Config.heatCapacity m i) ∧
      (g.stop = .running → (∃ m, m < 5 ∧ (t.die m).shutdown = true ∧ (u.die m).shutdown = false) → t.gov.stop ≠ .running) ∧
      ((∀ m, m < 5 → (t.die m).shutdown = true → (u.die m).shutdown = true) → Within [.gov, .fc, .ob] u t)) ∧
    (g.dies.length = 5 → g.stackTemps.length = 16 → ∃ t, exec (.stackTempRead k v t0) s = .next t ∧ Within [.gov, .fc] u t ∧
      (∀ j, t.gov.stackTemps.getD j 0 = if j = k.val then v else g.stackTemps.getD j 0) ∧
      ((t.die (k.val / 4)).stackThrottle = true ↔ 1000 ≤ v ∨ ((u.die (k.val / 4)).stackThrottle = true ∧
        ∃ i, i < 4 ∧ 950 ≤ t.gov.stackTemps.getD (4 * (k.val / 4) + i) 0)) ∧
      (∀ j, j ≠ k.val / 4 → t.die j = u.die j) ∧
      (fault t FC.stackWarm (k.val / 4) ↔ 1000 ≤ v ∧ k.val ∉ g.stackWarm)) ∧
    (∃ t, exec (.coolantRead v t0) s = .next t ∧ Within [.gov, .fc] u t ∧
      let l := (v :: g.coolantSamples).take 4
      let m := l.foldl (fun (a b : Int) => a + b) 0 / (l.length : Int)
      t.gov.coolant = m ∧ t.gov.coolantSamples = l ∧ (14 ∈ t.fc.inputOutOfRange ↔ m < -100 ∨ 800 < m) ∧
      (t.gov.coolantHotSince = if 450 < m ∧ m ≤ 800 then some (g.coolantHotSince.getD u.now) else none) ∧
      (fault t FC.coolantHot 0xFFFF ↔ g.coolantRaised = false ∧ 450 < m ∧ m ≤ 800 ∧ g.coolantHotSince.getD u.now + 7200000000 ≤ u.now))

/-- R152, R460, R504 to R507, R526, R624: stops of the compute dies and their restart. The clocks stop once every issued transfer has completed
or 500 microseconds have passed, the accesses to bench due by then made, and VCORE 1 microsecond later; flow loss begins the orderly stop with its fault; the dies restart from the
VCORE0 event at a kerf once the reaction is acknowledged and the cause gone. That flow loss with no die running is no fault is the model's
reading (log entry 32). -/
def Obligations.CoreDiesStopAndRestart : Prop :=
  ∀ (t0 : Nat) (s : State),
    let u := s.upTo t0
    let v := u.benchNow
    let w := s.onEdge t0 1
    let g := u.gov
    let coreOff : State → Prop := fun t => (∀ r, r < 4 → (t.rail r).live = false) ∧ (∀ r, 4 ≤ r → t.rail r = u.rail r) ∧
      (∀ r a, r < 4 → a < 4 → (u.rail r).live = true → t.array (4 * r + a) = (u.array (4 * r + a)).lose) ∧
      (∀ r, r < 4 → (u.rail r).live = true → ∀ m, m / 32 = r → t.mover m = Mover.reset)
    let waits : State → Prop := fun t =>
      t.rails.startStep = if u.rails.startAt.isSome = true ∧ 5 < u.rails.startStep then 5 else u.rails.startStep
    let awake := g.stop = .running ∨ (∃ a, g.stop = .stopping a) ∨ ∃ r, r < 4 ∧ (u.rail r).live = true
    (∀ a, g.stop = .stopping a → ((∀ kv ∈ u.qf.movers, kv.2.active = []) ∨ a + 3600000 ≤ u.now) →
      ∃ t, exec (.orderlyStopClocks t0) s = .next t ∧ t.gov.stop = .clocksOff u.now ∧ t.rails = u.rails ∧
        (∀ k, (t.mover k).active = []) ∧ t.qf = { v.qf with movers := t.qf.movers } ∧ t.mem = { v.mem with bench := [] } ∧
        (∀ x ∈ t.clocks.dies, x.root = []) ∧ t.ob.local32 = []) ∧
    ((∀ a, g.stop = .stopping a → (∃ kv ∈ u.qf.movers, kv.2.active ≠ []) ∧ u.now < a + 3600000) →
      exec (.orderlyStopClocks t0) s = .next u) ∧
    (∀ a, g.stop = .clocksOff a → a + 7200 ≤ u.now → ∃ t, exec (.orderlyStopRails t0) s = .next t ∧ coreOff t ∧ waits t ∧
      t.gov.stop = .stopped ∧ t.gov.diesOn = false ∧ t.fc = u.fc) ∧
    ((∀ a, g.stop = .clocksOff a → u.now < a + 7200) → exec (.orderlyStopRails t0) s = .next u) ∧
    (awake → ∃ t, exec (.flowLoss t0) s = .next t ∧ t.gov.flowLow = true ∧ t.pins.flowOk = false ∧ t.gov.flowLossSince = some (g.flowLossSince.getD w.now) ∧
      raisedOf w.now .pwc FC.flowLoss 0xFFFF none 0 true ∈ t.fc.raised ∧ stopFlow ∈ t.gov.stopCauses ∧
      (g.stop = .running → t.gov.stop = .stopping w.now ∧ t.rails = u.rails) ∧
      (g.stop = .stopped → coreOff t ∧ waits t ∧ t.gov.stop = .stopped)) ∧
    (¬ awake → exec (.flowLoss t0) s =
      .next { w with gov := { g with flowLow := true }, pins := { w.pins with flowOk := false } }) ∧
    exec (.flowRestored t0) s = .next { w with
      gov := { g with flowLow := false, stopCauses := g.stopCauses.filter (· != stopFlow) }, pins := { w.pins with flowOk := true } } ∧
    (let may := u.mod.mode = .active ∧ g.stop = .stopped ∧ u.rails.startAt = none ∧ u.rails.stopNext = none ∧
        u.frame.kerf.active = true ∧ u.levelInForce < 4 ∧ (∀ r ∈ u.fc.raised, baseLevel r.msg.code < 4) ∧ g.flowLow = false ∧
        (stopThermal ∈ g.stopCauses → ∀ d ∈ g.dies, d.temp < 1030 ∧ d.shutdown = false)
     (may → ∃ t, exec (.dieRestart t0) s = .next t ∧ Within [.rails] u t ∧ t.rails.startStep = 5 ∧
        (5400 * 7200 ≤ u.now → ∃ a, t.rails.startAt = some a ∧ a + 5400 * 7200 = u.now) ∧ ∀ r, t.rail r = u.rail r) ∧
     (¬ may → exec (.dieRestart t0) s = .next u))

/-- R19, R511, R512: energy. With every block the 17 counters, 16 partitions and unattributed, grow by exactly the measured energy of the module,
and none falls; a die's slice counts the estimates of its arrays and clusters; queues that a jig has declared take the energies estimated for them. -/
def Obligations.EnergyIsAttributedWhole : Prop :=
  ∀ (est : List (Nat × Nat)) (die : List Nat) (moduleUj t0 : Nat) (queues : List (Fin 4416 × Nat)) (s : State),
    let u := s.upTo t0
    let total : State → Nat := fun x => ((List.range 17).map (fun p => SMap.get x.gov.energy p 0)).foldl (· + ·) 0
    ∃ t, exec (.energyAttribution est die moduleUj queues t0) s = .next t ∧ Within [.gov] u t ∧
      total t = total u + moduleUj ∧ (∀ p, SMap.get u.gov.energy p 0 ≤ SMap.get t.gov.energy p 0) ∧
      (∀ k, SMap.get t.gov.queueEnergy k 0 = SMap.get u.gov.queueEnergy k 0 +
        (if (u.queue k).declared then ((queues.filter (fun x => x.1.val == k)).map (·.2)).foldl (· + ·) 0 else 0)) ∧
      (∀ n, { t.die n with heat := [], unitNj := [] } = { u.die n with heat := [], unitNj := [] }) ∧
      (u.gov.dies.length = 5 → ∀ r, r / 4096 < 2 → sectionOfUnit r < 4 →
        SMap.get (t.die (sectionOfUnit r)).unitNj r 0 = SMap.get (u.die (sectionOfUnit r)).unitNj r 0 +
          ((est.filter (fun x => x.1 == r)).map (·.2)).foldl (· + ·) 0) ∧
      t.gov = { u.gov with energy := t.gov.energy, queueEnergy := t.gov.queueEnergy, dies := t.gov.dies }

/-! ### The fault collector -/

/-- R523, R527 to R530, R532, R533, R535 to R538, R540, R541: a fault that arrives. It arrives with the pc that completes its message, which takes
64 pc on a die's line, in the order of R527 within a pc. Its level is that in force for its code, one higher where an
unacknowledged record of its slot escalates it; the record enters the log and, from MINOR on, its class slot; MAJOR queues the halts of its
scope and aborts a rest; CRITICAL puts the module in SAFE and stops the dies, at once for its three causes; FATAL stops every rail and
storage. A bad message is recorded as `FAULT_MESSAGE_BAD`. -/
def Obligations.FaultsAreRecordedAndReactedTo : Prop :=
  ∀ (src : Source) (m : FaultMsg) (bad : Bool) (t0 : Nat) (s : State),
    let w := s.onEdge t0 2
    let sent := w.raisedFault src m
    let u := w.arrive src m
    let f := u.fc
    let x := u.classSlot (m.code / 256)
    let base := u.levelOf m.code
    let escalates := (base = 3 ∨ base = 4) ∧ x.ackPending = false ∧
      ∃ r ∈ x.recs, 3 ≤ r.level ∧ r.code ≠ m.code ∧ ¬ (r.src = src ∧ u.coldPc < r.timePc + 240)
    (s.mod.powered = false → exec (.faultArrival src m bad t0) s = .next w) ∧
    (w.now ≤ u.now ∧ sent.raisedAt / 30 ≤ u.now / 30 ∧ (src ≠ .pwc → sent.raisedAt / 30 + 64 ≤ u.now / 30) ∧
      f.lastArrival.2 = arrivalRank src m.code ∧
      (f.lastArrival.1 = w.fc.lastArrival.1 → w.fc.lastArrival.2 < arrivalRank src m.code) ∧
      f.raised = dropFirst sent w.fc.raised ∧ Within [.fc, .time] w u) ∧
    (u.mod.powered = true → u.shim.busDead = false → bad = true ∨ baseLevel m.code = 0 → 3 ≤ u.levelOf FC.faultMessageBad →
      ∃ t r, exec (.faultArrival src m bad t0) s = .next t ∧ r ∈ t.fc.log ∧ r ∈ (t.classSlot 12).recs ∧ r.code = FC.faultMessageBad ∧
        r.unit = 0xFFFF ∧ r.scope = 0xFF ∧ r.seq = f.nextSeq) ∧
    (∀ lv, (escalates → lv = base + 1) → (¬ escalates → lv = base) → u.mod.powered = true → bad = false → baseLevel m.code ≠ 0 → lv ≤ 5 →
      (lv ≤ 3 ∨ u.shim.busDead = false) →
      ∃ t r, exec (.faultArrival src m bad t0) s = .next t ∧
        r.code = m.code ∧ r.baseLevel = baseLevel m.code ∧ r.level = lv ∧ r.scope = m.scope ∧ (r.escalated = true ↔ escalates) ∧
        r.injected = false ∧ r.cond = m.cond ∧ r.unit = m.unit ∧ r.seq = f.nextSeq ∧ r.detail = m.detail ∧
        r.frame = u.frame.number % 2 ^ 48 ∧ r.timePc = u.coldPc ∧ r.src = src ∧
        t.fc.nextSeq = (f.nextSeq + 1) % 2 ^ 32 ∧
        (3 ≤ lv → t.fc.log = (if 256 ≤ f.log.length then f.log.tail else f.log) ++ [r]) ∧
        (2 ≤ lv → t.classSlot (m.code / 256) = { recs := x.recs ++ [r], count := min (x.count + 1) 65535, ackPending := false } ∧
          (t.fc.out.low = true ∨ t.fc.out.waiting = true) ∧ t.fc.eventsDue = f.eventsDue + 1 ∧
          ((∀ kv ∈ f.slots, kv.2.recs = []) → t.fc.firstSource = some (r.seq, r.code)) ∧
          ((∃ kv ∈ f.slots, kv.2.recs ≠ []) → t.fc.firstSource = f.firstSource)) ∧
        (lv < 2 → t.fc.slots = f.slots ∧ t.fc.out = u.settleOut.fc.out) ∧
        (∀ c, c ≠ m.code / 256 → t.classSlot c = u.classSlot c) ∧
        (lv < 3 → Within [.fc, .ob] u t ∧ t.fc.haltsDue = f.haltsDue ∧ t.fc.raised = f.raised) ∧
        (3 ≤ lv → t.fc.haltsDue = f.haltsDue ++ [(m.scope, u.now + 7200)] ∧ t.fc.majorSince.isSome = true ∧
          (∀ y, u.cells.rest = some y → y.complete = false → t.cells.rest = none)) ∧
        (lv = 3 → t.mod = u.mod ∧ t.gov = u.gov ∧ t.rails = u.rails) ∧
        (4 ≤ lv →
          (u.mod.mode = .active ∨ u.mod.mode = .starting ∨ u.mod.mode = .standby →
            t.mod.mode = .safe ∧ t.mod.prior = some u.mod.mode ∧ t.mod.scheduled = none) ∧
          (lv = 4 → m.code ≠ FC.stopImmediate → m.code ≠ FC.frOvercurrent → ¬ (m.code = FC.railOvervoltage ∧ m.unit / 256 < 4) →
            u.gov.stop = .running → t.gov.stop = .stopping u.now) ∧
          (lv = 5 ∨ m.code = FC.stopImmediate ∨ m.code = FC.frOvercurrent ∨ (m.code = FC.railOvervoltage ∧ m.unit / 256 < 4) →
            t.gov.stop = .stopped ∧ ∀ n, n < 4 → (t.rail n).live = false) ∧
          (m.code / 256 = 4 → t.shim.storage.running = false ∧ t.shim.stackSwitchOpen = true)) ∧
        (lv = 5 →
          let noAuxiliary := m.code = FC.emergencyStop ∨ m.code = FC.inputOvercurrent ∨ m.code = FC.busOvervoltage ∨
            (m.code = FC.ibusOvervoltage ∧ f.ibusOvSeen = true)
          t.mod.fatal = true ∧ t.shim.storage.running = false ∧ t.shim.stackSwitchOpen = true ∧ t.rails.stopNext = some 0 ∧
            t.rails.stopLast = 4 ∧ t.rails.stopOnly = List.range 17 ∧
          (u.shim.busPresent = true → u.shim.isolationOpen = false → ¬ noAuxiliary → t.fc.auxMode = true ∧ t.shim.input.running = true) ∧
          (u.shim.busPresent = false ∨ u.shim.isolationOpen = true ∨ noAuxiliary →
            t.shim.input.running = false ∧ t.shim.isolationOpen = true)))

/-- R524, R528, R530, R531, R541 to R544, R624: what follows. The hub halts the jobs in scope 1 microsecond after the fault arrived; the PF is told of records of MINOR or higher; the
line rises once 10 microseconds have passed with no MAJOR in force, within 10.5, and an assertion that waits follows 10 microseconds later; a condition that has ended leaves its records, empties slots
whose acknowledgement waited for it, and may end SAFE. -/
def Obligations.ReactionsRunAndEnd : Prop :=
  ∀ (code unit which t0 : Nat) (s : State),
    let u := s.upTo t0
    let f := u.fc
    (∃ t, exec (.reactionHaltDowels t0) s = .next t ∧ t.fc.haltsDue = f.haltsDue.filter (fun h => decide (u.now < h.2)) ∧ t.fc.log = f.log ∧ t.fc.slots = f.slots ∧
      ((∀ h ∈ f.haltsDue, u.now < h.2) → t = u) ∧
      ∀ p j, p < 16 → (∃ h ∈ f.haltsDue, h.2 ≤ u.now ∧ (h.1 = 0xFF ∨ h.1 = p)) → u.partJig p = some j →
        (j.phase = .running → ∃ k, t.partJig p = some k ∧ k.halting = true ∧ k.jig = j.jig) ∧
        (j.phase ≠ .running → j.phase ≠ .loading → t.partJig p = none)) ∧
    (f.eventsDue = 0 → exec (.faultEvent t0) s = .next u) ∧
    (f.eventsDue ≠ 0 → ∃ t, exec (.faultEvent t0) s = .next t ∧ Within [.host, .fc, .ob] u t ∧ t.fc = { f with eventsDue := 0 } ∧
      ((u.rail 4).good = false → t.host = u.host) ∧
      ((u.rail 4).good = true → t.host.pfIntStatus = u.host.pfIntStatus ||| 4 ∧
        (bitAt u.host.pfIntStatus 2 = false → bitAt u.host.pfIntEnable 2 = true → u.msixOpen 0 2 = true →
          t.host.msix = (u.emitMsix 0 2).host.msix) ∧
        (bitAt u.host.pfIntStatus 2 = true ∨ bitAt u.host.pfIntEnable 2 = false ∨ u.msixOpen 0 2 = false → t.host.msix = u.host.msix))) ∧
    (let o := f.out
    let set : Bool → Nat → State → Prop := fun low since t =>
      t.fc = { f with out := { low := low, since := since, waiting := false } } ∧ Within [.fc, .ob] u t
    (o.low = true → u.now < o.since + 72000 ∨ 3 ≤ u.levelInForce → exec (.faultOutTimer t0) s = .next u) ∧
    (o.low = false → o.waiting = false ∨ u.now < o.since + 72000 → exec (.faultOutTimer t0) s = .next u) ∧
    (o.low = true → o.since + 72000 ≤ u.now → u.levelInForce < 3 →
      ∃ t, exec (.faultOutTimer t0) s = .next t ∧
        set false (min u.now (o.since + 75600)) t) ∧
    (o.low = false → o.waiting = true → o.since + 72000 ≤ u.now → ∃ t, exec (.faultOutTimer t0) s = .next t ∧
      (3 ≤ u.levelInForce ∨ u.now < o.since + 144000 → set true (o.since + 72000) t) ∧
      (u.levelInForce < 3 → o.since + 144000 ≤ u.now → set false (min u.now (o.since + 147600)) t))) ∧
    (code ≠ FC.converterHot → code ≠ FC.inputOutOfRange →
      (u.conditionStands code unit which = true → exec (.faultConditionClear code unit which t0) s = .next u) ∧
      (u.conditionStands code unit which = false → SMap.wf f.slots emptySlot = true →
        let off : FaultRec → FaultRec := fun r => if r.code = code ∧ r.unit = unit then { r with cond := false } else r
        ∃ t, exec (.faultConditionClear code unit which t0) s = .next t ∧ t.fc.log = f.log.map off ∧
          (∀ c, let y := { u.classSlot c with recs := (u.classSlot c).recs.map off }
            t.classSlot c = if y.ackPending = true ∧ ∀ r ∈ y.recs, r.cond = false then emptySlot else y) ∧
          ((∀ c, (t.classSlot c).recs = []) → t.fc.firstSource = none) ∧
          (t.levelInForce < 4 → u.mod.fatal = false → u.mod.mode = .safe → u.mod.prior.isSome = true → u.mod.prior ≠ some .safe →
            t.mod.mode ≠ .safe ∧ t.mod.prior = none) ∧
          (4 ≤ t.levelInForce → t.mod.mode = u.mod.mode ∨ t.mod.mode = .active))) ∧
    (∃ t, exec (.faultConditionClear FC.converterHot unit 0 t0) s = .next t ∧ t.shim.input.hot = false ∧
      t.shim.storage = u.shim.storage) ∧
    (∃ t, exec (.faultConditionClear FC.converterHot unit 1 t0) s = .next t ∧ t.shim.storage.hot = false ∧ t.shim.input = u.shim.input) ∧
    (which ≠ 14 → ∃ t, exec (.faultConditionClear FC.inputOutOfRange unit which t0) s = .next t ∧
      t.fc.inputOutOfRange = f.inputOutOfRange.filter (· != which) ∧
      ∀ r ∈ t.fc.log, r.code = FC.inputOutOfRange → r.unit = unit → r.detail = which → r.cond = false)

/-! ### Reset -/
end

