-- ==== Sys2Proof/Laws/Tables.lean ====
section
/-! SUPPORT. Sparse tables: what a read gives after a write, and that every operation keeps the canonical form. -/

namespace Sys2Proof.Machine

theorem SMap.get_filter_other {α : Type} (m : SMap α) (k j : Nat) (d : α) (h : j ≠ k) :
    SMap.get (m.filter (fun kv => !(kv.1 == k))) j d = SMap.get m j d := by
  induction m with
  | nil => rfl
  | cons x r ih =>
    obtain ⟨a, b⟩ := x
    by_cases ha : a = k
    · subst ha; simp [SMap.get, h, ih]
    · simp [ha, SMap.get, ih]

theorem SMap.get_filter_same {α : Type} (m : SMap α) (k : Nat) (d : α) :
    SMap.get (m.filter (fun kv => !(kv.1 == k))) k d = d := by
  induction m with
  | nil => rfl
  | cons x r ih =>
    obtain ⟨a, b⟩ := x
    by_cases ha : a = k
    · subst ha; simp [ih]
    · have : k ≠ a := fun hk => ha hk.symm
      simp [ha, SMap.get, this, ih]

theorem SMap.get_insert_other {α : Type} (m : SMap α) (k j : Nat) (v d : α) (h : j ≠ k) :
    SMap.get (SMap.insert m k v) j d = SMap.get m j d := by
  induction m with
  | nil => simp [SMap.insert, SMap.get, h]
  | cons x r ih =>
    obtain ⟨a, b⟩ := x
    unfold SMap.insert
    split <;> simp [SMap.get, h, ih]

/-- A read of the key just written gives the value written. -/
@[simp] theorem SMap.get_set_same {α : Type} [DecidableEq α] (m : SMap α) (k : Nat) (v d : α) :
    SMap.get (SMap.set m k v d) k d = v := by
  have insert_same : ∀ m : SMap α, v ≠ d → (∀ x ∈ m, x.1 ≠ k) → SMap.get (SMap.insert m k v) k d = v := by
    intro m _
    induction m with
    | nil => intro _; simp [SMap.insert, SMap.get]
    | cons x r ih =>
      obtain ⟨a, b⟩ := x
      intro hx
      have ha : k ≠ a := fun hk => hx (a, b) (List.mem_cons_self ..) hk.symm
      unfold SMap.insert
      split
      · simp [SMap.get]
      · simp only [SMap.get, ha, if_false]
        exact ih (fun y hy => hx y (List.mem_cons_of_mem _ hy))
  unfold SMap.set
  by_cases hv : v = d
  · simp only [hv, if_true]; exact SMap.get_filter_same m k d
  · simp only [hv, if_false]
    refine insert_same _ hv ?_
    intro x hx
    simpa using (List.mem_filter.mp hx).2

/-- A write leaves every other key as it was. -/
@[simp] theorem SMap.get_set_other {α : Type} [DecidableEq α] (m : SMap α) (k j : Nat) (v d : α) (h : j ≠ k) :
    SMap.get (SMap.set m k v d) j d = SMap.get m j d := by
  unfold SMap.set
  split
  · exact SMap.get_filter_other m k j d h
  · exact (SMap.get_insert_other _ k j v d h).trans (SMap.get_filter_other m k j d h)

/-- A read after a write, of any key. -/
theorem SMap.get_set {α : Type} [DecidableEq α] (m : SMap α) (k j : Nat) (v d : α) :
    SMap.get (SMap.set m k v d) j d = if j = k then v else SMap.get m j d := by
  by_cases h : j = k
  · subst h; simp
  · simp [h]

/-- A read after a change, of any key. -/
theorem SMap.get_modify {α : Type} [DecidableEq α] (m : SMap α) (k j : Nat) (d : α) (f : α → α) :
    SMap.get (SMap.modify m k d f) j d = if j = k then f (SMap.get m k d) else SMap.get m j d := SMap.get_set m k j _ d

/-- Dropping keys keeps the canonical form above any lower bound. -/
theorem SMap.drop_wfFrom {α : Type} [DecidableEq α] (m : SMap α) (p : Nat → Bool) (d : α) (lo : Option Nat)
    (h : SMap.wfFrom lo m d = true) : SMap.wfFrom lo (SMap.drop m p) d = true := by
  have weaken : ∀ (r : SMap α) (l j : Nat), l ≤ j → SMap.wfFrom (some j) r d = true → SMap.wfFrom (some l) r d = true := by
    intro r l j hj hr
    cases r with
    | nil => rfl
    | cons y t => simp only [SMap.wfFrom, Bool.and_eq_true, decide_eq_true_eq] at hr ⊢; exact ⟨⟨by omega, hr.1.2⟩, hr.2⟩
  induction m generalizing lo with
  | nil => rfl
  | cons x r ih =>
    obtain ⟨a, b⟩ := x
    simp only [SMap.wfFrom, Bool.and_eq_true, decide_eq_true_eq] at h
    have h1 := ih (some a) h.2
    unfold SMap.drop at *
    simp only [List.filter_cons]
    split
    · simp only [SMap.wfFrom, Bool.and_eq_true, decide_eq_true_eq]
      exact ⟨h.1, h1⟩
    · cases lo with
      | none =>
        cases hr : List.filter (fun kv => !p kv.1) r with
        | nil => rfl
        | cons y t =>
          rw [hr] at h1
          simp only [SMap.wfFrom, Bool.and_eq_true, decide_eq_true_eq] at h1 ⊢
          exact ⟨⟨trivial, h1.1.2⟩, h1.2⟩
      | some l =>
        have hl : l < a := by simpa using h.1.1
        exact weaken _ l a (by omega) h1

/-- Dropping keys keeps the canonical form. -/
theorem SMap.drop_wf {α : Type} [DecidableEq α] (m : SMap α) (p : Nat → Bool) (d : α) (h : SMap.wf m d = true) :
    SMap.wf (SMap.drop m p) d = true := SMap.drop_wfFrom m p d none h

/-- An entry above a bound, at a key that is not listed, keeps the canonical form. -/
theorem SMap.insert_wfFrom {α : Type} [DecidableEq α] (m : SMap α) (k : Nat) (v d : α) (hv : v ≠ d) (lo : Option Nat)
    (h : SMap.wfFrom lo m d = true) (hk : ∀ l, lo = some l → l < k) (hn : ∀ x ∈ m, x.1 ≠ k) :
    SMap.wfFrom lo (SMap.insert m k v) d = true := by
  induction m generalizing lo with
  | nil => cases lo with
    | none => simp [SMap.insert, SMap.wfFrom, hv]
    | some l => simp [SMap.insert, SMap.wfFrom, hv, hk l rfl]
  | cons x r ih =>
    obtain ⟨a, b⟩ := x
    have ha : a ≠ k := hn (a, b) (List.mem_cons_self ..)
    simp only [SMap.wfFrom, Bool.and_eq_true, decide_eq_true_eq] at h
    unfold SMap.insert
    split
    · rename_i h1
      cases lo with
      | none => simp [SMap.wfFrom, hv, h1, h.1.2, h.2]
      | some l => simp [SMap.wfFrom, hv, h1, h.1.2, h.2, hk l rfl]
    · have := ih (some a) h.2 (fun l hl => by cases hl; omega) (fun y hy => hn y (List.mem_cons_of_mem _ hy))
      simp [SMap.wfFrom, h.1.1, h.1.2, this]

/-- A write keeps the canonical form. -/
theorem SMap.set_wf {α : Type} [DecidableEq α] (m : SMap α) (k : Nat) (v d : α) (h : SMap.wf m d = true) :
    SMap.wf (SMap.set m k v d) d = true := by
  have h1 : SMap.wf (m.filter (fun kv => !(kv.1 == k))) d = true := SMap.drop_wf m (fun x => x == k) d h
  unfold SMap.set
  by_cases hv : v = d
  · simpa [hv] using h1
  · simp only [hv, if_false]
    refine SMap.insert_wfFrom _ k v d hv none h1 (fun _ hl => by cases hl) ?_
    intro x hx
    simpa using (List.mem_filter.mp hx).2

/-- A change of one value keeps the canonical form. -/
theorem SMap.modify_wf {α : Type} [DecidableEq α] (m : SMap α) (k : Nat) (d : α) (f : α → α) (h : SMap.wf m d = true) :
    SMap.wf (SMap.modify m k d f) d = true := SMap.set_wf m k _ d h

end Sys2Proof.Machine
end

