-- ==== Sys2Proof/Laws/Memory.lean ====
section
/-! SUPPORT. Memory: a read after a write, and that every memory operation keeps the canonical form. -/

namespace Sys2Proof.Machine

/-- What a memory operation keeps: the three tables of memory stay in canonical form. -/
def MemState.Keeps (m n : MemState) : Prop :=
  (Memory.wf m = true → Memory.wf n = true) ∧ (SMap.wf m.poison false = true → SMap.wf n.poison false = true) ∧
  (SMap.wf m.latent false = true → SMap.wf n.latent false = true)

theorem MemState.Keeps.refl (m : MemState) : m.Keeps m := ⟨id, id, id⟩
theorem MemState.Keeps.trans {a b c : MemState} (h : a.Keeps b) (h' : b.Keeps c) : a.Keeps c :=
  ⟨h'.1 ∘ h.1, h'.2.1 ∘ h.2.1, h'.2.2 ∘ h.2.2⟩

/-- A change of anything but the three tables keeps them. -/
theorem MemState.Keeps.same {m n : MemState} (hc : n.cells = m.cells) (hp : n.poison = m.poison) (hl : n.latent = m.latent) :
    m.Keeps n := by
  refine ⟨fun w => ?_, fun w => ?_, fun w => ?_⟩
  · unfold Memory.wf at w ⊢; rw [hc]; exact w
  · rw [hp]; exact w
  · rw [hl]; exact w

/-- Marks of poison, known or not yet found, set or cleared. -/
theorem MemState.Keeps.poison (m : MemState) (a : Nat) (v : Bool) : m.Keeps { m with poison := SMap.set m.poison a v false } :=
  ⟨id, fun w => SMap.set_wf _ _ _ _ w, id⟩
theorem MemState.Keeps.latent (m : MemState) (a : Nat) (v : Bool) : m.Keeps { m with latent := SMap.set m.latent a v false } :=
  ⟨id, id, fun w => SMap.set_wf _ _ _ _ w⟩
theorem MemState.Keeps.marks (m : MemState) (a b : Nat) (v w : Bool) :
    m.Keeps { m with poison := SMap.set m.poison a v false, latent := SMap.set m.latent b w false } :=
  ⟨id, fun h => SMap.set_wf _ _ _ _ h, fun h => SMap.set_wf _ _ _ _ h⟩

theorem MemState.writeByte_keeps (m : MemState) (a : Nat) (b : Byte) : m.Keeps (m.writeByte a b) :=
  ⟨fun w => SMap.set_wf _ _ _ _ w, id, id⟩

theorem MemState.writeBytes_keeps (m : MemState) (a : Nat) (d : Data) : m.Keeps (m.writeBytes a d) := by
  induction d generalizing m a with
  | nil => exact .refl m
  | cons x r ih =>
    cases x with
    | none => exact ih m (a + 1)
    | some b => exact (m.writeByte_keeps a b).trans (ih _ (a + 1))

theorem MemState.settleUnit_keeps (m : MemState) (a : Nat) (d : Data) (u : Nat × Nat) : m.Keeps (m.settleUnit a d u) := by
  unfold MemState.settleUnit
  extract_lets
  split
  · exact .poison m _ _
  · split
    · exact .marks m _ _ _ _
    · split
      · exact .latent m _ _
      · exact .refl m

theorem MemState.store_keeps (m : MemState) (a : Nat) (d : Data) : m.Keeps (m.store a d) := by
  unfold MemState.store
  refine MemState.Keeps.trans ?_ (MemState.writeBytes_keeps _ a d)
  generalize touchedUnits d.length a (a + d.length) = l
  induction l generalizing m with
  | nil => exact .refl m
  | cons u r ih => exact (m.settleUnit_keeps a d u).trans (ih _)

theorem MemState.lose_keeps (m : MemState) (lo hi : Nat) : m.Keeps (m.lose lo hi) :=
  ⟨fun w => SMap.drop_wf m.cells (fun k => decide (lo ≤ k) && decide (k < hi)) 0 w,
   fun w => SMap.drop_wf m.poison (fun k => decide (lo ≤ k) && decide (k < hi)) false w,
   fun w => SMap.drop_wf m.latent (fun k => decide (lo ≤ k) && decide (k < hi)) false w⟩

/-- A range that is kept where it is not empty names its loss for the addresses in it. -/
theorem find_piece (lo hi e x : Nat) :
    (((if lo < hi then [{ lo := lo, hi := hi, epoch := e }] else []) : List LostRange).find?
      (fun r => decide (r.lo ≤ x) && decide (x < r.hi))).map (·.epoch) = if lo ≤ x ∧ x < hi then some e else none := by
  by_cases h : lo < hi
  · by_cases h2 : lo ≤ x ∧ x < hi
    · simp [h, h2]
    · have : (decide (lo ≤ x) && decide (x < hi)) = false := by simp; omega
      simp [h, h2, this]
  · have : ¬(lo ≤ x ∧ x < hi) := by omega
    simp [h, this]

/-- A byte cut out of the lost ranges is in none of them; every other byte is where it was. -/
theorem cutRanges_find (l : List LostRange) (a x : Nat) :
    ((cutRanges l a (a + 1)).find? (fun r => decide (r.lo ≤ x) && decide (x < r.hi))).map (·.epoch) =
      if x = a then none else (l.find? (fun r => decide (r.lo ≤ x) && decide (x < r.hi))).map (·.epoch) := by
  induction l with
  | nil => simp [cutRanges]
  | cons r rs ih =>
    have h1 := find_piece r.lo (min r.hi a) r.epoch x
    have h2 := find_piece (max r.lo (a + 1)) r.hi r.epoch x
    have h3 := find_piece r.lo r.hi r.epoch x
    have h4 : ∀ (p q : Option LostRange), (p.or q).map (·.epoch) = (p.map (·.epoch)).or (q.map (·.epoch)) := by
      intro p q; cases p <;> rfl
    have h5 : (List.find? (fun r => decide (r.lo ≤ x) && decide (x < r.hi)) (r :: rs)).map (·.epoch) =
        if r.lo ≤ x ∧ x < r.hi then some r.epoch
        else (rs.find? (fun r => decide (r.lo ≤ x) && decide (x < r.hi))).map (·.epoch) := by
      simp only [List.find?_cons]
      by_cases h : r.lo ≤ x ∧ x < r.hi
      · simp [h]
      · have : (decide (r.lo ≤ x) && decide (x < r.hi)) = false := by simp; omega
        simp [h, this]
    simp only [cutRanges, List.find?_append, h4, h1, h2, ih, h5]
    by_cases hx : x = a
    · have e1 : ¬(r.lo ≤ x ∧ x < min r.hi a) := by omega
      have e2 : ¬(max r.lo (a + 1) ≤ x ∧ x < r.hi) := by omega
      simp only [if_neg e1, if_neg e2, if_pos hx]; rfl
    · by_cases hin : r.lo ≤ x ∧ x < r.hi
      · by_cases hlt : x < a
        · have e1 : r.lo ≤ x ∧ x < min r.hi a := by omega
          simp only [if_pos e1, if_neg hx, if_pos hin]; rfl
        · have e1 : ¬(r.lo ≤ x ∧ x < min r.hi a) := by omega
          have e2 : max r.lo (a + 1) ≤ x ∧ x < r.hi := by omega
          simp only [if_neg e1, if_pos e2, if_neg hx, if_pos hin]; rfl
      · have e1 : ¬(r.lo ≤ x ∧ x < min r.hi a) := by omega
        have e2 : ¬(max r.lo (a + 1) ≤ x ∧ x < r.hi) := by omega
        simp only [if_neg e1, if_neg e2, if_neg hx, if_neg hin]; rfl

/-- A read of the byte just stored gives the byte stored. -/
@[simp] theorem MemState.byteAt_writeByte_same (m : MemState) (a : Nat) (b : Byte) (h : Memory.wf m = true) :
    (m.writeByte a b).byteAt a = b := by
  have e : (m.writeByte a b).lostAt a = none := by
    have := cutRanges_find m.lost a a
    simpa [MemState.lostAt, MemState.writeByte] using this
  simp only [MemState.byteAt, e]
  exact SMap.get_set_same m.cells a b 0

/-- A stored byte leaves every other byte as it was. -/
@[simp] theorem MemState.byteAt_writeByte_other (m : MemState) (a x : Nat) (b : Byte) (h : x ≠ a) :
    (m.writeByte a b).byteAt x = m.byteAt x := by
  have e : (m.writeByte a b).lostAt x = m.lostAt x := by
    have := cutRanges_find m.lost a x
    simpa [MemState.lostAt, MemState.writeByte, h] using this
  simp only [MemState.byteAt, e]
  split
  · rfl
  · exact SMap.get_set_other m.cells a x b 0 h

/-- Bytes outside a stored run are as they were. -/
theorem MemState.byteAt_writeBytes_outside (m : MemState) (a x : Nat) (d : Data) (h : x < a ∨ a + d.length ≤ x) :
    (m.writeBytes a d).byteAt x = m.byteAt x := by
  induction d generalizing m a with
  | nil => rfl
  | cons y r ih =>
    simp only [List.length_cons] at h
    cases y with
    | none => exact ih m (a + 1) (by omega)
    | some b =>
      have := ih (m.writeByte a b) (a + 1) (by omega)
      rw [MemState.writeBytes, this]
      exact MemState.byteAt_writeByte_other m a x b (by omega)

/-- Settling poison changes no stored byte. -/
@[simp] theorem MemState.byteAt_settleUnit (m : MemState) (a x : Nat) (d : Data) (u : Nat × Nat) :
    (m.settleUnit a d u).byteAt x = m.byteAt x := by
  unfold MemState.settleUnit
  extract_lets
  split
  · rfl
  · split
    · rfl
    · split <;> rfl

/-- A store leaves every byte outside its range as it was. -/
theorem MemState.byteAt_store_outside (m : MemState) (a x : Nat) (d : Data) (h : x < a ∨ a + d.length ≤ x) :
    (m.store a d).byteAt x = m.byteAt x := by
  unfold MemState.store
  rw [MemState.byteAt_writeBytes_outside _ a x d h]
  generalize touchedUnits d.length a (a + d.length) = l
  induction l generalizing m with
  | nil => rfl
  | cons u r ih => rw [List.foldl_cons, ih]; exact MemState.byteAt_settleUnit m a x d u

end Sys2Proof.Machine
end

