-- ==== Sys2Proof/Laws/Moves.lean ====
section
/-! SUPPORT. What a change of state keeps and where it stays: the relation that the lemmas of the other files of this folder state of
every operation, and how it passes through the forms a definition takes. -/

namespace Sys2Proof.Machine

/-- From `s` to `t` every command's invariants hold on, and nothing outside the parts `l` changes. -/
def Moves (l : List Part) (s t : State) : Prop := Keeps s t ∧ Within l s t

/-- The same of an outcome, of a mailbox command's answer and of an optional state: of the state it holds, if it holds one. -/
def MovesO (l : List Part) (s : State) (o : Outcome) : Prop := ∀ t, o = .next t → Moves l s t
def MovesR (l : List Part) (s : State) (r : Reply) : Prop := ∀ n t p, r = .done n t p → Moves l s t
def MovesQ (l : List Part) (s : State) (o : Option State) : Prop := ∀ t, o = some t → Moves l s t

theorem Keeps.refl (s : State) : Keeps s s := ⟨rfl, Nat.le_refl _, Nat.le_refl _, id⟩
theorem Keeps.trans {a b c : State} (h : Keeps a b) (h' : Keeps b c) : Keeps a c :=
  ⟨h'.1.trans h.1, Nat.le_trans h.2.1 h'.2.1, Nat.le_trans h.2.2.1 h'.2.2.1, fun i => h'.2.2.2 (h.2.2.2 i)⟩

theorem Part.same_refl (p : Part) (s : State) : p.same s s := by cases p <;> rfl
theorem Part.same_trans {p : Part} {a b c : State} (h : p.same a b) (h' : p.same b c) : p.same a c := by
  cases p <;> exact Eq.trans h' h

theorem Within.trans {l : List Part} {a b c : State} (h : Within l a b) (h' : Within l b c) : Within l a c :=
  fun p hp => Part.same_trans (h p hp) (h' p hp)

/-- More parts may change. -/
theorem Within.weaken {l l' : List Part} {a b : State} (h : Within l' a b) (sub : l'.all l.contains = true) : Within l a b := by
  intro p hp
  refine h p ?_
  rcases hc : l'.contains p with _ | _
  · rfl
  · have := List.all_eq_true.mp sub p (List.contains_iff_mem.mp hc)
    rw [hp] at this
    cases this

theorem Moves.refl (l : List Part) (s : State) : Moves l s s := ⟨Keeps.refl s, fun p _ => Part.same_refl p s⟩
theorem Moves.trans {l : List Part} {a b c : State} (h : Moves l a b) (h' : Moves l b c) : Moves l a c :=
  ⟨h.1.trans h'.1, h.2.trans h'.2⟩
theorem Moves.weaken {l l' : List Part} {a b : State} (h : Moves l' a b) (sub : l'.all l.contains = true) : Moves l a b :=
  ⟨h.1, h.2.weaken sub⟩

/-- A further operation, which stays in parts of its own. -/
theorem Moves.step {l l' : List Part} {s x t : State} (h : Moves l' x t) (sub : l'.all l.contains = true) (h0 : Moves l s x) :
    Moves l s t := h0.trans (h.weaken sub)

theorem Moves.ite {l : List Part} {s a b : State} {c : Prop} [Decidable c] (ha : Moves l s a) (hb : Moves l s b) :
    Moves l s (if c then a else b) := by split <;> assumption

/-- A list of operations in order. -/
theorem Moves.foldl {α : Type} {l : List Part} {s x : State} {f : State → α → State} {as : List α}
    (hf : ∀ y a, Moves l y (f y a)) (h0 : Moves l s x) : Moves l s (as.foldl f x) := by
  induction as generalizing x with
  | nil => exact h0
  | cons a r ih => exact ih (h0.trans (hf x a))

/-- A state with some parts put in place of those of `x`. -/
theorem Moves.record {l : List Part} {s x : State}
    {frame : FrameState}
    {jigs : JigState}
    {arrays : ArrayState}
    {lanes : LaneState}
    {mem : MemState}
    {qf : QueueState}
    {fabric : FabricState}
    {host : HostState}
    {shim : ShimState}
    {cells : CellState}
    {rails : RailState}
    {gov : GovState}
    {fc : FaultState}
    {mp : MgmtState}
    {mod : ModuleState}
    {pins : Pins}
    {clocks : ClockState}
    {ob : CounterState}
    (h0 : Moves l s x)
    (h_frame : frame = x.frame ∨ (l.contains .frame = true ∧ (x.frame.number < 2 ^ 48 → frame.number < 2 ^ 48)))
    (h_mem : mem = x.mem ∨ (l.contains .mem = true ∧ x.mem.Keeps mem))
    (h_jigs : jigs = x.jigs ∨ l.contains .jigs = true)
    (h_arrays : arrays = x.arrays ∨ l.contains .arrays = true)
    (h_lanes : lanes = x.lanes ∨ l.contains .lanes = true)
    (h_qf : qf = x.qf ∨ l.contains .qf = true)
    (h_fabric : fabric = x.fabric ∨ l.contains .fabric = true)
    (h_host : host = x.host ∨ l.contains .host = true)
    (h_shim : shim = x.shim ∨ l.contains .shim = true)
    (h_cells : cells = x.cells ∨ l.contains .cells = true)
    (h_rails : rails = x.rails ∨ l.contains .rails = true)
    (h_gov : gov = x.gov ∨ l.contains .gov = true)
    (h_fc : fc = x.fc ∨ l.contains .fc = true)
    (h_mp : mp = x.mp ∨ l.contains .mp = true)
    (h_mod : mod = x.mod ∨ l.contains .mod = true)
    (h_pins : pins = x.pins ∨ l.contains .pins = true)
    (h_clocks : clocks = x.clocks ∨ l.contains .clocks = true)
    (h_ob : ob = x.ob ∨ l.contains .ob = true) :
    Moves l s
      { now := x.now, frame := frame, jigs := jigs, arrays := arrays, lanes := lanes, mem := mem, qf := qf, fabric := fabric, host := host, shim := shim, cells := cells,
        rails := rails, gov := gov, fc := fc, mp := mp, mod := mod, pins := pins, clocks := clocks, ob := ob, free := x.free, pending := x.pending } := by
  refine h0.trans ⟨⟨rfl, Nat.le_refl _, Nat.le_refl _, fun i => ?_⟩, ?_⟩
  · have hn : x.frame.number < 2 ^ 48 → frame.number < 2 ^ 48 := by rcases h_frame with h | h; exact h ▸ id; exact h.2
    have hm : x.mem.Keeps mem := by rcases h_mem with h | h; exact h ▸ .refl _; exact h.2
    exact ⟨hm.1 i.1, hm.2.1 i.2.1, hm.2.2 i.2.2.1, hn i.2.2.2⟩
  · intro p hp
    cases p
    case time => rfl
    case free => rfl
    case frame => rcases h_frame with h | h; exact h; rw [h.1] at hp; cases hp
    case mem => rcases h_mem with h | h; exact h; rw [h.1] at hp; cases hp
    case jigs => rcases h_jigs with h | h; exact h; rw [h] at hp; cases hp
    case arrays => rcases h_arrays with h | h; exact h; rw [h] at hp; cases hp
    case lanes => rcases h_lanes with h | h; exact h; rw [h] at hp; cases hp
    case qf => rcases h_qf with h | h; exact h; rw [h] at hp; cases hp
    case fabric => rcases h_fabric with h | h; exact h; rw [h] at hp; cases hp
    case host => rcases h_host with h | h; exact h; rw [h] at hp; cases hp
    case shim => rcases h_shim with h | h; exact h; rw [h] at hp; cases hp
    case cells => rcases h_cells with h | h; exact h; rw [h] at hp; cases hp
    case rails => rcases h_rails with h | h; exact h; rw [h] at hp; cases hp
    case gov => rcases h_gov with h | h; exact h; rw [h] at hp; cases hp
    case fc => rcases h_fc with h | h; exact h; rw [h] at hp; cases hp
    case mp => rcases h_mp with h | h; exact h; rw [h] at hp; cases hp
    case mod => rcases h_mod with h | h; exact h; rw [h] at hp; cases hp
    case pins => rcases h_pins with h | h; exact h; rw [h] at hp; cases hp
    case clocks => rcases h_clocks with h | h; exact h; rw [h] at hp; cases hp
    case ob => rcases h_ob with h | h; exact h; rw [h] at hp; cases hp

theorem MovesO.next {l : List Part} {s t : State} (h : Moves l s t) : MovesO l s (.next t) := by
  intro u hu; cases hu; exact h
theorem MovesO.fault {l : List Part} {s : State} (f : Fault) : MovesO l s (.fault f) := by intro u hu; cases hu
theorem MovesO.refused {l : List Part} {s : State} (r : Refusal) : MovesO l s (.refused r) := by intro u hu; cases hu
theorem MovesO.ite {l : List Part} {s : State} {a b : Outcome} {c : Prop} [Decidable c] (ha : MovesO l s a) (hb : MovesO l s b) :
    MovesO l s (if c then a else b) := by split <;> assumption
/-- An operation before the last. -/
theorem MovesO.step {l l' : List Part} {s x : State} {o : Outcome} (h : MovesO l' x o) (sub : l'.all l.contains = true)
    (h0 : Moves l s x) : MovesO l s o := fun t ht => h0.trans ((h t ht).weaken sub)

theorem MovesR.refused {l : List Part} {s : State} (n : Nat) : MovesR l s (.refused n) := by intro a u b hu; cases hu
theorem MovesR.done {l : List Part} {s t : State} {n : Nat} {p : Bytes} (h : Moves l s t) : MovesR l s (.done n t p) := by
  intro a u b hu; cases hu; exact h
theorem MovesR.ite {l : List Part} {s : State} {a b : Reply} {c : Prop} [Decidable c] (ha : MovesR l s a) (hb : MovesR l s b) :
    MovesR l s (if c then a else b) := by split <;> assumption
theorem MovesR.step {l l' : List Part} {s x : State} {r : Reply} (h : MovesR l' x r) (sub : l'.all l.contains = true)
    (h0 : Moves l s x) : MovesR l s r := fun a t b ht => h0.trans ((h a t b ht).weaken sub)

theorem MovesR.weaken {l l' : List Part} {s : State} {r : Reply} (h : MovesR l' s r) (sub : l'.all l.contains = true) : MovesR l s r :=
  fun a t b ht => (h a t b ht).weaken sub

/-- A list of parts in a list in a list. -/
theorem sub_of {a b c : List Part} (h : a.all b.contains = true) (h' : b.all c.contains = true) : a.all c.contains = true := by
  rw [List.all_eq_true] at *
  intro x hx
  exact h' x (List.contains_iff_mem.mp (h x hx))

theorem MovesQ.none {l : List Part} {s : State} : MovesQ l s none := by intro u hu; cases hu
theorem MovesQ.some {l : List Part} {s t : State} (h : Moves l s t) : MovesQ l s (some t) := by intro u hu; cases hu; exact h
theorem MovesQ.ite {l : List Part} {s : State} {a b : Option State} {c : Prop} [Decidable c] (ha : MovesQ l s a)
    (hb : MovesQ l s b) : MovesQ l s (if c then a else b) := by split <;> assumption

/-- A further operation that may be refused. -/
theorem MovesQ.step {l l' : List Part} {s x : State} {o : Option State} (h : MovesQ l' x o) (sub : l'.all l.contains = true)
    (h0 : Moves l s x) : MovesQ l s o := fun t ht => h0.trans ((h t ht).weaken sub)
/-- The state an option holds, or another. -/
theorem Moves.getD {l : List Part} {s d : State} {o : Option State} (h : MovesQ l s o) (hd : Moves l s d) :
    Moves l s (o.getD d) := by
  cases o with
  | none => exact hd
  | some t => exact h t rfl

/-! ### The operations that move time, memory and the count of free values -/

theorem State.upTo_moves (s : State) (t : Nat) : Moves [.time] s (s.upTo t) := by
  refine ⟨⟨rfl, Nat.le_max_left _ _, Nat.le_refl _, id⟩, ?_⟩
  intro p hp
  cases p <;> first | rfl | cases hp

theorem State.onEdge_moves (s : State) (t k : Nat) : Moves [.time, .fc] s (s.onEdge t k) := by
  refine ⟨⟨?_, ?_, ?_, ?_⟩, ?_⟩
  · unfold State.onEdge; dsimp only; split <;> rfl
  · unfold State.onEdge
    dsimp only [State.upTo]
    split
    · rename_i h
      have := Nat.lt_div_mul_add (a := max s.now t) (b := rcPc) (by decide)
      have h2 : rcPc * (max s.now t / rcPc + 1) = max s.now t / rcPc * rcPc + rcPc := by rw [Nat.mul_add, Nat.mul_one, Nat.mul_comm]
      dsimp only
      omega
    · exact Nat.le_max_left _ _
  · unfold State.onEdge; dsimp only; split <;> exact Nat.le_refl _
  · unfold State.onEdge; dsimp only; split <;> exact id
  · intro p hp
    cases p <;> first | (unfold State.onEdge; dsimp only [Part.same]; split <;> rfl) | cases hp

theorem State.draw_moves (s : State) (r : Nat) : Moves [.free] s (s.draw r).2 := by
  refine ⟨⟨rfl, Nat.le_refl _, Nat.le_succ _, id⟩, ?_⟩
  intro p hp
  cases p <;> first | rfl | cases hp

end Sys2Proof.Machine
end

