-- ==== Sys2Proof/Laws/MovesOps.lean ====
section
/-! SUPPORT. What the operations of Machine/Ops.lean keep, and the parts of the state they stay in. -/

namespace Sys2Proof.Machine

theorem State.raiseMsg_moves (s src m) : Moves [.fc] s (State.raiseMsg s src m) := by
  unfold State.raiseMsg
  repeat' first
    | extract_lets
    | with_reducible exact Moves.refl _ _
    | with_reducible refine Moves.ite ?_ ?_
    | with_reducible refine Moves.foldl (fun _ _ => ?_) ?_
    | fail_if_no_progress with_reducible refine Moves.record ?_ (.inl rfl) (.inl rfl) (.inl rfl) (.inl rfl) (.inl rfl) (.inl rfl) (.inl rfl) (.inl rfl) (.inl rfl) (.inl rfl) (.inl rfl) (.inl rfl) (.inr (by decide)) (.inl rfl) (.inl rfl) (.inl rfl) (.inl rfl) (.inl rfl)
    | decide
    | split
    | dsimp +zetaDelta only

theorem State.raise_moves (s src code unit detail) : Moves [.fc] s (State.raise s src code unit detail) := by
  unfold State.raise
  repeat' first
    | extract_lets
    | with_reducible exact Moves.refl _ _
    | with_reducible refine Moves.ite ?_ ?_
    | with_reducible apply Moves.step (State.raiseMsg_moves _ _ _)
    | with_reducible refine Moves.foldl (fun _ _ => ?_) ?_
    | decide
    | split
    | dsimp +zetaDelta only

theorem State.findPoison_moves (s base) : Moves [.mem, .fc] s (State.findPoison s base) := by
  unfold State.findPoison
  repeat' first
    | extract_lets
    | with_reducible exact Moves.refl _ _
    | with_reducible refine Moves.ite ?_ ?_
    | with_reducible apply Moves.step (State.raise_moves _ _ _ _ _)
    | with_reducible refine Moves.foldl (fun _ _ => ?_) ?_
    | fail_if_no_progress with_reducible refine Moves.record ?_ (.inl rfl) (.inr ⟨by decide, by with_reducible first | exact .same rfl rfl rfl | exact MemState.lose_keeps _ _ _ | exact MemState.store_keeps _ _ _ | exact .marks _ _ _ _ _ | exact .poison _ _ _⟩) (.inl rfl) (.inl rfl) (.inl rfl) (.inl rfl) (.inl rfl) (.inl rfl) (.inl rfl) (.inl rfl) (.inl rfl) (.inl rfl) (.inl rfl) (.inl rfl) (.inl rfl) (.inl rfl) (.inl rfl) (.inl rfl)
    | decide
    | split
    | dsimp +zetaDelta only

theorem State.bump_moves (s i n) : Moves [.ob] s (State.bump s i n) := by
  unfold State.bump
  repeat' first
    | extract_lets
    | with_reducible exact Moves.refl _ _
    | with_reducible refine Moves.ite ?_ ?_
    | with_reducible refine Moves.foldl (fun _ _ => ?_) ?_
    | fail_if_no_progress with_reducible refine Moves.record ?_ (.inl rfl) (.inl rfl) (.inl rfl) (.inl rfl) (.inl rfl) (.inl rfl) (.inl rfl) (.inl rfl) (.inl rfl) (.inl rfl) (.inl rfl) (.inl rfl) (.inl rfl) (.inl rfl) (.inl rfl) (.inl rfl) (.inl rfl) (.inr (by decide))
    | decide
    | split
    | dsimp +zetaDelta only

theorem State.memStatus_moves (s p bits) : Moves [.mem] s (State.memStatus s p bits) := by
  unfold State.memStatus
  repeat' first
    | extract_lets
    | with_reducible exact Moves.refl _ _
    | with_reducible refine Moves.ite ?_ ?_
    | with_reducible refine Moves.foldl (fun _ _ => ?_) ?_
    | fail_if_no_progress with_reducible refine Moves.record ?_ (.inl rfl) (.inr ⟨by decide, by with_reducible first | exact .same rfl rfl rfl | exact MemState.lose_keeps _ _ _ | exact MemState.store_keeps _ _ _ | exact .marks _ _ _ _ _ | exact .poison _ _ _⟩) (.inl rfl) (.inl rfl) (.inl rfl) (.inl rfl) (.inl rfl) (.inl rfl) (.inl rfl) (.inl rfl) (.inl rfl) (.inl rfl) (.inl rfl) (.inl rfl) (.inl rfl) (.inl rfl) (.inl rfl) (.inl rfl)
    | decide
    | split
    | dsimp +zetaDelta only

theorem State.readMem_moves (s p a n) : Moves [.mem, .fc, .ob] s (State.readMem s p a n).2 := by
  unfold State.readMem
  repeat' first
    | extract_lets
    | with_reducible exact Moves.refl _ _
    | with_reducible refine Moves.ite ?_ ?_
    | with_reducible apply Moves.step (State.findPoison_moves _ _)
    | with_reducible apply Moves.step (State.bump_moves _ _ _)
    | with_reducible apply Moves.step (State.memStatus_moves _ _ _)
    | with_reducible refine Moves.foldl (fun _ _ => ?_) ?_
    | decide
    | split
    | dsimp +zetaDelta only

theorem State.raiseFor_moves (s src code unit p) : Moves [.fc] s (State.raiseFor s src code unit p) := by
  unfold State.raiseFor
  repeat' first
    | extract_lets
    | with_reducible exact Moves.refl _ _
    | with_reducible refine Moves.ite ?_ ?_
    | with_reducible apply Moves.step (State.raiseMsg_moves _ _ _)
    | with_reducible refine Moves.foldl (fun _ _ => ?_) ?_
    | decide
    | split
    | dsimp +zetaDelta only

theorem State.writeMem_moves (s a d) : Moves [.mem] s (State.writeMem s a d) := by
  unfold State.writeMem
  repeat' first
    | extract_lets
    | with_reducible exact Moves.refl _ _
    | with_reducible refine Moves.ite ?_ ?_
    | with_reducible refine Moves.foldl (fun _ _ => ?_) ?_
    | fail_if_no_progress with_reducible refine Moves.record ?_ (.inl rfl) (.inr ⟨by decide, by with_reducible first | exact .same rfl rfl rfl | exact MemState.lose_keeps _ _ _ | exact MemState.store_keeps _ _ _ | exact .marks _ _ _ _ _ | exact .poison _ _ _⟩) (.inl rfl) (.inl rfl) (.inl rfl) (.inl rfl) (.inl rfl) (.inl rfl) (.inl rfl) (.inl rfl) (.inl rfl) (.inl rfl) (.inl rfl) (.inl rfl) (.inl rfl) (.inl rfl) (.inl rfl) (.inl rfl)
    | decide
    | split
    | dsimp +zetaDelta only

theorem State.orByte_moves (s a flags) : Moves [.mem] s (State.orByte s a flags) := by
  unfold State.orByte
  repeat' first
    | extract_lets
    | with_reducible exact Moves.refl _ _
    | with_reducible refine Moves.ite ?_ ?_
    | with_reducible apply Moves.step (State.writeMem_moves _ _ _)
    | with_reducible refine Moves.foldl (fun _ _ => ?_) ?_
    | decide
    | split
    | dsimp +zetaDelta only

theorem State.orFrameFlags_moves (s p flags) : Moves [.arrays] s (State.orFrameFlags s p flags) := by
  unfold State.orFrameFlags
  repeat' first
    | extract_lets
    | with_reducible exact Moves.refl _ _
    | with_reducible refine Moves.ite ?_ ?_
    | with_reducible refine Moves.foldl (fun _ _ => ?_) ?_
    | fail_if_no_progress with_reducible refine Moves.record ?_ (.inl rfl) (.inl rfl) (.inl rfl) (.inr (by decide)) (.inl rfl) (.inl rfl) (.inl rfl) (.inl rfl) (.inl rfl) (.inl rfl) (.inl rfl) (.inl rfl) (.inl rfl) (.inl rfl) (.inl rfl) (.inl rfl) (.inl rfl) (.inl rfl)
    | decide
    | split
    | dsimp +zetaDelta only

theorem State.memErrors_moves (s p es) : Moves [.mem, .fc, .ob] s (State.memErrors s p es) := by
  induction es generalizing s with
  | nil => exact Moves.refl _ _
  | cons r rest ih =>
    unfold State.memErrors
    repeat' (first
      | extract_lets
      | with_reducible exact Moves.refl _ _
      | with_reducible refine Moves.trans ?_ (ih _)
      | with_reducible refine Moves.ite ?_ ?_
      | with_reducible apply Moves.step (State.memStatus_moves _ _ _)
      | with_reducible apply Moves.step (State.bump_moves _ _ _)
      | with_reducible apply Moves.step (State.raise_moves _ _ _ _ _)
      | with_reducible apply Moves.step (State.findPoison_moves _ _)
      | with_reducible refine Moves.foldl (fun _ _ => ?_) ?_
      | fail_if_no_progress with_reducible refine Moves.record ?_ (.inl rfl) (.inr ⟨by decide, by with_reducible first | exact .same rfl rfl rfl | exact MemState.lose_keeps _ _ _ | exact MemState.store_keeps _ _ _ | exact .marks _ _ _ _ _ | exact .poison _ _ _⟩) (.inl rfl) (.inl rfl) (.inl rfl) (.inl rfl) (.inl rfl) (.inl rfl) (.inl rfl) (.inl rfl) (.inl rfl) (.inl rfl) (.inl rfl) (.inl rfl) (.inl rfl) (.inl rfl) (.inl rfl) (.inl rfl)
      | decide
      | split
      | dsimp +zetaDelta only)

theorem State.setQueue_moves (s q v) : Moves [.qf] s (State.setQueue s q v) := by
  unfold State.setQueue
  repeat' first
    | extract_lets
    | with_reducible exact Moves.refl _ _
    | with_reducible refine Moves.ite ?_ ?_
    | with_reducible refine Moves.foldl (fun _ _ => ?_) ?_
    | fail_if_no_progress with_reducible refine Moves.record ?_ (.inl rfl) (.inl rfl) (.inl rfl) (.inl rfl) (.inl rfl) (.inr (by decide)) (.inl rfl) (.inl rfl) (.inl rfl) (.inl rfl) (.inl rfl) (.inl rfl) (.inl rfl) (.inl rfl) (.inl rfl) (.inl rfl) (.inl rfl) (.inl rfl)
    | decide
    | split
    | dsimp +zetaDelta only

theorem State.setPartJig_moves (s p j) : Moves [.jigs] s (State.setPartJig s p j) := by
  unfold State.setPartJig
  repeat' first
    | extract_lets
    | with_reducible exact Moves.refl _ _
    | with_reducible refine Moves.ite ?_ ?_
    | with_reducible refine Moves.foldl (fun _ _ => ?_) ?_
    | fail_if_no_progress with_reducible refine Moves.record ?_ (.inl rfl) (.inl rfl) (.inr (by decide)) (.inl rfl) (.inl rfl) (.inl rfl) (.inl rfl) (.inl rfl) (.inl rfl) (.inl rfl) (.inl rfl) (.inl rfl) (.inl rfl) (.inl rfl) (.inl rfl) (.inl rfl) (.inl rfl) (.inl rfl)
    | decide
    | split
    | dsimp +zetaDelta only

theorem State.raiseCond_moves (s src code unit detail) : Moves [.fc] s (State.raiseCond s src code unit detail) := by
  unfold State.raiseCond
  repeat' first
    | extract_lets
    | with_reducible exact Moves.refl _ _
    | with_reducible refine Moves.ite ?_ ?_
    | with_reducible apply Moves.step (State.raiseMsg_moves _ _ _)
    | with_reducible refine Moves.foldl (fun _ _ => ?_) ?_
    | decide
    | split
    | dsimp +zetaDelta only

theorem State.bumpWhole_moves (s i a b) : Moves [.ob] s (State.bumpWhole s i a b) := by
  unfold State.bumpWhole
  repeat' first
    | extract_lets
    | with_reducible exact Moves.refl _ _
    | with_reducible refine Moves.ite ?_ ?_
    | with_reducible apply Moves.step (State.bump_moves _ _ _)
    | with_reducible refine Moves.foldl (fun _ _ => ?_) ?_
    | decide
    | split
    | dsimp +zetaDelta only

theorem State.level_moves (s i v) : Moves [.ob] s (State.level s i v) := by
  unfold State.level
  repeat' first
    | extract_lets
    | with_reducible exact Moves.refl _ _
    | with_reducible refine Moves.ite ?_ ?_
    | with_reducible refine Moves.foldl (fun _ _ => ?_) ?_
    | fail_if_no_progress with_reducible refine Moves.record ?_ (.inl rfl) (.inl rfl) (.inl rfl) (.inl rfl) (.inl rfl) (.inl rfl) (.inl rfl) (.inl rfl) (.inl rfl) (.inl rfl) (.inl rfl) (.inl rfl) (.inl rfl) (.inl rfl) (.inl rfl) (.inl rfl) (.inl rfl) (.inr (by decide))
    | decide
    | split
    | dsimp +zetaDelta only

theorem State.peak_moves (s i v) : Moves [.ob] s (State.peak s i v) := by
  unfold State.peak
  repeat' first
    | extract_lets
    | with_reducible exact Moves.refl _ _
    | with_reducible refine Moves.ite ?_ ?_
    | with_reducible apply Moves.step (State.level_moves _ _ _)
    | with_reducible refine Moves.foldl (fun _ _ => ?_) ?_
    | decide
    | split
    | dsimp +zetaDelta only

theorem State.sendQueue_moves (s k e) : Moves [.qf, .ob] s (State.sendQueue s k e) := by
  unfold State.sendQueue
  repeat' first
    | extract_lets
    | with_reducible exact Moves.refl _ _
    | with_reducible refine Moves.ite ?_ ?_
    | with_reducible apply Moves.step (State.bump_moves _ _ _)
    | with_reducible apply Moves.step (State.setQueue_moves _ _ _)
    | with_reducible apply Moves.step (State.peak_moves _ _ _)
    | with_reducible refine Moves.foldl (fun _ _ => ?_) ?_
    | decide
    | split
    | dsimp +zetaDelta only

theorem State.takeQueue_moves (s k) : Moves [.qf, .ob] s (State.takeQueue s k) := by
  unfold State.takeQueue
  repeat' first
    | extract_lets
    | with_reducible exact Moves.refl _ _
    | with_reducible refine Moves.ite ?_ ?_
    | with_reducible apply Moves.step (State.setQueue_moves _ _ _)
    | with_reducible apply Moves.step (State.bump_moves _ _ _)
    | with_reducible refine Moves.foldl (fun _ _ => ?_) ?_
    | decide
    | split
    | dsimp +zetaDelta only

theorem State.setVf_moves (s p v) : Moves [.host] s (State.setVf s p v) := by
  unfold State.setVf
  repeat' first
    | extract_lets
    | with_reducible exact Moves.refl _ _
    | with_reducible refine Moves.ite ?_ ?_
    | with_reducible refine Moves.foldl (fun _ _ => ?_) ?_
    | fail_if_no_progress with_reducible refine Moves.record ?_ (.inl rfl) (.inl rfl) (.inl rfl) (.inl rfl) (.inl rfl) (.inl rfl) (.inl rfl) (.inr (by decide)) (.inl rfl) (.inl rfl) (.inl rfl) (.inl rfl) (.inl rfl) (.inl rfl) (.inl rfl) (.inl rfl) (.inl rfl) (.inl rfl)
    | decide
    | split
    | dsimp +zetaDelta only

theorem State.emitMsix_moves (s f vector) : Moves [.host, .ob] s (State.emitMsix s f vector) := by
  unfold State.emitMsix
  repeat' first
    | extract_lets
    | with_reducible exact Moves.refl _ _
    | with_reducible refine Moves.ite ?_ ?_
    | with_reducible apply Moves.step (State.bump_moves _ _ _)
    | with_reducible refine Moves.foldl (fun _ _ => ?_) ?_
    | fail_if_no_progress with_reducible refine Moves.record ?_ (.inl rfl) (.inl rfl) (.inl rfl) (.inl rfl) (.inl rfl) (.inl rfl) (.inl rfl) (.inr (by decide)) (.inl rfl) (.inl rfl) (.inl rfl) (.inl rfl) (.inl rfl) (.inl rfl) (.inl rfl) (.inl rfl) (.inl rfl) (.inl rfl)
    | decide
    | split
    | dsimp +zetaDelta only

theorem State.setMsixOf_moves (s f m) : Moves [.host] s (State.setMsixOf s f m) := by
  unfold State.setMsixOf
  repeat' first
    | extract_lets
    | with_reducible exact Moves.refl _ _
    | with_reducible refine Moves.ite ?_ ?_
    | with_reducible refine Moves.foldl (fun _ _ => ?_) ?_
    | fail_if_no_progress with_reducible refine Moves.record ?_ (.inl rfl) (.inl rfl) (.inl rfl) (.inl rfl) (.inl rfl) (.inl rfl) (.inl rfl) (.inr (by decide)) (.inl rfl) (.inl rfl) (.inl rfl) (.inl rfl) (.inl rfl) (.inl rfl) (.inl rfl) (.inl rfl) (.inl rfl) (.inl rfl)
    | decide
    | split
    | dsimp +zetaDelta only

theorem State.sendMsix_moves (s f vector) : Moves [.host, .ob] s (State.sendMsix s f vector) := by
  unfold State.sendMsix
  repeat' first
    | extract_lets
    | with_reducible exact Moves.refl _ _
    | with_reducible refine Moves.ite ?_ ?_
    | with_reducible apply Moves.step (State.emitMsix_moves _ _ _)
    | with_reducible apply Moves.step (State.setMsixOf_moves _ _ _)
    | with_reducible refine Moves.foldl (fun _ _ => ?_) ?_
    | decide
    | split
    | dsimp +zetaDelta only

theorem State.pfEvent_moves (s bit) : Moves [.host, .ob] s (State.pfEvent s bit) := by
  unfold State.pfEvent
  repeat' first
    | extract_lets
    | with_reducible exact Moves.refl _ _
    | with_reducible refine Moves.ite ?_ ?_
    | with_reducible apply Moves.step (State.sendMsix_moves _ _ _)
    | with_reducible refine Moves.foldl (fun _ _ => ?_) ?_
    | fail_if_no_progress with_reducible refine Moves.record ?_ (.inl rfl) (.inl rfl) (.inl rfl) (.inl rfl) (.inl rfl) (.inl rfl) (.inl rfl) (.inr (by decide)) (.inl rfl) (.inl rfl) (.inl rfl) (.inl rfl) (.inl rfl) (.inl rfl) (.inl rfl) (.inl rfl) (.inl rfl) (.inl rfl)
    | decide
    | split
    | dsimp +zetaDelta only

theorem State.vfEvent_moves (s p bit) : Moves [.host, .ob] s (State.vfEvent s p bit) := by
  unfold State.vfEvent
  repeat' first
    | extract_lets
    | with_reducible exact Moves.refl _ _
    | with_reducible refine Moves.ite ?_ ?_
    | with_reducible apply Moves.step (State.setVf_moves _ _ _)
    | with_reducible apply Moves.step (State.sendMsix_moves _ _ _)
    | with_reducible refine Moves.foldl (fun _ _ => ?_) ?_
    | decide
    | split
    | dsimp +zetaDelta only

theorem State.raiseVf_moves (s code p) : Moves [.fc] s (State.raiseVf s code p) := by
  unfold State.raiseVf
  repeat' first
    | extract_lets
    | with_reducible exact Moves.refl _ _
    | with_reducible refine Moves.ite ?_ ?_
    | with_reducible apply Moves.step (State.raiseMsg_moves _ _ _)
    | with_reducible refine Moves.foldl (fun _ _ => ?_) ?_
    | decide
    | split
    | dsimp +zetaDelta only

theorem State.settleMsix_moves (s f) : Moves [.host, .ob] s (State.settleMsix s f) := by
  unfold State.settleMsix
  repeat' first
    | extract_lets
    | with_reducible exact Moves.refl _ _
    | with_reducible refine Moves.ite ?_ ?_
    | with_reducible apply Moves.step (State.emitMsix_moves _ _ _)
    | with_reducible apply Moves.step (State.setMsixOf_moves _ _ _)
    | with_reducible refine Moves.foldl (fun _ _ => ?_) ?_
    | decide
    | split
    | dsimp +zetaDelta only

theorem State.runOnOscillator_moves (s) : Moves [.clocks] s (State.runOnOscillator s) := by
  unfold State.runOnOscillator
  repeat' first
    | extract_lets
    | with_reducible exact Moves.refl _ _
    | with_reducible refine Moves.ite ?_ ?_
    | with_reducible refine Moves.foldl (fun _ _ => ?_) ?_
    | fail_if_no_progress with_reducible refine Moves.record ?_ (.inl rfl) (.inl rfl) (.inl rfl) (.inl rfl) (.inl rfl) (.inl rfl) (.inl rfl) (.inl rfl) (.inl rfl) (.inl rfl) (.inl rfl) (.inl rfl) (.inl rfl) (.inl rfl) (.inl rfl) (.inl rfl) (.inr (by decide)) (.inl rfl)
    | decide
    | split
    | dsimp +zetaDelta only

theorem State.trough_moves (s i v) : Moves [.ob] s (State.trough s i v) := by
  unfold State.trough
  repeat' first
    | extract_lets
    | with_reducible exact Moves.refl _ _
    | with_reducible refine Moves.ite ?_ ?_
    | with_reducible apply Moves.step (State.level_moves _ _ _)
    | with_reducible refine Moves.foldl (fun _ _ => ?_) ?_
    | decide
    | split
    | dsimp +zetaDelta only

theorem State.runOnReference_moves (s) : Moves [.clocks] s (State.runOnReference s) := by
  unfold State.runOnReference
  repeat' first
    | extract_lets
    | with_reducible exact Moves.refl _ _
    | with_reducible refine Moves.ite ?_ ?_
    | with_reducible refine Moves.foldl (fun _ _ => ?_) ?_
    | fail_if_no_progress with_reducible refine Moves.record ?_ (.inl rfl) (.inl rfl) (.inl rfl) (.inl rfl) (.inl rfl) (.inl rfl) (.inl rfl) (.inl rfl) (.inl rfl) (.inl rfl) (.inl rfl) (.inl rfl) (.inl rfl) (.inl rfl) (.inl rfl) (.inl rfl) (.inr (by decide)) (.inl rfl)
    | decide
    | split
    | dsimp +zetaDelta only

end Sys2Proof.Machine
end

