-- ==== Sys2Proof/Laws/MovesSlots.lean ====
section
/-! SUPPORT. What the operations of Machine/Slots.lean keep, and the parts of the state they stay in. -/

namespace Sys2Proof.Machine

theorem State.addAccess_moves (s x) : Moves [.mem] s (State.addAccess s x) := by
  unfold State.addAccess
  repeat' first
    | extract_lets
    | with_reducible exact Moves.refl _ _
    | with_reducible refine Moves.ite ?_ ?_
    | with_reducible refine Moves.foldl (fun _ _ => ?_) ?_
    | fail_if_no_progress with_reducible refine Moves.record ?_ (.inl rfl) (.inr ⟨by decide, by with_reducible first | exact .same rfl rfl rfl | exact MemState.lose_keeps _ _ _ | exact MemState.store_keeps _ _ _ | exact .marks _ _ _ _ _ | exact .poison _ _ _⟩) (.inl rfl) (.inl rfl) (.inl rfl) (.inl rfl) (.inl rfl) (.inl rfl) (.inl rfl) (.inl rfl) (.inl rfl) (.inl rfl) (.inl rfl) (.inl rfl) (.inl rfl) (.inl rfl) (.inl rfl) (.inl rfl)
    | decide
    | split
    | dsimp +zetaDelta only

theorem State.useSlot_moves (s x) : Moves [.mem] s (State.useSlot s x) := by
  unfold State.useSlot
  repeat' first
    | extract_lets
    | with_reducible exact Moves.refl _ _
    | with_reducible refine Moves.ite ?_ ?_
    | with_reducible refine Moves.foldl (fun _ _ => ?_) ?_
    | fail_if_no_progress with_reducible refine Moves.record ?_ (.inl rfl) (.inr ⟨by decide, by with_reducible first | exact .same rfl rfl rfl | exact MemState.lose_keeps _ _ _ | exact MemState.store_keeps _ _ _ | exact .marks _ _ _ _ _ | exact .poison _ _ _⟩) (.inl rfl) (.inl rfl) (.inl rfl) (.inl rfl) (.inl rfl) (.inl rfl) (.inl rfl) (.inl rfl) (.inl rfl) (.inl rfl) (.inl rfl) (.inl rfl) (.inl rfl) (.inl rfl) (.inl rfl) (.inl rfl)
    | decide
    | split
    | dsimp +zetaDelta only

end Sys2Proof.Machine
end

