-- ==== Sys2Proof/Laws/MovesOperands.lean ====
section
/-! SUPPORT. What the operations of Machine/Operands.lean keep, and the parts of the state they stay in. -/

namespace Sys2Proof.Machine

theorem State.setCluster_moves (s c v) : Moves [.lanes] s (State.setCluster s c v) := by
  unfold State.setCluster
  repeat' first
    | extract_lets
    | with_reducible exact Moves.refl _ _
    | with_reducible refine Moves.ite ?_ ?_
    | with_reducible refine Moves.foldl (fun _ _ => ?_) ?_
    | fail_if_no_progress with_reducible refine Moves.record ?_ (.inl rfl) (.inl rfl) (.inl rfl) (.inl rfl) (.inr (by decide)) (.inl rfl) (.inl rfl) (.inl rfl) (.inl rfl) (.inl rfl) (.inl rfl) (.inl rfl) (.inl rfl) (.inl rfl) (.inl rfl) (.inl rfl) (.inl rfl) (.inl rfl)
    | decide
    | split
    | dsimp +zetaDelta only

theorem State.noteBounds_moves (s c lanes) : Moves [.lanes, .fc] s (State.noteBounds s c lanes) := by
  unfold State.noteBounds
  repeat' first
    | extract_lets
    | with_reducible exact Moves.refl _ _
    | with_reducible refine Moves.ite ?_ ?_
    | with_reducible apply Moves.step (State.setCluster_moves _ _ _)
    | with_reducible apply Moves.step (State.raiseFor_moves _ _ _ _ _)
    | with_reducible refine Moves.foldl (fun _ _ => ?_) ?_
    | decide
    | split
    | dsimp +zetaDelta only

theorem State.loadWord_moves (s c off) : Moves [.lanes, .mem, .fc, .ob] s (State.loadWord s c off).2 := by
  unfold State.loadWord
  repeat' first
    | extract_lets
    | with_reducible exact Moves.refl _ _
    | with_reducible refine Moves.ite ?_ ?_
    | with_reducible apply Moves.step (State.readMem_moves _ _ _ _)
    | with_reducible apply Moves.step (State.noteBounds_moves _ _ _)
    | with_reducible refine Moves.foldl (fun _ _ => ?_) ?_
    | decide
    | split
    | dsimp +zetaDelta only

theorem State.loadLanes_moves (s c es) : Moves [.lanes, .mem, .fc, .ob] s (State.loadLanes s c es).2 := by
  induction es generalizing s with
  | nil => exact Moves.refl _ _
  | cons r rest ih =>
    unfold State.loadLanes
    repeat' (first
      | extract_lets
      | with_reducible exact Moves.refl _ _
      | with_reducible refine Moves.trans ?_ (ih _)
      | with_reducible refine Moves.ite ?_ ?_
      | with_reducible apply Moves.step (State.loadWord_moves _ _ _)
      | with_reducible refine Moves.foldl (fun _ _ => ?_) ?_
      | decide
      | split
      | dsimp +zetaDelta only)

theorem State.storeWord_moves (s c off v) : Moves [.lanes, .mem, .fc] s (State.storeWord s c off v) := by
  unfold State.storeWord
  repeat' first
    | extract_lets
    | with_reducible exact Moves.refl _ _
    | with_reducible refine Moves.ite ?_ ?_
    | with_reducible apply Moves.step (State.writeMem_moves _ _ _)
    | with_reducible apply Moves.step (State.noteBounds_moves _ _ _)
    | with_reducible refine Moves.foldl (fun _ _ => ?_) ?_
    | decide
    | split
    | dsimp +zetaDelta only

theorem State.storeLanes_moves (s c es) : Moves [.lanes, .mem, .fc] s (State.storeLanes s c es) := by
  induction es generalizing s with
  | nil => exact Moves.refl _ _
  | cons r rest ih =>
    unfold State.storeLanes
    repeat' (first
      | extract_lets
      | with_reducible exact Moves.refl _ _
      | with_reducible refine Moves.trans ?_ (ih _)
      | with_reducible refine Moves.ite ?_ ?_
      | with_reducible apply Moves.step (State.storeWord_moves _ _ _ _)
      | with_reducible refine Moves.foldl (fun _ _ => ?_) ?_
      | decide
      | split
      | dsimp +zetaDelta only)

theorem State.loadFlagByte_moves (s c off) : Moves [.lanes, .mem, .fc, .ob] s (State.loadFlagByte s c off).2 := by
  unfold State.loadFlagByte
  repeat' first
    | extract_lets
    | with_reducible exact Moves.refl _ _
    | with_reducible refine Moves.ite ?_ ?_
    | with_reducible apply Moves.step (State.readMem_moves _ _ _ _)
    | with_reducible apply Moves.step (State.noteBounds_moves _ _ _)
    | with_reducible refine Moves.foldl (fun _ _ => ?_) ?_
    | decide
    | split
    | dsimp +zetaDelta only

theorem State.storeSlot_moves (s c off v) : Moves [.lanes, .mem, .fc] s (State.storeSlot s c off v) := by
  unfold State.storeSlot
  repeat' first
    | extract_lets
    | with_reducible exact Moves.refl _ _
    | with_reducible refine Moves.ite ?_ ?_
    | with_reducible apply Moves.step (State.writeMem_moves _ _ _)
    | with_reducible apply Moves.step (State.noteBounds_moves _ _ _)
    | with_reducible refine Moves.foldl (fun _ _ => ?_) ?_
    | decide
    | split
    | dsimp +zetaDelta only

theorem State.orFlagByte_moves (s c off flags) : Moves [.lanes, .mem, .fc] s (State.orFlagByte s c off flags) := by
  unfold State.orFlagByte
  repeat' first
    | extract_lets
    | with_reducible exact Moves.refl _ _
    | with_reducible refine Moves.ite ?_ ?_
    | with_reducible apply Moves.step (State.orByte_moves _ _ _)
    | with_reducible apply Moves.step (State.noteBounds_moves _ _ _)
    | with_reducible refine Moves.foldl (fun _ _ => ?_) ?_
    | decide
    | split
    | dsimp +zetaDelta only

theorem State.setMover_moves (s k v) : Moves [.qf] s (State.setMover s k v) := by
  unfold State.setMover
  repeat' first
    | extract_lets
    | with_reducible exact Moves.refl _ _
    | with_reducible refine Moves.ite ?_ ?_
    | with_reducible refine Moves.foldl (fun _ _ => ?_) ?_
    | fail_if_no_progress with_reducible refine Moves.record ?_ (.inl rfl) (.inl rfl) (.inl rfl) (.inl rfl) (.inl rfl) (.inr (by decide)) (.inl rfl) (.inl rfl) (.inl rfl) (.inl rfl) (.inl rfl) (.inl rfl) (.inl rfl) (.inl rfl) (.inl rfl) (.inl rfl) (.inl rfl) (.inl rfl)
    | decide
    | split
    | dsimp +zetaDelta only

theorem State.emptyTurn_moves (s c) : Moves [.ob] s (State.emptyTurn s c) := by
  unfold State.emptyTurn
  repeat' first
    | extract_lets
    | with_reducible exact Moves.refl _ _
    | with_reducible refine Moves.ite ?_ ?_
    | with_reducible apply Moves.step (State.bump_moves _ _ _)
    | with_reducible refine Moves.foldl (fun _ _ => ?_) ?_
    | decide
    | split
    | dsimp +zetaDelta only

theorem State.takeTurn_moves (s c) : Moves [.lanes] s (State.takeTurn s c) := by
  unfold State.takeTurn
  repeat' first
    | extract_lets
    | with_reducible exact Moves.refl _ _
    | with_reducible refine Moves.ite ?_ ?_
    | with_reducible apply Moves.step (State.setCluster_moves _ _ _)
    | with_reducible refine Moves.foldl (fun _ _ => ?_) ?_
    | decide
    | split
    | dsimp +zetaDelta only

theorem State.laneUpset_moves (s c j u) : Moves [.lanes, .mem, .fc, .ob] s (State.laneUpset s c j u) := by
  unfold State.laneUpset
  repeat' first
    | extract_lets
    | with_reducible exact Moves.refl _ _
    | with_reducible refine Moves.ite ?_ ?_
    | with_reducible apply Moves.step (State.raiseFor_moves _ _ _ _ _)
    | with_reducible apply Moves.step (State.setCluster_moves _ _ _)
    | with_reducible apply Moves.step (State.memErrors_moves _ _ _)
    | with_reducible refine Moves.foldl (fun _ _ => ?_) ?_
    | decide
    | split
    | dsimp +zetaDelta only

theorem State.noteArith_moves (s c flags) : Moves [.lanes, .fc] s (State.noteArith s c flags) := by
  unfold State.noteArith
  repeat' first
    | extract_lets
    | with_reducible exact Moves.refl _ _
    | with_reducible refine Moves.ite ?_ ?_
    | with_reducible apply Moves.step (State.raiseFor_moves _ _ _ _ _)
    | with_reducible apply Moves.step (State.setCluster_moves _ _ _)
    | with_reducible refine Moves.foldl (fun _ _ => ?_) ?_
    | fail_if_no_progress with_reducible refine Moves.record ?_ (.inl rfl) (.inl rfl) (.inl rfl) (.inl rfl) (.inr (by decide)) (.inl rfl) (.inl rfl) (.inl rfl) (.inl rfl) (.inl rfl) (.inl rfl) (.inl rfl) (.inl rfl) (.inl rfl) (.inl rfl) (.inl rfl) (.inl rfl) (.inl rfl)
    | decide
    | split
    | dsimp +zetaDelta only

theorem State.rowTo_moves (s c j pc) : Moves [.lanes, .ob] s (State.rowTo s c j pc) := by
  unfold State.rowTo
  repeat' first
    | extract_lets
    | with_reducible exact Moves.refl _ _
    | with_reducible refine Moves.ite ?_ ?_
    | with_reducible apply Moves.step (State.bump_moves _ _ _)
    | with_reducible apply Moves.step (State.setCluster_moves _ _ _)
    | with_reducible refine Moves.foldl (fun _ _ => ?_) ?_
    | decide
    | split
    | dsimp +zetaDelta only

theorem State.rowNext_moves (s c j) : Moves [.lanes, .ob] s (State.rowNext s c j) := by
  unfold State.rowNext
  repeat' first
    | extract_lets
    | with_reducible exact Moves.refl _ _
    | with_reducible refine Moves.ite ?_ ?_
    | with_reducible apply Moves.step (State.rowTo_moves _ _ _ _)
    | with_reducible refine Moves.foldl (fun _ _ => ?_) ?_
    | decide
    | split
    | dsimp +zetaDelta only

theorem State.issueRow_moves (s c j f) : Moves [.lanes, .fc, .ob] s (State.issueRow s c j f) := by
  unfold State.issueRow
  repeat' first
    | extract_lets
    | with_reducible exact Moves.refl _ _
    | with_reducible refine Moves.ite ?_ ?_
    | with_reducible apply Moves.step (State.noteArith_moves _ _ _)
    | with_reducible apply Moves.step (State.rowNext_moves _ _ _)
    | with_reducible apply Moves.step (State.setCluster_moves _ _ _)
    | with_reducible refine Moves.foldl (fun _ _ => ?_) ?_
    | decide
    | split
    | dsimp +zetaDelta only

theorem State.binary_moves (s w d a b f) : Moves [.lanes, .fc, .ob] s (State.binary s w d a b f) := by
  unfold State.binary
  repeat' first
    | extract_lets
    | with_reducible exact Moves.refl _ _
    | with_reducible refine Moves.ite ?_ ?_
    | with_reducible apply Moves.step (State.issueRow_moves _ _ _ _)
    | with_reducible refine Moves.foldl (fun _ _ => ?_) ?_
    | decide
    | split
    | dsimp +zetaDelta only

theorem State.skipQueue_moves (s c) : Moves [.ob] s (State.skipQueue s c) := by
  unfold State.skipQueue
  repeat' first
    | extract_lets
    | with_reducible exact Moves.refl _ _
    | with_reducible refine Moves.ite ?_ ?_
    | with_reducible apply Moves.step (State.bump_moves _ _ _)
    | with_reducible refine Moves.foldl (fun _ _ => ?_) ?_
    | decide
    | split
    | dsimp +zetaDelta only

theorem State.skipBench_moves (s c) : Moves [.ob] s (State.skipBench s c) := by
  unfold State.skipBench
  repeat' first
    | extract_lets
    | with_reducible exact Moves.refl _ _
    | with_reducible refine Moves.ite ?_ ?_
    | with_reducible apply Moves.step (State.bump_moves _ _ _)
    | with_reducible refine Moves.foldl (fun _ _ => ?_) ?_
    | decide
    | split
    | dsimp +zetaDelta only

theorem State.laneAccess_moves (s c j l) : Moves [.lanes, .mem, .ob] s (State.laneAccess s c j l) := by
  unfold State.laneAccess
  repeat' first
    | extract_lets
    | with_reducible exact Moves.refl _ _
    | with_reducible refine Moves.ite ?_ ?_
    | with_reducible apply Moves.step (State.rowNext_moves _ _ _)
    | with_reducible apply Moves.step (State.addAccess_moves _ _)
    | with_reducible apply Moves.step (State.skipBench_moves _ _)
    | with_reducible refine Moves.foldl (fun _ _ => ?_) ?_
    | decide
    | split
    | dsimp +zetaDelta only

theorem State.laneLoad_moves (s w d sel offs) : Moves [.lanes, .mem, .ob] s (State.laneLoad s w d sel offs) := by
  unfold State.laneLoad
  repeat' first
    | extract_lets
    | with_reducible exact Moves.refl _ _
    | with_reducible refine Moves.ite ?_ ?_
    | with_reducible apply Moves.step (State.laneAccess_moves _ _ _ _)
    | with_reducible refine Moves.foldl (fun _ _ => ?_) ?_
    | decide
    | split
    | dsimp +zetaDelta only

theorem State.unary_moves (s w d a f) : Moves [.lanes, .fc, .ob] s (State.unary s w d a f) := by
  unfold State.unary
  repeat' first
    | extract_lets
    | with_reducible exact Moves.refl _ _
    | with_reducible refine Moves.ite ?_ ?_
    | with_reducible apply Moves.step (State.issueRow_moves _ _ _ _)
    | with_reducible refine Moves.foldl (fun _ _ => ?_) ?_
    | decide
    | split
    | dsimp +zetaDelta only

theorem State.laneStore_moves (s w d sel offs) : Moves [.lanes, .mem, .ob] s (State.laneStore s w d sel offs) := by
  unfold State.laneStore
  repeat' first
    | extract_lets
    | with_reducible exact Moves.refl _ _
    | with_reducible refine Moves.ite ?_ ?_
    | with_reducible apply Moves.step (State.laneAccess_moves _ _ _ _)
    | with_reducible refine Moves.foldl (fun _ _ => ?_) ?_
    | decide
    | split
    | dsimp +zetaDelta only

theorem State.rounded_moves (s w d a r f) : Moves [.lanes, .fc, .ob] s (State.rounded s w d a r f) := by
  unfold State.rounded
  repeat' first
    | extract_lets
    | with_reducible exact Moves.refl _ _
    | with_reducible refine Moves.ite ?_ ?_
    | with_reducible apply Moves.step (State.issueRow_moves _ _ _ _)
    | with_reducible refine Moves.foldl (fun _ _ => ?_) ?_
    | decide
    | split
    | dsimp +zetaDelta only

theorem State.ternary_moves (s w d a b c f) : Moves [.lanes, .fc, .ob] s (State.ternary s w d a b c f) := by
  unfold State.ternary
  repeat' first
    | extract_lets
    | with_reducible exact Moves.refl _ _
    | with_reducible refine Moves.ite ?_ ?_
    | with_reducible apply Moves.step (State.issueRow_moves _ _ _ _)
    | with_reducible refine Moves.foldl (fun _ _ => ?_) ?_
    | decide
    | split
    | dsimp +zetaDelta only

end Sys2Proof.Machine
end

