-- ==== Sys2Proof/Laws/Lanes.lean ====
section
/-! SUPPORT. Lanes: what reading a cluster gives after each operation, and what the issue of one instruction can do. -/

namespace Sys2Proof.Machine

@[simp] theorem State.cluster_setCluster (s : State) (c c' : Nat) (v : Cluster) :
    (s.setCluster c v).cluster c' = if c' = c then v else s.cluster c' := SMap.get_set _ _ _ _ _
@[simp] theorem State.cluster_bump (s : State) (i n c : Nat) : (s.bump i n).cluster c = s.cluster c := rfl
@[simp] theorem State.cluster_raiseMsg (s : State) (src : Source) (m : FaultMsg) (c : Nat) : (s.raiseMsg src m).cluster c = s.cluster c := rfl
@[simp] theorem State.cluster_raiseFor (s : State) (src : Source) (code unit : Nat) (p : Option Nat) (c : Nat) :
    (s.raiseFor src code unit p).cluster c = s.cluster c := rfl
@[simp] theorem State.owner_setCluster (s : State) (c c' : Nat) (v : Cluster) : (s.setCluster c v).ownerOfCluster c' = s.ownerOfCluster c' := rfl
@[simp] theorem State.owner_bump (s : State) (i n c : Nat) : (s.bump i n).ownerOfCluster c = s.ownerOfCluster c := rfl

@[simp] theorem Cluster.row_setRow (cl : Cluster) (j j' : Nat) (r : RowCtl) :
    (cl.setRow j r).row j' = if j' = j then r else cl.row j' := SMap.get_set _ _ _ _ _
@[simp] theorem Cluster.reg_setRow (cl : Cluster) (j j' v : Nat) (r : RowCtl) : (cl.setRow j r).reg j' v = cl.reg j' v := rfl
@[simp] theorem Cluster.pred_setRow (cl : Cluster) (j j' p : Nat) (r : RowCtl) : (cl.setRow j r).pred j' p = cl.pred j' p := rfl
@[simp] theorem Cluster.row_setReg (cl : Cluster) (j v j' : Nat) (x : List W32) : (cl.setReg j v x).row j' = cl.row j' := rfl
@[simp] theorem Cluster.pred_setReg (cl : Cluster) (j v j' p : Nat) (x : List W32) : (cl.setReg j v x).pred j' p = cl.pred j' p := rfl
@[simp] theorem Cluster.reg_setReg (cl : Cluster) (j v j' v' : Nat) (x : List W32) :
    (cl.setReg j v x).reg j' v' = if 16 * j' + v' = 16 * j + v then x else cl.reg j' v' := SMap.get_set _ _ _ _ _
@[simp] theorem Cluster.row_setPred (cl : Cluster) (j d j' : Nat) (p : List Bool) : (cl.setPred j d p).row j' = cl.row j' := by
  unfold Cluster.setPred; split <;> rfl
@[simp] theorem Cluster.reg_setPred (cl : Cluster) (j d j' v : Nat) (p : List Bool) : (cl.setPred j d p).reg j' v = cl.reg j' v := by
  unfold Cluster.setPred; split <;> rfl
@[simp] theorem Cluster.pred_setPred (cl : Cluster) (j d j' d' : Nat) (p : List Bool) :
    (cl.setPred j d p).pred j' d' = if d ≠ 0 ∧ d' ≠ 0 ∧ 8 * j' + d' = 8 * j + d then p else cl.pred j' d' := by
  unfold Cluster.setPred Cluster.pred
  by_cases h : d = 0
  · simp [h]
  · by_cases h' : d' = 0
    · simp [h, h']
    · simp [h, h', SMap.get_set]

/-- Noting events changes no more of a cluster than whether it has raised the fault. -/
theorem State.cluster_noteArith (s : State) (c fl c' : Nat) :
    ∃ b, (s.noteArith c fl).cluster c' = { s.cluster c' with arithRaised := b } := by
  unfold State.noteArith
  split
  · exact ⟨_, rfl⟩
  · extract_lets p l0 s1 c0
    have h1 : ∀ c', s1.cluster c' = s.cluster c' := by
      intro c'
      simp only [s1, p]
      cases s.ownerOfCluster c <;> rfl
    split
    · refine ⟨if c' = c then true else (s.cluster c').arithRaised, ?_⟩
      simp only [State.cluster_raiseFor, State.cluster_setCluster, c0, h1]
      split
      · rename_i h; subst h; rfl
      · rfl
    · exact ⟨_, h1 c'⟩

theorem State.noteArith_notes (s : State) (c fl : Nat) : EventsNoted s (s.noteArith c fl) c fl := by
  unfold State.noteArith EventsNoted
  by_cases h : fl = 0
  · subst h
    simp [bitAt]
  · simp only [h, if_false]
    cases ho : s.ownerOfCluster c with
    | none =>
      by_cases hb : (bitAt fl 0 && !(s.cluster c).arithRaised) = true
      · simp only [hb, if_true]
        simp [State.raiseFor, State.raiseMsg, State.setCluster]
      · simp only [hb]
        simp
    | some p =>
      have h1 : (({ s with lanes := { s.lanes with arith := SMap.modify s.lanes.arith p 0 (· ||| fl) } } : State).cluster c) = s.cluster c := rfl
      have hp : ∀ q, SMap.get (SMap.modify s.lanes.arith p 0 (· ||| fl)) q 0 =
          if some p = some q then SMap.get s.lanes.arith q 0 ||| fl else SMap.get s.lanes.arith q 0 := by
        intro q
        rw [SMap.get_modify]
        by_cases hq : q = p
        · subst hq; simp
        · simp [hq, Ne.symm hq]
      by_cases hb : (bitAt fl 0 && !(s.cluster c).arithRaised) = true
      · simp only [h1, hb, if_true]
        refine ⟨hp, rfl⟩
      · simp only [h1, hb]
        refine ⟨hp, ?_⟩
        simp

/-- A row that issues the next word of its program does what the word says, in the state in which the word takes effect. -/
theorem Issues.laneTurn {i : Instr} {s u : State} {x : LaneIssue} (h : Issues i s u x) (f : State → State) :
    s.laneTurn x.cluster x.row x.t x.upset x.word f = .next (f u) := by
  obtain ⟨_, h1, h2, h3, h4, h5⟩ := h
  unfold LaneIssue.at_ at h1 h2 h3 h4
  unfold State.laneTurn
  extract_lets s1 s2
  have e : s2 = u := h4.symm
  clear_value s2
  subst e
  rw [if_pos h1, if_neg (by simp [s1, h2]), if_pos h3, if_neg (by simp [h5])]

/-- What an instruction of one row can do: the cluster changes as it says, the row moves on, its events are noted and its issue is
counted. -/
theorem State.issueRow_next (u : State) (c j : Nat) (f : Cluster → Cluster × Nat)
    (hr : (f (u.cluster c)).1.arithRaised = (u.cluster c).arithRaised) :
    ∃ t, u.issueRow c j f = t ∧
      (∀ c', ∃ b, t.cluster c' = { (if c' = c then
          (f (u.cluster c)).1.setRow j { (f (u.cluster c)).1.row j with pc := (((f (u.cluster c)).1.row j).pc + 1) % 1024 }
        else u.cluster c') with arithRaised := b }) ∧
      EventsNoted u t c (f (u.cluster c)).2 ∧ IssueCounted u t c ∧ t.lanes.latchedArith = u.lanes.latchedArith ∧
      Within [.lanes, .fc, .ob] u t := by
  have hm := State.issueRow_moves u c j f
  unfold State.issueRow at hm ⊢
  dsimp only at hm ⊢
  refine ⟨_, rfl, ?_, ?_, ?_, ?_, hm.2⟩
  · intro c'
    obtain ⟨b, hb⟩ := State.cluster_noteArith ((u.setCluster c (f (u.cluster c)).1).rowNext c j) c (f (u.cluster c)).2 c'
    refine ⟨b, hb.trans ?_⟩
    simp only [State.rowNext, State.rowTo, State.cluster_bump, State.cluster_setCluster, if_true]
    split <;> rfl
  · have hn := State.noteArith_notes ((u.setCluster c (f (u.cluster c)).1).rowNext c j) c (f (u.cluster c)).2
    unfold EventsNoted at hn ⊢
    have e1 : ((u.setCluster c (f (u.cluster c)).1).rowNext c j).ownerOfCluster c = u.ownerOfCluster c := rfl
    have e2 : (((u.setCluster c (f (u.cluster c)).1).rowNext c j).cluster c).arithRaised = (u.cluster c).arithRaised := by
      simp [State.rowNext, State.rowTo, Cluster.setRow, hr]
    rw [e1, e2] at hn
    exact hn
  · unfold IssueCounted State.noteArith
    split
    · rfl
    · extract_lets p l0 s1 c0
      have h1 : s1.ob = ((u.setCluster c (f (u.cluster c)).1).rowNext c j).ob := by
        simp only [s1, p]; cases ((u.setCluster c (f (u.cluster c)).1).rowNext c j).ownerOfCluster c <;> rfl
      split
      · exact h1
      · exact h1
  · unfold State.noteArith
    split
    · rfl
    · extract_lets p l0 s1 c0
      have h1 : s1.lanes.latchedArith = u.lanes.latchedArith := by
        simp only [s1, p]; cases ((u.setCluster c (f (u.cluster c)).1).rowNext c j).ownerOfCluster c <;> rfl
      split
      · exact h1
      · exact h1

/-- The frame of an issue whose new cluster agrees with the old one outside the registers, predicates and slots named. -/
theorem State.issueRow_frame (u : State) (c j : Nat) (f : Cluster → Cluster × Nat) (regs preds slots : List Nat)
    (hr : (f (u.cluster c)).1.arithRaised = (u.cluster c).arithRaised)
    (hrow : (f (u.cluster c)).1.rows = (u.cluster c).rows)
    (hregs : ∀ j' r, r < 16 → ¬ (j' = j ∧ r ∈ regs) → (f (u.cluster c)).1.reg j' r = (u.cluster c).reg j' r)
    (hpreds : ∀ j' p, p < 8 → ¬ (j' = j ∧ p ∈ preds) → (f (u.cluster c)).1.pred j' p = (u.cluster c).pred j' p)
    (hslots : ∀ k, k ∉ slots → SMap.get (f (u.cluster c)).1.slots k AccSlot.zero = SMap.get (u.cluster c).slots k AccSlot.zero)
    (hruns : (f (u.cluster c)).1.entry = (u.cluster c).entry ∧ (f (u.cluster c)).1.rowCount = (u.cluster c).rowCount ∧
      (f (u.cluster c)).1.keepState = (u.cluster c).keepState ∧ (f (u.cluster c)).1.stopped = (u.cluster c).stopped ∧
      (f (u.cluster c)).1.turn = (u.cluster c).turn) :
    ∃ t, u.issueRow c j f = t ∧ (∀ j' r, (t.cluster c).reg j' r = (f (u.cluster c)).1.reg j' r) ∧
      (∀ j' p, (t.cluster c).pred j' p = (f (u.cluster c)).1.pred j' p) ∧ (t.cluster c).slots = (f (u.cluster c)).1.slots ∧
      EventsNoted u t c (f (u.cluster c)).2 ∧ Issued u t c j ∧ LaneFrame u t c j regs preds slots [.lanes, .fc, .ob] := by
  obtain ⟨t, ht, hc, he, hi, hl, hw⟩ := State.issueRow_next u c j f hr
  have same : ∀ c', c' ≠ c → ∃ b, t.cluster c' = { u.cluster c' with arithRaised := b } := by
    intro c' hne
    obtain ⟨b, hb⟩ := hc c'
    exact ⟨b, by simpa [hne] using hb⟩
  obtain ⟨b, hb⟩ := hc c
  simp only [if_true] at hb
  have row0 : ∀ j', (f (u.cluster c)).1.row j' = (u.cluster c).row j' := fun j' => by unfold Cluster.row; rw [hrow]
  refine ⟨t, ht, ?_, ?_, ?_, he, ⟨⟨?_, ?_⟩, hi⟩, ⟨?_, ?_, ?_, ?_, hl, hw⟩⟩
  · intro j' r; rw [hb]; rfl
  · intro j' p; rw [hb]; rfl
  · rw [hb]; rfl
  · rw [hb]
    show ((f (u.cluster c)).1.setRow j _).row j = _
    simp [row0]
  · intro c' j' hne
    by_cases h1 : c' = c
    · subst h1
      have h2 : j' ≠ j := by rcases hne with h | h; exact absurd rfl h; exact h
      rw [hb]
      show ((f (u.cluster c')).1.setRow j _).row j' = _
      simp [h2, row0]
    · obtain ⟨b', hb'⟩ := same c' h1
      rw [hb']; rfl
  · intro c' j' r hr16 hne
    by_cases h1 : c' = c
    · subst h1
      rw [hb]
      exact hregs j' r hr16 (fun hh => hne ⟨rfl, hh⟩)
    · obtain ⟨b', hb'⟩ := same c' h1
      rw [hb']; rfl
  · intro c' j' p hp hne
    by_cases h1 : c' = c
    · subst h1
      rw [hb]
      exact hpreds j' p hp (fun hh => hne ⟨rfl, hh⟩)
    · obtain ⟨b', hb'⟩ := same c' h1
      rw [hb']; rfl
  · intro c' k hne
    by_cases h1 : c' = c
    · subst h1
      rw [hb]
      exact hslots k (fun hh => hne ⟨rfl, hh⟩)
    · obtain ⟨b', hb'⟩ := same c' h1
      rw [hb']
  · intro c'
    by_cases h1 : c' = c
    · subst h1
      rw [hb]
      exact hruns
    · obtain ⟨b', hb'⟩ := same c' h1
      rw [hb']
      exact ⟨rfl, rfl, rfl, rfl, rfl⟩

/-- An instruction that writes one register. -/
theorem State.issueRow_register (u : State) (w : LaneAt) (d : Fin 16) (v : Cluster → List (W32 × Nat)) :
    ∃ t, u.issueRow w.cluster w.row (fun cl => cl.writeReg w d (v cl)) = t ∧
      RegisterWritten u t w d (v (u.cluster w.cluster)) := by
  obtain ⟨t, ht, hr, _, _, he, hi, hf⟩ := State.issueRow_frame u w.cluster w.row (fun cl => cl.writeReg w d (v cl)) [d.val] [] []
    rfl rfl
    (by
      intro j' r hr hne
      have : ¬ 16 * j' + r = 16 * w.row.val + d.val := by
        intro e
        refine hne ⟨by omega, ?_⟩
        simp only [List.mem_singleton]; omega
      simp [Cluster.writeReg, this])
    (by intro j' p _ _; simp [Cluster.writeReg]) (by intro k _; rfl) ⟨rfl, rfl, rfl, rfl, rfl⟩
  refine ⟨t, ht, ?_, he, hi, hf⟩
  rw [hr]
  simp [Cluster.writeReg]

/-- An instruction that writes a register pair. -/
theorem State.issueRow_pair (u : State) (w : LaneAt) (d : Fin 8) (v fl : Cluster → List Nat) :
    ∃ t, u.issueRow w.cluster w.row (fun cl => (cl.setPair w.row d (cl.selected w) (v cl),
        laneFlags (cl.selected w) ((fl cl).map (fun x => ((0 : W32), x))))) = t ∧
      PairWritten u t w d (v (u.cluster w.cluster)) (fl (u.cluster w.cluster)) := by
  obtain ⟨t, ht, hr, _, _, he, hi, hf⟩ := State.issueRow_frame u w.cluster w.row
    (fun cl => (cl.setPair w.row d (cl.selected w) (v cl),
        laneFlags (cl.selected w) ((fl cl).map (fun x => ((0 : W32), x))))) [2 * d.val, 2 * d.val + 1] [] []
    rfl rfl
    (by
      intro j' r hr hne
      have h1 : ¬ 16 * j' + r = 16 * w.row.val + 2 * d.val := by
        intro e
        refine hne ⟨by omega, ?_⟩
        simp only [List.mem_cons, List.mem_nil_iff, or_false]; omega
      have h2 : ¬ 16 * j' + r = 16 * w.row.val + (2 * d.val + 1) := by
        intro e
        refine hne ⟨by omega, ?_⟩
        simp only [List.mem_cons, List.mem_nil_iff, or_false]; omega
      simp [Cluster.setPair, h1, h2])
    (by intro j' p _ _; simp [Cluster.setPair]) (by intro k _; rfl) ⟨rfl, rfl, rfl, rfl, rfl⟩
  refine ⟨t, ht, ?_, ?_, he, hi, hf⟩
  · rw [hr]
    simp [Cluster.setPair]
  · rw [hr]
    simp [Cluster.setPair]

/-- An instruction that writes a predicate. -/
theorem State.issueRow_predicate (u : State) (w : LaneAt) (d : Fin 8) (v : Cluster → List Bool) :
    ∃ t, u.issueRow w.cluster w.row (fun cl => cl.writePred w d (v cl)) = t ∧
      PredicateWritten u t w d (v (u.cluster w.cluster)) := by
  obtain ⟨t, ht, _, hp, _, he, hi, hf⟩ := State.issueRow_frame u w.cluster w.row (fun cl => cl.writePred w d (v cl)) [] [d.val] []
    (by simp only [Cluster.writePred, Cluster.setPred]; split <;> rfl) (by simp only [Cluster.writePred, Cluster.setPred]; split <;> rfl)
    (by intro j' r _ _; simp [Cluster.writePred])
    (by
      intro j' p hp hne
      have : ¬ (d.val ≠ 0 ∧ p ≠ 0 ∧ 8 * j' + p = 8 * w.row.val + d.val) := by
        intro e
        refine hne ⟨by omega, ?_⟩
        simp only [List.mem_singleton]; omega
      simp only [Cluster.writePred, Cluster.pred_setPred, if_neg this])
    (by intro k _; simp only [Cluster.writePred, Cluster.setPred]; split <;> rfl)
    (by simp only [Cluster.writePred, Cluster.setPred]; split <;> exact ⟨rfl, rfl, rfl, rfl, rfl⟩)
  refine ⟨t, ht, ?_, he, hi, hf⟩
  rw [hp]
  simp only [Cluster.writePred, Cluster.pred_setPred]
  by_cases hd : d.val = 0
  · simp [hd]
  · simp [hd]

end Sys2Proof.Machine
end

