-- ==== Sys2Proof/Laws/MovesArrayOps.lean ====
section
/-! SUPPORT. What the operations of Machine/ArrayOps.lean keep, and the parts of the state they stay in. -/

namespace Sys2Proof.Machine

theorem State.readElems_moves (s p f base first n) : Moves [.mem, .fc, .ob] s (State.readElems s p f base first n).2 := by
  unfold State.readElems
  repeat' first
    | extract_lets
    | with_reducible exact Moves.refl _ _
    | with_reducible refine Moves.ite ?_ ?_
    | with_reducible apply Moves.step (State.readMem_moves _ _ _ _)
    | with_reducible refine Moves.foldl (fun _ _ => ?_) ?_
    | decide
    | split
    | dsimp +zetaDelta only

theorem State.readScales_moves (s p f base first n) : Moves [.mem, .fc, .ob] s (State.readScales s p f base first n).2 := by
  unfold State.readScales
  repeat' first
    | extract_lets
    | with_reducible exact Moves.refl _ _
    | with_reducible refine Moves.ite ?_ ?_
    | with_reducible apply Moves.step (State.readMem_moves _ _ _ _)
    | with_reducible refine Moves.foldl (fun _ _ => ?_) ?_
    | decide
    | split
    | dsimp +zetaDelta only

theorem State.readRow_moves (s m x f base r k) : Moves [.mem, .fc, .ob] s (State.readRow s m x f base r k).2.2 := by
  unfold State.readRow
  repeat' first
    | extract_lets
    | with_reducible exact Moves.refl _ _
    | with_reducible refine Moves.ite ?_ ?_
    | with_reducible apply Moves.step (State.readElems_moves _ _ _ _ _ _)
    | with_reducible apply Moves.step (State.readScales_moves _ _ _ _ _ _)
    | with_reducible refine Moves.foldl (fun _ _ => ?_) ?_
    | decide
    | split
    | dsimp +zetaDelta only

theorem State.setArray_moves (s m v) : Moves [.arrays] s (State.setArray s m v) := by
  unfold State.setArray
  repeat' first
    | extract_lets
    | with_reducible exact Moves.refl _ _
    | with_reducible refine Moves.ite ?_ ?_
    | with_reducible refine Moves.foldl (fun _ _ => ?_) ?_
    | fail_if_no_progress with_reducible refine Moves.record ?_ (.inl rfl) (.inl rfl) (.inl rfl) (.inr (by decide)) (.inl rfl) (.inl rfl) (.inl rfl) (.inl rfl) (.inl rfl) (.inl rfl) (.inl rfl) (.inl rfl) (.inl rfl) (.inl rfl) (.inl rfl) (.inl rfl) (.inl rfl) (.inl rfl)
    | decide
    | split
    | dsimp +zetaDelta only

theorem State.loadCycle_moves (s m x f base n) : Moves [.arrays, .mem, .fc, .ob] s (State.loadCycle s m x f base n) := by
  unfold State.loadCycle
  repeat' first
    | extract_lets
    | with_reducible exact Moves.refl _ _
    | with_reducible refine Moves.ite ?_ ?_
    | with_reducible apply Moves.step (State.readRow_moves _ _ _ _ _ _ _)
    | with_reducible apply Moves.step (State.setArray_moves _ _ _)
    | with_reducible refine Moves.foldl (fun _ _ => ?_) ?_
    | decide
    | split
    | dsimp +zetaDelta only

theorem State.passCycle_moves (s m x a base r index) : Moves [.arrays, .mem, .fc, .ob] s (State.passCycle s m x a base r index) := by
  unfold State.passCycle
  repeat' first
    | extract_lets
    | with_reducible exact Moves.refl _ _
    | with_reducible refine Moves.ite ?_ ?_
    | with_reducible apply Moves.step (State.readRow_moves _ _ _ _ _ _ _)
    | with_reducible apply Moves.step (State.setArray_moves _ _ _)
    | with_reducible refine Moves.foldl (fun _ _ => ?_) ?_
    | decide
    | split
    | dsimp +zetaDelta only

theorem State.readFlagByte_moves (s m x) : Moves [.mem, .fc, .ob] s (State.readFlagByte s m x).2 := by
  unfold State.readFlagByte
  repeat' first
    | extract_lets
    | with_reducible exact Moves.refl _ _
    | with_reducible refine Moves.ite ?_ ?_
    | with_reducible apply Moves.step (State.readMem_moves _ _ _ _)
    | with_reducible refine Moves.foldl (fun _ _ => ?_) ?_
    | decide
    | split
    | dsimp +zetaDelta only

theorem State.footCycle_moves (s m x base c) : Moves [.arrays, .mem, .fc, .ob] s (State.footCycle s m x base c) := by
  unfold State.footCycle
  repeat' first
    | extract_lets
    | with_reducible exact Moves.refl _ _
    | with_reducible refine Moves.ite ?_ ?_
    | with_reducible apply Moves.step (State.readElems_moves _ _ _ _ _ _)
    | with_reducible apply Moves.step (State.readFlagByte_moves _ _ _)
    | with_reducible apply Moves.step (State.setArray_moves _ _ _)
    | with_reducible refine Moves.foldl (fun _ _ => ?_) ?_
    | decide
    | split
    | dsimp +zetaDelta only

theorem State.drainCycle_moves (s m x f base c index) : Moves [.arrays, .mem] s (State.drainCycle s m x f base c index) := by
  unfold State.drainCycle
  repeat' first
    | extract_lets
    | with_reducible exact Moves.refl _ _
    | with_reducible refine Moves.ite ?_ ?_
    | with_reducible apply Moves.step (State.writeMem_moves _ _ _)
    | with_reducible apply Moves.step (State.setArray_moves _ _ _)
    | with_reducible refine Moves.foldl (fun _ _ => ?_) ?_
    | decide
    | split
    | dsimp +zetaDelta only

theorem State.arrayCycle_moves (s m index c) : Moves [.arrays, .mem, .fc, .ob] s (State.arrayCycle s m index c) := by
  unfold State.arrayCycle
  repeat' first
    | extract_lets
    | with_reducible exact Moves.refl _ _
    | with_reducible refine Moves.ite ?_ ?_
    | with_reducible apply Moves.step (State.loadCycle_moves _ _ _ _ _ _)
    | with_reducible apply Moves.step (State.passCycle_moves _ _ _ _ _ _ _)
    | with_reducible apply Moves.step (State.footCycle_moves _ _ _ _ _)
    | with_reducible apply Moves.step (State.drainCycle_moves _ _ _ _ _ _ _)
    | with_reducible refine Moves.foldl (fun _ _ => ?_) ?_
    | decide
    | split
    | dsimp +zetaDelta only

theorem State.drainFlagOut_moves (s m i) : Moves [.arrays, .mem] s (State.drainFlagOut s m i) := by
  unfold State.drainFlagOut
  repeat' first
    | extract_lets
    | with_reducible exact Moves.refl _ _
    | with_reducible refine Moves.ite ?_ ?_
    | with_reducible apply Moves.step (State.orByte_moves _ _ _)
    | with_reducible apply Moves.step (State.orFrameFlags_moves _ _ _)
    | with_reducible refine Moves.foldl (fun _ _ => ?_) ?_
    | decide
    | split
    | dsimp +zetaDelta only

theorem State.arrayFlag_moves (s m index) : Moves [.arrays, .mem] s (State.arrayFlag s m index) := by
  unfold State.arrayFlag
  repeat' first
    | extract_lets
    | with_reducible exact Moves.refl _ _
    | with_reducible refine Moves.ite ?_ ?_
    | with_reducible apply Moves.step (State.drainFlagOut_moves _ _ _)
    | with_reducible refine Moves.foldl (fun _ _ => ?_) ?_
    | decide
    | split
    | dsimp +zetaDelta only

theorem State.takeWait_moves (s q) : Moves [.qf, .ob] s (State.takeWait s q) := by
  unfold State.takeWait
  repeat' first
    | extract_lets
    | with_reducible exact Moves.refl _ _
    | with_reducible refine Moves.ite ?_ ?_
    | with_reducible apply Moves.step (State.takeQueue_moves _ _)
    | with_reducible refine Moves.foldl (fun _ _ => ?_) ?_
    | decide
    | split
    | dsimp +zetaDelta only

theorem State.arrayUpset_moves (s m x) : Moves [.arrays, .mem, .fc, .ob] s (State.arrayUpset s m x) := by
  unfold State.arrayUpset
  repeat' first
    | extract_lets
    | with_reducible exact Moves.refl _ _
    | with_reducible refine Moves.ite ?_ ?_
    | with_reducible apply Moves.step (State.raiseFor_moves _ _ _ _ _)
    | with_reducible apply Moves.step (State.setArray_moves _ _ _)
    | with_reducible apply Moves.step (State.bump_moves _ _ _)
    | with_reducible apply Moves.step (State.memErrors_moves _ _ _)
    | with_reducible refine Moves.foldl (fun _ _ => ?_) ?_
    | decide
    | split
    | dsimp +zetaDelta only

theorem State.failColumns_moves (s m p ns) : Moves [.arrays, .fc] s (State.failColumns s m p ns) := by
  induction ns generalizing s with
  | nil => exact Moves.refl _ _
  | cons r rest ih =>
    unfold State.failColumns
    repeat' (first
      | extract_lets
      | with_reducible exact Moves.refl _ _
      | with_reducible refine Moves.trans ?_ (ih _)
      | with_reducible refine Moves.ite ?_ ?_
      | with_reducible apply Moves.step (State.raiseFor_moves _ _ _ _ _)
      | with_reducible apply Moves.step (State.setArray_moves _ _ _)
      | with_reducible refine Moves.foldl (fun _ _ => ?_) ?_
      | decide
      | split
      | dsimp +zetaDelta only)

theorem State.regrant_moves (s m i) : Moves [.arrays, .mem] s (State.regrant s m i) := by
  unfold State.regrant
  repeat' first
    | extract_lets
    | with_reducible exact Moves.refl _ _
    | with_reducible refine Moves.ite ?_ ?_
    | with_reducible apply Moves.step (State.setArray_moves _ _ _)
    | with_reducible apply Moves.step (State.addAccess_moves _ _)
    | with_reducible refine Moves.foldl (fun _ _ => ?_) ?_
    | fail_if_no_progress with_reducible refine Moves.record ?_ (.inl rfl) (.inr ⟨by decide, by with_reducible first | exact .same rfl rfl rfl | exact MemState.lose_keeps _ _ _ | exact MemState.store_keeps _ _ _ | exact .marks _ _ _ _ _ | exact .poison _ _ _⟩) (.inl rfl) (.inl rfl) (.inl rfl) (.inl rfl) (.inl rfl) (.inl rfl) (.inl rfl) (.inl rfl) (.inl rfl) (.inl rfl) (.inl rfl) (.inl rfl) (.inl rfl) (.inl rfl) (.inl rfl) (.inl rfl)
    | decide
    | split
    | dsimp +zetaDelta only

theorem State.arrayIssue_moves (s m x f ac badColumns badPair) : Moves [.arrays, .mem, .qf, .ob] s (State.arrayIssue s m x f ac badColumns badPair) := by
  unfold State.arrayIssue
  repeat' first
    | extract_lets
    | with_reducible exact Moves.refl _ _
    | with_reducible refine Moves.ite ?_ ?_
    | with_reducible apply Moves.step (State.takeWait_moves _ _)
    | with_reducible apply Moves.step (State.setArray_moves _ _ _)
    | with_reducible apply Moves.step (State.addAccess_moves _ _)
    | with_reducible apply Moves.step (State.bump_moves _ _ _)
    | with_reducible refine Moves.foldl (fun _ _ => ?_) ?_
    | decide
    | split
    | dsimp +zetaDelta only

theorem State.finishPass_moves (s m i) : Moves [.arrays] s (State.finishPass s m i) := by
  unfold State.finishPass
  repeat' first
    | extract_lets
    | with_reducible exact Moves.refl _ _
    | with_reducible refine Moves.ite ?_ ?_
    | with_reducible apply Moves.step (State.setArray_moves _ _ _)
    | with_reducible refine Moves.foldl (fun _ _ => ?_) ?_
    | decide
    | split
    | dsimp +zetaDelta only

theorem State.finishPasses_moves (s m p) : Moves [.arrays] s (State.finishPasses s m p) := by
  unfold State.finishPasses
  repeat' first
    | extract_lets
    | with_reducible exact Moves.refl _ _
    | with_reducible refine Moves.ite ?_ ?_
    | with_reducible apply Moves.step (State.finishPass_moves _ _ _)
    | with_reducible refine Moves.foldl (fun _ _ => ?_) ?_
    | decide
    | split
    | dsimp +zetaDelta only

end Sys2Proof.Machine
end

