-- ==== Sys2Proof/Laws/MovesMoverOps.lean ====
section
/-! SUPPORT. What the operations of Machine/MoverOps.lean keep, and the parts of the state they stay in. -/

namespace Sys2Proof.Machine

theorem State.markRead_moves (s a n) : Moves [.mem, .fc] s (State.markRead s a n) := by
  unfold State.markRead
  repeat' first
    | extract_lets
    | with_reducible exact Moves.refl _ _
    | with_reducible refine Moves.ite ?_ ?_
    | with_reducible apply Moves.step (State.findPoison_moves _ _)
    | with_reducible refine Moves.foldl (fun _ _ => ?_) ?_
    | decide
    | split
    | dsimp +zetaDelta only

theorem State.intoBuffer_moves (s k tag d u) : Moves [.qf] s (State.intoBuffer s k tag d u) := by
  unfold State.intoBuffer
  repeat' first
    | extract_lets
    | with_reducible exact Moves.refl _ _
    | with_reducible refine Moves.ite ?_ ?_
    | with_reducible apply Moves.step (State.setMover_moves _ _ _)
    | with_reducible refine Moves.foldl (fun _ _ => ?_) ?_
    | decide
    | split
    | dsimp +zetaDelta only

theorem State.mvBounds_moves (s k) : Moves [.fc] s (State.mvBounds s k) := by
  unfold State.mvBounds
  repeat' first
    | extract_lets
    | with_reducible exact Moves.refl _ _
    | with_reducible refine Moves.ite ?_ ?_
    | with_reducible apply Moves.step (State.raiseFor_moves _ _ _ _ _)
    | with_reducible refine Moves.foldl (fun _ _ => ?_) ?_
    | decide
    | split
    | dsimp +zetaDelta only

theorem State.moverBenchRead_moves (s k tag a n errs qc) : Moves [.mem, .qf, .fc, .ob] s (State.moverBenchRead s k tag a n errs qc) := by
  unfold State.moverBenchRead
  repeat' first
    | extract_lets
    | with_reducible exact Moves.refl _ _
    | with_reducible refine Moves.ite ?_ ?_
    | with_reducible apply Moves.step (State.readMem_moves _ _ _ _)
    | with_reducible apply Moves.step (State.memErrors_moves _ _ _)
    | with_reducible apply Moves.step (State.intoBuffer_moves _ _ _ _ _)
    | with_reducible apply Moves.step (State.mvBounds_moves _ _)
    | with_reducible refine Moves.foldl (fun _ _ => ?_) ?_
    | decide
    | split
    | dsimp +zetaDelta only

theorem State.t3Program_moves (s n) : Moves [.mem, .fc, .ob] s (State.t3Program s n) := by
  unfold State.t3Program
  repeat' first
    | extract_lets
    | with_reducible exact Moves.refl _ _
    | with_reducible refine Moves.ite ?_ ?_
    | with_reducible apply Moves.step (State.level_moves _ _ _)
    | with_reducible apply Moves.step (State.bump_moves _ _ _)
    | with_reducible apply Moves.step (State.raise_moves _ _ _ _ _)
    | with_reducible refine Moves.foldl (fun _ _ => ?_) ?_
    | fail_if_no_progress with_reducible refine Moves.record ?_ (.inl rfl) (.inr ⟨by decide, by with_reducible first | exact .same rfl rfl rfl | exact MemState.lose_keeps _ _ _ | exact MemState.store_keeps _ _ _ | exact .marks _ _ _ _ _ | exact .poison _ _ _⟩) (.inl rfl) (.inl rfl) (.inl rfl) (.inl rfl) (.inl rfl) (.inl rfl) (.inl rfl) (.inl rfl) (.inl rfl) (.inl rfl) (.inl rfl) (.inl rfl) (.inl rfl) (.inl rfl) (.inl rfl) (.inl rfl)
    | decide
    | split
    | dsimp +zetaDelta only

theorem State.moverParity_moves (s k) : Moves [.qf, .fc] s (State.moverParity s k) := by
  unfold State.moverParity
  repeat' first
    | extract_lets
    | with_reducible exact Moves.refl _ _
    | with_reducible refine Moves.ite ?_ ?_
    | with_reducible apply Moves.step (State.raiseFor_moves _ _ _ _ _)
    | with_reducible apply Moves.step (State.setMover_moves _ _ _)
    | with_reducible refine Moves.foldl (fun _ _ => ?_) ?_
    | decide
    | split
    | dsimp +zetaDelta only

theorem State.moverIssue_moves (s k x qc) : Moves [.qf, .ob] s (State.moverIssue s k x qc) := by
  unfold State.moverIssue
  repeat' first
    | extract_lets
    | with_reducible exact Moves.refl _ _
    | with_reducible refine Moves.ite ?_ ?_
    | with_reducible apply Moves.step (State.takeWait_moves _ _)
    | with_reducible apply Moves.step (State.setMover_moves _ _ _)
    | with_reducible refine Moves.foldl (fun _ _ => ?_) ?_
    | decide
    | split
    | dsimp +zetaDelta only

theorem State.countTier_moves (s a write host) : Moves [.ob] s (State.countTier s a write host) := by
  unfold State.countTier
  repeat' first
    | extract_lets
    | with_reducible exact Moves.refl _ _
    | with_reducible refine Moves.ite ?_ ?_
    | with_reducible apply Moves.step (State.bump_moves _ _ _)
    | with_reducible refine Moves.foldl (fun _ _ => ?_) ?_
    | decide
    | split
    | dsimp +zetaDelta only

theorem State.holdRead_moves (s tier who tag a d slot) : Moves [.mem] s (State.holdRead s tier who tag a d slot) := by
  unfold State.holdRead
  repeat' first
    | extract_lets
    | with_reducible exact Moves.refl _ _
    | with_reducible refine Moves.ite ?_ ?_
    | with_reducible refine Moves.foldl (fun _ _ => ?_) ?_
    | fail_if_no_progress with_reducible refine Moves.record ?_ (.inl rfl) (.inr ⟨by decide, by with_reducible first | exact .same rfl rfl rfl | exact MemState.lose_keeps _ _ _ | exact MemState.store_keeps _ _ _ | exact .marks _ _ _ _ _ | exact .poison _ _ _⟩) (.inl rfl) (.inl rfl) (.inl rfl) (.inl rfl) (.inl rfl) (.inl rfl) (.inl rfl) (.inl rfl) (.inl rfl) (.inl rfl) (.inl rfl) (.inl rfl) (.inl rfl) (.inl rfl) (.inl rfl) (.inl rfl)
    | decide
    | split
    | dsimp +zetaDelta only

theorem State.tierRead_moves (s p who tag a n instant host) : Moves [.mem, .fc, .ob] s (State.tierRead s p who tag a n instant host) := by
  unfold State.tierRead
  repeat' first
    | extract_lets
    | with_reducible exact Moves.refl _ _
    | with_reducible refine Moves.ite ?_ ?_
    | with_reducible apply Moves.step (State.countTier_moves _ _ _ _)
    | with_reducible apply Moves.step (State.holdRead_moves _ _ _ _ _ _ _)
    | with_reducible apply Moves.step (State.markRead_moves _ _ _)
    | with_reducible apply Moves.step (State.readMem_moves _ _ _ _)
    | with_reducible refine Moves.foldl (fun _ _ => ?_) ?_
    | decide
    | split
    | dsimp +zetaDelta only

theorem State.sourceRead_moves (s k tag a n instant errs) : Moves [.mem, .fc, .ob] s (State.sourceRead s k tag a n instant errs) := by
  unfold State.sourceRead
  repeat' first
    | extract_lets
    | with_reducible exact Moves.refl _ _
    | with_reducible refine Moves.ite ?_ ?_
    | with_reducible apply Moves.step (State.tierRead_moves _ _ _ _ _ _ _ _)
    | with_reducible apply Moves.step (State.memErrors_moves _ _ _)
    | with_reducible apply Moves.step (State.holdRead_moves _ _ _ _ _ _ _)
    | with_reducible apply Moves.step (State.mvBounds_moves _ _)
    | with_reducible refine Moves.foldl (fun _ _ => ?_) ?_
    | decide
    | split
    | dsimp +zetaDelta only

theorem State.t3Spare_moves (s permille) : Moves [.mem] s (State.t3Spare s permille) := by
  unfold State.t3Spare
  repeat' first
    | extract_lets
    | with_reducible exact Moves.refl _ _
    | with_reducible refine Moves.ite ?_ ?_
    | with_reducible refine Moves.foldl (fun _ _ => ?_) ?_
    | fail_if_no_progress with_reducible refine Moves.record ?_ (.inl rfl) (.inr ⟨by decide, by with_reducible first | exact .same rfl rfl rfl | exact MemState.lose_keeps _ _ _ | exact MemState.store_keeps _ _ _ | exact .marks _ _ _ _ _ | exact .poison _ _ _⟩) (.inl rfl) (.inl rfl) (.inl rfl) (.inl rfl) (.inl rfl) (.inl rfl) (.inl rfl) (.inl rfl) (.inl rfl) (.inl rfl) (.inl rfl) (.inl rfl) (.inl rfl) (.inl rfl) (.inl rfl) (.inl rfl)
    | decide
    | split
    | dsimp +zetaDelta only

theorem State.t3Write_moves (s p a d instant spare) : Moves [.mem, .fc, .ob] s (State.t3Write s p a d instant spare) := by
  unfold State.t3Write
  repeat' first
    | extract_lets
    | with_reducible exact Moves.refl _ _
    | with_reducible refine Moves.ite ?_ ?_
    | with_reducible apply Moves.step (State.t3Spare_moves _ _)
    | with_reducible apply Moves.step (State.bump_moves _ _ _)
    | with_reducible apply Moves.step (State.raise_moves _ _ _ _ _)
    | with_reducible apply Moves.step (State.memStatus_moves _ _ _)
    | with_reducible apply Moves.step (State.t3Program_moves _ _)
    | with_reducible apply Moves.step (State.countTier_moves _ _ _ _)
    | with_reducible apply Moves.step (State.writeMem_moves _ _ _)
    | with_reducible refine Moves.foldl (fun _ _ => ?_) ?_
    | fail_if_no_progress with_reducible refine Moves.record ?_ (.inl rfl) (.inr ⟨by decide, by with_reducible first | exact .same rfl rfl rfl | exact MemState.lose_keeps _ _ _ | exact MemState.store_keeps _ _ _ | exact .marks _ _ _ _ _ | exact .poison _ _ _⟩) (.inl rfl) (.inl rfl) (.inl rfl) (.inl rfl) (.inl rfl) (.inl rfl) (.inl rfl) (.inl rfl) (.inl rfl) (.inl rfl) (.inl rfl) (.inl rfl) (.inl rfl) (.inl rfl) (.inl rfl) (.inl rfl)
    | decide
    | split
    | dsimp +zetaDelta only

theorem State.destWrite_moves (s k a d instant spare) : Moves [.mem, .fc, .ob] s (State.destWrite s k a d instant spare) := by
  unfold State.destWrite
  repeat' first
    | extract_lets
    | with_reducible exact Moves.refl _ _
    | with_reducible refine Moves.ite ?_ ?_
    | with_reducible apply Moves.step (State.addAccess_moves _ _)
    | with_reducible apply Moves.step (State.t3Write_moves _ _ _ _ _ _)
    | with_reducible apply Moves.step (State.countTier_moves _ _ _ _)
    | with_reducible apply Moves.step (State.writeMem_moves _ _ _)
    | with_reducible apply Moves.step (State.mvBounds_moves _ _)
    | with_reducible refine Moves.foldl (fun _ _ => ?_) ?_
    | decide
    | split
    | dsimp +zetaDelta only

theorem State.countEntry_moves (s k) : Moves [.ob] s (State.countEntry s k) := by
  unfold State.countEntry
  repeat' first
    | extract_lets
    | with_reducible exact Moves.refl _ _
    | with_reducible refine Moves.ite ?_ ?_
    | with_reducible apply Moves.step (State.bump_moves _ _ _)
    | with_reducible refine Moves.foldl (fun _ _ => ?_) ?_
    | decide
    | split
    | dsimp +zetaDelta only

theorem State.reserve_moves (s k n) : Moves [.qf, .ob] s (State.reserve s k n) := by
  unfold State.reserve
  repeat' first
    | extract_lets
    | with_reducible exact Moves.refl _ _
    | with_reducible refine Moves.ite ?_ ?_
    | with_reducible apply Moves.step (State.setMover_moves _ _ _)
    | with_reducible apply Moves.step (State.peak_moves _ _ _)
    | with_reducible refine Moves.foldl (fun _ _ => ?_) ?_
    | decide
    | split
    | dsimp +zetaDelta only

theorem State.takeSlot_moves (s k x) : Moves [.mem, .qf] s (State.takeSlot s k x) := by
  unfold State.takeSlot
  repeat' first
    | extract_lets
    | with_reducible exact Moves.refl _ _
    | with_reducible refine Moves.ite ?_ ?_
    | with_reducible apply Moves.step (State.setMover_moves _ _ _)
    | with_reducible apply Moves.step (State.useSlot_moves _ _)
    | with_reducible refine Moves.foldl (fun _ _ => ?_) ?_
    | decide
    | split
    | dsimp +zetaDelta only

theorem State.countMover_moves (s k n) : Moves [.qf, .ob] s (State.countMover s k n) := by
  unfold State.countMover
  repeat' first
    | extract_lets
    | with_reducible exact Moves.refl _ _
    | with_reducible refine Moves.ite ?_ ?_
    | with_reducible apply Moves.step (State.setMover_moves _ _ _)
    | with_reducible apply Moves.step (State.bump_moves _ _ _)
    | with_reducible refine Moves.foldl (fun _ _ => ?_) ?_
    | decide
    | split
    | dsimp +zetaDelta only

theorem State.sourceAccess_moves (s k i errs) : Moves [.mem, .qf, .fc, .ob] s (State.sourceAccess s k i errs) := by
  unfold State.sourceAccess
  repeat' first
    | extract_lets
    | with_reducible exact Moves.refl _ _
    | with_reducible refine Moves.ite ?_ ?_
    | with_reducible apply Moves.step (State.intoBuffer_moves _ _ _ _ _)
    | with_reducible apply Moves.step (State.takeQueue_moves _ _)
    | with_reducible apply Moves.step (State.countEntry_moves _ _)
    | with_reducible apply Moves.step (State.reserve_moves _ _ _)
    | with_reducible apply Moves.step (State.takeSlot_moves _ _ _)
    | with_reducible apply Moves.step (State.countMover_moves _ _ _)
    | with_reducible apply Moves.step (State.addAccess_moves _ _)
    | with_reducible apply Moves.step (State.sourceRead_moves _ _ _ _ _ _ _)
    | with_reducible refine Moves.foldl (fun _ _ => ?_) ?_
    | decide
    | split
    | dsimp +zetaDelta only

theorem State.freeRoom_moves (s k n bad) : Moves [.qf, .fc] s (State.freeRoom s k n bad) := by
  unfold State.freeRoom
  repeat' first
    | extract_lets
    | with_reducible exact Moves.refl _ _
    | with_reducible refine Moves.ite ?_ ?_
    | with_reducible apply Moves.step (State.setMover_moves _ _ _)
    | with_reducible apply Moves.step (State.raiseFor_moves _ _ _ _ _)
    | with_reducible refine Moves.foldl (fun _ _ => ?_) ?_
    | decide
    | split
    | dsimp +zetaDelta only

end Sys2Proof.Machine
end

