-- ==== Sys2Proof/Laws/MovesBench.lean ====
section
/-! SUPPORT. What the operations of Machine/Bench.lean keep, and the parts of the state they stay in. -/

namespace Sys2Proof.Machine

theorem State.laneLoadNow_moves (s c j d lanes) : Moves [.lanes, .mem, .fc, .ob] s (State.laneLoadNow s c j d lanes) := by
  unfold State.laneLoadNow
  repeat' first
    | extract_lets
    | with_reducible exact Moves.refl _ _
    | with_reducible refine Moves.ite ?_ ?_
    | with_reducible apply Moves.step (State.loadLanes_moves _ _ _)
    | with_reducible apply Moves.step (State.setCluster_moves _ _ _)
    | with_reducible refine Moves.foldl (fun _ _ => ?_) ?_
    | decide
    | split
    | dsimp +zetaDelta only

theorem State.slotLoadNow_moves (s c slot off) : Moves [.lanes, .mem, .fc, .ob] s (State.slotLoadNow s c slot off) := by
  unfold State.slotLoadNow
  repeat' first
    | extract_lets
    | with_reducible exact Moves.refl _ _
    | with_reducible refine Moves.ite ?_ ?_
    | with_reducible apply Moves.step (State.loadFlagByte_moves _ _ _)
    | with_reducible apply Moves.step (State.setCluster_moves _ _ _)
    | with_reducible refine Moves.foldl (fun _ _ => ?_) ?_
    | decide
    | split
    | dsimp +zetaDelta only

theorem State.runAccess_moves (s x) : Moves [.arrays, .lanes, .mem, .qf, .fc, .ob] s (State.runAccess s x) := by
  unfold State.runAccess
  repeat' first
    | extract_lets
    | with_reducible exact Moves.refl _ _
    | with_reducible refine Moves.ite ?_ ?_
    | with_reducible apply Moves.step (State.laneLoadNow_moves _ _ _ _ _)
    | with_reducible apply Moves.step (State.storeLanes_moves _ _ _)
    | with_reducible apply Moves.step (State.slotLoadNow_moves _ _ _ _)
    | with_reducible apply Moves.step (State.storeSlot_moves _ _ _ _)
    | with_reducible apply Moves.step (State.orFlagByte_moves _ _ _ _)
    | with_reducible apply Moves.step (State.orFrameFlags_moves _ _ _)
    | with_reducible apply Moves.step (State.arrayCycle_moves _ _ _ _)
    | with_reducible apply Moves.step (State.arrayFlag_moves _ _ _)
    | with_reducible apply Moves.step (State.moverBenchRead_moves _ _ _ _ _ _ _)
    | with_reducible apply Moves.step (State.writeMem_moves _ _ _)
    | with_reducible refine Moves.foldl (fun _ _ => ?_) ?_
    | decide
    | split
    | dsimp +zetaDelta only

theorem State.runAccesses_moves (s l) : Moves [.arrays, .lanes, .mem, .qf, .fc, .ob] s (State.runAccesses s l) := by
  unfold State.runAccesses
  repeat' first
    | extract_lets
    | with_reducible exact Moves.refl _ _
    | with_reducible refine Moves.ite ?_ ?_
    | with_reducible apply Moves.step (State.runAccess_moves _ _)
    | with_reducible refine Moves.foldl (fun _ _ => ?_) ?_
    | decide
    | split
    | dsimp +zetaDelta only

theorem State.benchTo_moves (s n) : Moves [.arrays, .lanes, .mem, .qf, .fc, .ob] s (State.benchTo s n) := by
  unfold State.benchTo
  repeat' first
    | extract_lets
    | with_reducible exact Moves.refl _ _
    | with_reducible refine Moves.ite ?_ ?_
    | with_reducible apply Moves.step (State.runAccesses_moves _ _)
    | with_reducible refine Moves.foldl (fun _ _ => ?_) ?_
    | fail_if_no_progress with_reducible refine Moves.record ?_ (.inl rfl) (.inr ⟨by decide, by with_reducible first | exact .same rfl rfl rfl | exact MemState.lose_keeps _ _ _ | exact MemState.store_keeps _ _ _ | exact .marks _ _ _ _ _ | exact .poison _ _ _⟩) (.inl rfl) (.inl rfl) (.inl rfl) (.inl rfl) (.inl rfl) (.inl rfl) (.inl rfl) (.inl rfl) (.inl rfl) (.inl rfl) (.inl rfl) (.inl rfl) (.inl rfl) (.inl rfl) (.inl rfl) (.inl rfl)
    | decide
    | split
    | dsimp +zetaDelta only

theorem State.laneTurn_moves {l : List Part} {s : State} {c j t word : Nat} {u : LaneUpset} {f : State → State}
    (h : ∀ x, Moves l x (f x)) (sub : [.time, .arrays, .lanes, .mem, .qf, .fc, .ob].all l.contains = true) : MovesO l s (s.laneTurn c j t u word f) := by
  have hu : Moves l s ((s.upTo t).benchTo (dieOfCluster c)) :=
    ((State.upTo_moves _ _).weaken (sub_of (by rfl) sub)).trans ((State.benchTo_moves _ _).weaken (sub_of (by rfl) sub))
  have ht : ∀ x, Moves l x (State.takeTurn x c) := fun _ => (State.takeTurn_moves _ _).weaken (sub_of (by rfl) sub)
  have he : ∀ x, Moves l x (State.emptyTurn x c) := fun _ => (State.emptyTurn_moves _ _).weaken (sub_of (by rfl) sub)
  have hl : ∀ x, Moves l x (State.laneUpset x c j u) := fun _ => (State.laneUpset_moves _ _ _ _).weaken (sub_of (by rfl) sub)
  unfold State.laneTurn
  refine MovesO.ite ?_ (MovesO.next hu)
  refine MovesO.ite (MovesO.next ((hu.trans (ht _)).trans (he _))) ?_
  refine MovesO.ite ?_ (MovesO.next hu)
  refine MovesO.ite (MovesO.next ((hu.trans (ht _)).trans (hl _))) (MovesO.next (((hu.trans (ht _)).trans (hl _)).trans (h _)))

theorem State.laneIssue_moves {l : List Part} {s : State} {w : LaneAt} {word : Nat} {f : State → State}
    (h : ∀ x, Moves l x (f x)) (sub : [.time, .arrays, .lanes, .mem, .qf, .fc, .ob].all l.contains = true) : MovesO l s (s.laneIssue w word f) := State.laneTurn_moves h sub

theorem State.benchNow_moves (s) : Moves [.arrays, .lanes, .mem, .qf, .fc, .ob] s (State.benchNow s) := by
  unfold State.benchNow
  repeat' first
    | extract_lets
    | with_reducible exact Moves.refl _ _
    | with_reducible refine Moves.ite ?_ ?_
    | with_reducible apply Moves.step (State.benchTo_moves _ _)
    | with_reducible refine Moves.foldl (fun _ _ => ?_) ?_
    | decide
    | split
    | dsimp +zetaDelta only

theorem State.rowIssue_moves {l : List Part} {s : State} {r : RowAt} {word : Nat} {f : State → State}
    (h : ∀ x, Moves l x (f x)) (sub : [.time, .arrays, .lanes, .mem, .qf, .fc, .ob].all l.contains = true) : MovesO l s (s.rowIssue r word f) := State.laneTurn_moves h sub

theorem State.dropAccesses_moves (s p) : Moves [.mem] s (State.dropAccesses s p) := by
  unfold State.dropAccesses
  repeat' first
    | extract_lets
    | with_reducible exact Moves.refl _ _
    | with_reducible refine Moves.ite ?_ ?_
    | with_reducible refine Moves.foldl (fun _ _ => ?_) ?_
    | fail_if_no_progress with_reducible refine Moves.record ?_ (.inl rfl) (.inr ⟨by decide, by with_reducible first | exact .same rfl rfl rfl | exact MemState.lose_keeps _ _ _ | exact MemState.store_keeps _ _ _ | exact .marks _ _ _ _ _ | exact .poison _ _ _⟩) (.inl rfl) (.inl rfl) (.inl rfl) (.inl rfl) (.inl rfl) (.inl rfl) (.inl rfl) (.inl rfl) (.inl rfl) (.inl rfl) (.inl rfl) (.inl rfl) (.inl rfl) (.inl rfl) (.inl rfl) (.inl rfl)
    | decide
    | split
    | dsimp +zetaDelta only

theorem State.rebaseDie_moves (s n) : Moves [.arrays, .lanes, .mem, .qf, .clocks] s (State.rebaseDie s n) := by
  unfold State.rebaseDie
  repeat' first
    | extract_lets
    | with_reducible exact Moves.refl _ _
    | with_reducible refine Moves.ite ?_ ?_
    | with_reducible apply Moves.step (State.regrant_moves _ _ _)
    | with_reducible refine Moves.foldl (fun _ _ => ?_) ?_
    | fail_if_no_progress with_reducible refine Moves.record ?_ (.inl rfl) (.inr ⟨by decide, by with_reducible first | exact .same rfl rfl rfl | exact MemState.lose_keeps _ _ _ | exact MemState.store_keeps _ _ _ | exact .marks _ _ _ _ _ | exact .poison _ _ _⟩) (.inl rfl) (.inr (by decide)) (.inr (by decide)) (.inr (by decide)) (.inl rfl) (.inl rfl) (.inl rfl) (.inl rfl) (.inl rfl) (.inl rfl) (.inl rfl) (.inl rfl) (.inl rfl) (.inl rfl) (.inr (by decide)) (.inl rfl)
    | decide
    | split
    | dsimp +zetaDelta only

end Sys2Proof.Machine
end

