-- ==== Sys2Proof/Laws/MovesArrayCode.lean ====
section
/-! SUPPORT. What the operations of Machine/ArrayCode.lean keep, and the parts of the state they stay in. -/

namespace Sys2Proof.Machine

theorem execArrayEnd_moves (m t e s) : MovesO [.time, .arrays, .lanes, .mem, .qf, .fc, .ob] s (execArrayEnd m t e s) := by
  unfold execArrayEnd
  repeat' first
    | extract_lets
    | with_reducible exact Moves.refl _ _
    | with_reducible refine MovesO.next ?_
    | with_reducible refine MovesO.ite ?_ ?_
    | with_reducible exact MovesO.fault _
    | with_reducible exact MovesO.refused _
    | with_reducible refine Moves.ite ?_ ?_
    | with_reducible apply Moves.step (State.benchTo_moves _ _)
    | with_reducible apply Moves.step (State.upTo_moves _ _)
    | with_reducible apply Moves.step (State.arrayUpset_moves _ _ _)
    | with_reducible apply Moves.step (State.setArray_moves _ _ _)
    | with_reducible refine Moves.foldl (fun _ _ => ?_) ?_
    | decide
    | split
    | dsimp +zetaDelta only

theorem execArrayFootLoad_moves (m x t e s) : MovesO [.time, .arrays, .lanes, .mem, .qf, .fc, .ob] s (execArrayFootLoad m x t e s) := by
  unfold execArrayFootLoad State.issueArray
  repeat' first
    | extract_lets
    | with_reducible exact Moves.refl _ _
    | with_reducible refine MovesO.next ?_
    | with_reducible refine MovesO.ite ?_ ?_
    | with_reducible exact MovesO.fault _
    | with_reducible exact MovesO.refused _
    | with_reducible refine Moves.ite ?_ ?_
    | with_reducible apply Moves.step (State.arrayIssue_moves _ _ _ _ _ _ _)
    | with_reducible apply Moves.step (State.benchTo_moves _ _)
    | with_reducible apply Moves.step (State.upTo_moves _ _)
    | with_reducible apply Moves.step (State.arrayUpset_moves _ _ _)
    | with_reducible refine Moves.foldl (fun _ _ => ?_) ?_
    | decide
    | split
    | dsimp +zetaDelta only

theorem execArrayDrain_moves (m x t e s) : MovesO [.time, .arrays, .lanes, .mem, .qf, .fc, .ob] s (execArrayDrain m x t e s) := by
  unfold execArrayDrain State.issueArray
  repeat' first
    | extract_lets
    | with_reducible exact Moves.refl _ _
    | with_reducible refine MovesO.next ?_
    | with_reducible refine MovesO.ite ?_ ?_
    | with_reducible exact MovesO.fault _
    | with_reducible exact MovesO.refused _
    | with_reducible refine Moves.ite ?_ ?_
    | with_reducible apply Moves.step (State.bump_moves _ _ _)
    | with_reducible apply Moves.step (State.arrayIssue_moves _ _ _ _ _ _ _)
    | with_reducible apply Moves.step (State.benchTo_moves _ _)
    | with_reducible apply Moves.step (State.upTo_moves _ _)
    | with_reducible apply Moves.step (State.arrayUpset_moves _ _ _)
    | with_reducible refine Moves.foldl (fun _ _ => ?_) ?_
    | decide
    | split
    | dsimp +zetaDelta only

theorem execDeferredSignalSend_moves (g q s) : MovesO [.arrays, .qf, .ob] s (execDeferredSignalSend g q s) := by
  unfold execDeferredSignalSend
  repeat' first
    | extract_lets
    | with_reducible exact Moves.refl _ _
    | with_reducible refine MovesO.next ?_
    | with_reducible refine MovesO.ite ?_ ?_
    | with_reducible exact MovesO.fault _
    | with_reducible exact MovesO.refused _
    | with_reducible refine Moves.ite ?_ ?_
    | with_reducible apply Moves.step (State.sendQueue_moves _ _ _)
    | with_reducible apply Moves.step (State.setArray_moves _ _ _)
    | with_reducible apply Moves.step (State.setMover_moves _ _ _)
    | with_reducible refine Moves.foldl (fun _ _ => ?_) ?_
    | decide
    | split
    | dsimp +zetaDelta only

theorem execArrayPass_moves (m x t e s) : MovesO [.time, .arrays, .lanes, .mem, .qf, .fc, .ob] s (execArrayPass m x t e s) := by
  unfold execArrayPass State.issueArray
  repeat' first
    | extract_lets
    | with_reducible exact Moves.refl _ _
    | with_reducible refine MovesO.next ?_
    | with_reducible refine MovesO.ite ?_ ?_
    | with_reducible exact MovesO.fault _
    | with_reducible exact MovesO.refused _
    | with_reducible refine Moves.ite ?_ ?_
    | with_reducible apply Moves.step (State.failColumns_moves _ _ _ _)
    | with_reducible apply Moves.step (State.bump_moves _ _ _)
    | with_reducible apply Moves.step (State.raiseFor_moves _ _ _ _ _)
    | with_reducible apply Moves.step (State.arrayIssue_moves _ _ _ _ _ _ _)
    | with_reducible apply Moves.step (State.benchTo_moves _ _)
    | with_reducible apply Moves.step (State.upTo_moves _ _)
    | with_reducible apply Moves.step (State.arrayUpset_moves _ _ _)
    | with_reducible refine Moves.foldl (fun _ _ => ?_) ?_
    | decide
    | split
    | dsimp +zetaDelta only

theorem State.signalArray_moves (s m q) : Moves [.arrays, .qf, .ob] s (State.signalArray s m q) := by
  unfold State.signalArray
  repeat' first
    | extract_lets
    | with_reducible exact Moves.refl _ _
    | with_reducible refine Moves.ite ?_ ?_
    | with_reducible apply Moves.step (State.sendQueue_moves _ _ _)
    | with_reducible apply Moves.step (State.setArray_moves _ _ _)
    | with_reducible refine Moves.foldl (fun _ _ => ?_) ?_
    | decide
    | split
    | dsimp +zetaDelta only

theorem execArrayDescriptorComplete_moves (m t s) : MovesO [.time, .arrays, .lanes, .mem, .qf, .fc, .ob] s (execArrayDescriptorComplete m t s) := by
  unfold execArrayDescriptorComplete
  repeat' first
    | extract_lets
    | with_reducible exact Moves.refl _ _
    | with_reducible refine MovesO.next ?_
    | with_reducible refine MovesO.ite ?_ ?_
    | with_reducible exact MovesO.fault _
    | with_reducible exact MovesO.refused _
    | with_reducible refine Moves.ite ?_ ?_
    | with_reducible apply Moves.step (State.benchTo_moves _ _)
    | with_reducible apply Moves.step (State.upTo_moves _ _)
    | with_reducible apply Moves.step (State.finishPass_moves _ _ _)
    | with_reducible apply Moves.step (State.setArray_moves _ _ _)
    | with_reducible apply Moves.step (State.signalArray_moves _ _ _)
    | with_reducible refine Moves.foldl (fun _ _ => ?_) ?_
    | decide
    | split
    | dsimp +zetaDelta only

theorem execArrayLoad_moves (m x t e s) : MovesO [.time, .arrays, .lanes, .mem, .qf, .fc, .ob] s (execArrayLoad m x t e s) := by
  unfold execArrayLoad State.issueArray
  repeat' first
    | extract_lets
    | with_reducible exact Moves.refl _ _
    | with_reducible refine MovesO.next ?_
    | with_reducible refine MovesO.ite ?_ ?_
    | with_reducible exact MovesO.fault _
    | with_reducible exact MovesO.refused _
    | with_reducible refine Moves.ite ?_ ?_
    | with_reducible apply Moves.step (State.finishPasses_moves _ _ _)
    | with_reducible apply Moves.step (State.bump_moves _ _ _)
    | with_reducible apply Moves.step (State.arrayIssue_moves _ _ _ _ _ _ _)
    | with_reducible apply Moves.step (State.setArray_moves _ _ _)
    | with_reducible apply Moves.step (State.benchTo_moves _ _)
    | with_reducible apply Moves.step (State.upTo_moves _ _)
    | with_reducible apply Moves.step (State.arrayUpset_moves _ _ _)
    | with_reducible refine Moves.foldl (fun _ _ => ?_) ?_
    | decide
    | split
    | dsimp +zetaDelta only

end Sys2Proof.Machine
end

