-- ==== Sys2Proof/Laws/MovesMailOps.lean ====
section
/-! SUPPORT. What the operations of Machine/MailOps.lean keep, and the parts of the state they stay in. -/

namespace Sys2Proof.Machine

theorem State.setSlot_moves (s k v) : Moves [.mp] s (State.setSlot s k v) := by
  unfold State.setSlot
  repeat' first
    | extract_lets
    | with_reducible exact Moves.refl _ _
    | with_reducible refine Moves.ite ?_ ?_
    | with_reducible refine Moves.foldl (fun _ _ => ?_) ?_
    | fail_if_no_progress with_reducible refine Moves.record ?_ (.inl rfl) (.inl rfl) (.inl rfl) (.inl rfl) (.inl rfl) (.inl rfl) (.inl rfl) (.inl rfl) (.inl rfl) (.inl rfl) (.inl rfl) (.inl rfl) (.inl rfl) (.inr (by decide)) (.inl rfl) (.inl rfl) (.inl rfl) (.inl rfl)
    | decide
    | split
    | dsimp +zetaDelta only

theorem State.respond_moves (s k resp) : Moves [.host, .mp, .ob] s (State.respond s k resp) := by
  unfold State.respond
  repeat' first
    | extract_lets
    | with_reducible exact Moves.refl _ _
    | with_reducible refine Moves.ite ?_ ?_
    | with_reducible apply Moves.step (State.setSlot_moves _ _ _)
    | with_reducible apply Moves.step (State.setVf_moves _ _ _)
    | with_reducible apply Moves.step (State.pfEvent_moves _ _)
    | with_reducible apply Moves.step (State.vfEvent_moves _ _ _)
    | with_reducible refine Moves.foldl (fun _ _ => ?_) ?_
    | fail_if_no_progress with_reducible refine Moves.record ?_ (.inl rfl) (.inl rfl) (.inl rfl) (.inl rfl) (.inl rfl) (.inl rfl) (.inl rfl) (.inr (by decide)) (.inl rfl) (.inl rfl) (.inl rfl) (.inl rfl) (.inl rfl) (.inr (by decide)) (.inl rfl) (.inl rfl) (.inl rfl) (.inl rfl)
    | decide
    | split
    | dsimp +zetaDelta only

theorem State.refuse_moves (s k r status fl) : Moves [.host, .mp, .ob] s (State.refuse s k r status fl) := by
  unfold State.refuse
  repeat' first
    | extract_lets
    | with_reducible exact Moves.refl _ _
    | with_reducible refine Moves.ite ?_ ?_
    | with_reducible apply Moves.step (State.respond_moves _ _ _)
    | with_reducible apply Moves.step (State.bump_moves _ _ _)
    | with_reducible refine Moves.foldl (fun _ _ => ?_) ?_
    | decide
    | split
    | dsimp +zetaDelta only

theorem State.journal_moves (s k r resp) : Moves [.mp, .ob] s (State.journal s k r resp) := by
  unfold State.journal
  repeat' first
    | extract_lets
    | with_reducible exact Moves.refl _ _
    | with_reducible refine Moves.ite ?_ ?_
    | with_reducible apply Moves.step (State.bump_moves _ _ _)
    | with_reducible apply Moves.step (State.setSlot_moves _ _ _)
    | with_reducible refine Moves.foldl (fun _ _ => ?_) ?_
    | fail_if_no_progress with_reducible refine Moves.record ?_ (.inl rfl) (.inl rfl) (.inl rfl) (.inl rfl) (.inl rfl) (.inl rfl) (.inl rfl) (.inl rfl) (.inl rfl) (.inl rfl) (.inl rfl) (.inl rfl) (.inl rfl) (.inr (by decide)) (.inl rfl) (.inl rfl) (.inl rfl) (.inl rfl)
    | decide
    | split
    | dsimp +zetaDelta only

theorem State.carryOut_moves {l : List Part} {s : State} {k : Nat} {c : Cmd} {r : Bytes}
    (h : ∀ k b, MovesR l s (c.act s k b)) (sub : [.host, .mp, .ob].all l.contains = true) : Moves l s (s.carryOut k c r) := by
  have hr : ∀ x k r st fl, Moves l x (State.refuse x k r st fl) := fun _ _ _ _ _ => (State.refuse_moves _ _ _ _ _).weaken (sub_of (by rfl) sub)
  have hp : ∀ x k r, Moves l x (State.respond x k r) := fun _ _ _ => (State.respond_moves _ _ _).weaken (sub_of (by rfl) sub)
  have hj : ∀ x k r t, Moves l x (State.journal x k r t) := fun _ _ _ _ => (State.journal_moves _ _ _ _).weaken (sub_of (by rfl) sub)
  have hb : ∀ x i n, Moves l x (State.bump x i n) := fun _ _ _ => (State.bump_moves _ _ _).weaken (sub_of (by rfl) sub)
  have hm : Moves l s { s with mp := { s.mp with copyDue := true } } :=
    .weaken (l' := [.mp]) (Moves.record (.refl _ _) (.inl rfl) (.inl rfl) (.inl rfl) (.inl rfl) (.inl rfl) (.inl rfl) (.inl rfl)
      (.inl rfl) (.inl rfl) (.inl rfl) (.inl rfl) (.inl rfl) (.inl rfl) (.inr rfl) (.inl rfl) (.inl rfl) (.inl rfl) (.inl rfl))
      (sub_of (by rfl) sub)
  have hf : Moves l s ((State.refuse { s with mp := { s.mp with copyDue := true } } k r stBusy 0).bump 0xA27 1) :=
    (hm.trans (hr _ _ _ _ _)).trans (hb _ _ _)
  unfold State.carryOut
  extract_lets
  split
  · split
    · exact (hr _ _ _ _ _).trans (hb _ _ _)
    · extract_lets
      split
      · exact (hp _ _ _).trans (hb _ _ _)
      · split
        · exact ((hj _ _ _ _).trans (hp _ _ _)).trans (hb _ _ _)
        · exact hf
  · rename_i heq
    have ha := h _ _ _ _ _ heq
    extract_lets
    split
    · exact ha.trans (hp _ _ _)
    · split
      · exact (ha.trans (hj _ _ _ _)).trans (hp _ _ _)
      · exact hf

theorem State.checkAndRun_moves {l : List Part} {s : State} {k : Nat} {c : Cmd} {r : Bytes}
    (h : ∀ k b, MovesR l s (c.act s k b)) (sub : [.host, .mp, .ob].all l.contains = true) : Moves l s (s.checkAndRun k c r) := by
  have hr : ∀ x k r st fl, Moves l x (State.refuse x k r st fl) := fun _ _ _ _ _ => (State.refuse_moves _ _ _ _ _).weaken (sub_of (by rfl) sub)
  have hc : Moves l s (s.carryOut k c r) := State.carryOut_moves h (sub_of (by rfl) sub)
  have hp : ∀ x k r, Moves l x (State.respond x k r) := fun _ _ _ => (State.respond_moves _ _ _).weaken (sub_of (by rfl) sub)
  have hb : ∀ x i n, Moves l x (State.bump x i n) := fun _ _ _ => (State.bump_moves _ _ _).weaken (sub_of (by rfl) sub)
  unfold State.checkAndRun
  repeat' with_reducible first
    | exact hr _ _ _ _ _
    | exact hc
    | exact (hp _ _ _).trans (hb _ _ _)
    | refine Moves.ite ?_ ?_
    | split

theorem State.answerUnknown_moves (s l) : Moves [.host, .mp, .ob] s (State.answerUnknown s l) := by
  induction l generalizing s with
  | nil => exact Moves.refl _ _
  | cons r rest ih =>
    unfold State.answerUnknown
    repeat' (first
      | extract_lets
      | with_reducible exact Moves.refl _ _
      | with_reducible refine Moves.trans ?_ (ih _)
      | with_reducible refine Moves.ite ?_ ?_
      | with_reducible apply Moves.step (State.bump_moves _ _ _)
      | with_reducible apply Moves.step (State.refuse_moves _ _ _ _ _)
      | with_reducible refine Moves.foldl (fun _ _ => ?_) ?_
      | decide
      | split
      | dsimp +zetaDelta only)

theorem State.settleUnknown_moves (s) : Moves [.host, .mp, .ob] s (State.settleUnknown s) := by
  unfold State.settleUnknown
  repeat' first
    | extract_lets
    | with_reducible exact Moves.refl _ _
    | with_reducible refine Moves.ite ?_ ?_
    | with_reducible apply Moves.step (State.answerUnknown_moves _ _)
    | with_reducible refine Moves.foldl (fun _ _ => ?_) ?_
    | decide
    | split
    | dsimp +zetaDelta only

theorem State.serve_moves {l : List Part} {s : State} {k t : Nat} {c : Cmd}
    (h : ∀ s k b, MovesR l s (c.act s k b)) (sub : [.time, .host, .fc, .mp, .ob].all l.contains = true) : MovesO l s (s.serve c k t) := by
  have hu : Moves l s (s.onEdge t 7) := (State.onEdge_moves _ _ _).weaken (sub_of (by rfl) sub)
  have hb : ∀ x i n, Moves l x (State.bump x i n) := fun _ _ _ => (State.bump_moves _ _ _).weaken (sub_of (by rfl) sub)
  have hk : ∀ x, Moves l x (State.settleUnknown x) := fun _ => (State.settleUnknown_moves _).weaken (sub_of (by rfl) sub)
  unfold State.serve
  extract_lets
  split
  · split
    · extract_lets
      refine MovesO.next (Moves.trans (Moves.trans (hu.trans ?_) (hb _ _ _)) (hk _))
      refine Moves.ite (State.checkAndRun_moves (h _) (sub_of (by rfl) sub)) ?_
      exact (State.refuse_moves _ _ _ _ _).weaken (sub_of (by rfl) sub)
    · exact MovesO.next hu
  · exact MovesO.next hu

theorem State.requestReady_moves (s k r from_) : Moves [.mp] s (State.requestReady s k r from_) := by
  unfold State.requestReady
  repeat' first
    | extract_lets
    | with_reducible exact Moves.refl _ _
    | with_reducible refine Moves.ite ?_ ?_
    | with_reducible apply Moves.step (State.setSlot_moves _ _ _)
    | with_reducible refine Moves.foldl (fun _ _ => ?_) ?_
    | fail_if_no_progress with_reducible refine Moves.record ?_ (.inl rfl) (.inl rfl) (.inl rfl) (.inl rfl) (.inl rfl) (.inl rfl) (.inl rfl) (.inl rfl) (.inl rfl) (.inl rfl) (.inl rfl) (.inl rfl) (.inl rfl) (.inr (by decide)) (.inl rfl) (.inl rfl) (.inl rfl) (.inl rfl)
    | decide
    | split
    | dsimp +zetaDelta only

theorem State.pcieGo_moves (s k) : Moves [.host, .mp, .ob] s (State.pcieGo s k) := by
  unfold State.pcieGo
  repeat' first
    | extract_lets
    | with_reducible exact Moves.refl _ _
    | with_reducible refine Moves.ite ?_ ?_
    | with_reducible apply Moves.step (State.settleUnknown_moves _)
    | with_reducible apply Moves.step (State.requestReady_moves _ _ _ _)
    | with_reducible refine Moves.foldl (fun _ _ => ?_) ?_
    | decide
    | split
    | dsimp +zetaDelta only

theorem State.windowWrite_moves (s k off b) : MovesQ [.host, .mp, .ob] s (State.windowWrite s k off b) := by
  unfold State.windowWrite
  repeat' first
    | extract_lets
    | with_reducible exact Moves.refl _ _
    | with_reducible refine MovesQ.some ?_
    | with_reducible refine MovesQ.ite ?_ ?_
    | with_reducible exact MovesQ.none
    | with_reducible refine Moves.ite ?_ ?_
    | with_reducible apply Moves.step (State.setSlot_moves _ _ _)
    | with_reducible apply Moves.step (State.pcieGo_moves _ _)
    | with_reducible refine Moves.foldl (fun _ _ => ?_) ?_
    | decide
    | split
    | dsimp +zetaDelta only

end Sys2Proof.Machine
end

