-- ==== Sys2Proof/Laws/MovesFabricOps.lean ====
section
/-! SUPPORT. What the operations of Machine/FabricOps.lean keep, and the parts of the state they stay in. -/

namespace Sys2Proof.Machine

theorem State.setLink_moves (s k l) : Moves [.fabric] s (State.setLink s k l) := by
  unfold State.setLink
  repeat' first
    | extract_lets
    | with_reducible exact Moves.refl _ _
    | with_reducible refine Moves.ite ?_ ?_
    | with_reducible refine Moves.foldl (fun _ _ => ?_) ?_
    | fail_if_no_progress with_reducible refine Moves.record ?_ (.inl rfl) (.inl rfl) (.inl rfl) (.inl rfl) (.inl rfl) (.inl rfl) (.inr (by decide)) (.inl rfl) (.inl rfl) (.inl rfl) (.inl rfl) (.inl rfl) (.inl rfl) (.inl rfl) (.inl rfl) (.inl rfl) (.inl rfl) (.inl rfl)
    | decide
    | split
    | dsimp +zetaDelta only

theorem State.flitLeaves_moves (s k h r) : Moves [.fabric, .ob] s (State.flitLeaves s k h r) := by
  unfold State.flitLeaves
  repeat' first
    | extract_lets
    | with_reducible exact Moves.refl _ _
    | with_reducible refine Moves.ite ?_ ?_
    | with_reducible apply Moves.step (State.setLink_moves _ _ _)
    | with_reducible apply Moves.step (State.bump_moves _ _ _)
    | with_reducible refine Moves.foldl (fun _ _ => ?_) ?_
    | fail_if_no_progress with_reducible refine Moves.record ?_ (.inl rfl) (.inl rfl) (.inl rfl) (.inl rfl) (.inl rfl) (.inl rfl) (.inr (by decide)) (.inl rfl) (.inl rfl) (.inl rfl) (.inl rfl) (.inl rfl) (.inl rfl) (.inl rfl) (.inl rfl) (.inl rfl) (.inl rfl) (.inl rfl)
    | decide
    | split
    | dsimp +zetaDelta only

theorem State.flitOut_moves (s k h f) : Moves [.fabric, .ob] s (State.flitOut s k h f) := by
  unfold State.flitOut
  repeat' first
    | extract_lets
    | with_reducible exact Moves.refl _ _
    | with_reducible refine Moves.ite ?_ ?_
    | with_reducible apply Moves.step (State.flitLeaves_moves _ _ _ _)
    | with_reducible refine Moves.foldl (fun _ _ => ?_) ?_
    | decide
    | split
    | dsimp +zetaDelta only

theorem State.sendDowels_moves (fuel s k h) : Moves [.fabric, .ob] s (State.sendDowels fuel s k h) := by
  induction fuel generalizing s with
  | zero => exact Moves.refl _ _
  | succ n ih =>
    unfold State.sendDowels
    repeat' (first
      | extract_lets
      | with_reducible exact Moves.refl _ _
      | with_reducible refine Moves.trans ?_ (ih _)
      | with_reducible refine Moves.ite ?_ ?_
      | with_reducible apply Moves.step (State.flitOut_moves _ _ _ _)
      | with_reducible apply Moves.step (State.setLink_moves _ _ _)
      | with_reducible refine Moves.foldl (fun _ _ => ?_) ?_
      | decide
      | split
      | dsimp +zetaDelta only)

theorem State.sendOne_moves (s k h) : Moves [.fabric, .ob] s (State.sendOne s k h).2 := by
  unfold State.sendOne
  extract_lets l x p numbered
  have hn : ∀ ch u, MovesQ [.fabric, .ob] s (numbered ch u) := by
    intro ch u
    simp only [numbered]
    repeat' first
      | with_reducible exact MovesQ.none
      | with_reducible refine MovesQ.some ?_
      | with_reducible refine MovesQ.ite ?_ ?_
      | with_reducible apply Moves.step (State.flitOut_moves _ _ _ _)
      | with_reducible apply Moves.step (State.setLink_moves _ _ _)
      | with_reducible exact Moves.refl _ _
      | decide
      | split
  clear_value numbered
  repeat' first
    | with_reducible exact Moves.refl _ _
    | exact hn _ _ _ ‹_›
    | with_reducible apply Moves.step (State.flitOut_moves _ _ _ _)
    | with_reducible apply Moves.step (State.setLink_moves _ _ _)
    | with_reducible refine Moves.foldl (fun _ _ => ?_) ?_
    | decide
    | split
    | extract_lets

theorem State.drainHalf_moves (fuel s k h) : Moves [.fabric, .ob] s (State.drainHalf fuel s k h) := by
  induction fuel generalizing s with
  | zero => exact Moves.refl _ _
  | succ n ih =>
    unfold State.drainHalf
    repeat' (first
      | extract_lets
      | with_reducible exact Moves.refl _ _
      | with_reducible refine Moves.trans ?_ (ih _)
      | with_reducible refine Moves.ite ?_ ?_
      | with_reducible apply Moves.step (State.sendOne_moves _ _ _)
      | with_reducible refine Moves.foldl (fun _ _ => ?_) ?_
      | decide
      | split
      | dsimp +zetaDelta only)

theorem State.sendIdle_moves (fuel s k h) : Moves [.fabric, .ob] s (State.sendIdle fuel s k h) := by
  induction fuel generalizing s with
  | zero => exact Moves.refl _ _
  | succ n ih =>
    unfold State.sendIdle
    repeat' (first
      | extract_lets
      | with_reducible exact Moves.refl _ _
      | with_reducible refine Moves.trans ?_ (ih _)
      | with_reducible refine Moves.ite ?_ ?_
      | with_reducible apply Moves.step (State.flitLeaves_moves _ _ _ _)
      | with_reducible refine Moves.foldl (fun _ _ => ?_) ?_
      | decide
      | split
      | dsimp +zetaDelta only)

theorem State.drain_moves (s k h) : Moves [.fabric, .ob] s (State.drain s k h) := by
  unfold State.drain
  repeat' first
    | extract_lets
    | with_reducible exact Moves.refl _ _
    | with_reducible refine Moves.ite ?_ ?_
    | with_reducible apply Moves.step (State.sendDowels_moves _ _ _ _)
    | with_reducible apply Moves.step (State.drainHalf_moves _ _ _ _)
    | with_reducible apply Moves.step (State.sendIdle_moves _ _ _ _)
    | with_reducible refine Moves.foldl (fun _ _ => ?_) ?_
    | decide
    | split
    | dsimp +zetaDelta only

theorem State.dowelOut_moves (s k h d) : Moves [.fabric, .ob] s (State.dowelOut s k h d) := by
  unfold State.dowelOut
  repeat' first
    | extract_lets
    | with_reducible exact Moves.refl _ _
    | with_reducible refine Moves.ite ?_ ?_
    | with_reducible apply Moves.step (State.bump_moves _ _ _)
    | with_reducible apply Moves.step (State.drain_moves _ _ _)
    | with_reducible apply Moves.step (State.setLink_moves _ _ _)
    | with_reducible refine Moves.foldl (fun _ _ => ?_) ?_
    | decide
    | split
    | dsimp +zetaDelta only

theorem State.dowelToParent_moves (s d) : Moves [.fabric, .ob] s (State.dowelToParent s d) := by
  unfold State.dowelToParent
  repeat' first
    | extract_lets
    | with_reducible exact Moves.refl _ _
    | with_reducible refine Moves.ite ?_ ?_
    | with_reducible apply Moves.step (State.dowelOut_moves _ _ _ _)
    | with_reducible refine Moves.foldl (fun _ _ => ?_) ?_
    | decide
    | split
    | dsimp +zetaDelta only

theorem State.dowelToChild_moves (s c d) : Moves [.fabric, .ob] s (State.dowelToChild s c d) := by
  unfold State.dowelToChild
  repeat' first
    | extract_lets
    | with_reducible exact Moves.refl _ _
    | with_reducible refine Moves.ite ?_ ?_
    | with_reducible apply Moves.step (State.dowelOut_moves _ _ _ _)
    | with_reducible refine Moves.foldl (fun _ _ => ?_) ?_
    | decide
    | split
    | dsimp +zetaDelta only

theorem State.dowelToChildrenOf_moves (s dom d) : Moves [.fabric, .ob] s (State.dowelToChildrenOf s dom d) := by
  unfold State.dowelToChildrenOf
  repeat' first
    | extract_lets
    | with_reducible exact Moves.refl _ _
    | with_reducible refine Moves.ite ?_ ?_
    | with_reducible apply Moves.step (State.dowelToChild_moves _ _ _)
    | with_reducible refine Moves.foldl (fun _ _ => ?_) ?_
    | decide
    | split
    | dsimp +zetaDelta only

theorem State.dowelToChildren_moves (s d) : Moves [.fabric, .ob] s (State.dowelToChildren s d) := by
  unfold State.dowelToChildren
  repeat' first
    | extract_lets
    | with_reducible exact Moves.refl _ _
    | with_reducible refine Moves.ite ?_ ?_
    | with_reducible apply Moves.step (State.dowelToChildrenOf_moves _ _ _)
    | with_reducible refine Moves.foldl (fun _ _ => ?_) ?_
    | decide
    | split
    | dsimp +zetaDelta only

theorem State.passHalt_moves (s d) : Moves [.fabric, .ob] s (State.passHalt s d) := by
  unfold State.passHalt
  repeat' first
    | extract_lets
    | with_reducible exact Moves.refl _ _
    | with_reducible refine Moves.ite ?_ ?_
    | with_reducible apply Moves.step (State.dowelToParent_moves _ _)
    | with_reducible apply Moves.step (State.dowelToChildren_moves _ _)
    | with_reducible refine Moves.foldl (fun _ _ => ?_) ?_
    | fail_if_no_progress with_reducible refine Moves.record ?_ (.inl rfl) (.inl rfl) (.inl rfl) (.inl rfl) (.inl rfl) (.inl rfl) (.inr (by decide)) (.inl rfl) (.inl rfl) (.inl rfl) (.inl rfl) (.inl rfl) (.inl rfl) (.inl rfl) (.inl rfl) (.inl rfl) (.inl rfl) (.inl rfl)
    | decide
    | split
    | dsimp +zetaDelta only

theorem State.sendHaltDowel_moves (s job) : Moves [.fabric, .ob] s (State.sendHaltDowel s job) := by
  unfold State.sendHaltDowel
  repeat' first
    | extract_lets
    | with_reducible exact Moves.refl _ _
    | with_reducible refine Moves.ite ?_ ?_
    | with_reducible apply Moves.step (State.passHalt_moves _ _)
    | with_reducible refine Moves.foldl (fun _ _ => ?_) ?_
    | decide
    | split
    | dsimp +zetaDelta only

theorem State.transmit_moves (s k h fs) : Moves [.fabric, .ob] s (State.transmit s k h fs) := by
  unfold State.transmit
  repeat' first
    | extract_lets
    | with_reducible exact Moves.refl _ _
    | with_reducible refine Moves.ite ?_ ?_
    | with_reducible apply Moves.step (State.drain_moves _ _ _)
    | with_reducible apply Moves.step (State.setLink_moves _ _ _)
    | with_reducible refine Moves.foldl (fun _ _ => ?_) ?_
    | decide
    | split
    | dsimp +zetaDelta only

theorem State.originateAt_moves (s rt x) : Moves [.fabric, .fc, .ob] s (State.originateAt s rt x) := by
  unfold State.originateAt
  repeat' first
    | extract_lets
    | with_reducible exact Moves.refl _ _
    | with_reducible refine Moves.ite ?_ ?_
    | with_reducible apply Moves.step (State.raiseFor_moves _ _ _ _ _)
    | with_reducible apply Moves.step (State.transmit_moves _ _ _ _)
    | with_reducible refine Moves.foldl (fun _ _ => ?_) ?_
    | decide
    | split
    | dsimp +zetaDelta only

theorem State.originate_moves (s x) : Moves [.fabric, .fc, .ob] s (State.originate s x) := by
  unfold State.originate
  repeat' first
    | extract_lets
    | with_reducible exact Moves.refl _ _
    | with_reducible refine Moves.ite ?_ ?_
    | with_reducible apply Moves.step (State.originateAt_moves _ _ _)
    | with_reducible refine Moves.foldl (fun _ _ => ?_) ?_
    | decide
    | split
    | dsimp +zetaDelta only

theorem State.replayPath_moves (s k h) : Moves [.fabric, .ob] s (State.replayPath s k h) := by
  unfold State.replayPath
  repeat' first
    | extract_lets
    | with_reducible exact Moves.refl _ _
    | with_reducible refine Moves.ite ?_ ?_
    | with_reducible apply Moves.step (State.sendDowels_moves _ _ _ _)
    | with_reducible apply Moves.step (State.flitLeaves_moves _ _ _ _)
    | with_reducible refine Moves.foldl (fun _ _ => ?_) ?_
    | decide
    | split
    | dsimp +zetaDelta only

end Sys2Proof.Machine
end

