-- ==== Sys2Proof/Laws/MovesJobs.lean ====
section
/-! SUPPORT. What the operations of Machine/Jobs.lean keep, and the parts of the state they stay in. -/

namespace Sys2Proof.Machine

theorem State.flushFrameLocal_moves (s j) : Moves [.qf] s (State.flushFrameLocal s j) := by
  unfold State.flushFrameLocal
  repeat' first
    | extract_lets
    | with_reducible exact Moves.refl _ _
    | with_reducible refine Moves.ite ?_ ?_
    | with_reducible apply Moves.step (State.setQueue_moves _ _ _)
    | with_reducible refine Moves.foldl (fun _ _ => ?_) ?_
    | decide
    | split
    | dsimp +zetaDelta only

theorem State.withdrawSteps_moves (s p) : Moves [.shim] s (State.withdrawSteps s p) := by
  unfold State.withdrawSteps
  repeat' first
    | extract_lets
    | with_reducible exact Moves.refl _ _
    | with_reducible refine Moves.ite ?_ ?_
    | with_reducible refine Moves.foldl (fun _ _ => ?_) ?_
    | fail_if_no_progress with_reducible refine Moves.record ?_ (.inl rfl) (.inl rfl) (.inl rfl) (.inl rfl) (.inl rfl) (.inl rfl) (.inl rfl) (.inl rfl) (.inr (by decide)) (.inl rfl) (.inl rfl) (.inl rfl) (.inl rfl) (.inl rfl) (.inl rfl) (.inl rfl) (.inl rfl) (.inl rfl)
    | decide
    | split
    | dsimp +zetaDelta only

theorem State.haltRunning_moves (s p j) : Moves [.jigs, .qf, .shim] s (State.haltRunning s p j) := by
  unfold State.haltRunning
  repeat' first
    | extract_lets
    | with_reducible exact Moves.refl _ _
    | with_reducible refine Moves.ite ?_ ?_
    | with_reducible apply Moves.step (State.flushFrameLocal_moves _ _)
    | with_reducible apply Moves.step (State.setPartJig_moves _ _ _)
    | with_reducible apply Moves.step (State.withdrawSteps_moves _ _)
    | with_reducible apply Moves.step (State.setMover_moves _ _ _)
    | with_reducible refine Moves.foldl (fun _ _ => ?_) ?_
    | fail_if_no_progress with_reducible refine Moves.record ?_ (.inl rfl) (.inl rfl) (.inr (by decide)) (.inl rfl) (.inl rfl) (.inl rfl) (.inl rfl) (.inl rfl) (.inl rfl) (.inl rfl) (.inl rfl) (.inl rfl) (.inl rfl) (.inl rfl) (.inl rfl) (.inl rfl) (.inl rfl) (.inl rfl)
    | decide
    | split
    | dsimp +zetaDelta only

theorem State.deliverResult_moves (s r) : Moves [.jigs] s (State.deliverResult s r) := by
  unfold State.deliverResult
  repeat' first
    | extract_lets
    | with_reducible exact Moves.refl _ _
    | with_reducible refine Moves.ite ?_ ?_
    | with_reducible refine Moves.foldl (fun _ _ => ?_) ?_
    | fail_if_no_progress with_reducible refine Moves.record ?_ (.inl rfl) (.inl rfl) (.inr (by decide)) (.inl rfl) (.inl rfl) (.inl rfl) (.inl rfl) (.inl rfl) (.inl rfl) (.inl rfl) (.inl rfl) (.inl rfl) (.inl rfl) (.inl rfl) (.inl rfl) (.inl rfl) (.inl rfl) (.inl rfl)
    | decide
    | split
    | dsimp +zetaDelta only

theorem State.removePlans_moves (s p) : Moves [.jigs] s (State.removePlans s p) := by
  unfold State.removePlans
  repeat' first
    | extract_lets
    | with_reducible exact Moves.refl _ _
    | with_reducible refine Moves.ite ?_ ?_
    | with_reducible refine Moves.foldl (fun _ _ => ?_) ?_
    | fail_if_no_progress with_reducible refine Moves.record ?_ (.inl rfl) (.inl rfl) (.inr (by decide)) (.inl rfl) (.inl rfl) (.inl rfl) (.inl rfl) (.inl rfl) (.inl rfl) (.inl rfl) (.inl rfl) (.inl rfl) (.inl rfl) (.inl rfl) (.inl rfl) (.inl rfl) (.inl rfl) (.inl rfl)
    | decide
    | split
    | dsimp +zetaDelta only

theorem State.dropJig_moves (s p) : Moves [.jigs, .shim] s (State.dropJig s p) := by
  unfold State.dropJig
  repeat' first
    | extract_lets
    | with_reducible exact Moves.refl _ _
    | with_reducible refine Moves.ite ?_ ?_
    | with_reducible apply Moves.step (State.setPartJig_moves _ _ _)
    | with_reducible apply Moves.step (State.removePlans_moves _ _)
    | with_reducible apply Moves.step (State.withdrawSteps_moves _ _)
    | with_reducible refine Moves.foldl (fun _ _ => ?_) ?_
    | fail_if_no_progress with_reducible refine Moves.record ?_ (.inl rfl) (.inl rfl) (.inr (by decide)) (.inl rfl) (.inl rfl) (.inl rfl) (.inl rfl) (.inl rfl) (.inl rfl) (.inl rfl) (.inl rfl) (.inl rfl) (.inl rfl) (.inl rfl) (.inl rfl) (.inl rfl) (.inl rfl) (.inl rfl)
    | decide
    | split
    | dsimp +zetaDelta only

theorem State.abandonJig_moves (s p status) : Moves [.jigs, .shim] s (State.abandonJig s p status) := by
  unfold State.abandonJig
  repeat' first
    | extract_lets
    | with_reducible exact Moves.refl _ _
    | with_reducible refine Moves.ite ?_ ?_
    | with_reducible apply Moves.step (State.deliverResult_moves _ _)
    | with_reducible apply Moves.step (State.dropJig_moves _ _)
    | with_reducible refine Moves.foldl (fun _ _ => ?_) ?_
    | decide
    | split
    | dsimp +zetaDelta only

theorem State.haltPartition_moves (s p) : Moves [.jigs, .qf, .shim] s (State.haltPartition s p) := by
  unfold State.haltPartition
  repeat' first
    | extract_lets
    | with_reducible exact Moves.refl _ _
    | with_reducible refine Moves.ite ?_ ?_
    | with_reducible apply Moves.step (State.haltRunning_moves _ _ _)
    | with_reducible apply Moves.step (State.abandonJig_moves _ _ _)
    | with_reducible refine Moves.foldl (fun _ _ => ?_) ?_
    | decide
    | split
    | dsimp +zetaDelta only

theorem State.haltJob_moves (s job) : Moves [.frame, .jigs, .qf, .shim, .fc, .ob] s (State.haltJob s job) := by
  unfold State.haltJob
  repeat' first
    | extract_lets
    | with_reducible exact Moves.refl _ _
    | with_reducible refine Moves.ite ?_ ?_
    | with_reducible apply Moves.step (State.haltPartition_moves _ _)
    | with_reducible apply Moves.step (State.bump_moves _ _ _)
    | with_reducible apply Moves.step (State.raise_moves _ _ _ _ _)
    | with_reducible refine Moves.foldl (fun _ _ => ?_) ?_
    | fail_if_no_progress with_reducible refine Moves.record ?_ (.inr ⟨by decide, by first | exact id | exact fun _ => Nat.mod_lt _ (Nat.two_pow_pos _) | ((try dsimp +zetaDelta only); split <;> exact id)⟩) (.inl rfl) (.inl rfl) (.inl rfl) (.inl rfl) (.inl rfl) (.inl rfl) (.inl rfl) (.inl rfl) (.inl rfl) (.inl rfl) (.inl rfl) (.inl rfl) (.inl rfl) (.inl rfl) (.inl rfl) (.inl rfl) (.inl rfl)
    | decide
    | split
    | dsimp +zetaDelta only

theorem State.sendHalt_moves (s job) : Moves [.frame, .jigs, .qf, .fabric, .shim, .fc, .ob] s (State.sendHalt s job) := by
  unfold State.sendHalt
  repeat' first
    | extract_lets
    | with_reducible exact Moves.refl _ _
    | with_reducible refine Moves.ite ?_ ?_
    | with_reducible apply Moves.step (State.sendHaltDowel_moves _ _)
    | with_reducible apply Moves.step (State.haltJob_moves _ _)
    | with_reducible refine Moves.foldl (fun _ _ => ?_) ?_
    | decide
    | split
    | dsimp +zetaDelta only

theorem State.haltJobsOf_moves (s ps) : Moves [.frame, .jigs, .qf, .fabric, .shim, .fc, .ob] s (State.haltJobsOf s ps) := by
  unfold State.haltJobsOf
  repeat' first
    | extract_lets
    | with_reducible exact Moves.refl _ _
    | with_reducible refine Moves.ite ?_ ?_
    | with_reducible apply Moves.step (State.sendHalt_moves _ _)
    | with_reducible refine Moves.foldl (fun _ _ => ?_) ?_
    | decide
    | split
    | dsimp +zetaDelta only

theorem State.haltAllJobs_moves (s) : Moves [.frame, .jigs, .qf, .fabric, .shim, .fc, .ob] s (State.haltAllJobs s) := by
  unfold State.haltAllJobs
  repeat' first
    | extract_lets
    | with_reducible exact Moves.refl _ _
    | with_reducible refine Moves.ite ?_ ?_
    | with_reducible apply Moves.step (State.haltJobsOf_moves _ _)
    | with_reducible apply Moves.step (State.abandonJig_moves _ _ _)
    | with_reducible refine Moves.foldl (fun _ _ => ?_) ?_
    | decide
    | split
    | dsimp +zetaDelta only

theorem State.dropQueues_moves (s j) : Moves [.qf] s (State.dropQueues s j) := by
  unfold State.dropQueues
  repeat' first
    | extract_lets
    | with_reducible exact Moves.refl _ _
    | with_reducible refine Moves.ite ?_ ?_
    | with_reducible apply Moves.step (State.setQueue_moves _ _ _)
    | with_reducible refine Moves.foldl (fun _ _ => ?_) ?_
    | decide
    | split
    | dsimp +zetaDelta only

theorem State.clearUnits_moves (s p) : Moves [.arrays, .lanes, .mem, .qf, .fabric] s (State.clearUnits s p) := by
  unfold State.clearUnits
  repeat' first
    | extract_lets
    | with_reducible exact Moves.refl _ _
    | with_reducible refine Moves.ite ?_ ?_
    | with_reducible apply Moves.step (State.dropAccesses_moves _ _)
    | with_reducible apply Moves.step (State.setArray_moves _ _ _)
    | with_reducible apply Moves.step (State.setCluster_moves _ _ _)
    | with_reducible apply Moves.step (State.setMover_moves _ _ _)
    | with_reducible refine Moves.foldl (fun _ _ => ?_) ?_
    | fail_if_no_progress with_reducible refine Moves.record ?_ (.inl rfl) (.inl rfl) (.inl rfl) (.inl rfl) (.inl rfl) (.inl rfl) (.inr (by decide)) (.inl rfl) (.inl rfl) (.inl rfl) (.inl rfl) (.inl rfl) (.inl rfl) (.inl rfl) (.inl rfl) (.inl rfl) (.inl rfl) (.inl rfl)
    | decide
    | split
    | dsimp +zetaDelta only

theorem State.loseBench_moves (s p) : Moves [.mem] s (State.loseBench s p) := by
  unfold State.loseBench
  repeat' first
    | extract_lets
    | with_reducible exact Moves.refl _ _
    | with_reducible refine Moves.ite ?_ ?_
    | with_reducible refine Moves.foldl (fun _ _ => ?_) ?_
    | fail_if_no_progress with_reducible refine Moves.record ?_ (.inl rfl) (.inr ⟨by decide, by with_reducible first | exact .same rfl rfl rfl | exact MemState.lose_keeps _ _ _ | exact MemState.store_keeps _ _ _ | exact .marks _ _ _ _ _ | exact .poison _ _ _⟩) (.inl rfl) (.inl rfl) (.inl rfl) (.inl rfl) (.inl rfl) (.inl rfl) (.inl rfl) (.inl rfl) (.inl rfl) (.inl rfl) (.inl rfl) (.inl rfl) (.inl rfl) (.inl rfl) (.inl rfl) (.inl rfl)
    | decide
    | split
    | dsimp +zetaDelta only

theorem State.endJig_moves (s p status f) : Moves [.jigs, .arrays, .lanes, .mem, .qf, .fabric, .shim] s (State.endJig s p status f) := by
  unfold State.endJig
  repeat' first
    | extract_lets
    | with_reducible exact Moves.refl _ _
    | with_reducible refine Moves.ite ?_ ?_
    | with_reducible apply Moves.step (State.dropJig_moves _ _)
    | with_reducible apply Moves.step (State.dropQueues_moves _ _)
    | with_reducible apply Moves.step (State.clearUnits_moves _ _)
    | with_reducible apply Moves.step (State.loseBench_moves _ _)
    | with_reducible apply Moves.step (State.deliverResult_moves _ _)
    | with_reducible refine Moves.foldl (fun _ _ => ?_) ?_
    | fail_if_no_progress with_reducible refine Moves.record ?_ (.inl rfl) (.inl rfl) (.inr (by decide)) (.inl rfl) (.inl rfl) (.inl rfl) (.inl rfl) (.inl rfl) (.inl rfl) (.inl rfl) (.inl rfl) (.inl rfl) (.inl rfl) (.inl rfl) (.inl rfl) (.inl rfl) (.inl rfl) (.inl rfl)
    | decide
    | split
    | dsimp +zetaDelta only

end Sys2Proof.Machine
end

