-- ==== Sys2Proof/Laws/MovesStopOps.lean ====
section
/-! SUPPORT. What the operations of Machine/StopOps.lean keep, and the parts of the state they stay in. -/

namespace Sys2Proof.Machine

theorem State.settleIdle_moves (s) : Moves [.fabric, .ob] s (State.settleIdle s) := by
  unfold State.settleIdle
  repeat' first
    | extract_lets
    | with_reducible exact Moves.refl _ _
    | with_reducible refine Moves.ite ?_ ?_
    | with_reducible apply Moves.step (State.bump_moves _ _ _)
    | with_reducible apply Moves.step (State.setLink_moves _ _ _)
    | with_reducible refine Moves.foldl (fun _ _ => ?_) ?_
    | decide
    | split
    | dsimp +zetaDelta only

theorem State.foldAll_moves (s) : Moves [.fabric, .ob] s (State.foldAll s) := by
  unfold State.foldAll
  repeat' first
    | extract_lets
    | with_reducible exact Moves.refl _ _
    | with_reducible refine Moves.ite ?_ ?_
    | with_reducible apply Moves.step (State.settleIdle_moves _)
    | with_reducible refine Moves.foldl (fun _ _ => ?_) ?_
    | fail_if_no_progress with_reducible refine Moves.record ?_ (.inl rfl) (.inl rfl) (.inl rfl) (.inl rfl) (.inl rfl) (.inl rfl) (.inl rfl) (.inl rfl) (.inl rfl) (.inl rfl) (.inl rfl) (.inl rfl) (.inl rfl) (.inl rfl) (.inl rfl) (.inl rfl) (.inl rfl) (.inr (by decide))
    | decide
    | split
    | dsimp +zetaDelta only

theorem State.pauseStart_moves (s) : Moves [.rails] s (State.pauseStart s) := by
  unfold State.pauseStart
  repeat' first
    | extract_lets
    | with_reducible exact Moves.refl _ _
    | with_reducible refine Moves.ite ?_ ?_
    | with_reducible refine Moves.foldl (fun _ _ => ?_) ?_
    | fail_if_no_progress with_reducible refine Moves.record ?_ (.inl rfl) (.inl rfl) (.inl rfl) (.inl rfl) (.inl rfl) (.inl rfl) (.inl rfl) (.inl rfl) (.inl rfl) (.inl rfl) (.inr (by decide)) (.inl rfl) (.inl rfl) (.inl rfl) (.inl rfl) (.inl rfl) (.inl rfl) (.inl rfl)
    | decide
    | split
    | dsimp +zetaDelta only

theorem State.loseCounts_moves (s n) : Moves [.ob] s (State.loseCounts s n) := by
  unfold State.loseCounts
  repeat' first
    | extract_lets
    | with_reducible exact Moves.refl _ _
    | with_reducible refine Moves.ite ?_ ?_
    | with_reducible apply Moves.step (State.bump_moves _ _ _)
    | with_reducible refine Moves.foldl (fun _ _ => ?_) ?_
    | fail_if_no_progress with_reducible refine Moves.record ?_ (.inl rfl) (.inl rfl) (.inl rfl) (.inl rfl) (.inl rfl) (.inl rfl) (.inl rfl) (.inl rfl) (.inl rfl) (.inl rfl) (.inl rfl) (.inl rfl) (.inl rfl) (.inl rfl) (.inl rfl) (.inl rfl) (.inl rfl) (.inr (by decide))
    | decide
    | split
    | dsimp +zetaDelta only

theorem State.diesOff_moves (s) : Moves [.mem, .rails, .gov, .clocks] s (State.diesOff s) := by
  unfold State.diesOff
  repeat' first
    | extract_lets
    | with_reducible exact Moves.refl _ _
    | with_reducible refine Moves.ite ?_ ?_
    | with_reducible apply Moves.step (State.rootsStop_moves _)
    | with_reducible refine Moves.foldl (fun _ _ => ?_) ?_
    | fail_if_no_progress with_reducible refine Moves.record ?_ (.inl rfl) (.inl rfl) (.inl rfl) (.inl rfl) (.inl rfl) (.inl rfl) (.inl rfl) (.inl rfl) (.inl rfl) (.inl rfl) (.inr (by decide)) (.inr (by decide)) (.inl rfl) (.inl rfl) (.inl rfl) (.inl rfl) (.inl rfl) (.inl rfl)
    | decide
    | split
    | dsimp +zetaDelta only

theorem State.setRail_moves (s r v) : Moves [.rails] s (State.setRail s r v) := by
  unfold State.setRail
  repeat' first
    | extract_lets
    | with_reducible exact Moves.refl _ _
    | with_reducible refine Moves.ite ?_ ?_
    | with_reducible refine Moves.foldl (fun _ _ => ?_) ?_
    | fail_if_no_progress with_reducible refine Moves.record ?_ (.inl rfl) (.inl rfl) (.inl rfl) (.inl rfl) (.inl rfl) (.inl rfl) (.inl rfl) (.inl rfl) (.inl rfl) (.inl rfl) (.inr (by decide)) (.inl rfl) (.inl rfl) (.inl rfl) (.inl rfl) (.inl rfl) (.inl rfl) (.inl rfl)
    | decide
    | split
    | dsimp +zetaDelta only

theorem State.dieLost_moves (s n) : Moves [.arrays, .lanes, .mem, .qf] s (State.dieLost s n) := by
  unfold State.dieLost
  repeat' first
    | extract_lets
    | with_reducible exact Moves.refl _ _
    | with_reducible refine Moves.ite ?_ ?_
    | with_reducible apply Moves.step (State.dropAccesses_moves _ _)
    | with_reducible apply Moves.step (State.setArray_moves _ _ _)
    | with_reducible refine Moves.foldl (fun _ _ => ?_) ?_
    | fail_if_no_progress with_reducible refine Moves.record ?_ (.inl rfl) (.inr ⟨by decide, by with_reducible first | exact .same rfl rfl rfl | exact MemState.lose_keeps _ _ _ | exact MemState.store_keeps _ _ _ | exact .marks _ _ _ _ _ | exact .poison _ _ _⟩) (.inl rfl) (.inl rfl) (.inr (by decide)) (.inr (by decide)) (.inl rfl) (.inl rfl) (.inl rfl) (.inl rfl) (.inl rfl) (.inl rfl) (.inl rfl) (.inl rfl) (.inl rfl) (.inl rfl) (.inl rfl) (.inl rfl)
    | decide
    | split
    | dsimp +zetaDelta only

theorem State.pathsDown_moves (s) : Moves [.fabric] s (State.pathsDown s) := by
  unfold State.pathsDown
  repeat' first
    | extract_lets
    | with_reducible exact Moves.refl _ _
    | with_reducible refine Moves.ite ?_ ?_
    | with_reducible apply Moves.step (State.setLink_moves _ _ _)
    | with_reducible refine Moves.foldl (fun _ _ => ?_) ?_
    | decide
    | split
    | dsimp +zetaDelta only

theorem State.hubLost_moves (s0) : Moves [.frame, .jigs, .qf, .fabric, .host, .mod, .pins] s0 (State.hubLost s0) := by
  unfold State.hubLost
  repeat' first
    | extract_lets
    | with_reducible exact Moves.refl _ _
    | with_reducible refine Moves.ite ?_ ?_
    | with_reducible apply Moves.step (State.pathsDown_moves _)
    | with_reducible refine Moves.foldl (fun _ _ => ?_) ?_
    | fail_if_no_progress with_reducible refine Moves.record ?_ (.inr ⟨by decide, by first | exact id | exact fun _ => Nat.mod_lt _ (Nat.two_pow_pos _) | ((try dsimp +zetaDelta only); split <;> exact id)⟩) (.inl rfl) (.inr (by decide)) (.inl rfl) (.inl rfl) (.inr (by decide)) (.inr (by decide)) (.inr (by decide)) (.inl rfl) (.inl rfl) (.inl rfl) (.inl rfl) (.inl rfl) (.inl rfl) (.inr (by decide)) (.inr (by decide)) (.inl rfl) (.inl rfl)
    | decide
    | split
    | dsimp +zetaDelta only

theorem State.railLost_moves (s r) : Moves [.frame, .jigs, .arrays, .lanes, .mem, .qf, .fabric, .host, .mod, .pins] s (State.railLost s r) := by
  unfold State.railLost
  repeat' first
    | extract_lets
    | with_reducible exact Moves.refl _ _
    | with_reducible refine Moves.ite ?_ ?_
    | with_reducible apply Moves.step (State.dieLost_moves _ _)
    | with_reducible apply Moves.step (State.hubLost_moves _)
    | with_reducible apply Moves.step (State.pathsDown_moves _)
    | with_reducible refine Moves.foldl (fun _ _ => ?_) ?_
    | fail_if_no_progress with_reducible refine Moves.record ?_ (.inl rfl) (.inr ⟨by decide, by with_reducible first | exact .same rfl rfl rfl | exact MemState.lose_keeps _ _ _ | exact MemState.store_keeps _ _ _ | exact .marks _ _ _ _ _ | exact .poison _ _ _⟩) (.inl rfl) (.inl rfl) (.inl rfl) (.inl rfl) (.inl rfl) (.inl rfl) (.inl rfl) (.inl rfl) (.inl rfl) (.inl rfl) (.inl rfl) (.inl rfl) (.inl rfl) (.inl rfl) (.inl rfl) (.inl rfl)
    | decide
    | split
    | dsimp +zetaDelta only

theorem State.stopRail_moves (s r m) : Moves [.frame, .jigs, .arrays, .lanes, .mem, .qf, .fabric, .host, .rails, .mod, .pins] s (State.stopRail s r m) := by
  unfold State.stopRail
  repeat' first
    | extract_lets
    | with_reducible exact Moves.refl _ _
    | with_reducible refine Moves.ite ?_ ?_
    | with_reducible apply Moves.step (State.setRail_moves _ _ _)
    | with_reducible apply Moves.step (State.railLost_moves _ _)
    | with_reducible refine Moves.foldl (fun _ _ => ?_) ?_
    | decide
    | split
    | dsimp +zetaDelta only

theorem State.stopRails_moves (s l) : Moves [.frame, .jigs, .arrays, .lanes, .mem, .qf, .fabric, .host, .rails, .mod, .pins] s (State.stopRails s l) := by
  unfold State.stopRails
  repeat' first
    | extract_lets
    | with_reducible exact Moves.refl _ _
    | with_reducible refine Moves.ite ?_ ?_
    | with_reducible apply Moves.step (State.stopRail_moves _ _ _)
    | with_reducible refine Moves.foldl (fun _ _ => ?_) ?_
    | decide
    | split
    | dsimp +zetaDelta only

theorem State.immediateStop_moves (s cause) : Moves [.frame, .jigs, .arrays, .lanes, .mem, .qf, .fabric, .host, .shim, .rails, .gov, .fc, .mod, .pins, .clocks, .ob] s (State.immediateStop s cause) := by
  unfold State.immediateStop
  extract_lets src g s1 clocked s2 y src1 src2 s3
  have h1 : Moves [.frame, .jigs, .arrays, .lanes, .mem, .qf, .fabric, .host, .shim, .rails, .gov, .fc, .mod, .pins, .clocks, .ob] s s1 := Moves.record (Moves.refl _ _) (.inl rfl) (.inl rfl) (.inl rfl) (.inl rfl) (.inl rfl) (.inl rfl) (.inl rfl) (.inl rfl) (.inl rfl) (.inl rfl) (.inl rfl) (.inr (by decide)) (.inl rfl) (.inl rfl) (.inl rfl) (.inl rfl) (.inl rfl) (.inl rfl)
  clear_value s1
  have h2 : Moves [.frame, .jigs, .arrays, .lanes, .mem, .qf, .fabric, .host, .shim, .rails, .gov, .fc, .mod, .pins, .clocks, .ob] s s2 := Moves.ite (Moves.step (State.haltJobsOf_moves _ _) (by decide) h1) h1
  clear_value s2
  have h4 : Moves [.frame, .jigs, .arrays, .lanes, .mem, .qf, .fabric, .host, .shim, .rails, .gov, .fc, .mod, .pins, .clocks, .ob] s y := Moves.foldl (fun _ _ => (State.loseCounts_moves _ _).weaken (by decide)) h2
  clear_value y
  have h3 : Moves [.frame, .jigs, .arrays, .lanes, .mem, .qf, .fabric, .host, .shim, .rails, .gov, .fc, .mod, .pins, .clocks, .ob] s s3 := Moves.ite (Moves.record h4 (.inl rfl) (.inr ⟨by decide, MemState.lose_keeps _ _ _⟩) (.inl rfl) (.inl rfl) (.inl rfl) (.inl rfl) (.inl rfl) (.inl rfl) (.inl rfl) (.inl rfl) (.inl rfl) (.inr (by decide)) (.inl rfl) (.inl rfl) (.inl rfl) (.inl rfl) (.inl rfl) (.inl rfl)) h2
  clear_value s3
  exact Moves.step (State.pauseStart_moves _) (by decide) (Moves.step (State.diesOff_moves _) (by decide)
    (Moves.step (State.stopRails_moves _ _) (by decide) h3))

theorem State.orderlyStop_moves (s cause) : Moves [.frame, .jigs, .arrays, .lanes, .mem, .qf, .fabric, .host, .shim, .rails, .gov, .fc, .mod, .pins, .ob] s (State.orderlyStop s cause) := by
  unfold State.orderlyStop
  repeat' first
    | extract_lets
    | with_reducible exact Moves.refl _ _
    | with_reducible refine Moves.ite ?_ ?_
    | with_reducible apply Moves.step (State.haltJobsOf_moves _ _)
    | with_reducible apply Moves.step (State.pauseStart_moves _)
    | with_reducible apply Moves.step (State.stopRails_moves _ _)
    | with_reducible refine Moves.foldl (fun _ _ => ?_) ?_
    | fail_if_no_progress with_reducible refine Moves.record ?_ (.inl rfl) (.inl rfl) (.inl rfl) (.inl rfl) (.inl rfl) (.inl rfl) (.inl rfl) (.inl rfl) (.inl rfl) (.inl rfl) (.inl rfl) (.inr (by decide)) (.inl rfl) (.inl rfl) (.inl rfl) (.inl rfl) (.inl rfl) (.inl rfl)
    | decide
    | split
    | dsimp +zetaDelta only

theorem State.beginStop_moves (s only last) : Moves [.rails] s (State.beginStop s only last) := by
  unfold State.beginStop
  repeat' first
    | extract_lets
    | with_reducible exact Moves.refl _ _
    | with_reducible refine Moves.ite ?_ ?_
    | with_reducible refine Moves.foldl (fun _ _ => ?_) ?_
    | fail_if_no_progress with_reducible refine Moves.record ?_ (.inl rfl) (.inl rfl) (.inl rfl) (.inl rfl) (.inl rfl) (.inl rfl) (.inl rfl) (.inl rfl) (.inl rfl) (.inl rfl) (.inr (by decide)) (.inl rfl) (.inl rfl) (.inl rfl) (.inl rfl) (.inl rfl) (.inl rfl) (.inl rfl)
    | decide
    | split
    | dsimp +zetaDelta only

end Sys2Proof.Machine
end

