-- ==== Sys2Proof/Laws/MovesCounterCode.lean ====
section
/-! SUPPORT. What the operations of Machine/CounterCode.lean keep, and the parts of the state they stay in. -/

namespace Sys2Proof.Machine

theorem State.snapOne_moves (s f i) : Moves [.ob] s (State.snapOne s f i) := by
  unfold State.snapOne
  repeat' first
    | extract_lets
    | with_reducible exact Moves.refl _ _
    | with_reducible refine Moves.ite ?_ ?_
    | with_reducible apply Moves.step (State.bump_moves _ _ _)
    | with_reducible refine Moves.foldl (fun _ _ => ?_) ?_
    | fail_if_no_progress with_reducible refine Moves.record ?_ (.inl rfl) (.inl rfl) (.inl rfl) (.inl rfl) (.inl rfl) (.inl rfl) (.inl rfl) (.inl rfl) (.inl rfl) (.inl rfl) (.inl rfl) (.inl rfl) (.inl rfl) (.inl rfl) (.inl rfl) (.inl rfl) (.inl rfl) (.inr (by decide))
    | decide
    | split
    | dsimp +zetaDelta only

theorem State.clearPeaks_moves (s l) : Moves [.ob] s (State.clearPeaks s l) := by
  unfold State.clearPeaks
  repeat' first
    | extract_lets
    | with_reducible exact Moves.refl _ _
    | with_reducible refine Moves.ite ?_ ?_
    | with_reducible apply Moves.step (State.level_moves _ _ _)
    | with_reducible refine Moves.foldl (fun _ _ => ?_) ?_
    | decide
    | split
    | dsimp +zetaDelta only

theorem obReadCounters_moves (s : State) (k : Nat) (b : Bytes) : MovesR [.ob, .free] s (obReadCounters.act s k b) := by
  show MovesR _ _ (Cmd.act _ s k b)
  unfold obReadCounters
  dsimp -zeta only
  repeat' first
    | extract_lets
    | with_reducible exact Moves.refl _ _
    | with_reducible refine MovesR.done ?_
    | with_reducible refine MovesR.ite ?_ ?_
    | with_reducible exact MovesR.refused _
    | with_reducible refine Moves.ite ?_ ?_
    | with_reducible apply Moves.step (State.draw_moves _ _)
    | with_reducible apply Moves.step (State.bump_moves _ _ _)
    | with_reducible apply Moves.step (State.clearPeaks_moves _ _)
    | with_reducible refine Moves.foldl (fun _ _ => ?_) ?_
    | decide
    | split
    | dsimp +zetaDelta only

theorem State.snapMissed_moves (s) : Moves [.ob] s (State.snapMissed s) := by
  unfold State.snapMissed
  repeat' first
    | extract_lets
    | with_reducible exact Moves.refl _ _
    | with_reducible refine Moves.ite ?_ ?_
    | with_reducible apply Moves.step (State.bump_moves _ _ _)
    | with_reducible refine Moves.foldl (fun _ _ => ?_) ?_
    | fail_if_no_progress with_reducible refine Moves.record ?_ (.inl rfl) (.inl rfl) (.inl rfl) (.inl rfl) (.inl rfl) (.inl rfl) (.inl rfl) (.inl rfl) (.inl rfl) (.inl rfl) (.inl rfl) (.inl rfl) (.inl rfl) (.inl rfl) (.inl rfl) (.inl rfl) (.inl rfl) (.inr (by decide))
    | decide
    | split
    | dsimp +zetaDelta only

theorem State.snapKerf_moves (s f) : Moves [.ob] s (State.snapKerf s f) := by
  unfold State.snapKerf
  repeat' first
    | extract_lets
    | with_reducible exact Moves.refl _ _
    | with_reducible refine Moves.ite ?_ ?_
    | with_reducible apply Moves.step (State.snapOne_moves _ _ _)
    | with_reducible refine Moves.foldl (fun _ _ => ?_) ?_
    | decide
    | split
    | dsimp +zetaDelta only

theorem obSetGrant_moves (s : State) (k : Nat) (b : Bytes) : MovesR [.ob] s (obSetGrant.act s k b) := by
  show MovesR _ _ (Cmd.act _ s k b)
  unfold obSetGrant
  dsimp -zeta only
  repeat' first
    | extract_lets
    | with_reducible exact Moves.refl _ _
    | with_reducible refine MovesR.done ?_
    | with_reducible refine MovesR.ite ?_ ?_
    | with_reducible exact MovesR.refused _
    | with_reducible refine Moves.ite ?_ ?_
    | with_reducible refine Moves.foldl (fun _ _ => ?_) ?_
    | fail_if_no_progress with_reducible refine Moves.record ?_ (.inl rfl) (.inl rfl) (.inl rfl) (.inl rfl) (.inl rfl) (.inl rfl) (.inl rfl) (.inl rfl) (.inl rfl) (.inl rfl) (.inl rfl) (.inl rfl) (.inl rfl) (.inl rfl) (.inl rfl) (.inl rfl) (.inl rfl) (.inr (by decide))
    | decide
    | split
    | dsimp +zetaDelta only

theorem execObReadCounters_moves (slot t s) : MovesO [.time, .host, .fc, .mp, .ob, .free] s (execObReadCounters slot t s) :=
  State.serve_moves (fun _ _ _ => (obReadCounters_moves _ _ _).weaken rfl) rfl

theorem obReadSnapshot_moves (s : State) (k : Nat) (b : Bytes) : MovesR [.ob] s (obReadSnapshot.act s k b) := by
  show MovesR _ _ (Cmd.act _ s k b)
  unfold obReadSnapshot
  dsimp -zeta only
  repeat' first
    | extract_lets
    | with_reducible exact Moves.refl _ _
    | with_reducible refine MovesR.done ?_
    | with_reducible refine MovesR.ite ?_ ?_
    | with_reducible exact MovesR.refused _
    | with_reducible refine Moves.ite ?_ ?_
    | with_reducible apply Moves.step (State.bump_moves _ _ _)
    | with_reducible refine Moves.foldl (fun _ _ => ?_) ?_
    | decide
    | split
    | dsimp +zetaDelta only

theorem obArmSnapshot_moves (s : State) (k : Nat) (b : Bytes) : MovesR [.ob] s (obArmSnapshot.act s k b) := by
  show MovesR _ _ (Cmd.act _ s k b)
  unfold obArmSnapshot
  dsimp -zeta only
  repeat' first
    | extract_lets
    | with_reducible exact Moves.refl _ _
    | with_reducible refine MovesR.done ?_
    | with_reducible refine MovesR.ite ?_ ?_
    | with_reducible exact MovesR.refused _
    | with_reducible refine Moves.ite ?_ ?_
    | with_reducible refine Moves.foldl (fun _ _ => ?_) ?_
    | fail_if_no_progress with_reducible refine Moves.record ?_ (.inl rfl) (.inl rfl) (.inl rfl) (.inl rfl) (.inl rfl) (.inl rfl) (.inl rfl) (.inl rfl) (.inl rfl) (.inl rfl) (.inl rfl) (.inl rfl) (.inl rfl) (.inl rfl) (.inl rfl) (.inl rfl) (.inl rfl) (.inr (by decide))
    | decide
    | split
    | dsimp +zetaDelta only

theorem execObReadSnapshot_moves (slot t s) : MovesO [.time, .host, .fc, .mp, .ob] s (execObReadSnapshot slot t s) :=
  State.serve_moves (fun _ _ _ => (obReadSnapshot_moves _ _ _).weaken rfl) rfl

theorem execObSetGrant_moves (slot t s) : MovesO [.time, .host, .fc, .mp, .ob] s (execObSetGrant slot t s) :=
  State.serve_moves (fun _ _ _ => (obSetGrant_moves _ _ _).weaken rfl) rfl

theorem execObArmSnapshot_moves (slot t s) : MovesO [.time, .host, .fc, .mp, .ob] s (execObArmSnapshot slot t s) :=
  State.serve_moves (fun _ _ _ => (obArmSnapshot_moves _ _ _).weaken rfl) rfl

theorem execCounterFold_moves (t s) : MovesO [.time, .fabric, .ob] s (execCounterFold t s) := by
  unfold execCounterFold
  repeat' first
    | extract_lets
    | with_reducible exact Moves.refl _ _
    | with_reducible refine MovesO.next ?_
    | with_reducible refine MovesO.ite ?_ ?_
    | with_reducible exact MovesO.fault _
    | with_reducible exact MovesO.refused _
    | with_reducible refine Moves.ite ?_ ?_
    | with_reducible apply Moves.step (State.foldAll_moves _)
    | with_reducible apply Moves.step (State.upTo_moves _ _)
    | with_reducible refine Moves.foldl (fun _ _ => ?_) ?_
    | decide
    | split
    | dsimp +zetaDelta only

end Sys2Proof.Machine
end

