-- ==== Sys2Proof/Laws/MovesCellCode.lean ====
section
/-! SUPPORT. What the operations of Machine/CellCode.lean keep, and the parts of the state they stay in. -/

namespace Sys2Proof.Machine

theorem cellSaveState_moves (s : State) (k : Nat) (b : Bytes) : MovesR [] s (cellSaveState.act s k b) := by
  show MovesR _ _ (Cmd.act _ s k b)
  unfold cellSaveState
  dsimp -zeta only
  repeat' first
    | extract_lets
    | with_reducible exact Moves.refl _ _
    | with_reducible refine MovesR.done ?_
    | with_reducible refine MovesR.ite ?_ ?_
    | with_reducible exact MovesR.refused _
    | with_reducible refine Moves.ite ?_ ?_
    | with_reducible refine Moves.foldl (fun _ _ => ?_) ?_
    | decide
    | split
    | dsimp +zetaDelta only

theorem execRestTimeout_moves (t s) : MovesO [.time, .shim, .cells, .fc, .ob] s (execRestTimeout t s) := by
  unfold execRestTimeout
  repeat' first
    | extract_lets
    | with_reducible exact Moves.refl _ _
    | with_reducible refine MovesO.next ?_
    | with_reducible refine MovesO.ite ?_ ?_
    | with_reducible exact MovesO.fault _
    | with_reducible exact MovesO.refused _
    | with_reducible refine Moves.ite ?_ ?_
    | with_reducible apply Moves.step (State.upTo_moves _ _)
    | with_reducible apply Moves.step (State.abortRest_moves _ _)
    | with_reducible refine Moves.foldl (fun _ _ => ?_) ?_
    | decide
    | split
    | dsimp +zetaDelta only

theorem State.settleActive_moves (s) : Moves [.mod] s (State.settleActive s) := by
  unfold State.settleActive
  repeat' first
    | extract_lets
    | with_reducible exact Moves.refl _ _
    | with_reducible refine Moves.ite ?_ ?_
    | with_reducible refine Moves.foldl (fun _ _ => ?_) ?_
    | fail_if_no_progress with_reducible refine Moves.record ?_ (.inl rfl) (.inl rfl) (.inl rfl) (.inl rfl) (.inl rfl) (.inl rfl) (.inl rfl) (.inl rfl) (.inl rfl) (.inl rfl) (.inl rfl) (.inl rfl) (.inl rfl) (.inl rfl) (.inr (by decide)) (.inl rfl) (.inl rfl) (.inl rfl)
    | decide
    | split
    | dsimp +zetaDelta only

theorem State.scanReadings_moves (s inp) : Moves [.cells, .fc] s (State.scanReadings s inp) := by
  unfold State.scanReadings
  repeat' first
    | extract_lets
    | with_reducible exact Moves.refl _ _
    | with_reducible refine Moves.ite ?_ ?_
    | with_reducible apply Moves.step (State.raiseCond_moves _ _ _ _ _)
    | with_reducible refine Moves.foldl (fun _ _ => ?_) ?_
    | fail_if_no_progress with_reducible refine Moves.record ?_ (.inl rfl) (.inl rfl) (.inl rfl) (.inl rfl) (.inl rfl) (.inl rfl) (.inl rfl) (.inl rfl) (.inl rfl) (.inr (by decide)) (.inl rfl) (.inl rfl) (.inl rfl) (.inl rfl) (.inl rfl) (.inl rfl) (.inl rfl) (.inl rfl)
    | decide
    | split
    | dsimp +zetaDelta only

theorem State.scanCeilings_moves (s hi lo) : Moves [.shim, .cells, .fc, .ob] s (State.scanCeilings s hi lo) := by
  unfold State.scanCeilings
  repeat' first
    | extract_lets
    | with_reducible exact Moves.refl _ _
    | with_reducible refine Moves.ite ?_ ?_
    | with_reducible apply Moves.step (State.thresholdActs_moves _)
    | with_reducible refine Moves.foldl (fun _ _ => ?_) ?_
    | fail_if_no_progress with_reducible refine Moves.record ?_ (.inl rfl) (.inl rfl) (.inl rfl) (.inl rfl) (.inl rfl) (.inl rfl) (.inl rfl) (.inl rfl) (.inl rfl) (.inr (by decide)) (.inl rfl) (.inl rfl) (.inl rfl) (.inl rfl) (.inl rfl) (.inl rfl) (.inl rfl) (.inl rfl)
    | decide
    | split
    | dsimp +zetaDelta only

theorem State.cellLimit_moves (s id code n unit detail met clear chg dis ack) : Moves [.shim, .cells, .fc, .ob] s (State.cellLimit s id code n unit detail met clear chg dis ack) := by
  unfold State.cellLimit
  repeat' first
    | extract_lets
    | with_reducible exact Moves.refl _ _
    | with_reducible refine Moves.ite ?_ ?_
    | with_reducible apply Moves.step (State.thresholdActs_moves _)
    | with_reducible apply Moves.step (State.raiseMsg_moves _ _ _)
    | with_reducible refine Moves.foldl (fun _ _ => ?_) ?_
    | fail_if_no_progress with_reducible refine Moves.record ?_ (.inl rfl) (.inl rfl) (.inl rfl) (.inl rfl) (.inl rfl) (.inl rfl) (.inl rfl) (.inl rfl) (.inl rfl) (.inr (by decide)) (.inl rfl) (.inl rfl) (.inl rfl) (.inl rfl) (.inl rfl) (.inl rfl) (.inl rfl) (.inl rfl)
    | decide
    | split
    | dsimp +zetaDelta only

theorem State.scanEndOfCharge_moves (s hiIx hi) : Moves [.cells, .fc, .ob] s (State.scanEndOfCharge s hiIx hi) := by
  unfold State.scanEndOfCharge
  repeat' first
    | extract_lets
    | with_reducible exact Moves.refl _ _
    | with_reducible refine Moves.ite ?_ ?_
    | with_reducible apply Moves.step (State.anchor_moves _ _)
    | with_reducible apply Moves.step (State.bump_moves _ _ _)
    | with_reducible apply Moves.step (State.raise_moves _ _ _ _ _)
    | with_reducible refine Moves.foldl (fun _ _ => ?_) ?_
    | fail_if_no_progress with_reducible refine Moves.record ?_ (.inl rfl) (.inl rfl) (.inl rfl) (.inl rfl) (.inl rfl) (.inl rfl) (.inl rfl) (.inl rfl) (.inl rfl) (.inr (by decide)) (.inl rfl) (.inl rfl) (.inl rfl) (.inl rfl) (.inl rfl) (.inl rfl) (.inl rfl) (.inl rfl)
    | decide
    | split
    | dsimp +zetaDelta only

theorem State.scanEndOfDischarge_moves (s loIx lo) : Moves [.shim, .cells, .fc, .ob] s (State.scanEndOfDischarge s loIx lo) := by
  unfold State.scanEndOfDischarge
  repeat' first
    | extract_lets
    | with_reducible exact Moves.refl _ _
    | with_reducible refine Moves.ite ?_ ?_
    | with_reducible apply Moves.step (State.anchor_moves _ _)
    | with_reducible apply Moves.step (State.exhaust_moves _)
    | with_reducible apply Moves.step (State.thresholdActs_moves _)
    | with_reducible apply Moves.step (State.bump_moves _ _ _)
    | with_reducible apply Moves.step (State.raise_moves _ _ _ _ _)
    | with_reducible refine Moves.foldl (fun _ _ => ?_) ?_
    | fail_if_no_progress with_reducible refine Moves.record ?_ (.inl rfl) (.inl rfl) (.inl rfl) (.inl rfl) (.inl rfl) (.inl rfl) (.inl rfl) (.inl rfl) (.inl rfl) (.inr (by decide)) (.inl rfl) (.inl rfl) (.inl rfl) (.inl rfl) (.inl rfl) (.inl rfl) (.inl rfl) (.inl rfl)
    | decide
    | split
    | dsimp +zetaDelta only

theorem State.scanThresholds_moves (s) : Moves [.shim, .cells, .fc, .ob] s (State.scanThresholds s) := by
  unfold State.scanThresholds
  repeat' first
    | extract_lets
    | with_reducible exact Moves.refl _ _
    | with_reducible refine Moves.ite ?_ ?_
    | with_reducible apply Moves.step (State.scanCeilings_moves _ _ _)
    | with_reducible apply Moves.step (State.cellLimit_moves _ _ _ _ _ _ _ _ _ _ _)
    | with_reducible apply Moves.step (State.raiseCond_moves _ _ _ _ _)
    | with_reducible apply Moves.step (State.scanEndOfCharge_moves _ _ _)
    | with_reducible apply Moves.step (State.scanEndOfDischarge_moves _ _ _)
    | with_reducible refine Moves.foldl (fun _ _ => ?_) ?_
    | fail_if_no_progress with_reducible refine Moves.record ?_ (.inl rfl) (.inl rfl) (.inl rfl) (.inl rfl) (.inl rfl) (.inl rfl) (.inl rfl) (.inl rfl) (.inl rfl) (.inr (by decide)) (.inl rfl) (.inl rfl) (.inl rfl) (.inl rfl) (.inl rfl) (.inl rfl) (.inl rfl) (.inl rfl)
    | decide
    | split
    | dsimp +zetaDelta only

theorem State.startEstimator_moves (s p inp flips) : Moves [.shim, .cells, .fc, .ob] s (State.startEstimator s p inp flips) := by
  unfold State.startEstimator
  repeat' first
    | extract_lets
    | with_reducible exact Moves.refl _ _
    | with_reducible refine Moves.ite ?_ ?_
    | with_reducible apply Moves.step (State.scanReadings_moves _ _)
    | with_reducible apply Moves.step (State.settleNarrow_moves _)
    | with_reducible apply Moves.step (State.cellReports_moves _)
    | with_reducible apply Moves.step (State.scanThresholds_moves _)
    | with_reducible refine Moves.foldl (fun _ _ => ?_) ?_
    | fail_if_no_progress with_reducible refine Moves.record ?_ (.inl rfl) (.inl rfl) (.inl rfl) (.inl rfl) (.inl rfl) (.inl rfl) (.inl rfl) (.inl rfl) (.inl rfl) (.inr (by decide)) (.inl rfl) (.inl rfl) (.inl rfl) (.inl rfl) (.inl rfl) (.inl rfl) (.inl rfl) (.inl rfl)
    | decide
    | split
    | dsimp +zetaDelta only

theorem execChainEnumeration_moves (t r s) : MovesO [.time, .shim, .cells, .fc, .ob] s (execChainEnumeration t r s) := by
  unfold execChainEnumeration
  repeat' first
    | extract_lets
    | with_reducible exact Moves.refl _ _
    | with_reducible refine MovesO.next ?_
    | with_reducible refine MovesO.ite ?_ ?_
    | with_reducible exact MovesO.fault _
    | with_reducible exact MovesO.refused _
    | with_reducible refine Moves.ite ?_ ?_
    | with_reducible apply Moves.step (State.upTo_moves _ _)
    | with_reducible apply Moves.step (State.raise_moves _ _ _ _ _)
    | with_reducible apply Moves.step (State.bump_moves _ _ _)
    | with_reducible apply Moves.step (State.startEstimator_moves _ _ _ _)
    | with_reducible refine Moves.foldl (fun _ _ => ?_) ?_
    | fail_if_no_progress with_reducible refine Moves.record ?_ (.inl rfl) (.inl rfl) (.inl rfl) (.inl rfl) (.inl rfl) (.inl rfl) (.inl rfl) (.inl rfl) (.inl rfl) (.inr (by decide)) (.inl rfl) (.inl rfl) (.inl rfl) (.inl rfl) (.inl rfl) (.inl rfl) (.inl rfl) (.inl rfl)
    | decide
    | split
    | dsimp +zetaDelta only

theorem execSliceCommandTimeout_moves (k t s) : MovesO [.time, .cells] s (execSliceCommandTimeout k t s) := by
  unfold execSliceCommandTimeout
  repeat' first
    | extract_lets
    | with_reducible exact Moves.refl _ _
    | with_reducible refine MovesO.next ?_
    | with_reducible refine MovesO.ite ?_ ?_
    | with_reducible exact MovesO.fault _
    | with_reducible exact MovesO.refused _
    | with_reducible refine Moves.ite ?_ ?_
    | with_reducible apply Moves.step (State.upTo_moves _ _)
    | with_reducible refine Moves.foldl (fun _ _ => ?_) ?_
    | fail_if_no_progress with_reducible refine Moves.record ?_ (.inl rfl) (.inl rfl) (.inl rfl) (.inl rfl) (.inl rfl) (.inl rfl) (.inl rfl) (.inl rfl) (.inl rfl) (.inr (by decide)) (.inl rfl) (.inl rfl) (.inl rfl) (.inl rfl) (.inl rfl) (.inl rfl) (.inl rfl) (.inl rfl)
    | decide
    | split
    | dsimp +zetaDelta only

theorem execCaptureCancel_moves (t s) : MovesO [.time, .cells] s (execCaptureCancel t s) := by
  unfold execCaptureCancel
  repeat' first
    | extract_lets
    | with_reducible exact Moves.refl _ _
    | with_reducible refine MovesO.next ?_
    | with_reducible refine MovesO.ite ?_ ?_
    | with_reducible exact MovesO.fault _
    | with_reducible exact MovesO.refused _
    | with_reducible refine Moves.ite ?_ ?_
    | with_reducible apply Moves.step (State.upTo_moves _ _)
    | with_reducible refine Moves.foldl (fun _ _ => ?_) ?_
    | fail_if_no_progress with_reducible refine Moves.record ?_ (.inl rfl) (.inl rfl) (.inl rfl) (.inl rfl) (.inl rfl) (.inl rfl) (.inl rfl) (.inl rfl) (.inl rfl) (.inr (by decide)) (.inl rfl) (.inl rfl) (.inl rfl) (.inl rfl) (.inl rfl) (.inl rfl) (.inl rfl) (.inl rfl)
    | decide
    | split
    | dsimp +zetaDelta only

theorem cellGrantRest_moves (s : State) (k : Nat) (b : Bytes) : MovesR [.shim, .cells, .fc, .ob] s (cellGrantRest.act s k b) := by
  show MovesR _ _ (Cmd.act _ s k b)
  unfold cellGrantRest
  dsimp -zeta only
  repeat' first
    | extract_lets
    | with_reducible exact Moves.refl _ _
    | with_reducible refine MovesR.done ?_
    | with_reducible refine MovesR.ite ?_ ?_
    | with_reducible exact MovesR.refused _
    | with_reducible refine Moves.ite ?_ ?_
    | with_reducible apply Moves.step (State.abortRest_moves _ _)
    | with_reducible refine Moves.foldl (fun _ _ => ?_) ?_
    | fail_if_no_progress with_reducible refine Moves.record ?_ (.inl rfl) (.inl rfl) (.inl rfl) (.inl rfl) (.inl rfl) (.inl rfl) (.inl rfl) (.inl rfl) (.inl rfl) (.inr (by decide)) (.inl rfl) (.inl rfl) (.inl rfl) (.inl rfl) (.inl rfl) (.inl rfl) (.inl rfl) (.inl rfl)
    | decide
    | split
    | dsimp +zetaDelta only

theorem State.scanProbation_moves (s) : Moves [.cells, .fc, .ob] s (State.scanProbation s) := by
  unfold State.scanProbation
  repeat' first
    | extract_lets
    | with_reducible exact Moves.refl _ _
    | with_reducible refine Moves.ite ?_ ?_
    | with_reducible apply Moves.step (State.bump_moves _ _ _)
    | with_reducible apply Moves.step (State.raise_moves _ _ _ _ _)
    | with_reducible refine Moves.foldl (fun _ _ => ?_) ?_
    | fail_if_no_progress with_reducible refine Moves.record ?_ (.inl rfl) (.inl rfl) (.inl rfl) (.inl rfl) (.inl rfl) (.inl rfl) (.inl rfl) (.inl rfl) (.inl rfl) (.inr (by decide)) (.inl rfl) (.inl rfl) (.inl rfl) (.inl rfl) (.inl rfl) (.inl rfl) (.inl rfl) (.inl rfl)
    | decide
    | split
    | dsimp +zetaDelta only

theorem execCellSaveState_moves (slot t s) : MovesO [.time, .host, .fc, .mp, .ob] s (execCellSaveState slot t s) :=
  State.serve_moves (fun _ _ _ => (cellSaveState_moves _ _ _).weaken rfl) rfl

theorem State.scanSlice_moves (s inp k) : Moves [.cells, .fc] s (State.scanSlice s inp k) := by
  unfold State.scanSlice
  repeat' first
    | extract_lets
    | with_reducible exact Moves.refl _ _
    | with_reducible refine Moves.ite ?_ ?_
    | with_reducible apply Moves.step (State.raiseCond_moves _ _ _ _ _)
    | with_reducible refine Moves.foldl (fun _ _ => ?_) ?_
    | fail_if_no_progress with_reducible refine Moves.record ?_ (.inl rfl) (.inl rfl) (.inl rfl) (.inl rfl) (.inl rfl) (.inl rfl) (.inl rfl) (.inl rfl) (.inl rfl) (.inr (by decide)) (.inl rfl) (.inl rfl) (.inl rfl) (.inl rfl) (.inl rfl) (.inl rfl) (.inl rfl) (.inl rfl)
    | decide
    | split
    | dsimp +zetaDelta only

theorem State.scanEstimate_moves (s) : Moves [.cells] s (State.scanEstimate s) := by
  unfold State.scanEstimate
  repeat' first
    | extract_lets
    | with_reducible exact Moves.refl _ _
    | with_reducible refine Moves.ite ?_ ?_
    | with_reducible refine Moves.foldl (fun _ _ => ?_) ?_
    | fail_if_no_progress with_reducible refine Moves.record ?_ (.inl rfl) (.inl rfl) (.inl rfl) (.inl rfl) (.inl rfl) (.inl rfl) (.inl rfl) (.inl rfl) (.inl rfl) (.inr (by decide)) (.inl rfl) (.inl rfl) (.inl rfl) (.inl rfl) (.inl rfl) (.inl rfl) (.inl rfl) (.inl rfl)
    | decide
    | split
    | dsimp +zetaDelta only

theorem State.scanCounters_moves (s inp) : Moves [.ob] s (State.scanCounters s inp) := by
  unfold State.scanCounters
  repeat' first
    | extract_lets
    | with_reducible exact Moves.refl _ _
    | with_reducible refine Moves.ite ?_ ?_
    | with_reducible apply Moves.step (State.bump_moves _ _ _)
    | with_reducible apply Moves.step (State.bumpWhole_moves _ _ _ _)
    | with_reducible apply Moves.step (State.peak_moves _ _ _)
    | with_reducible apply Moves.step (State.trough_moves _ _ _)
    | with_reducible refine Moves.foldl (fun _ _ => ?_) ?_
    | decide
    | split
    | dsimp +zetaDelta only

theorem State.scanBleed_moves (s unread) : Moves [.cells] s (State.scanBleed s unread) := by
  unfold State.scanBleed
  repeat' first
    | extract_lets
    | with_reducible exact Moves.refl _ _
    | with_reducible refine Moves.ite ?_ ?_
    | with_reducible refine Moves.foldl (fun _ _ => ?_) ?_
    | fail_if_no_progress with_reducible refine Moves.record ?_ (.inl rfl) (.inl rfl) (.inl rfl) (.inl rfl) (.inl rfl) (.inl rfl) (.inl rfl) (.inl rfl) (.inl rfl) (.inr (by decide)) (.inl rfl) (.inl rfl) (.inl rfl) (.inl rfl) (.inl rfl) (.inl rfl) (.inl rfl) (.inl rfl)
    | decide
    | split
    | dsimp +zetaDelta only

theorem State.scanRest_moves (s) : Moves [.cells, .fc, .ob] s (State.scanRest s) := by
  unfold State.scanRest
  repeat' first
    | extract_lets
    | with_reducible exact Moves.refl _ _
    | with_reducible refine Moves.ite ?_ ?_
    | with_reducible apply Moves.step (State.restCorrection_moves _)
    | with_reducible refine Moves.foldl (fun _ _ => ?_) ?_
    | fail_if_no_progress with_reducible refine Moves.record ?_ (.inl rfl) (.inl rfl) (.inl rfl) (.inl rfl) (.inl rfl) (.inl rfl) (.inl rfl) (.inl rfl) (.inl rfl) (.inr (by decide)) (.inl rfl) (.inl rfl) (.inl rfl) (.inl rfl) (.inl rfl) (.inl rfl) (.inl rfl) (.inl rfl)
    | decide
    | split
    | dsimp +zetaDelta only

theorem State.scanCycle_moves (s inp) : Moves [.shim, .cells, .fc, .ob] s (State.scanCycle s inp) := by
  unfold State.scanCycle
  repeat' first
    | extract_lets
    | with_reducible exact Moves.refl _ _
    | with_reducible refine Moves.ite ?_ ?_
    | with_reducible apply Moves.step (State.scanSlice_moves _ _ _)
    | with_reducible apply Moves.step (State.scanEstimate_moves _)
    | with_reducible apply Moves.step (State.scanThresholds_moves _)
    | with_reducible apply Moves.step (State.scanCounters_moves _ _)
    | with_reducible apply Moves.step (State.scanReadings_moves _ _)
    | with_reducible apply Moves.step (State.scanBleed_moves _ _)
    | with_reducible apply Moves.step (State.scanProbation_moves _)
    | with_reducible apply Moves.step (State.scanRest_moves _)
    | with_reducible apply Moves.step (State.settleFloors_moves _)
    | with_reducible apply Moves.step (State.settleNarrow_moves _)
    | with_reducible apply Moves.step (State.cellReports_moves _)
    | with_reducible refine Moves.foldl (fun _ _ => ?_) ?_
    | fail_if_no_progress with_reducible refine Moves.record ?_ (.inl rfl) (.inl rfl) (.inl rfl) (.inl rfl) (.inl rfl) (.inl rfl) (.inl rfl) (.inl rfl) (.inl rfl) (.inr (by decide)) (.inl rfl) (.inl rfl) (.inl rfl) (.inl rfl) (.inl rfl) (.inl rfl) (.inl rfl) (.inl rfl)
    | decide
    | split
    | dsimp +zetaDelta only

theorem execCellScan_moves (t inp s) : MovesO [.time, .shim, .cells, .fc, .ob] s (execCellScan t inp s) := by
  unfold execCellScan
  repeat' first
    | extract_lets
    | with_reducible exact Moves.refl _ _
    | with_reducible refine MovesO.next ?_
    | with_reducible refine MovesO.ite ?_ ?_
    | with_reducible exact MovesO.fault _
    | with_reducible exact MovesO.refused _
    | with_reducible refine Moves.ite ?_ ?_
    | with_reducible apply Moves.step (State.upTo_moves _ _)
    | with_reducible apply Moves.step (State.scanCycle_moves _ _)
    | with_reducible refine Moves.foldl (fun _ _ => ?_) ?_
    | fail_if_no_progress with_reducible refine Moves.record ?_ (.inl rfl) (.inl rfl) (.inl rfl) (.inl rfl) (.inl rfl) (.inl rfl) (.inl rfl) (.inl rfl) (.inl rfl) (.inr (by decide)) (.inl rfl) (.inl rfl) (.inl rfl) (.inl rfl) (.inl rfl) (.inl rfl) (.inl rfl) (.inl rfl)
    | decide
    | split
    | dsimp +zetaDelta only

theorem execCellGrantRest_moves (slot t s) : MovesO [.time, .host, .shim, .cells, .fc, .mp, .ob] s (execCellGrantRest slot t s) :=
  State.serve_moves (fun _ _ _ => (cellGrantRest_moves _ _ _).weaken rfl) rfl

theorem execCaptureArm_moves (t stepMa s) : MovesO [.time, .cells] s (execCaptureArm t stepMa s) := by
  unfold execCaptureArm
  repeat' first
    | extract_lets
    | with_reducible exact Moves.refl _ _
    | with_reducible refine MovesO.next ?_
    | with_reducible refine MovesO.ite ?_ ?_
    | with_reducible exact MovesO.fault _
    | with_reducible exact MovesO.refused _
    | with_reducible refine Moves.ite ?_ ?_
    | with_reducible apply Moves.step (State.upTo_moves _ _)
    | with_reducible refine Moves.foldl (fun _ _ => ?_) ?_
    | fail_if_no_progress with_reducible refine Moves.record ?_ (.inl rfl) (.inl rfl) (.inl rfl) (.inl rfl) (.inl rfl) (.inl rfl) (.inl rfl) (.inl rfl) (.inl rfl) (.inr (by decide)) (.inl rfl) (.inl rfl) (.inl rfl) (.inl rfl) (.inl rfl) (.inl rfl) (.inl rfl) (.inl rfl)
    | decide
    | split
    | dsimp +zetaDelta only

theorem State.learnResistance_moves (s r rate) : Moves [.cells, .fc] s (State.learnResistance s r rate) := by
  unfold State.learnResistance
  repeat' first
    | extract_lets
    | with_reducible exact Moves.refl _ _
    | with_reducible refine Moves.ite ?_ ?_
    | with_reducible apply Moves.step (State.raiseCond_moves _ _ _ _ _)
    | with_reducible refine Moves.foldl (fun _ _ => ?_) ?_
    | fail_if_no_progress with_reducible refine Moves.record ?_ (.inl rfl) (.inl rfl) (.inl rfl) (.inl rfl) (.inl rfl) (.inl rfl) (.inl rfl) (.inl rfl) (.inl rfl) (.inr (by decide)) (.inl rfl) (.inl rfl) (.inl rfl) (.inl rfl) (.inl rfl) (.inl rfl) (.inl rfl) (.inl rfl)
    | decide
    | split
    | dsimp +zetaDelta only

theorem State.restoreDone_moves (s result) : Moves [.shim, .cells, .mod, .ob] s (State.restoreDone s result) := by
  unfold State.restoreDone
  repeat' first
    | extract_lets
    | with_reducible exact Moves.refl _ _
    | with_reducible refine Moves.ite ?_ ?_
    | with_reducible apply Moves.step (State.startStorage_moves _)
    | with_reducible apply Moves.step (State.settleActive_moves _)
    | with_reducible apply Moves.step (State.settleNarrow_moves _)
    | with_reducible apply Moves.step (State.bump_moves _ _ _)
    | with_reducible refine Moves.foldl (fun _ _ => ?_) ?_
    | fail_if_no_progress with_reducible refine Moves.record ?_ (.inl rfl) (.inl rfl) (.inl rfl) (.inl rfl) (.inl rfl) (.inl rfl) (.inl rfl) (.inl rfl) (.inr (by decide)) (.inr (by decide)) (.inl rfl) (.inl rfl) (.inl rfl) (.inl rfl) (.inr (by decide)) (.inl rfl) (.inl rfl) (.inl rfl)
    | decide
    | split
    | dsimp +zetaDelta only

theorem State.adoptBlob_moves (s b) : Moves [.cells] s (State.adoptBlob s b) := by
  unfold State.adoptBlob
  repeat' first
    | extract_lets
    | with_reducible exact Moves.refl _ _
    | with_reducible refine Moves.ite ?_ ?_
    | with_reducible refine Moves.foldl (fun _ _ => ?_) ?_
    | fail_if_no_progress with_reducible refine Moves.record ?_ (.inl rfl) (.inl rfl) (.inl rfl) (.inl rfl) (.inl rfl) (.inl rfl) (.inl rfl) (.inl rfl) (.inl rfl) (.inr (by decide)) (.inl rfl) (.inl rfl) (.inl rfl) (.inl rfl) (.inl rfl) (.inl rfl) (.inl rfl) (.inl rfl)
    | decide
    | split
    | dsimp +zetaDelta only

theorem cellRestoreState_moves (s : State) (k : Nat) (b : Bytes) : MovesR [.shim, .cells, .fc, .mod, .ob] s (cellRestoreState.act s k b) := by
  show MovesR _ _ (Cmd.act _ s k b)
  unfold cellRestoreState
  dsimp -zeta only
  repeat' first
    | extract_lets
    | with_reducible exact Moves.refl _ _
    | with_reducible refine MovesR.done ?_
    | with_reducible refine MovesR.ite ?_ ?_
    | with_reducible exact MovesR.refused _
    | with_reducible refine Moves.ite ?_ ?_
    | with_reducible apply Moves.step (State.restoreDone_moves _ _)
    | with_reducible apply Moves.step (State.adoptBlob_moves _ _)
    | with_reducible apply Moves.step (State.bump_moves _ _ _)
    | with_reducible apply Moves.step (State.raise_moves _ _ _ _ _)
    | with_reducible refine Moves.foldl (fun _ _ => ?_) ?_
    | decide
    | split
    | dsimp +zetaDelta only

theorem execChargeCountTick_moves (t currentMa s) : MovesO [.time, .cells] s (execChargeCountTick t currentMa s) := by
  unfold execChargeCountTick
  repeat' first
    | extract_lets
    | with_reducible exact Moves.refl _ _
    | with_reducible refine MovesO.next ?_
    | with_reducible refine MovesO.ite ?_ ?_
    | with_reducible exact MovesO.fault _
    | with_reducible exact MovesO.refused _
    | with_reducible refine Moves.ite ?_ ?_
    | with_reducible apply Moves.step (State.upTo_moves _ _)
    | with_reducible refine Moves.foldl (fun _ _ => ?_) ?_
    | fail_if_no_progress with_reducible refine Moves.record ?_ (.inl rfl) (.inl rfl) (.inl rfl) (.inl rfl) (.inl rfl) (.inl rfl) (.inl rfl) (.inl rfl) (.inl rfl) (.inr (by decide)) (.inl rfl) (.inl rfl) (.inl rfl) (.inl rfl) (.inl rfl) (.inl rfl) (.inl rfl) (.inl rfl)
    | decide
    | split
    | dsimp +zetaDelta only

theorem cellGetCells_moves (s : State) (k : Nat) (b : Bytes) : MovesR [] s (cellGetCells.act s k b) := by
  show MovesR _ _ (Cmd.act _ s k b)
  unfold cellGetCells
  dsimp -zeta only
  repeat' first
    | extract_lets
    | with_reducible exact Moves.refl _ _
    | with_reducible refine MovesR.done ?_
    | with_reducible refine MovesR.ite ?_ ?_
    | with_reducible exact MovesR.refused _
    | with_reducible refine Moves.ite ?_ ?_
    | with_reducible refine Moves.foldl (fun _ _ => ?_) ?_
    | decide
    | split
    | dsimp +zetaDelta only

theorem execCellGetCells_moves (slot t s) : MovesO [.time, .host, .fc, .mp, .ob] s (execCellGetCells slot t s) :=
  State.serve_moves (fun _ _ _ => (cellGetCells_moves _ _ _).weaken rfl) rfl

theorem cellGetStatus_moves (s : State) (k : Nat) (b : Bytes) : MovesR [] s (cellGetStatus.act s k b) := by
  show MovesR _ _ (Cmd.act _ s k b)
  unfold cellGetStatus
  dsimp -zeta only
  repeat' first
    | extract_lets
    | with_reducible exact Moves.refl _ _
    | with_reducible refine MovesR.done ?_
    | with_reducible refine MovesR.ite ?_ ?_
    | with_reducible exact MovesR.refused _
    | with_reducible refine Moves.ite ?_ ?_
    | with_reducible refine Moves.foldl (fun _ _ => ?_) ?_
    | decide
    | split
    | dsimp +zetaDelta only

theorem execCaptureRead_moves (t ring s) : MovesO [.time, .cells, .fc, .ob] s (execCaptureRead t ring s) := by
  unfold execCaptureRead
  repeat' first
    | extract_lets
    | with_reducible exact Moves.refl _ _
    | with_reducible refine MovesO.next ?_
    | with_reducible refine MovesO.ite ?_ ?_
    | with_reducible exact MovesO.fault _
    | with_reducible exact MovesO.refused _
    | with_reducible refine Moves.ite ?_ ?_
    | with_reducible apply Moves.step (State.upTo_moves _ _)
    | with_reducible apply Moves.step (State.bump_moves _ _ _)
    | with_reducible apply Moves.step (State.learnResistance_moves _ _ _)
    | with_reducible refine Moves.foldl (fun _ _ => ?_) ?_
    | fail_if_no_progress with_reducible refine Moves.record ?_ (.inl rfl) (.inl rfl) (.inl rfl) (.inl rfl) (.inl rfl) (.inl rfl) (.inl rfl) (.inl rfl) (.inl rfl) (.inr (by decide)) (.inl rfl) (.inl rfl) (.inl rfl) (.inl rfl) (.inl rfl) (.inl rfl) (.inl rfl) (.inl rfl)
    | decide
    | split
    | dsimp +zetaDelta only

theorem execCellGetStatus_moves (slot t s) : MovesO [.time, .host, .fc, .mp, .ob] s (execCellGetStatus slot t s) :=
  State.serve_moves (fun _ _ _ => (cellGetStatus_moves _ _ _).weaken rfl) rfl

theorem execCellRestoreState_moves (slot t s) : MovesO [.time, .host, .shim, .cells, .fc, .mp, .mod, .ob] s (execCellRestoreState slot t s) :=
  State.serve_moves (fun _ _ _ => (cellRestoreState_moves _ _ _).weaken rfl) rfl

end Sys2Proof.Machine
end

