-- ==== Sys2Proof/Laws/MovesPowerOps.lean ====
section
/-! SUPPORT. What the operations of Machine/PowerOps.lean keep, and the parts of the state they stay in. -/

namespace Sys2Proof.Machine

theorem State.processorsBoot_moves (s) : Moves [.mp, .mod] s (State.processorsBoot s) := by
  unfold State.processorsBoot
  repeat' first
    | extract_lets
    | with_reducible exact Moves.refl _ _
    | with_reducible refine Moves.ite ?_ ?_
    | with_reducible refine Moves.foldl (fun _ _ => ?_) ?_
    | fail_if_no_progress with_reducible refine Moves.record ?_ (.inl rfl) (.inl rfl) (.inl rfl) (.inl rfl) (.inl rfl) (.inl rfl) (.inl rfl) (.inl rfl) (.inl rfl) (.inl rfl) (.inl rfl) (.inl rfl) (.inl rfl) (.inr (by decide)) (.inr (by decide)) (.inl rfl) (.inl rfl) (.inl rfl)
    | decide
    | split
    | dsimp +zetaDelta only

theorem MemState.onlyTier3_keeps (m : MemState) : m.Keeps m.onlyTier3 :=
  (MemState.lose_keeps m 0 0x40000000000).trans (.same rfl rfl rfl)

theorem State.coldClear_moves (s) : Moves [.frame, .jigs, .arrays, .lanes, .mem, .qf, .fabric, .host, .shim, .cells, .rails, .gov, .fc, .mp, .mod, .clocks, .ob] s (State.coldClear s) := by
  refine Moves.record (Moves.refl _ _) (.inr ⟨by decide, fun _ => ?_⟩) (.inr ⟨by decide, MemState.onlyTier3_keeps _⟩) (.inr (by decide)) (.inr (by decide)) (.inr (by decide)) (.inr (by decide)) (.inr (by decide)) (.inr (by decide)) (.inr (by decide)) (.inr (by decide)) (.inr (by decide)) (.inr (by decide)) (.inr (by decide)) (.inr (by decide)) (.inr (by decide)) (.inl rfl) (.inr (by decide)) (.inr (by decide))
  decide

theorem State.powerLost_moves (s) : Moves [.frame, .jigs, .arrays, .lanes, .mem, .qf, .fabric, .host, .shim, .cells, .rails, .gov, .fc, .mp, .mod, .clocks, .ob] s (State.powerLost s) := by
  unfold State.powerLost
  repeat' first
    | extract_lets
    | with_reducible exact Moves.refl _ _
    | with_reducible refine Moves.ite ?_ ?_
    | with_reducible apply Moves.step (State.coldClear_moves _)
    | with_reducible refine Moves.foldl (fun _ _ => ?_) ?_
    | fail_if_no_progress with_reducible refine Moves.record ?_ (.inl rfl) (.inl rfl) (.inl rfl) (.inl rfl) (.inl rfl) (.inl rfl) (.inl rfl) (.inl rfl) (.inr (by decide)) (.inl rfl) (.inl rfl) (.inl rfl) (.inl rfl) (.inl rfl) (.inl rfl) (.inl rfl) (.inl rfl) (.inl rfl)
    | decide
    | split
    | dsimp +zetaDelta only

theorem State.processorsLost_moves (s) : Moves [.mp, .mod] s (State.processorsLost s) := by
  unfold State.processorsLost
  repeat' first
    | extract_lets
    | with_reducible exact Moves.refl _ _
    | with_reducible refine Moves.ite ?_ ?_
    | with_reducible refine Moves.foldl (fun _ _ => ?_) ?_
    | fail_if_no_progress with_reducible refine Moves.record ?_ (.inl rfl) (.inl rfl) (.inl rfl) (.inl rfl) (.inl rfl) (.inl rfl) (.inl rfl) (.inl rfl) (.inl rfl) (.inl rfl) (.inl rfl) (.inl rfl) (.inl rfl) (.inr (by decide)) (.inr (by decide)) (.inl rfl) (.inl rfl) (.inl rfl)
    | decide
    | split
    | dsimp +zetaDelta only

theorem State.settlePower_moves (s) : Moves [.frame, .jigs, .arrays, .lanes, .mem, .qf, .fabric, .host, .shim, .cells, .rails, .gov, .fc, .mp, .mod, .clocks, .ob] s (State.settlePower s) := by
  unfold State.settlePower
  repeat' first
    | extract_lets
    | with_reducible exact Moves.refl _ _
    | with_reducible refine Moves.ite ?_ ?_
    | with_reducible apply Moves.step (State.processorsBoot_moves _)
    | with_reducible apply Moves.step (State.powerLost_moves _)
    | with_reducible apply Moves.step (State.processorsLost_moves _)
    | with_reducible refine Moves.foldl (fun _ _ => ?_) ?_
    | decide
    | split
    | dsimp +zetaDelta only

end Sys2Proof.Machine
end

