-- ==== Sys2Proof/Laws/MovesFaultCode.lean ====
section
/-! SUPPORT. What the operations of Machine/FaultCode.lean keep, and the parts of the state they stay in. -/

namespace Sys2Proof.Machine

theorem fcSetLevel_moves (s : State) (k : Nat) (b : Bytes) : MovesR [.fc] s (fcSetLevel.act s k b) := by
  show MovesR _ _ (Cmd.act _ s k b)
  unfold fcSetLevel
  dsimp -zeta only
  repeat' first
    | extract_lets
    | with_reducible exact Moves.refl _ _
    | with_reducible refine MovesR.done ?_
    | with_reducible refine MovesR.ite ?_ ?_
    | with_reducible exact MovesR.refused _
    | with_reducible refine Moves.ite ?_ ?_
    | with_reducible refine Moves.foldl (fun _ _ => ?_) ?_
    | fail_if_no_progress with_reducible refine Moves.record ?_ (.inl rfl) (.inl rfl) (.inl rfl) (.inl rfl) (.inl rfl) (.inl rfl) (.inl rfl) (.inl rfl) (.inl rfl) (.inl rfl) (.inl rfl) (.inl rfl) (.inr (by decide)) (.inl rfl) (.inl rfl) (.inl rfl) (.inl rfl) (.inl rfl)
    | decide
    | split
    | dsimp +zetaDelta only

theorem execFcSetLevel_moves (slot t s) : MovesO [.time, .host, .fc, .mp, .ob] s (execFcSetLevel slot t s) :=
  State.serve_moves (fun _ _ _ => (fcSetLevel_moves _ _ _).weaken rfl) rfl

theorem State.changeMode_moves (s m) : Moves [.mod] s (State.changeMode s m) := by
  unfold State.changeMode
  repeat' first
    | extract_lets
    | with_reducible exact Moves.refl _ _
    | with_reducible refine Moves.ite ?_ ?_
    | with_reducible refine Moves.foldl (fun _ _ => ?_) ?_
    | fail_if_no_progress with_reducible refine Moves.record ?_ (.inl rfl) (.inl rfl) (.inl rfl) (.inl rfl) (.inl rfl) (.inl rfl) (.inl rfl) (.inl rfl) (.inl rfl) (.inl rfl) (.inl rfl) (.inl rfl) (.inl rfl) (.inl rfl) (.inr (by decide)) (.inl rfl) (.inl rfl) (.inl rfl)
    | decide
    | split
    | dsimp +zetaDelta only

theorem State.enterSafe_moves (s) : Moves [.rails, .mod, .ob] s (State.enterSafe s) := by
  unfold State.enterSafe
  repeat' first
    | extract_lets
    | with_reducible exact Moves.refl _ _
    | with_reducible refine Moves.ite ?_ ?_
    | with_reducible apply Moves.step (State.bump_moves _ _ _)
    | with_reducible apply Moves.step (State.changeMode_moves _ _)
    | with_reducible apply Moves.step (State.pauseStart_moves _)
    | with_reducible refine Moves.foldl (fun _ _ => ?_) ?_
    | fail_if_no_progress with_reducible refine Moves.record ?_ (.inl rfl) (.inl rfl) (.inl rfl) (.inl rfl) (.inl rfl) (.inl rfl) (.inl rfl) (.inl rfl) (.inl rfl) (.inl rfl) (.inr (by decide)) (.inl rfl) (.inl rfl) (.inl rfl) (.inr (by decide)) (.inl rfl) (.inl rfl) (.inl rfl)
    | decide
    | split
    | dsimp +zetaDelta only

theorem State.classAction_moves (s code) : Moves [.frame, .jigs, .arrays, .lanes, .mem, .qf, .fabric, .host, .shim, .cells, .rails, .gov, .fc, .mp, .mod, .clocks, .ob] s (State.classAction s code) := by
  unfold State.classAction
  repeat' first
    | extract_lets
    | with_reducible exact Moves.refl _ _
    | with_reducible refine Moves.ite ?_ ?_
    | with_reducible apply Moves.step (State.settlePower_moves _)
    | with_reducible apply Moves.step (State.stopStorage_moves _ _ _)
    | with_reducible refine Moves.foldl (fun _ _ => ?_) ?_
    | fail_if_no_progress with_reducible refine Moves.record ?_ (.inl rfl) (.inl rfl) (.inl rfl) (.inl rfl) (.inl rfl) (.inl rfl) (.inl rfl) (.inl rfl) (.inl rfl) (.inl rfl) (.inl rfl) (.inl rfl) (.inr (by decide)) (.inl rfl) (.inl rfl) (.inl rfl) (.inl rfl) (.inl rfl)
    | decide
    | split
    | dsimp +zetaDelta only

theorem State.fatalStop_moves (s code secondOv) : Moves [.frame, .jigs, .arrays, .lanes, .mem, .qf, .fabric, .host, .shim, .cells, .rails, .gov, .fc, .mp, .mod, .clocks, .ob] s (State.fatalStop s code secondOv) := by
  unfold State.fatalStop
  repeat' first
    | extract_lets
    | with_reducible exact Moves.refl _ _
    | with_reducible refine Moves.ite ?_ ?_
    | with_reducible apply Moves.step (State.stopStorage_moves _ _ _)
    | with_reducible apply Moves.step (State.beginStop_moves _ _ _)
    | with_reducible apply Moves.step (State.settlePower_moves _)
    | with_reducible apply Moves.step (State.openIsolation_moves _)
    | with_reducible apply Moves.step (State.stopInput_moves _ _)
    | with_reducible refine Moves.foldl (fun _ _ => ?_) ?_
    | fail_if_no_progress with_reducible refine Moves.record ?_ (.inl rfl) (.inl rfl) (.inl rfl) (.inl rfl) (.inl rfl) (.inl rfl) (.inl rfl) (.inl rfl) (.inr (by decide)) (.inl rfl) (.inl rfl) (.inl rfl) (.inr (by decide)) (.inl rfl) (.inr (by decide)) (.inl rfl) (.inl rfl) (.inl rfl)
    | decide
    | split
    | dsimp +zetaDelta only

theorem State.react_moves (s code unit scope lv) : Moves [.frame, .jigs, .arrays, .lanes, .mem, .qf, .fabric, .host, .shim, .cells, .rails, .gov, .fc, .mp, .mod, .pins, .clocks, .ob] s (State.react s code unit scope lv) := by
  unfold State.react
  repeat' first
    | extract_lets
    | with_reducible exact Moves.refl _ _
    | with_reducible refine Moves.ite ?_ ?_
    | with_reducible apply Moves.step (State.abortRest_moves _ _)
    | with_reducible apply Moves.step (State.enterSafe_moves _)
    | with_reducible apply Moves.step (State.immediateStop_moves _ _)
    | with_reducible apply Moves.step (State.orderlyStop_moves _ _)
    | with_reducible apply Moves.step (State.classAction_moves _ _)
    | with_reducible apply Moves.step (State.fatalStop_moves _ _ _)
    | with_reducible refine Moves.foldl (fun _ _ => ?_) ?_
    | fail_if_no_progress with_reducible refine Moves.record ?_ (.inl rfl) (.inl rfl) (.inl rfl) (.inl rfl) (.inl rfl) (.inl rfl) (.inl rfl) (.inl rfl) (.inl rfl) (.inl rfl) (.inl rfl) (.inl rfl) (.inr (by decide)) (.inl rfl) (.inl rfl) (.inl rfl) (.inl rfl) (.inl rfl)
    | decide
    | split
    | dsimp +zetaDelta only

theorem State.leaveSafe_moves (s) : Moves [.rails, .mod] s (State.leaveSafe s) := by
  unfold State.leaveSafe
  repeat' first
    | extract_lets
    | with_reducible exact Moves.refl _ _
    | with_reducible refine Moves.ite ?_ ?_
    | with_reducible apply Moves.step (State.changeMode_moves _ _)
    | with_reducible refine Moves.foldl (fun _ _ => ?_) ?_
    | fail_if_no_progress with_reducible refine Moves.record ?_ (.inl rfl) (.inl rfl) (.inl rfl) (.inl rfl) (.inl rfl) (.inl rfl) (.inl rfl) (.inl rfl) (.inl rfl) (.inl rfl) (.inr (by decide)) (.inl rfl) (.inl rfl) (.inl rfl) (.inr (by decide)) (.inl rfl) (.inl rfl) (.inl rfl)
    | decide
    | split
    | dsimp +zetaDelta only

theorem State.settleReactionTimes_moves (s) : Moves [.fc, .ob] s (State.settleReactionTimes s) := by
  unfold State.settleReactionTimes
  repeat' first
    | extract_lets
    | with_reducible exact Moves.refl _ _
    | with_reducible refine Moves.ite ?_ ?_
    | with_reducible apply Moves.step (State.bump_moves _ _ _)
    | with_reducible refine Moves.foldl (fun _ _ => ?_) ?_
    | fail_if_no_progress with_reducible refine Moves.record ?_ (.inl rfl) (.inl rfl) (.inl rfl) (.inl rfl) (.inl rfl) (.inl rfl) (.inl rfl) (.inl rfl) (.inl rfl) (.inl rfl) (.inl rfl) (.inl rfl) (.inr (by decide)) (.inl rfl) (.inl rfl) (.inl rfl) (.inl rfl) (.inl rfl)
    | decide
    | split
    | dsimp +zetaDelta only

theorem State.driveOut_moves (s low t) : Moves [.fc, .ob] s (State.driveOut s low t) := by
  unfold State.driveOut
  repeat' first
    | extract_lets
    | with_reducible exact Moves.refl _ _
    | with_reducible refine Moves.ite ?_ ?_
    | with_reducible apply Moves.step (State.bump_moves _ _ _)
    | with_reducible refine Moves.foldl (fun _ _ => ?_) ?_
    | fail_if_no_progress with_reducible refine Moves.record ?_ (.inl rfl) (.inl rfl) (.inl rfl) (.inl rfl) (.inl rfl) (.inl rfl) (.inl rfl) (.inl rfl) (.inl rfl) (.inl rfl) (.inl rfl) (.inl rfl) (.inr (by decide)) (.inl rfl) (.inl rfl) (.inl rfl) (.inl rfl) (.inl rfl)
    | decide
    | split
    | dsimp +zetaDelta only

theorem State.releaseOut_moves (s) : Moves [.fc, .ob] s (State.releaseOut s) := by
  unfold State.releaseOut
  repeat' first
    | extract_lets
    | with_reducible exact Moves.refl _ _
    | with_reducible refine Moves.ite ?_ ?_
    | with_reducible apply Moves.step (State.driveOut_moves _ _ _)
    | with_reducible refine Moves.foldl (fun _ _ => ?_) ?_
    | decide
    | split
    | dsimp +zetaDelta only

theorem State.settleReactions_moves (s) : Moves [.rails, .fc, .mod, .ob] s (State.settleReactions s) := by
  unfold State.settleReactions
  repeat' first
    | extract_lets
    | with_reducible exact Moves.refl _ _
    | with_reducible refine Moves.ite ?_ ?_
    | with_reducible apply Moves.step (State.settleActive_moves _)
    | with_reducible apply Moves.step (State.leaveSafe_moves _)
    | with_reducible apply Moves.step (State.settleReactionTimes_moves _)
    | with_reducible apply Moves.step (State.releaseOut_moves _)
    | with_reducible refine Moves.foldl (fun _ _ => ?_) ?_
    | fail_if_no_progress with_reducible refine Moves.record ?_ (.inl rfl) (.inl rfl) (.inl rfl) (.inl rfl) (.inl rfl) (.inl rfl) (.inl rfl) (.inl rfl) (.inl rfl) (.inl rfl) (.inl rfl) (.inl rfl) (.inr (by decide)) (.inl rfl) (.inl rfl) (.inl rfl) (.inl rfl) (.inl rfl)
    | decide
    | split
    | dsimp +zetaDelta only

theorem State.settleAcks_moves (s) : Moves [.rails, .fc, .mod, .ob] s (State.settleAcks s) := by
  unfold State.settleAcks
  repeat' first
    | extract_lets
    | with_reducible exact Moves.refl _ _
    | with_reducible refine Moves.ite ?_ ?_
    | with_reducible apply Moves.step (State.settleReactions_moves _)
    | with_reducible refine Moves.foldl (fun _ _ => ?_) ?_
    | fail_if_no_progress with_reducible refine Moves.record ?_ (.inl rfl) (.inl rfl) (.inl rfl) (.inl rfl) (.inl rfl) (.inl rfl) (.inl rfl) (.inl rfl) (.inl rfl) (.inl rfl) (.inl rfl) (.inl rfl) (.inr (by decide)) (.inl rfl) (.inl rfl) (.inl rfl) (.inl rfl) (.inl rfl)
    | decide
    | split
    | dsimp +zetaDelta only

theorem fuseReadGroup_moves (s : State) (k : Nat) (b : Bytes) : MovesR [] s (fuseReadGroup.act s k b) := by
  show MovesR _ _ (Cmd.act _ s k b)
  unfold fuseReadGroup
  dsimp -zeta only
  repeat' first
    | extract_lets
    | with_reducible exact Moves.refl _ _
    | with_reducible refine MovesR.done ?_
    | with_reducible refine MovesR.ite ?_ ?_
    | with_reducible exact MovesR.refused _
    | with_reducible refine Moves.ite ?_ ?_
    | with_reducible refine Moves.foldl (fun _ _ => ?_) ?_
    | decide
    | split
    | dsimp +zetaDelta only

theorem State.arrive_moves (s src msg) : Moves [.time, .fc] s (State.arrive s src msg) := by
  unfold State.arrive
  repeat' first
    | extract_lets
    | with_reducible exact Moves.refl _ _
    | with_reducible refine Moves.ite ?_ ?_
    | with_reducible apply Moves.step (State.onEdge_moves _ _ _)
    | with_reducible refine Moves.foldl (fun _ _ => ?_) ?_
    | fail_if_no_progress with_reducible refine Moves.record ?_ (.inl rfl) (.inl rfl) (.inl rfl) (.inl rfl) (.inl rfl) (.inl rfl) (.inl rfl) (.inl rfl) (.inl rfl) (.inl rfl) (.inl rfl) (.inl rfl) (.inr (by decide)) (.inl rfl) (.inl rfl) (.inl rfl) (.inl rfl) (.inl rfl)
    | decide
    | split
    | dsimp +zetaDelta only

theorem State.endPulse_moves (s) : Moves [.fc, .ob] s (State.endPulse s) := by
  unfold State.endPulse
  repeat' first
    | extract_lets
    | with_reducible exact Moves.refl _ _
    | with_reducible refine Moves.ite ?_ ?_
    | with_reducible apply Moves.step (State.driveOut_moves _ _ _)
    | with_reducible refine Moves.foldl (fun _ _ => ?_) ?_
    | decide
    | split
    | dsimp +zetaDelta only

theorem State.settleOut_moves (s) : Moves [.fc, .ob] s (State.settleOut s) := by
  unfold State.settleOut
  repeat' first
    | extract_lets
    | with_reducible exact Moves.refl _ _
    | with_reducible refine Moves.ite ?_ ?_
    | with_reducible apply Moves.step (State.driveOut_moves _ _ _)
    | with_reducible apply Moves.step (State.endPulse_moves _)
    | with_reducible refine Moves.foldl (fun _ _ => ?_) ?_
    | decide
    | split
    | dsimp +zetaDelta only

theorem execFaultOutTimer_moves (t s) : MovesO [.time, .fc, .ob] s (execFaultOutTimer t s) := by
  unfold execFaultOutTimer
  repeat' first
    | extract_lets
    | with_reducible exact Moves.refl _ _
    | with_reducible refine MovesO.next ?_
    | with_reducible refine MovesO.ite ?_ ?_
    | with_reducible exact MovesO.fault _
    | with_reducible exact MovesO.refused _
    | with_reducible refine Moves.ite ?_ ?_
    | with_reducible apply Moves.step (State.releaseOut_moves _)
    | with_reducible apply Moves.step (State.settleOut_moves _)
    | with_reducible apply Moves.step (State.upTo_moves _ _)
    | with_reducible refine Moves.foldl (fun _ _ => ?_) ?_
    | decide
    | split
    | dsimp +zetaDelta only

theorem fcGetSummary_moves (s : State) (k : Nat) (b : Bytes) : MovesR [] s (fcGetSummary.act s k b) := by
  show MovesR _ _ (Cmd.act _ s k b)
  unfold fcGetSummary
  dsimp -zeta only
  repeat' first
    | extract_lets
    | with_reducible exact Moves.refl _ _
    | with_reducible refine MovesR.done ?_
    | with_reducible refine MovesR.ite ?_ ?_
    | with_reducible exact MovesR.refused _
    | with_reducible refine Moves.ite ?_ ?_
    | with_reducible refine Moves.foldl (fun _ _ => ?_) ?_
    | decide
    | split
    | dsimp +zetaDelta only

theorem State.assertOut_moves (s) : Moves [.fc, .ob] s (State.assertOut s) := by
  unfold State.assertOut
  repeat' first
    | extract_lets
    | with_reducible exact Moves.refl _ _
    | with_reducible refine Moves.ite ?_ ?_
    | with_reducible apply Moves.step (State.driveOut_moves _ _ _)
    | with_reducible refine Moves.foldl (fun _ _ => ?_) ?_
    | fail_if_no_progress with_reducible refine Moves.record ?_ (.inl rfl) (.inl rfl) (.inl rfl) (.inl rfl) (.inl rfl) (.inl rfl) (.inl rfl) (.inl rfl) (.inl rfl) (.inl rfl) (.inl rfl) (.inl rfl) (.inr (by decide)) (.inl rfl) (.inl rfl) (.inl rfl) (.inl rfl) (.inl rfl)
    | decide
    | split
    | dsimp +zetaDelta only

theorem State.latch_moves (s0 src m lv0 injected) : Moves [.frame, .jigs, .arrays, .lanes, .mem, .qf, .fabric, .host, .shim, .cells, .rails, .gov, .fc, .mp, .mod, .pins, .clocks, .ob] s0 (State.latch s0 src m lv0 injected) := by
  unfold State.latch
  repeat' first
    | extract_lets
    | with_reducible exact Moves.refl _ _
    | with_reducible refine Moves.ite ?_ ?_
    | with_reducible apply Moves.step (State.settleOut_moves _)
    | with_reducible apply Moves.step (State.bump_moves _ _ _)
    | with_reducible apply Moves.step (State.assertOut_moves _)
    | with_reducible apply Moves.step (State.react_moves _ _ _ _ _)
    | with_reducible apply Moves.step (State.settleReactionTimes_moves _)
    | with_reducible refine Moves.foldl (fun _ _ => ?_) ?_
    | fail_if_no_progress with_reducible refine Moves.record ?_ (.inl rfl) (.inl rfl) (.inl rfl) (.inl rfl) (.inl rfl) (.inl rfl) (.inl rfl) (.inl rfl) (.inl rfl) (.inl rfl) (.inl rfl) (.inl rfl) (.inr (by decide)) (.inl rfl) (.inl rfl) (.inl rfl) (.inl rfl) (.inl rfl)
    | decide
    | split
    | dsimp +zetaDelta only

theorem fcInjectFault_moves (s : State) (k : Nat) (b : Bytes) : MovesR [.frame, .jigs, .arrays, .lanes, .mem, .qf, .fabric, .host, .shim, .cells, .rails, .gov, .fc, .mp, .mod, .pins, .clocks, .ob] s (fcInjectFault.act s k b) := by
  show MovesR _ _ (Cmd.act _ s k b)
  unfold fcInjectFault
  dsimp -zeta only
  repeat' first
    | extract_lets
    | with_reducible exact Moves.refl _ _
    | with_reducible refine MovesR.done ?_
    | with_reducible refine MovesR.ite ?_ ?_
    | with_reducible exact MovesR.refused _
    | with_reducible refine Moves.ite ?_ ?_
    | with_reducible apply Moves.step (State.latch_moves _ _ _ _ _)
    | with_reducible refine Moves.foldl (fun _ _ => ?_) ?_
    | decide
    | split
    | dsimp +zetaDelta only

theorem execFcInjectFault_moves (slot t s) : MovesO [.time, .frame, .jigs, .arrays, .lanes, .mem, .qf, .fabric, .host, .shim, .cells, .rails, .gov, .fc, .mp, .mod, .pins, .clocks, .ob] s (execFcInjectFault slot t s) :=
  State.serve_moves (fun _ _ _ => (fcInjectFault_moves _ _ _).weaken rfl) rfl

theorem fcGetLog_moves (s : State) (k : Nat) (b : Bytes) : MovesR [] s (fcGetLog.act s k b) := by
  show MovesR _ _ (Cmd.act _ s k b)
  unfold fcGetLog
  dsimp -zeta only
  repeat' first
    | extract_lets
    | with_reducible exact Moves.refl _ _
    | with_reducible refine MovesR.done ?_
    | with_reducible refine MovesR.ite ?_ ?_
    | with_reducible exact MovesR.refused _
    | with_reducible refine Moves.ite ?_ ?_
    | with_reducible refine Moves.foldl (fun _ _ => ?_) ?_
    | decide
    | split
    | dsimp +zetaDelta only

theorem State.setClassSlot_moves (s c x) : Moves [.fc] s (State.setClassSlot s c x) := by
  unfold State.setClassSlot
  repeat' first
    | extract_lets
    | with_reducible exact Moves.refl _ _
    | with_reducible refine Moves.ite ?_ ?_
    | with_reducible refine Moves.foldl (fun _ _ => ?_) ?_
    | fail_if_no_progress with_reducible refine Moves.record ?_ (.inl rfl) (.inl rfl) (.inl rfl) (.inl rfl) (.inl rfl) (.inl rfl) (.inl rfl) (.inl rfl) (.inl rfl) (.inl rfl) (.inl rfl) (.inl rfl) (.inr (by decide)) (.inl rfl) (.inl rfl) (.inl rfl) (.inl rfl) (.inl rfl)
    | decide
    | split
    | dsimp +zetaDelta only

theorem fcAckFaults_moves (s : State) (k : Nat) (b : Bytes) : MovesR [.rails, .fc, .mod, .ob] s (fcAckFaults.act s k b) := by
  show MovesR _ _ (Cmd.act _ s k b)
  unfold fcAckFaults
  dsimp -zeta only
  repeat' first
    | extract_lets
    | with_reducible exact Moves.refl _ _
    | with_reducible refine MovesR.done ?_
    | with_reducible refine MovesR.ite ?_ ?_
    | with_reducible exact MovesR.refused _
    | with_reducible refine Moves.ite ?_ ?_
    | with_reducible apply Moves.step (State.setClassSlot_moves _ _ _)
    | with_reducible apply Moves.step (State.bump_moves _ _ _)
    | with_reducible apply Moves.step (State.settleReactions_moves _)
    | with_reducible refine Moves.foldl (fun _ _ => ?_) ?_
    | decide
    | split
    | dsimp +zetaDelta only

theorem idGetIdentity_moves (s : State) (k : Nat) (b : Bytes) : MovesR [] s (idGetIdentity.act s k b) := by
  show MovesR _ _ (Cmd.act _ s k b)
  unfold idGetIdentity
  dsimp -zeta only
  repeat' first
    | extract_lets
    | with_reducible exact Moves.refl _ _
    | with_reducible refine MovesR.done ?_
    | with_reducible refine MovesR.ite ?_ ?_
    | with_reducible exact MovesR.refused _
    | with_reducible refine Moves.ite ?_ ?_
    | with_reducible refine Moves.foldl (fun _ _ => ?_) ?_
    | decide
    | split
    | dsimp +zetaDelta only

theorem execFcGetSummary_moves (slot t s) : MovesO [.time, .host, .fc, .mp, .ob] s (execFcGetSummary slot t s) :=
  State.serve_moves (fun _ _ _ => (fcGetSummary_moves _ _ _).weaken rfl) rfl

theorem execReactionHaltDowels_moves (t s) : MovesO [.time, .frame, .jigs, .qf, .fabric, .shim, .fc, .ob] s (execReactionHaltDowels t s) := by
  unfold execReactionHaltDowels
  repeat' first
    | extract_lets
    | with_reducible exact Moves.refl _ _
    | with_reducible refine MovesO.next ?_
    | with_reducible refine MovesO.ite ?_ ?_
    | with_reducible exact MovesO.fault _
    | with_reducible exact MovesO.refused _
    | with_reducible refine Moves.ite ?_ ?_
    | with_reducible apply Moves.step (State.upTo_moves _ _)
    | with_reducible apply Moves.step (State.haltJobsOf_moves _ _)
    | with_reducible refine Moves.foldl (fun _ _ => ?_) ?_
    | fail_if_no_progress with_reducible refine Moves.record ?_ (.inl rfl) (.inl rfl) (.inl rfl) (.inl rfl) (.inl rfl) (.inl rfl) (.inl rfl) (.inl rfl) (.inl rfl) (.inl rfl) (.inl rfl) (.inl rfl) (.inr (by decide)) (.inl rfl) (.inl rfl) (.inl rfl) (.inl rfl) (.inl rfl)
    | decide
    | split
    | dsimp +zetaDelta only

theorem execFaultEvent_moves (t s) : MovesO [.time, .host, .fc, .ob] s (execFaultEvent t s) := by
  unfold execFaultEvent
  repeat' first
    | extract_lets
    | with_reducible exact Moves.refl _ _
    | with_reducible refine MovesO.next ?_
    | with_reducible refine MovesO.ite ?_ ?_
    | with_reducible exact MovesO.fault _
    | with_reducible exact MovesO.refused _
    | with_reducible refine Moves.ite ?_ ?_
    | with_reducible apply Moves.step (State.upTo_moves _ _)
    | with_reducible apply Moves.step (State.pfEvent_moves _ _)
    | with_reducible refine Moves.foldl (fun _ _ => ?_) ?_
    | fail_if_no_progress with_reducible refine Moves.record ?_ (.inl rfl) (.inl rfl) (.inl rfl) (.inl rfl) (.inl rfl) (.inl rfl) (.inl rfl) (.inl rfl) (.inl rfl) (.inl rfl) (.inl rfl) (.inl rfl) (.inr (by decide)) (.inl rfl) (.inl rfl) (.inl rfl) (.inl rfl) (.inl rfl)
    | decide
    | split
    | dsimp +zetaDelta only

theorem execFaultConditionClear_moves (code unit which t s) : MovesO [.time, .shim, .rails, .fc, .mod, .ob] s (execFaultConditionClear code unit which t s) := by
  unfold execFaultConditionClear
  repeat' first
    | extract_lets
    | with_reducible exact Moves.refl _ _
    | with_reducible refine MovesO.next ?_
    | with_reducible refine MovesO.ite ?_ ?_
    | with_reducible exact MovesO.fault _
    | with_reducible exact MovesO.refused _
    | with_reducible refine Moves.ite ?_ ?_
    | with_reducible apply Moves.step (State.upTo_moves _ _)
    | with_reducible apply Moves.step (State.settleAcks_moves _)
    | with_reducible refine Moves.foldl (fun _ _ => ?_) ?_
    | fail_if_no_progress with_reducible refine Moves.record ?_ (.inl rfl) (.inl rfl) (.inl rfl) (.inl rfl) (.inl rfl) (.inl rfl) (.inl rfl) (.inl rfl) (.inr (by decide)) (.inl rfl) (.inl rfl) (.inl rfl) (.inr (by decide)) (.inl rfl) (.inl rfl) (.inl rfl) (.inl rfl) (.inl rfl)
    | decide
    | split
    | dsimp +zetaDelta only

theorem execFuseReadGroup_moves (slot t s) : MovesO [.time, .host, .fc, .mp, .ob] s (execFuseReadGroup slot t s) :=
  State.serve_moves (fun _ _ _ => (fuseReadGroup_moves _ _ _).weaken rfl) rfl

theorem execFaultArrival_moves (src msg bad t s) : MovesO [.time, .frame, .jigs, .arrays, .lanes, .mem, .qf, .fabric, .host, .shim, .cells, .rails, .gov, .fc, .mp, .mod, .pins, .clocks, .ob] s (execFaultArrival src msg bad t s) := by
  unfold execFaultArrival
  repeat' first
    | extract_lets
    | with_reducible exact Moves.refl _ _
    | with_reducible refine MovesO.next ?_
    | with_reducible refine MovesO.ite ?_ ?_
    | with_reducible exact MovesO.fault _
    | with_reducible exact MovesO.refused _
    | with_reducible refine Moves.ite ?_ ?_
    | with_reducible apply Moves.step (State.onEdge_moves _ _ _)
    | with_reducible apply Moves.step (State.arrive_moves _ _ _)
    | with_reducible apply Moves.step (State.latch_moves _ _ _ _ _)
    | with_reducible apply Moves.step (State.bump_moves _ _ _)
    | with_reducible refine Moves.foldl (fun _ _ => ?_) ?_
    | decide
    | split
    | dsimp +zetaDelta only

theorem execFcGetLog_moves (slot t s) : MovesO [.time, .host, .fc, .mp, .ob] s (execFcGetLog slot t s) :=
  State.serve_moves (fun _ _ _ => (fcGetLog_moves _ _ _).weaken rfl) rfl

theorem execIdGetIdentity_moves (slot t s) : MovesO [.time, .host, .fc, .mp, .ob] s (execIdGetIdentity slot t s) :=
  State.serve_moves (fun _ _ _ => (idGetIdentity_moves _ _ _).weaken rfl) rfl

theorem execFcAckFaults_moves (slot t s) : MovesO [.time, .host, .rails, .fc, .mp, .mod, .ob] s (execFcAckFaults slot t s) :=
  State.serve_moves (fun _ _ _ => (fcAckFaults_moves _ _ _).weaken rfl) rfl

end Sys2Proof.Machine
end

