-- ==== Sys2Proof/Laws/MovesMgmtOps.lean ====
section
/-! SUPPORT. What the operations of Machine/MgmtOps.lean keep, and the parts of the state they stay in. -/

namespace Sys2Proof.Machine

theorem State.setMgmtLink_moves (s port up) : Moves [.mp] s (State.setMgmtLink s port up) := by
  unfold State.setMgmtLink
  repeat' first
    | extract_lets
    | with_reducible exact Moves.refl _ _
    | with_reducible refine Moves.ite ?_ ?_
    | with_reducible refine Moves.foldl (fun _ _ => ?_) ?_
    | fail_if_no_progress with_reducible refine Moves.record ?_ (.inl rfl) (.inl rfl) (.inl rfl) (.inl rfl) (.inl rfl) (.inl rfl) (.inl rfl) (.inl rfl) (.inl rfl) (.inl rfl) (.inl rfl) (.inl rfl) (.inl rfl) (.inr (by decide)) (.inl rfl) (.inl rfl) (.inl rfl) (.inl rfl)
    | decide
    | split
    | dsimp +zetaDelta only

theorem mpHandover_moves (s : State) (k : Nat) (b : Bytes) : MovesR [.mp] s (mpHandover.act s k b) := by
  show MovesR _ _ (Cmd.act _ s k b)
  unfold mpHandover
  dsimp -zeta only
  repeat' first
    | extract_lets
    | with_reducible exact Moves.refl _ _
    | with_reducible refine MovesR.done ?_
    | with_reducible refine MovesR.ite ?_ ?_
    | with_reducible exact MovesR.refused _
    | with_reducible refine Moves.ite ?_ ?_
    | with_reducible refine Moves.foldl (fun _ _ => ?_) ?_
    | fail_if_no_progress with_reducible refine Moves.record ?_ (.inl rfl) (.inl rfl) (.inl rfl) (.inl rfl) (.inl rfl) (.inl rfl) (.inl rfl) (.inl rfl) (.inl rfl) (.inl rfl) (.inl rfl) (.inl rfl) (.inl rfl) (.inr (by decide)) (.inl rfl) (.inl rfl) (.inl rfl) (.inl rfl)
    | decide
    | split
    | dsimp +zetaDelta only

theorem execMpHandover_moves (slot t s) : MovesO [.time, .host, .fc, .mp, .ob] s (execMpHandover slot t s) :=
  State.serve_moves (fun _ _ _ => (mpHandover_moves _ _ _).weaken rfl) rfl

theorem State.setProc_moves (s i p) : Moves [.mp] s (State.setProc s i p) := by
  unfold State.setProc
  repeat' first
    | extract_lets
    | with_reducible exact Moves.refl _ _
    | with_reducible refine Moves.ite ?_ ?_
    | with_reducible refine Moves.foldl (fun _ _ => ?_) ?_
    | fail_if_no_progress with_reducible refine Moves.record ?_ (.inl rfl) (.inl rfl) (.inl rfl) (.inl rfl) (.inl rfl) (.inl rfl) (.inl rfl) (.inl rfl) (.inl rfl) (.inl rfl) (.inl rfl) (.inl rfl) (.inl rfl) (.inr (by decide)) (.inl rfl) (.inl rfl) (.inl rfl) (.inl rfl)
    | decide
    | split
    | dsimp +zetaDelta only

theorem State.procLost_moves (s i) : Moves [.mp] s (State.procLost s i) := by
  unfold State.procLost
  repeat' first
    | extract_lets
    | with_reducible exact Moves.refl _ _
    | with_reducible refine Moves.ite ?_ ?_
    | with_reducible apply Moves.step (State.setProc_moves _ _ _)
    | with_reducible refine Moves.foldl (fun _ _ => ?_) ?_
    | decide
    | split
    | dsimp +zetaDelta only

theorem execI3cPrivateRead_moves (t s) : MovesO [.time, .mp] s (execI3cPrivateRead t s) := by
  unfold execI3cPrivateRead
  repeat' first
    | extract_lets
    | with_reducible exact Moves.refl _ _
    | with_reducible refine MovesO.next ?_
    | with_reducible refine MovesO.ite ?_ ?_
    | with_reducible exact MovesO.fault _
    | with_reducible exact MovesO.refused _
    | with_reducible refine Moves.ite ?_ ?_
    | with_reducible apply Moves.step (State.upTo_moves _ _)
    | with_reducible refine Moves.foldl (fun _ _ => ?_) ?_
    | fail_if_no_progress with_reducible refine Moves.record ?_ (.inl rfl) (.inl rfl) (.inl rfl) (.inl rfl) (.inl rfl) (.inl rfl) (.inl rfl) (.inl rfl) (.inl rfl) (.inl rfl) (.inl rfl) (.inl rfl) (.inl rfl) (.inr (by decide)) (.inl rfl) (.inl rfl) (.inl rfl) (.inl rfl)
    | decide
    | split
    | dsimp +zetaDelta only

theorem execI3cAddressAssignment_moves (address viaStatic t s) : MovesO [.time, .mp] s (execI3cAddressAssignment address viaStatic t s) := by
  unfold execI3cAddressAssignment
  repeat' first
    | extract_lets
    | with_reducible exact Moves.refl _ _
    | with_reducible refine MovesO.next ?_
    | with_reducible refine MovesO.ite ?_ ?_
    | with_reducible exact MovesO.fault _
    | with_reducible exact MovesO.refused _
    | with_reducible refine Moves.ite ?_ ?_
    | with_reducible apply Moves.step (State.upTo_moves _ _)
    | with_reducible refine Moves.foldl (fun _ _ => ?_) ?_
    | fail_if_no_progress with_reducible refine Moves.record ?_ (.inl rfl) (.inl rfl) (.inl rfl) (.inl rfl) (.inl rfl) (.inl rfl) (.inl rfl) (.inl rfl) (.inl rfl) (.inl rfl) (.inl rfl) (.inl rfl) (.inl rfl) (.inr (by decide)) (.inl rfl) (.inl rfl) (.inl rfl) (.inl rfl)
    | decide
    | split
    | dsimp +zetaDelta only

theorem mpSetMgmt_moves (s : State) (k : Nat) (b : Bytes) : MovesR [.mp] s (mpSetMgmt.act s k b) := by
  show MovesR _ _ (Cmd.act _ s k b)
  unfold mpSetMgmt
  dsimp -zeta only
  repeat' first
    | extract_lets
    | with_reducible exact Moves.refl _ _
    | with_reducible refine MovesR.done ?_
    | with_reducible refine MovesR.ite ?_ ?_
    | with_reducible exact MovesR.refused _
    | with_reducible refine Moves.ite ?_ ?_
    | with_reducible refine Moves.foldl (fun _ _ => ?_) ?_
    | fail_if_no_progress with_reducible refine Moves.record ?_ (.inl rfl) (.inl rfl) (.inl rfl) (.inl rfl) (.inl rfl) (.inl rfl) (.inl rfl) (.inl rfl) (.inl rfl) (.inl rfl) (.inl rfl) (.inl rfl) (.inl rfl) (.inr (by decide)) (.inl rfl) (.inl rfl) (.inl rfl) (.inl rfl)
    | decide
    | split
    | dsimp +zetaDelta only

theorem State.setBank_moves (s b x) : Moves [.mp] s (State.setBank s b x) := by
  unfold State.setBank
  repeat' first
    | extract_lets
    | with_reducible exact Moves.refl _ _
    | with_reducible refine Moves.ite ?_ ?_
    | with_reducible refine Moves.foldl (fun _ _ => ?_) ?_
    | fail_if_no_progress with_reducible refine Moves.record ?_ (.inl rfl) (.inl rfl) (.inl rfl) (.inl rfl) (.inl rfl) (.inl rfl) (.inl rfl) (.inl rfl) (.inl rfl) (.inl rfl) (.inl rfl) (.inl rfl) (.inl rfl) (.inr (by decide)) (.inl rfl) (.inl rfl) (.inl rfl) (.inl rfl)
    | decide
    | split
    | dsimp +zetaDelta only

theorem State.stageChunk_moves (s k i first last data) : MovesR [.fc, .mp] s (State.stageChunk s k i first last data) := by
  unfold State.stageChunk
  repeat' first
    | extract_lets
    | with_reducible exact Moves.refl _ _
    | with_reducible refine MovesR.done ?_
    | with_reducible refine MovesR.ite ?_ ?_
    | with_reducible exact MovesR.refused _
    | with_reducible refine Moves.ite ?_ ?_
    | with_reducible apply Moves.step (State.setBank_moves _ _ _)
    | with_reducible apply Moves.step (State.raise_moves _ _ _ _ _)
    | with_reducible refine Moves.foldl (fun _ _ => ?_) ?_
    | decide
    | split
    | dsimp +zetaDelta only

theorem mpStageImage_moves (s : State) (k : Nat) (b : Bytes) : MovesR [.fc, .mp] s (mpStageImage.act s k b) := by
  show MovesR _ _ (Cmd.act _ s k b)
  unfold mpStageImage
  dsimp -zeta only
  repeat' first
    | extract_lets
    | with_reducible exact Moves.refl _ _
    | with_reducible refine MovesR.done ?_
    | with_reducible refine MovesR.ite ?_ ?_
    | with_reducible exact MovesR.refused _
    | with_reducible refine Moves.ite ?_ ?_
    | with_reducible apply MovesR.step (State.stageChunk_moves _ _ _ _ _ _)
    | with_reducible refine Moves.foldl (fun _ _ => ?_) ?_
    | decide
    | split
    | dsimp +zetaDelta only

theorem execPtpMessage_moves (port timeNs t s) : MovesO [.time, .mp, .ob] s (execPtpMessage port timeNs t s) := by
  unfold execPtpMessage
  repeat' first
    | extract_lets
    | with_reducible exact Moves.refl _ _
    | with_reducible refine MovesO.next ?_
    | with_reducible refine MovesO.ite ?_ ?_
    | with_reducible exact MovesO.fault _
    | with_reducible exact MovesO.refused _
    | with_reducible refine Moves.ite ?_ ?_
    | with_reducible apply Moves.step (State.upTo_moves _ _)
    | with_reducible apply Moves.step (State.bump_moves _ _ _)
    | with_reducible refine Moves.foldl (fun _ _ => ?_) ?_
    | fail_if_no_progress with_reducible refine Moves.record ?_ (.inl rfl) (.inl rfl) (.inl rfl) (.inl rfl) (.inl rfl) (.inl rfl) (.inl rfl) (.inl rfl) (.inl rfl) (.inl rfl) (.inl rfl) (.inl rfl) (.inl rfl) (.inr (by decide)) (.inl rfl) (.inl rfl) (.inl rfl) (.inl rfl)
    | decide
    | split
    | dsimp +zetaDelta only

theorem execMgmtLinkUp_moves (port t s) : MovesO [.time, .mp] s (execMgmtLinkUp port t s) := by
  unfold execMgmtLinkUp
  repeat' first
    | extract_lets
    | with_reducible exact Moves.refl _ _
    | with_reducible refine MovesO.next ?_
    | with_reducible refine MovesO.ite ?_ ?_
    | with_reducible exact MovesO.fault _
    | with_reducible exact MovesO.refused _
    | with_reducible refine Moves.ite ?_ ?_
    | with_reducible apply Moves.step (State.upTo_moves _ _)
    | with_reducible apply Moves.step (State.setMgmtLink_moves _ _ _)
    | with_reducible refine Moves.foldl (fun _ _ => ?_) ?_
    | decide
    | split
    | dsimp +zetaDelta only

theorem State.setBoot_moves (s i b) : Moves [.mp] s (State.setBoot s i b) := by
  unfold State.setBoot
  repeat' first
    | extract_lets
    | with_reducible exact Moves.refl _ _
    | with_reducible refine Moves.ite ?_ ?_
    | with_reducible refine Moves.foldl (fun _ _ => ?_) ?_
    | fail_if_no_progress with_reducible refine Moves.record ?_ (.inl rfl) (.inl rfl) (.inl rfl) (.inl rfl) (.inl rfl) (.inl rfl) (.inl rfl) (.inl rfl) (.inl rfl) (.inl rfl) (.inl rfl) (.inl rfl) (.inl rfl) (.inr (by decide)) (.inl rfl) (.inl rfl) (.inl rfl) (.inl rfl)
    | decide
    | split
    | dsimp +zetaDelta only

theorem mpGetStatus_moves (s : State) (k : Nat) (b : Bytes) : MovesR [] s (mpGetStatus.act s k b) := by
  show MovesR _ _ (Cmd.act _ s k b)
  unfold mpGetStatus
  dsimp -zeta only
  repeat' first
    | extract_lets
    | with_reducible exact Moves.refl _ _
    | with_reducible refine MovesR.done ?_
    | with_reducible refine MovesR.ite ?_ ?_
    | with_reducible exact MovesR.refused _
    | with_reducible refine Moves.ite ?_ ?_
    | with_reducible refine Moves.foldl (fun _ _ => ?_) ?_
    | decide
    | split
    | dsimp +zetaDelta only

theorem State.discardDatagram_moves (s) : Moves [.mp, .ob] s (State.discardDatagram s) := by
  unfold State.discardDatagram
  repeat' first
    | extract_lets
    | with_reducible exact Moves.refl _ _
    | with_reducible refine Moves.ite ?_ ?_
    | with_reducible apply Moves.step (State.bump_moves _ _ _)
    | with_reducible refine Moves.foldl (fun _ _ => ?_) ?_
    | fail_if_no_progress with_reducible refine Moves.record ?_ (.inl rfl) (.inl rfl) (.inl rfl) (.inl rfl) (.inl rfl) (.inl rfl) (.inl rfl) (.inl rfl) (.inl rfl) (.inl rfl) (.inl rfl) (.inl rfl) (.inl rfl) (.inr (by decide)) (.inl rfl) (.inl rfl) (.inl rfl) (.inl rfl)
    | decide
    | split
    | dsimp +zetaDelta only

theorem State.msgBad_moves (s) : Moves [.fc, .mp] s (State.msgBad s) := by
  unfold State.msgBad
  repeat' first
    | extract_lets
    | with_reducible exact Moves.refl _ _
    | with_reducible refine Moves.ite ?_ ?_
    | with_reducible apply Moves.step (State.raise_moves _ _ _ _ _)
    | with_reducible refine Moves.foldl (fun _ _ => ?_) ?_
    | fail_if_no_progress with_reducible refine Moves.record ?_ (.inl rfl) (.inl rfl) (.inl rfl) (.inl rfl) (.inl rfl) (.inl rfl) (.inl rfl) (.inl rfl) (.inl rfl) (.inl rfl) (.inl rfl) (.inl rfl) (.inl rfl) (.inr (by decide)) (.inl rfl) (.inl rfl) (.inl rfl) (.inl rfl)
    | decide
    | split
    | dsimp +zetaDelta only

theorem execMailboxDatagram_moves (port src srcPort dstPort data t s) : MovesO [.time, .host, .fc, .mp, .ob] s (execMailboxDatagram port src srcPort dstPort data t s) := by
  unfold execMailboxDatagram
  repeat' first
    | extract_lets
    | with_reducible exact Moves.refl _ _
    | with_reducible refine MovesO.next ?_
    | with_reducible refine MovesO.ite ?_ ?_
    | with_reducible exact MovesO.fault _
    | with_reducible exact MovesO.refused _
    | with_reducible refine Moves.ite ?_ ?_
    | with_reducible apply Moves.step (State.upTo_moves _ _)
    | with_reducible apply Moves.step (State.discardDatagram_moves _)
    | with_reducible apply Moves.step (State.msgBad_moves _)
    | with_reducible apply Moves.step (State.settleUnknown_moves _)
    | with_reducible apply Moves.step (State.requestReady_moves _ _ _ _)
    | with_reducible refine Moves.foldl (fun _ _ => ?_) ?_
    | decide
    | split
    | dsimp +zetaDelta only

theorem execMailboxRequestPcie_moves (f word t s) : MovesO [.time, .host, .mp, .ob] s (execMailboxRequestPcie f word t s) := by
  unfold execMailboxRequestPcie
  repeat' first
    | extract_lets
    | with_reducible exact Moves.refl _ _
    | with_reducible refine MovesO.next ?_
    | with_reducible refine MovesO.ite ?_ ?_
    | with_reducible exact MovesO.fault _
    | with_reducible exact MovesO.refused _
    | with_reducible refine Moves.ite ?_ ?_
    | with_reducible apply Moves.step (State.bump_moves _ _ _)
    | with_reducible apply Moves.step (State.upTo_moves _ _)
    | with_reducible apply MovesQ.step (State.windowWrite_moves _ _ _ _)
    | with_reducible refine Moves.foldl (fun _ _ => ?_) ?_
    | decide
    | with_reducible refine Moves.getD ?_ ?_
    | refine Moves.step (State.windowWrite_moves _ _ _ _ _ ‹_›) ?_ ?_
    | split
    | dsimp +zetaDelta only

theorem State.settleReady_moves (s) : Moves [.mp] s (State.settleReady s) := by
  unfold State.settleReady
  repeat' first
    | extract_lets
    | with_reducible exact Moves.refl _ _
    | with_reducible refine Moves.ite ?_ ?_
    | with_reducible apply Moves.step (State.setProc_moves _ _ _)
    | with_reducible refine Moves.foldl (fun _ _ => ?_) ?_
    | decide
    | split
    | dsimp +zetaDelta only

theorem execI3cPrivateWrite_moves (data t s) : MovesO [.time, .host, .fc, .mp, .ob] s (execI3cPrivateWrite data t s) := by
  unfold execI3cPrivateWrite
  repeat' first
    | extract_lets
    | with_reducible exact Moves.refl _ _
    | with_reducible refine MovesO.next ?_
    | with_reducible refine MovesO.ite ?_ ?_
    | with_reducible exact MovesO.fault _
    | with_reducible exact MovesO.refused _
    | with_reducible refine Moves.ite ?_ ?_
    | with_reducible apply Moves.step (State.upTo_moves _ _)
    | with_reducible apply Moves.step (State.bump_moves _ _ _)
    | with_reducible apply Moves.step (State.raise_moves _ _ _ _ _)
    | with_reducible apply Moves.step (State.setSlot_moves _ _ _)
    | with_reducible apply Moves.step (State.msgBad_moves _)
    | with_reducible apply Moves.step (State.settleUnknown_moves _)
    | with_reducible apply Moves.step (State.requestReady_moves _ _ _ _)
    | with_reducible refine Moves.foldl (fun _ _ => ?_) ?_
    | decide
    | split
    | dsimp +zetaDelta only

theorem mpSetSwitchback_moves (s : State) (k : Nat) (b : Bytes) : MovesR [.mp] s (mpSetSwitchback.act s k b) := by
  show MovesR _ _ (Cmd.act _ s k b)
  unfold mpSetSwitchback
  dsimp -zeta only
  repeat' first
    | extract_lets
    | with_reducible exact Moves.refl _ _
    | with_reducible refine MovesR.done ?_
    | with_reducible refine MovesR.ite ?_ ?_
    | with_reducible exact MovesR.refused _
    | with_reducible refine Moves.ite ?_ ?_
    | with_reducible refine Moves.foldl (fun _ _ => ?_) ?_
    | fail_if_no_progress with_reducible refine Moves.record ?_ (.inl rfl) (.inl rfl) (.inl rfl) (.inl rfl) (.inl rfl) (.inl rfl) (.inl rfl) (.inl rfl) (.inl rfl) (.inl rfl) (.inl rfl) (.inl rfl) (.inl rfl) (.inr (by decide)) (.inl rfl) (.inl rfl) (.inl rfl) (.inl rfl)
    | decide
    | split
    | dsimp +zetaDelta only

theorem State.restartStandby_moves (s b) : Moves [.mp, .ob] s (State.restartStandby s b) := by
  unfold State.restartStandby
  repeat' first
    | extract_lets
    | with_reducible exact Moves.refl _ _
    | with_reducible refine Moves.ite ?_ ?_
    | with_reducible apply Moves.step (State.bump_moves _ _ _)
    | with_reducible apply Moves.step (State.setBoot_moves _ _ _)
    | with_reducible apply Moves.step (State.setProc_moves _ _ _)
    | with_reducible refine Moves.foldl (fun _ _ => ?_) ?_
    | decide
    | split
    | dsimp +zetaDelta only

theorem mpRestartStandby_moves (s : State) (k : Nat) (b : Bytes) : MovesR [.mp, .mod, .ob] s (mpRestartStandby.act s k b) := by
  show MovesR _ _ (Cmd.act _ s k b)
  unfold mpRestartStandby
  dsimp -zeta only
  repeat' first
    | extract_lets
    | with_reducible exact Moves.refl _ _
    | with_reducible refine MovesR.done ?_
    | with_reducible refine MovesR.ite ?_ ?_
    | with_reducible exact MovesR.refused _
    | with_reducible refine Moves.ite ?_ ?_
    | with_reducible apply Moves.step (State.restartStandby_moves _ _)
    | with_reducible refine Moves.foldl (fun _ _ => ?_) ?_
    | fail_if_no_progress with_reducible refine Moves.record ?_ (.inl rfl) (.inl rfl) (.inl rfl) (.inl rfl) (.inl rfl) (.inl rfl) (.inl rfl) (.inl rfl) (.inl rfl) (.inl rfl) (.inl rfl) (.inl rfl) (.inl rfl) (.inl rfl) (.inr (by decide)) (.inl rfl) (.inl rfl) (.inl rfl)
    | decide
    | split
    | dsimp +zetaDelta only

theorem execMpSetMgmt_moves (slot t s) : MovesO [.time, .host, .fc, .mp, .ob] s (execMpSetMgmt slot t s) :=
  State.serve_moves (fun _ _ _ => (mpSetMgmt_moves _ _ _).weaken rfl) rfl

theorem execMpStageImage_moves (slot t s) : MovesO [.time, .host, .fc, .mp, .ob] s (execMpStageImage slot t s) :=
  State.serve_moves (fun _ _ _ => (mpStageImage_moves _ _ _).weaken rfl) rfl

theorem execMgmtLinkDown_moves (port t s) : MovesO [.time, .fc, .mp] s (execMgmtLinkDown port t s) := by
  unfold execMgmtLinkDown
  repeat' first
    | extract_lets
    | with_reducible exact Moves.refl _ _
    | with_reducible refine MovesO.next ?_
    | with_reducible refine MovesO.ite ?_ ?_
    | with_reducible exact MovesO.fault _
    | with_reducible exact MovesO.refused _
    | with_reducible refine Moves.ite ?_ ?_
    | with_reducible apply Moves.step (State.upTo_moves _ _)
    | with_reducible apply Moves.step (State.raise_moves _ _ _ _ _)
    | with_reducible apply Moves.step (State.setMgmtLink_moves _ _ _)
    | with_reducible refine Moves.foldl (fun _ _ => ?_) ?_
    | decide
    | split
    | dsimp +zetaDelta only

theorem State.setMgmtAddress_moves (s port a) : Moves [.mp] s (State.setMgmtAddress s port a) := by
  unfold State.setMgmtAddress
  repeat' first
    | extract_lets
    | with_reducible exact Moves.refl _ _
    | with_reducible refine Moves.ite ?_ ?_
    | with_reducible refine Moves.foldl (fun _ _ => ?_) ?_
    | fail_if_no_progress with_reducible refine Moves.record ?_ (.inl rfl) (.inl rfl) (.inl rfl) (.inl rfl) (.inl rfl) (.inl rfl) (.inl rfl) (.inl rfl) (.inl rfl) (.inl rfl) (.inl rfl) (.inl rfl) (.inl rfl) (.inr (by decide)) (.inl rfl) (.inl rfl) (.inl rfl) (.inl rfl)
    | decide
    | split
    | dsimp +zetaDelta only

theorem execIcmpv6Message_moves (port src msg t s) : MovesO [.time, .mp] s (execIcmpv6Message port src msg t s) := by
  unfold execIcmpv6Message
  repeat' first
    | extract_lets
    | with_reducible exact Moves.refl _ _
    | with_reducible refine MovesO.next ?_
    | with_reducible refine MovesO.ite ?_ ?_
    | with_reducible exact MovesO.fault _
    | with_reducible exact MovesO.refused _
    | with_reducible refine Moves.ite ?_ ?_
    | with_reducible apply Moves.step (State.upTo_moves _ _)
    | with_reducible apply Moves.step (State.setMgmtAddress_moves _ _ _)
    | with_reducible refine Moves.foldl (fun _ _ => ?_) ?_
    | fail_if_no_progress with_reducible refine Moves.record ?_ (.inl rfl) (.inl rfl) (.inl rfl) (.inl rfl) (.inl rfl) (.inl rfl) (.inl rfl) (.inl rfl) (.inl rfl) (.inl rfl) (.inl rfl) (.inl rfl) (.inl rfl) (.inr (by decide)) (.inl rfl) (.inl rfl) (.inl rfl) (.inl rfl)
    | decide
    | split
    | dsimp +zetaDelta only

theorem execMpGetStatus_moves (slot t s) : MovesO [.time, .host, .fc, .mp, .ob] s (execMpGetStatus slot t s) :=
  State.serve_moves (fun _ _ _ => (mpGetStatus_moves _ _ _).weaken rfl) rfl

theorem execMpSetSwitchback_moves (slot t s) : MovesO [.time, .host, .fc, .mp, .ob] s (execMpSetSwitchback slot t s) :=
  State.serve_moves (fun _ _ _ => (mpSetSwitchback_moves _ _ _).weaken rfl) rfl

theorem execI3cSclStuck_moves (t s) : MovesO [.time, .fc, .ob] s (execI3cSclStuck t s) := by
  unfold execI3cSclStuck
  repeat' first
    | extract_lets
    | with_reducible exact Moves.refl _ _
    | with_reducible refine MovesO.next ?_
    | with_reducible refine MovesO.ite ?_ ?_
    | with_reducible exact MovesO.fault _
    | with_reducible exact MovesO.refused _
    | with_reducible refine Moves.ite ?_ ?_
    | with_reducible apply Moves.step (State.upTo_moves _ _)
    | with_reducible apply Moves.step (State.bump_moves _ _ _)
    | with_reducible apply Moves.step (State.raiseCond_moves _ _ _ _ _)
    | with_reducible refine Moves.foldl (fun _ _ => ?_) ?_
    | fail_if_no_progress with_reducible refine Moves.record ?_ (.inl rfl) (.inl rfl) (.inl rfl) (.inl rfl) (.inl rfl) (.inl rfl) (.inl rfl) (.inl rfl) (.inl rfl) (.inl rfl) (.inl rfl) (.inl rfl) (.inr (by decide)) (.inl rfl) (.inl rfl) (.inl rfl) (.inl rfl) (.inl rfl)
    | decide
    | split
    | dsimp +zetaDelta only

end Sys2Proof.Machine
end

