-- ==== Sys2Proof/Laws/MovesBringUp.lean ====
section
/-! SUPPORT. What the operations of Machine/BringUp.lean keep, and the parts of the state they stay in. -/

namespace Sys2Proof.Machine

theorem State.calibrationCheck_moves (s bad) : Moves [.cells, .fc, .clocks] s (State.calibrationCheck s bad) := by
  unfold State.calibrationCheck
  repeat' first
    | extract_lets
    | with_reducible exact Moves.refl _ _
    | with_reducible refine Moves.ite ?_ ?_
    | with_reducible apply Moves.step (State.raise_moves _ _ _ _ _)
    | with_reducible refine Moves.foldl (fun _ _ => ?_) ?_
    | fail_if_no_progress with_reducible refine Moves.record ?_ (.inl rfl) (.inl rfl) (.inl rfl) (.inl rfl) (.inl rfl) (.inl rfl) (.inl rfl) (.inl rfl) (.inl rfl) (.inr (by decide)) (.inl rfl) (.inl rfl) (.inl rfl) (.inl rfl) (.inl rfl) (.inl rfl) (.inr (by decide)) (.inl rfl)
    | decide
    | split
    | dsimp +zetaDelta only

theorem State.fuseCheck_moves (s first second) : Moves [.fc, .mod] s (State.fuseCheck s first second) := by
  unfold State.fuseCheck
  repeat' first
    | extract_lets
    | with_reducible exact Moves.refl _ _
    | with_reducible refine Moves.ite ?_ ?_
    | with_reducible apply Moves.step (State.raiseCond_moves _ _ _ _ _)
    | with_reducible apply Moves.step (State.raise_moves _ _ _ _ _)
    | with_reducible refine Moves.foldl (fun _ _ => ?_) ?_
    | fail_if_no_progress with_reducible refine Moves.record ?_ (.inl rfl) (.inl rfl) (.inl rfl) (.inl rfl) (.inl rfl) (.inl rfl) (.inl rfl) (.inl rfl) (.inl rfl) (.inl rfl) (.inl rfl) (.inl rfl) (.inr (by decide)) (.inl rfl) (.inr (by decide)) (.inl rfl) (.inl rfl) (.inl rfl)
    | decide
    | split
    | dsimp +zetaDelta only

theorem State.coldBegin_moves (s cause) : Moves [.frame, .jigs, .arrays, .lanes, .mem, .qf, .fabric, .host, .shim, .cells, .rails, .gov, .fc, .mp, .mod, .clocks, .ob] s (State.coldBegin s cause) := by
  unfold State.coldBegin
  repeat' first
    | extract_lets
    | with_reducible exact Moves.refl _ _
    | with_reducible refine Moves.ite ?_ ?_
    | with_reducible apply Moves.step (State.coldClear_moves _)
    | with_reducible refine Moves.foldl (fun _ _ => ?_) ?_
    | fail_if_no_progress with_reducible refine Moves.record ?_ (.inl rfl) (.inl rfl) (.inl rfl) (.inl rfl) (.inl rfl) (.inl rfl) (.inl rfl) (.inl rfl) (.inr (by decide)) (.inr (by decide)) (.inl rfl) (.inl rfl) (.inr (by decide)) (.inl rfl) (.inr (by decide)) (.inl rfl) (.inl rfl) (.inl rfl)
    | decide
    | split
    | dsimp +zetaDelta only

theorem State.beginHoldOff_moves (s) : Moves [.mod] s (State.beginHoldOff s) := by
  unfold State.beginHoldOff
  repeat' first
    | extract_lets
    | with_reducible exact Moves.refl _ _
    | with_reducible refine Moves.ite ?_ ?_
    | with_reducible refine Moves.foldl (fun _ _ => ?_) ?_
    | fail_if_no_progress with_reducible refine Moves.record ?_ (.inl rfl) (.inl rfl) (.inl rfl) (.inl rfl) (.inl rfl) (.inl rfl) (.inl rfl) (.inl rfl) (.inl rfl) (.inl rfl) (.inl rfl) (.inl rfl) (.inl rfl) (.inl rfl) (.inr (by decide)) (.inl rfl) (.inl rfl) (.inl rfl)
    | decide
    | split
    | dsimp +zetaDelta only

theorem execAlwaysOnPowerUp_moves (mated first second calBad t s) : MovesO [.time, .frame, .jigs, .arrays, .lanes, .mem, .qf, .fabric, .host, .shim, .cells, .rails, .gov, .fc, .mp, .mod, .pins, .clocks, .ob] s (execAlwaysOnPowerUp mated first second calBad t s) := by
  unfold execAlwaysOnPowerUp
  repeat' first
    | extract_lets
    | with_reducible exact Moves.refl _ _
    | with_reducible refine MovesO.next ?_
    | with_reducible refine MovesO.ite ?_ ?_
    | with_reducible exact MovesO.fault _
    | with_reducible exact MovesO.refused _
    | with_reducible refine Moves.ite ?_ ?_
    | with_reducible apply Moves.step (State.upTo_moves _ _)
    | with_reducible apply Moves.step (State.calibrationCheck_moves _ _)
    | with_reducible apply Moves.step (State.fuseCheck_moves _ _ _)
    | with_reducible apply Moves.step (State.coldBegin_moves _ _)
    | with_reducible apply Moves.step (State.raiseCond_moves _ _ _ _ _)
    | with_reducible apply Moves.step (State.beginHoldOff_moves _)
    | with_reducible refine Moves.foldl (fun _ _ => ?_) ?_
    | fail_if_no_progress with_reducible refine Moves.record ?_ (.inl rfl) (.inl rfl) (.inl rfl) (.inl rfl) (.inl rfl) (.inl rfl) (.inl rfl) (.inl rfl) (.inr (by decide)) (.inl rfl) (.inl rfl) (.inl rfl) (.inl rfl) (.inl rfl) (.inl rfl) (.inr (by decide)) (.inr (by decide)) (.inl rfl)
    | decide
    | split
    | dsimp +zetaDelta only

theorem State.lockStop_moves (s) : Moves [.frame, .jigs, .arrays, .lanes, .mem, .qf, .fabric, .host, .shim, .rails, .gov, .fc, .mod, .pins, .ob] s (State.lockStop s) := by
  unfold State.lockStop
  repeat' first
    | extract_lets
    | with_reducible exact Moves.refl _ _
    | with_reducible refine Moves.ite ?_ ?_
    | with_reducible apply Moves.step (State.foldAll_moves _)
    | with_reducible apply Moves.step (State.settleClocks_moves _)
    | with_reducible apply Moves.step (State.orderlyStop_moves _ _)
    | with_reducible apply Moves.step (State.settleF0_moves _)
    | with_reducible refine Moves.foldl (fun _ _ => ?_) ?_
    | fail_if_no_progress with_reducible refine Moves.record ?_ (.inl rfl) (.inl rfl) (.inl rfl) (.inl rfl) (.inl rfl) (.inr (by decide)) (.inl rfl) (.inl rfl) (.inl rfl) (.inl rfl) (.inl rfl) (.inr (by decide)) (.inl rfl) (.inl rfl) (.inl rfl) (.inl rfl) (.inl rfl) (.inl rfl)
    | decide
    | split
    | dsimp +zetaDelta only

theorem modGetState_moves (s : State) (k : Nat) (b : Bytes) : MovesR [] s (modGetState.act s k b) := by
  show MovesR _ _ (Cmd.act _ s k b)
  unfold modGetState
  dsimp -zeta only
  repeat' first
    | extract_lets
    | with_reducible exact Moves.refl _ _
    | with_reducible refine MovesR.done ?_
    | with_reducible refine MovesR.ite ?_ ?_
    | with_reducible exact MovesR.refused _
    | with_reducible refine Moves.ite ?_ ?_
    | with_reducible refine Moves.foldl (fun _ _ => ?_) ?_
    | decide
    | split
    | dsimp +zetaDelta only

theorem execModGetState_moves (slot t s) : MovesO [.time, .host, .fc, .mp, .ob] s (execModGetState slot t s) :=
  State.serve_moves (fun _ _ _ => (modGetState_moves _ _ _).weaken rfl) rfl

theorem State.restartFrom_moves (s b cause) : Moves [.frame, .jigs, .arrays, .lanes, .mem, .qf, .fabric, .host, .shim, .cells, .rails, .gov, .fc, .mp, .mod, .clocks, .ob] s (State.restartFrom s b cause) := by
  unfold State.restartFrom
  repeat' first
    | extract_lets
    | with_reducible exact Moves.refl _ _
    | with_reducible refine Moves.ite ?_ ?_
    | with_reducible apply Moves.step (State.coldBegin_moves _ _)
    | with_reducible apply Moves.step (State.beginStop_moves _ _ _)
    | with_reducible refine Moves.foldl (fun _ _ => ?_) ?_
    | fail_if_no_progress with_reducible refine Moves.record ?_ (.inl rfl) (.inl rfl) (.inl rfl) (.inl rfl) (.inl rfl) (.inl rfl) (.inl rfl) (.inl rfl) (.inr (by decide)) (.inl rfl) (.inr (by decide)) (.inl rfl) (.inl rfl) (.inr (by decide)) (.inr (by decide)) (.inl rfl) (.inl rfl) (.inl rfl)
    | decide
    | split
    | dsimp +zetaDelta only

theorem State.enterStandby_moves (s) : Moves [.frame, .jigs, .arrays, .lanes, .mem, .qf, .fabric, .host, .rails, .gov, .mod, .pins, .clocks, .ob] s (State.enterStandby s) := by
  unfold State.enterStandby
  repeat' first
    | extract_lets
    | with_reducible exact Moves.refl _ _
    | with_reducible refine Moves.ite ?_ ?_
    | with_reducible apply Moves.step (State.foldAll_moves _)
    | with_reducible apply Moves.step (State.changeMode_moves _ _)
    | with_reducible apply Moves.step (State.settleClocks_moves _)
    | with_reducible apply Moves.step (State.beginStop_moves _ _ _)
    | with_reducible apply Moves.step (State.diesOff_moves _)
    | with_reducible apply Moves.step (State.stopRails_moves _ _)
    | with_reducible refine Moves.foldl (fun _ _ => ?_) ?_
    | fail_if_no_progress with_reducible refine Moves.record ?_ (.inl rfl) (.inl rfl) (.inl rfl) (.inl rfl) (.inl rfl) (.inl rfl) (.inl rfl) (.inl rfl) (.inl rfl) (.inl rfl) (.inl rfl) (.inr (by decide)) (.inl rfl) (.inl rfl) (.inl rfl) (.inl rfl) (.inl rfl) (.inl rfl)
    | decide
    | split
    | dsimp +zetaDelta only

theorem State.leaveStandby_moves (s) : Moves [.rails] s (State.leaveStandby s) := by
  unfold State.leaveStandby
  repeat' first
    | extract_lets
    | with_reducible exact Moves.refl _ _
    | with_reducible refine Moves.ite ?_ ?_
    | with_reducible apply Moves.step (State.beginStart_moves _)
    | with_reducible refine Moves.foldl (fun _ _ => ?_) ?_
    | decide
    | split
    | dsimp +zetaDelta only

theorem State.enterParked_moves (s) : Moves [.frame, .jigs, .arrays, .lanes, .mem, .qf, .fabric, .host, .shim, .cells, .rails, .gov, .fc, .mp, .mod, .pins, .clocks, .ob] s (State.enterParked s) := by
  unfold State.enterParked
  repeat' first
    | extract_lets
    | with_reducible exact Moves.refl _ _
    | with_reducible refine Moves.ite ?_ ?_
    | with_reducible apply Moves.step (State.foldAll_moves _)
    | with_reducible apply Moves.step (State.changeMode_moves _ _)
    | with_reducible apply Moves.step (State.settleClocks_moves _)
    | with_reducible apply Moves.step (State.snapMissed_moves _)
    | with_reducible apply Moves.step (State.stopStorage_moves _ _ _)
    | with_reducible apply Moves.step (State.setPolicy_moves _ _)
    | with_reducible apply Moves.step (State.setProc_moves _ _ _)
    | with_reducible apply Moves.step (State.beginStop_moves _ _ _)
    | with_reducible apply Moves.step (State.diesOff_moves _)
    | with_reducible apply Moves.step (State.stopRails_moves _ _)
    | with_reducible apply Moves.step (State.settlePower_moves _)
    | with_reducible refine Moves.foldl (fun _ _ => ?_) ?_
    | fail_if_no_progress with_reducible refine Moves.record ?_ (.inr ⟨by decide, by first | exact id | exact fun _ => Nat.mod_lt _ (Nat.two_pow_pos _) | ((try dsimp +zetaDelta only); split <;> exact id)⟩) (.inl rfl) (.inl rfl) (.inl rfl) (.inl rfl) (.inl rfl) (.inr (by decide)) (.inr (by decide)) (.inr (by decide)) (.inr (by decide)) (.inr (by decide)) (.inr (by decide)) (.inl rfl) (.inr (by decide)) (.inr (by decide)) (.inl rfl) (.inl rfl) (.inl rfl)
    | decide
    | split
    | dsimp +zetaDelta only

theorem State.modKerf_moves (s) : Moves [.frame, .jigs, .arrays, .lanes, .mem, .qf, .fabric, .host, .shim, .cells, .rails, .gov, .fc, .mp, .mod, .pins, .clocks, .ob] s (State.modKerf s) := by
  unfold State.modKerf
  repeat' first
    | extract_lets
    | with_reducible exact Moves.refl _ _
    | with_reducible refine Moves.ite ?_ ?_
    | with_reducible apply Moves.step (State.enterStandby_moves _)
    | with_reducible apply Moves.step (State.leaveStandby_moves _)
    | with_reducible apply Moves.step (State.enterParked_moves _)
    | with_reducible refine Moves.foldl (fun _ _ => ?_) ?_
    | fail_if_no_progress with_reducible refine Moves.record ?_ (.inl rfl) (.inl rfl) (.inl rfl) (.inl rfl) (.inl rfl) (.inl rfl) (.inl rfl) (.inl rfl) (.inl rfl) (.inl rfl) (.inl rfl) (.inl rfl) (.inl rfl) (.inl rfl) (.inr (by decide)) (.inl rfl) (.inl rfl) (.inl rfl)
    | decide
    | split
    | dsimp +zetaDelta only

theorem State.removal_moves (s) : Moves [.frame, .jigs, .arrays, .lanes, .mem, .qf, .fabric, .host, .shim, .cells, .rails, .gov, .fc, .mp, .mod, .pins, .clocks, .ob] s (State.removal s) := by
  unfold State.removal
  repeat' first
    | extract_lets
    | with_reducible exact Moves.refl _ _
    | with_reducible refine Moves.ite ?_ ?_
    | with_reducible apply Moves.step (State.stopRails_moves _ _)
    | with_reducible apply Moves.step (State.immediateStop_moves _ _)
    | with_reducible apply Moves.step (State.stopStorage_moves _ _ _)
    | with_reducible apply Moves.step (State.openIsolation_moves _)
    | with_reducible apply Moves.step (State.stopInput_moves _ _)
    | with_reducible apply Moves.step (State.settlePower_moves _)
    | with_reducible refine Moves.foldl (fun _ _ => ?_) ?_
    | fail_if_no_progress with_reducible refine Moves.record ?_ (.inl rfl) (.inl rfl) (.inl rfl) (.inl rfl) (.inl rfl) (.inl rfl) (.inl rfl) (.inl rfl) (.inr (by decide)) (.inl rfl) (.inr (by decide)) (.inl rfl) (.inl rfl) (.inl rfl) (.inr (by decide)) (.inl rfl) (.inl rfl) (.inl rfl)
    | decide
    | split
    | dsimp +zetaDelta only

theorem execTrayStartChange_moves (high t s) : MovesO [.time, .fc, .mod, .pins] s (execTrayStartChange high t s) := by
  unfold execTrayStartChange
  repeat' first
    | extract_lets
    | with_reducible exact Moves.refl _ _
    | with_reducible refine MovesO.next ?_
    | with_reducible refine MovesO.ite ?_ ?_
    | with_reducible exact MovesO.fault _
    | with_reducible exact MovesO.refused _
    | with_reducible refine Moves.ite ?_ ?_
    | with_reducible apply Moves.step (State.onEdge_moves _ _ _)
    | with_reducible refine Moves.foldl (fun _ _ => ?_) ?_
    | fail_if_no_progress with_reducible refine Moves.record ?_ (.inl rfl) (.inl rfl) (.inl rfl) (.inl rfl) (.inl rfl) (.inl rfl) (.inl rfl) (.inl rfl) (.inl rfl) (.inl rfl) (.inl rfl) (.inl rfl) (.inl rfl) (.inl rfl) (.inr (by decide)) (.inr (by decide)) (.inl rfl) (.inl rfl)
    | decide
    | split
    | dsimp +zetaDelta only

theorem execPwcPllChangeover_moves (t s) : MovesO [.time, .clocks] s (execPwcPllChangeover t s) := by
  unfold execPwcPllChangeover
  repeat' first
    | extract_lets
    | with_reducible exact Moves.refl _ _
    | with_reducible refine MovesO.next ?_
    | with_reducible refine MovesO.ite ?_ ?_
    | with_reducible exact MovesO.fault _
    | with_reducible exact MovesO.refused _
    | with_reducible refine Moves.ite ?_ ?_
    | with_reducible apply Moves.step (State.upTo_moves _ _)
    | with_reducible refine Moves.foldl (fun _ _ => ?_) ?_
    | fail_if_no_progress with_reducible refine Moves.record ?_ (.inl rfl) (.inl rfl) (.inl rfl) (.inl rfl) (.inl rfl) (.inl rfl) (.inl rfl) (.inl rfl) (.inl rfl) (.inl rfl) (.inl rfl) (.inl rfl) (.inl rfl) (.inl rfl) (.inl rfl) (.inl rfl) (.inr (by decide)) (.inl rfl)
    | decide
    | split
    | dsimp +zetaDelta only

theorem execPllLockLost_moves (p t s) : MovesO [.time, .frame, .jigs, .arrays, .lanes, .mem, .qf, .fabric, .host, .shim, .rails, .gov, .fc, .mod, .pins, .clocks, .ob] s (execPllLockLost p t s) := by
  unfold execPllLockLost
  repeat' first
    | extract_lets
    | with_reducible exact Moves.refl _ _
    | with_reducible refine MovesO.next ?_
    | with_reducible refine MovesO.ite ?_ ?_
    | with_reducible exact MovesO.fault _
    | with_reducible exact MovesO.refused _
    | with_reducible refine Moves.ite ?_ ?_
    | with_reducible apply Moves.step (State.upTo_moves _ _)
    | with_reducible apply Moves.step (State.setDieClock_moves _ _ _)
    | with_reducible apply Moves.step (State.lockStop_moves _)
    | with_reducible apply Moves.step (State.raise_moves _ _ _ _ _)
    | with_reducible refine Moves.foldl (fun _ _ => ?_) ?_
    | decide
    | split
    | dsimp +zetaDelta only

theorem State.leaveParked_moves (s) : Moves [.rails, .mp, .mod] s (State.leaveParked s) := by
  unfold State.leaveParked
  repeat' first
    | extract_lets
    | with_reducible exact Moves.refl _ _
    | with_reducible refine Moves.ite ?_ ?_
    | with_reducible apply Moves.step (State.beginStart_moves _)
    | with_reducible apply Moves.step (State.setProc_moves _ _ _)
    | with_reducible apply Moves.step (State.changeMode_moves _ _)
    | with_reducible refine Moves.foldl (fun _ _ => ?_) ?_
    | fail_if_no_progress with_reducible refine Moves.record ?_ (.inl rfl) (.inl rfl) (.inl rfl) (.inl rfl) (.inl rfl) (.inl rfl) (.inl rfl) (.inl rfl) (.inl rfl) (.inl rfl) (.inl rfl) (.inl rfl) (.inl rfl) (.inl rfl) (.inr (by decide)) (.inl rfl) (.inl rfl) (.inl rfl)
    | decide
    | split
    | dsimp +zetaDelta only

theorem State.setModState_moves (s target bank frame) : MovesR [.rails, .mp, .mod] s (State.setModState s target bank frame) := by
  unfold State.setModState
  repeat' first
    | extract_lets
    | with_reducible exact Moves.refl _ _
    | with_reducible refine MovesR.done ?_
    | with_reducible refine MovesR.ite ?_ ?_
    | with_reducible exact MovesR.refused _
    | with_reducible refine Moves.ite ?_ ?_
    | with_reducible apply Moves.step (State.leaveParked_moves _)
    | with_reducible refine Moves.foldl (fun _ _ => ?_) ?_
    | fail_if_no_progress with_reducible refine Moves.record ?_ (.inl rfl) (.inl rfl) (.inl rfl) (.inl rfl) (.inl rfl) (.inl rfl) (.inl rfl) (.inl rfl) (.inl rfl) (.inl rfl) (.inl rfl) (.inl rfl) (.inl rfl) (.inl rfl) (.inr (by decide)) (.inl rfl) (.inl rfl) (.inl rfl)
    | decide
    | split
    | dsimp +zetaDelta only

theorem State.endWake_moves (s) : Moves [.mod, .pins] s (State.endWake s) := by
  unfold State.endWake
  repeat' first
    | extract_lets
    | with_reducible exact Moves.refl _ _
    | with_reducible refine Moves.ite ?_ ?_
    | with_reducible refine Moves.foldl (fun _ _ => ?_) ?_
    | fail_if_no_progress with_reducible refine Moves.record ?_ (.inl rfl) (.inl rfl) (.inl rfl) (.inl rfl) (.inl rfl) (.inl rfl) (.inl rfl) (.inl rfl) (.inl rfl) (.inl rfl) (.inl rfl) (.inl rfl) (.inl rfl) (.inl rfl) (.inr (by decide)) (.inr (by decide)) (.inl rfl) (.inl rfl)
    | decide
    | split
    | dsimp +zetaDelta only

theorem execPcieLinkUp_moves (rate t s) : MovesO [.time, .host, .mod, .pins] s (execPcieLinkUp rate t s) := by
  unfold execPcieLinkUp
  repeat' first
    | extract_lets
    | with_reducible exact Moves.refl _ _
    | with_reducible refine MovesO.next ?_
    | with_reducible refine MovesO.ite ?_ ?_
    | with_reducible exact MovesO.fault _
    | with_reducible exact MovesO.refused _
    | with_reducible refine Moves.ite ?_ ?_
    | with_reducible apply Moves.step (State.upTo_moves _ _)
    | with_reducible apply Moves.step (State.endWake_moves _)
    | with_reducible refine Moves.foldl (fun _ _ => ?_) ?_
    | fail_if_no_progress with_reducible refine Moves.record ?_ (.inl rfl) (.inl rfl) (.inl rfl) (.inl rfl) (.inl rfl) (.inl rfl) (.inl rfl) (.inr (by decide)) (.inl rfl) (.inl rfl) (.inl rfl) (.inl rfl) (.inl rfl) (.inl rfl) (.inl rfl) (.inl rfl) (.inl rfl) (.inl rfl)
    | decide
    | split
    | dsimp +zetaDelta only

theorem execWakeNTimeout_moves (t s) : MovesO [.time, .mod, .pins] s (execWakeNTimeout t s) := by
  unfold execWakeNTimeout
  repeat' first
    | extract_lets
    | with_reducible exact Moves.refl _ _
    | with_reducible refine MovesO.next ?_
    | with_reducible refine MovesO.ite ?_ ?_
    | with_reducible exact MovesO.fault _
    | with_reducible exact MovesO.refused _
    | with_reducible refine Moves.ite ?_ ?_
    | with_reducible apply Moves.step (State.upTo_moves _ _)
    | with_reducible apply Moves.step (State.endWake_moves _)
    | with_reducible refine Moves.foldl (fun _ _ => ?_) ?_
    | decide
    | split
    | dsimp +zetaDelta only

theorem State.settleRestart_moves (s) : Moves [.frame, .jigs, .arrays, .lanes, .mem, .qf, .fabric, .host, .shim, .cells, .rails, .gov, .fc, .mp, .mod, .clocks, .ob] s (State.settleRestart s) := by
  unfold State.settleRestart
  repeat' first
    | extract_lets
    | with_reducible exact Moves.refl _ _
    | with_reducible refine Moves.ite ?_ ?_
    | with_reducible apply Moves.step (State.restartFrom_moves _ _ _)
    | with_reducible refine Moves.foldl (fun _ _ => ?_) ?_
    | decide
    | split
    | dsimp +zetaDelta only

theorem thenRestart_moves {l : List Part} {s : State} {o : Outcome} (h : MovesO l s o) (sub : [.frame, .jigs, .arrays, .lanes, .mem, .qf, .fabric, .host, .shim, .cells, .rails, .gov, .fc, .mp, .mod, .clocks, .ob].all l.contains = true) : MovesO l s (thenRestart o) := by
  unfold thenRestart
  split
  · exact MovesO.next ((h _ rfl).trans ((State.settleRestart_moves _).weaken sub))
  · exact h

theorem modSetState_moves (s : State) (k : Nat) (b : Bytes) : MovesR [.rails, .mp, .mod] s (modSetState.act s k b) := by
  show MovesR _ _ (Cmd.act _ s k b)
  unfold modSetState
  dsimp -zeta only
  repeat' first
    | extract_lets
    | with_reducible exact Moves.refl _ _
    | with_reducible refine MovesR.done ?_
    | with_reducible refine MovesR.ite ?_ ?_
    | with_reducible exact MovesR.refused _
    | with_reducible refine Moves.ite ?_ ?_
    | with_reducible apply MovesR.step (State.setModState_moves _ _ _ _)
    | with_reducible refine Moves.foldl (fun _ _ => ?_) ?_
    | decide
    | split
    | dsimp +zetaDelta only

theorem execModSetState_moves (slot t s) : MovesO [.time, .frame, .jigs, .arrays, .lanes, .mem, .qf, .fabric, .host, .shim, .cells, .rails, .gov, .fc, .mp, .mod, .clocks, .ob] s (execModSetState slot t s) :=
  thenRestart_moves (State.serve_moves (fun _ _ _ => (modSetState_moves _ _ _).weaken rfl) rfl) rfl

theorem execSlotIdMismatch_moves (t s) : MovesO [.time, .fc] s (execSlotIdMismatch t s) := by
  unfold execSlotIdMismatch
  repeat' first
    | extract_lets
    | with_reducible exact Moves.refl _ _
    | with_reducible refine MovesO.next ?_
    | with_reducible refine MovesO.ite ?_ ?_
    | with_reducible exact MovesO.fault _
    | with_reducible exact MovesO.refused _
    | with_reducible refine Moves.ite ?_ ?_
    | with_reducible apply Moves.step (State.upTo_moves _ _)
    | with_reducible apply Moves.step (State.raiseCond_moves _ _ _ _ _)
    | with_reducible refine Moves.foldl (fun _ _ => ?_) ?_
    | fail_if_no_progress with_reducible refine Moves.record ?_ (.inl rfl) (.inl rfl) (.inl rfl) (.inl rfl) (.inl rfl) (.inl rfl) (.inl rfl) (.inl rfl) (.inl rfl) (.inl rfl) (.inl rfl) (.inl rfl) (.inr (by decide)) (.inl rfl) (.inl rfl) (.inl rfl) (.inl rfl) (.inl rfl)
    | decide
    | split
    | dsimp +zetaDelta only

theorem execMpRestartStandby_moves (slot t s) : MovesO [.time, .frame, .jigs, .arrays, .lanes, .mem, .qf, .fabric, .host, .shim, .cells, .rails, .gov, .fc, .mp, .mod, .clocks, .ob] s (execMpRestartStandby slot t s) :=
  thenRestart_moves (State.serve_moves (fun _ _ _ => (mpRestartStandby_moves _ _ _).weaken rfl) rfl) rfl

theorem execOscillatorCalibration_moves (tempDc measured t s) : MovesO [.time, .clocks] s (execOscillatorCalibration tempDc measured t s) := by
  unfold execOscillatorCalibration
  repeat' first
    | extract_lets
    | with_reducible exact Moves.refl _ _
    | with_reducible refine MovesO.next ?_
    | with_reducible refine MovesO.ite ?_ ?_
    | with_reducible exact MovesO.fault _
    | with_reducible exact MovesO.refused _
    | with_reducible refine Moves.ite ?_ ?_
    | with_reducible apply Moves.step (State.upTo_moves _ _)
    | with_reducible apply Moves.step (State.runOnOscillator_moves _)
    | with_reducible refine Moves.foldl (fun _ _ => ?_) ?_
    | fail_if_no_progress with_reducible refine Moves.record ?_ (.inl rfl) (.inl rfl) (.inl rfl) (.inl rfl) (.inl rfl) (.inl rfl) (.inl rfl) (.inl rfl) (.inl rfl) (.inl rfl) (.inl rfl) (.inl rfl) (.inl rfl) (.inl rfl) (.inl rfl) (.inl rfl) (.inr (by decide)) (.inl rfl)
    | decide
    | split
    | dsimp +zetaDelta only

theorem execSlotIdSample_moves (v t s) : MovesO [.time, .pins] s (execSlotIdSample v t s) := by
  unfold execSlotIdSample
  repeat' first
    | extract_lets
    | with_reducible exact Moves.refl _ _
    | with_reducible refine MovesO.next ?_
    | with_reducible refine MovesO.ite ?_ ?_
    | with_reducible exact MovesO.fault _
    | with_reducible exact MovesO.refused _
    | with_reducible refine Moves.ite ?_ ?_
    | with_reducible apply Moves.step (State.upTo_moves _ _)
    | with_reducible refine Moves.foldl (fun _ _ => ?_) ?_
    | fail_if_no_progress with_reducible refine Moves.record ?_ (.inl rfl) (.inl rfl) (.inl rfl) (.inl rfl) (.inl rfl) (.inl rfl) (.inl rfl) (.inl rfl) (.inl rfl) (.inl rfl) (.inl rfl) (.inl rfl) (.inl rfl) (.inl rfl) (.inl rfl) (.inr (by decide)) (.inl rfl) (.inl rfl)
    | decide
    | split
    | dsimp +zetaDelta only

theorem execPresentNMate_moves (t s) : MovesO [.time, .frame, .jigs, .arrays, .lanes, .mem, .qf, .fabric, .host, .shim, .cells, .rails, .gov, .fc, .mp, .mod, .pins, .clocks, .ob] s (execPresentNMate t s) := by
  unfold execPresentNMate
  repeat' first
    | extract_lets
    | with_reducible exact Moves.refl _ _
    | with_reducible refine MovesO.next ?_
    | with_reducible refine MovesO.ite ?_ ?_
    | with_reducible exact MovesO.fault _
    | with_reducible exact MovesO.refused _
    | with_reducible refine Moves.ite ?_ ?_
    | with_reducible apply Moves.step (State.onEdge_moves _ _ _)
    | with_reducible apply Moves.step (State.beginHoldOff_moves _)
    | with_reducible apply Moves.step (State.coldBegin_moves _ _)
    | with_reducible refine Moves.foldl (fun _ _ => ?_) ?_
    | fail_if_no_progress with_reducible refine Moves.record ?_ (.inl rfl) (.inl rfl) (.inl rfl) (.inl rfl) (.inl rfl) (.inl rfl) (.inl rfl) (.inl rfl) (.inl rfl) (.inl rfl) (.inl rfl) (.inl rfl) (.inl rfl) (.inl rfl) (.inl rfl) (.inr (by decide)) (.inl rfl) (.inl rfl)
    | decide
    | split
    | dsimp +zetaDelta only

theorem execPresentNBreak_moves (t s) : MovesO [.time, .frame, .jigs, .arrays, .lanes, .mem, .qf, .fabric, .host, .shim, .cells, .rails, .gov, .fc, .mp, .mod, .pins, .clocks, .ob] s (execPresentNBreak t s) := by
  unfold execPresentNBreak
  repeat' first
    | extract_lets
    | with_reducible exact Moves.refl _ _
    | with_reducible refine MovesO.next ?_
    | with_reducible refine MovesO.ite ?_ ?_
    | with_reducible exact MovesO.fault _
    | with_reducible exact MovesO.refused _
    | with_reducible refine Moves.ite ?_ ?_
    | with_reducible apply Moves.step (State.onEdge_moves _ _ _)
    | with_reducible apply Moves.step (State.removal_moves _)
    | with_reducible refine Moves.foldl (fun _ _ => ?_) ?_
    | fail_if_no_progress with_reducible refine Moves.record ?_ (.inl rfl) (.inl rfl) (.inl rfl) (.inl rfl) (.inl rfl) (.inl rfl) (.inl rfl) (.inl rfl) (.inl rfl) (.inl rfl) (.inl rfl) (.inl rfl) (.inl rfl) (.inl rfl) (.inr (by decide)) (.inr (by decide)) (.inl rfl) (.inl rfl)
    | decide
    | split
    | dsimp +zetaDelta only

theorem execPcieLinkTrainingStart_moves (t s) : MovesO [.time, .host, .pins] s (execPcieLinkTrainingStart t s) := by
  unfold execPcieLinkTrainingStart
  repeat' first
    | extract_lets
    | with_reducible exact Moves.refl _ _
    | with_reducible refine MovesO.next ?_
    | with_reducible refine MovesO.ite ?_ ?_
    | with_reducible exact MovesO.fault _
    | with_reducible exact MovesO.refused _
    | with_reducible refine Moves.ite ?_ ?_
    | with_reducible apply Moves.step (State.upTo_moves _ _)
    | with_reducible refine Moves.foldl (fun _ _ => ?_) ?_
    | fail_if_no_progress with_reducible refine Moves.record ?_ (.inl rfl) (.inl rfl) (.inl rfl) (.inl rfl) (.inl rfl) (.inl rfl) (.inl rfl) (.inr (by decide)) (.inl rfl) (.inl rfl) (.inl rfl) (.inl rfl) (.inl rfl) (.inl rfl) (.inl rfl) (.inr (by decide)) (.inl rfl) (.inl rfl)
    | decide
    | split
    | dsimp +zetaDelta only

theorem execStandbyPllLock_moves (n t s) : MovesO [.time, .clocks] s (execStandbyPllLock n t s) := by
  unfold execStandbyPllLock
  repeat' first
    | extract_lets
    | with_reducible exact Moves.refl _ _
    | with_reducible refine MovesO.next ?_
    | with_reducible refine MovesO.ite ?_ ?_
    | with_reducible exact MovesO.fault _
    | with_reducible exact MovesO.refused _
    | with_reducible refine Moves.ite ?_ ?_
    | with_reducible apply Moves.step (State.upTo_moves _ _)
    | with_reducible apply Moves.step (State.setDieClock_moves _ _ _)
    | with_reducible refine Moves.foldl (fun _ _ => ?_) ?_
    | decide
    | split
    | dsimp +zetaDelta only

theorem execHoldOffExpiry_moves (t s) : MovesO [.time, .mod] s (execHoldOffExpiry t s) := by
  unfold execHoldOffExpiry
  repeat' first
    | extract_lets
    | with_reducible exact Moves.refl _ _
    | with_reducible refine MovesO.next ?_
    | with_reducible refine MovesO.ite ?_ ?_
    | with_reducible exact MovesO.fault _
    | with_reducible exact MovesO.refused _
    | with_reducible refine Moves.ite ?_ ?_
    | with_reducible apply Moves.step (State.upTo_moves _ _)
    | with_reducible refine Moves.foldl (fun _ _ => ?_) ?_
    | fail_if_no_progress with_reducible refine Moves.record ?_ (.inl rfl) (.inl rfl) (.inl rfl) (.inl rfl) (.inl rfl) (.inl rfl) (.inl rfl) (.inl rfl) (.inl rfl) (.inl rfl) (.inl rfl) (.inl rfl) (.inl rfl) (.inl rfl) (.inr (by decide)) (.inl rfl) (.inl rfl) (.inl rfl)
    | decide
    | split
    | dsimp +zetaDelta only

theorem execEmergencyStop_moves (low t s) : MovesO [.time, .fc, .pins] s (execEmergencyStop low t s) := by
  unfold execEmergencyStop
  repeat' first
    | extract_lets
    | with_reducible exact Moves.refl _ _
    | with_reducible refine MovesO.next ?_
    | with_reducible refine MovesO.ite ?_ ?_
    | with_reducible exact MovesO.fault _
    | with_reducible exact MovesO.refused _
    | with_reducible refine Moves.ite ?_ ?_
    | with_reducible apply Moves.step (State.onEdge_moves _ _ _)
    | with_reducible apply Moves.step (State.raiseCond_moves _ _ _ _ _)
    | with_reducible refine Moves.foldl (fun _ _ => ?_) ?_
    | fail_if_no_progress with_reducible refine Moves.record ?_ (.inl rfl) (.inl rfl) (.inl rfl) (.inl rfl) (.inl rfl) (.inl rfl) (.inl rfl) (.inl rfl) (.inl rfl) (.inl rfl) (.inl rfl) (.inl rfl) (.inl rfl) (.inl rfl) (.inl rfl) (.inr (by decide)) (.inl rfl) (.inl rfl)
    | decide
    | split
    | dsimp +zetaDelta only

end Sys2Proof.Machine
end

