-- ==== Sys2Proof/Laws/MovesFabricCode.lean ====
section
/-! SUPPORT. What the operations of Machine/FabricCode.lean keep, and the parts of the state they stay in. -/

namespace Sys2Proof.Machine

theorem State.txArrived_moves (s k h a b bytes) : Moves [.fabric, .fc] s (State.txArrived s k h a b bytes) := by
  unfold State.txArrived
  repeat' first
    | extract_lets
    | with_reducible exact Moves.refl _ _
    | with_reducible refine Moves.ite ?_ ?_
    | with_reducible apply Moves.step (State.raise_moves _ _ _ _ _)
    | with_reducible apply Moves.step (State.setLink_moves _ _ _)
    | with_reducible refine Moves.foldl (fun _ _ => ?_) ?_
    | fail_if_no_progress with_reducible refine Moves.record ?_ (.inl rfl) (.inl rfl) (.inl rfl) (.inl rfl) (.inl rfl) (.inl rfl) (.inr (by decide)) (.inl rfl) (.inl rfl) (.inl rfl) (.inl rfl) (.inl rfl) (.inl rfl) (.inl rfl) (.inl rfl) (.inl rfl) (.inl rfl) (.inl rfl)
    | decide
    | split
    | dsimp +zetaDelta only

theorem State.setEndpoint_moves (s e x) : Moves [.fabric] s (State.setEndpoint s e x) := by
  unfold State.setEndpoint
  repeat' first
    | extract_lets
    | with_reducible exact Moves.refl _ _
    | with_reducible refine Moves.ite ?_ ?_
    | with_reducible refine Moves.foldl (fun _ _ => ?_) ?_
    | fail_if_no_progress with_reducible refine Moves.record ?_ (.inl rfl) (.inl rfl) (.inl rfl) (.inl rfl) (.inl rfl) (.inl rfl) (.inr (by decide)) (.inl rfl) (.inl rfl) (.inl rfl) (.inl rfl) (.inl rfl) (.inl rfl) (.inl rfl) (.inl rfl) (.inl rfl) (.inl rfl) (.inl rfl)
    | decide
    | split
    | dsimp +zetaDelta only

theorem State.settleMember_moves (s e) : Moves [.fabric] s (State.settleMember s e) := by
  unfold State.settleMember
  repeat' first
    | extract_lets
    | with_reducible exact Moves.refl _ _
    | with_reducible refine Moves.ite ?_ ?_
    | with_reducible apply Moves.step (State.setEndpoint_moves _ _ _)
    | with_reducible refine Moves.foldl (fun _ _ => ?_) ?_
    | decide
    | split
    | dsimp +zetaDelta only

theorem State.acceptFlit_moves (s k h f) : Moves [.fabric, .fc] s (State.acceptFlit s k h f) := by
  unfold State.acceptFlit
  repeat' first
    | extract_lets
    | with_reducible exact Moves.refl _ _
    | with_reducible refine Moves.ite ?_ ?_
    | with_reducible apply Moves.step (State.txArrived_moves _ _ _ _ _ _)
    | with_reducible apply Moves.step (State.setLink_moves _ _ _)
    | with_reducible refine Moves.foldl (fun _ _ => ?_) ?_
    | decide
    | split
    | dsimp +zetaDelta only

theorem State.acceptEarly_moves (fuel s k h) : Moves [.fabric, .fc, .ob] s (State.acceptEarly fuel s k h) := by
  induction fuel generalizing s with
  | zero => exact Moves.refl _ _
  | succ n ih =>
    unfold State.acceptEarly
    repeat' (first
      | extract_lets
      | with_reducible exact Moves.refl _ _
      | with_reducible refine Moves.trans ?_ (ih _)
      | with_reducible refine Moves.ite ?_ ?_
      | with_reducible apply Moves.step (State.peak_moves _ _ _)
      | with_reducible apply Moves.step (State.setLink_moves _ _ _)
      | with_reducible apply Moves.step (State.acceptFlit_moves _ _ _ _)
      | with_reducible refine Moves.foldl (fun _ _ => ?_) ?_
      | decide
      | split
      | dsimp +zetaDelta only)

theorem State.flitArrived_moves (s k h port f) : Moves [.fabric, .fc, .ob] s (State.flitArrived s k h port f) := by
  unfold State.flitArrived
  repeat' first
    | extract_lets
    | with_reducible exact Moves.refl _ _
    | with_reducible refine Moves.ite ?_ ?_
    | with_reducible apply Moves.step (State.acceptFlit_moves _ _ _ _)
    | with_reducible apply Moves.step (State.acceptEarly_moves _ _ _ _)
    | with_reducible apply Moves.step (State.setLink_moves _ _ _)
    | with_reducible refine Moves.foldl (fun _ _ => ?_) ?_
    | decide
    | split
    | dsimp +zetaDelta only

theorem State.produce_moves (s e es) : Moves [.qf, .ob] s (State.produce s e es) := by
  unfold State.produce
  repeat' first
    | extract_lets
    | with_reducible exact Moves.refl _ _
    | with_reducible refine Moves.ite ?_ ?_
    | with_reducible apply Moves.step (State.sendQueue_moves _ _ _)
    | with_reducible refine Moves.foldl (fun _ _ => ?_) ?_
    | decide
    | split
    | dsimp +zetaDelta only

theorem State.takeResult_moves (s e r) : Moves [.arrays, .qf, .fabric, .ob] s (State.takeResult s e r) := by
  unfold State.takeResult
  repeat' first
    | extract_lets
    | with_reducible exact Moves.refl _ _
    | with_reducible refine Moves.ite ?_ ?_
    | with_reducible apply Moves.step (State.orFrameFlags_moves _ _ _)
    | with_reducible apply Moves.step (State.produce_moves _ _ _)
    | with_reducible apply Moves.step (State.settleMember_moves _ _)
    | with_reducible apply Moves.step (State.setEndpoint_moves _ _ _)
    | with_reducible refine Moves.foldl (fun _ _ => ?_) ?_
    | decide
    | split
    | dsimp +zetaDelta only

theorem State.releaseAt_moves (s x) : Moves [.arrays, .qf, .fabric, .fc, .ob] s (State.releaseAt s x) := by
  unfold State.releaseAt
  repeat' first
    | extract_lets
    | with_reducible exact Moves.refl _ _
    | with_reducible refine Moves.ite ?_ ?_
    | with_reducible apply Moves.step (State.produce_moves _ _ _)
    | with_reducible apply Moves.step (State.setEndpoint_moves _ _ _)
    | with_reducible apply Moves.step (State.raiseFor_moves _ _ _ _ _)
    | with_reducible apply Moves.step (State.takeResult_moves _ _ _)
    | with_reducible refine Moves.foldl (fun _ _ => ?_) ?_
    | decide
    | split
    | dsimp +zetaDelta only

theorem State.epSend_moves (s e x) : Moves [.fabric, .fc, .ob] s (State.epSend s e x) := by
  unfold State.epSend
  repeat' first
    | extract_lets
    | with_reducible exact Moves.refl _ _
    | with_reducible refine Moves.ite ?_ ?_
    | with_reducible apply Moves.step (State.originate_moves _ _)
    | with_reducible apply Moves.step (State.setEndpoint_moves _ _ _)
    | with_reducible refine Moves.foldl (fun _ _ => ?_) ?_
    | decide
    | split
    | dsimp +zetaDelta only

theorem State.sendCredit_moves (s e) : Moves [.fabric, .fc, .ob] s (State.sendCredit s e) := by
  unfold State.sendCredit
  repeat' first
    | extract_lets
    | with_reducible exact Moves.refl _ _
    | with_reducible refine Moves.ite ?_ ?_
    | with_reducible apply Moves.step (State.epSend_moves _ _ _)
    | with_reducible apply Moves.step (State.setEndpoint_moves _ _ _)
    | with_reducible refine Moves.foldl (fun _ _ => ?_) ?_
    | decide
    | split
    | dsimp +zetaDelta only

theorem State.takeLinkWord_moves (s k h w) : Moves [.fabric] s (State.takeLinkWord s k h w) := by
  unfold State.takeLinkWord
  repeat' first
    | extract_lets
    | with_reducible exact Moves.refl _ _
    | with_reducible refine Moves.ite ?_ ?_
    | with_reducible apply Moves.step (State.setLink_moves _ _ _)
    | with_reducible refine Moves.foldl (fun _ _ => ?_) ?_
    | decide
    | split
    | dsimp +zetaDelta only

theorem State.parentLinkLost_moves (s gone) : Moves [.fabric, .fc, .ob] s (State.parentLinkLost s gone) := by
  unfold State.parentLinkLost
  repeat' first
    | extract_lets
    | with_reducible exact Moves.refl _ _
    | with_reducible refine Moves.ite ?_ ?_
    | with_reducible apply Moves.step (State.dowelToParent_moves _ _)
    | with_reducible apply Moves.step (State.raise_moves _ _ _ _ _)
    | with_reducible refine Moves.foldl (fun _ _ => ?_) ?_
    | fail_if_no_progress with_reducible refine Moves.record ?_ (.inl rfl) (.inl rfl) (.inl rfl) (.inl rfl) (.inl rfl) (.inl rfl) (.inr (by decide)) (.inl rfl) (.inl rfl) (.inl rfl) (.inl rfl) (.inl rfl) (.inl rfl) (.inl rfl) (.inl rfl) (.inl rfl) (.inl rfl) (.inl rfl)
    | decide
    | split
    | dsimp +zetaDelta only

theorem execPathDown_moves (port lockLost t s) : MovesO [.time, .fabric, .fc, .ob] s (execPathDown port lockLost t s) := by
  unfold execPathDown
  repeat' first
    | extract_lets
    | with_reducible exact Moves.refl _ _
    | with_reducible refine MovesO.next ?_
    | with_reducible refine MovesO.ite ?_ ?_
    | with_reducible exact MovesO.fault _
    | with_reducible exact MovesO.refused _
    | with_reducible refine Moves.ite ?_ ?_
    | with_reducible apply Moves.step (State.upTo_moves _ _)
    | with_reducible apply Moves.step (State.bump_moves _ _ _)
    | with_reducible apply Moves.step (State.raise_moves _ _ _ _ _)
    | with_reducible apply Moves.step (State.setLink_moves _ _ _)
    | with_reducible apply Moves.step (State.drain_moves _ _ _)
    | with_reducible apply Moves.step (State.parentLinkLost_moves _ _)
    | with_reducible refine Moves.foldl (fun _ _ => ?_) ?_
    | decide
    | split
    | dsimp +zetaDelta only

theorem State.takeEntries_moves (s e n) : Moves [.qf, .fabric, .ob] s (State.takeEntries s e n).2 := by
  unfold State.takeEntries
  repeat' first
    | extract_lets
    | with_reducible exact Moves.refl _ _
    | with_reducible refine Moves.ite ?_ ?_
    | with_reducible apply Moves.step (State.takeQueue_moves _ _)
    | with_reducible apply Moves.step (State.setEndpoint_moves _ _ _)
    | with_reducible refine Moves.foldl (fun _ _ => ?_) ?_
    | decide
    | split
    | dsimp +zetaDelta only

theorem State.resultToChildren_moves (s e rt r) : Moves [.fabric, .fc, .ob] s (State.resultToChildren s e rt r) := by
  unfold State.resultToChildren
  repeat' first
    | extract_lets
    | with_reducible exact Moves.refl _ _
    | with_reducible refine Moves.ite ?_ ?_
    | with_reducible apply Moves.step (State.originateAt_moves _ _ _)
    | with_reducible refine Moves.foldl (fun _ _ => ?_) ?_
    | decide
    | split
    | dsimp +zetaDelta only

theorem execReduceResultForward_moves (e t s) : MovesO [.time, .fabric, .fc, .ob] s (execReduceResultForward e t s) := by
  unfold execReduceResultForward
  repeat' first
    | extract_lets
    | with_reducible exact Moves.refl _ _
    | with_reducible refine MovesO.next ?_
    | with_reducible refine MovesO.ite ?_ ?_
    | with_reducible exact MovesO.fault _
    | with_reducible exact MovesO.refused _
    | with_reducible refine Moves.ite ?_ ?_
    | with_reducible apply Moves.step (State.upTo_moves _ _)
    | with_reducible apply Moves.step (State.resultToChildren_moves _ _ _ _)
    | with_reducible apply Moves.step (State.setEndpoint_moves _ _ _)
    | with_reducible refine Moves.foldl (fun _ _ => ?_) ?_
    | decide
    | split
    | dsimp +zetaDelta only

theorem execTrainFail_moves (port t s) : MovesO [.time, .fabric, .fc] s (execTrainFail port t s) := by
  unfold execTrainFail
  repeat' first
    | extract_lets
    | with_reducible exact Moves.refl _ _
    | with_reducible refine MovesO.next ?_
    | with_reducible refine MovesO.ite ?_ ?_
    | with_reducible exact MovesO.fault _
    | with_reducible exact MovesO.refused _
    | with_reducible refine Moves.ite ?_ ?_
    | with_reducible apply Moves.step (State.upTo_moves _ _)
    | with_reducible apply Moves.step (State.raise_moves _ _ _ _ _)
    | with_reducible apply Moves.step (State.setLink_moves _ _ _)
    | with_reducible refine Moves.foldl (fun _ _ => ?_) ?_
    | decide
    | split
    | dsimp +zetaDelta only

theorem State.creditHeld_moves (s x) : Moves [.fabric, .ob] s (State.creditHeld s x) := by
  unfold State.creditHeld
  repeat' first
    | extract_lets
    | with_reducible exact Moves.refl _ _
    | with_reducible refine Moves.ite ?_ ?_
    | with_reducible apply Moves.step (State.drain_moves _ _ _)
    | with_reducible apply Moves.step (State.setLink_moves _ _ _)
    | with_reducible refine Moves.foldl (fun _ _ => ?_) ?_
    | decide
    | split
    | dsimp +zetaDelta only

theorem State.nextTurn_moves (s x) : Moves [.fabric] s (State.nextTurn s x) := by
  unfold State.nextTurn
  repeat' first
    | extract_lets
    | with_reducible exact Moves.refl _ _
    | with_reducible refine Moves.ite ?_ ?_
    | with_reducible apply Moves.step (State.setEndpoint_moves _ _ _)
    | with_reducible refine Moves.foldl (fun _ _ => ?_) ?_
    | decide
    | split
    | dsimp +zetaDelta only

theorem execTransactionRelease_moves (t s) : MovesO [.time, .arrays, .qf, .fabric, .fc, .ob] s (execTransactionRelease t s) := by
  unfold execTransactionRelease
  repeat' first
    | extract_lets
    | with_reducible exact Moves.refl _ _
    | with_reducible refine MovesO.next ?_
    | with_reducible refine MovesO.ite ?_ ?_
    | with_reducible exact MovesO.fault _
    | with_reducible exact MovesO.refused _
    | with_reducible refine Moves.ite ?_ ?_
    | with_reducible apply Moves.step (State.upTo_moves _ _)
    | with_reducible apply Moves.step (State.creditHeld_moves _ _)
    | with_reducible apply Moves.step (State.bump_moves _ _ _)
    | with_reducible apply Moves.step (State.raiseFor_moves _ _ _ _ _)
    | with_reducible apply Moves.step (State.releaseAt_moves _ _)
    | with_reducible apply Moves.step (State.nextTurn_moves _ _)
    | with_reducible refine Moves.foldl (fun _ _ => ?_) ?_
    | fail_if_no_progress with_reducible refine Moves.record ?_ (.inl rfl) (.inl rfl) (.inl rfl) (.inl rfl) (.inl rfl) (.inl rfl) (.inr (by decide)) (.inl rfl) (.inl rfl) (.inl rfl) (.inl rfl) (.inl rfl) (.inl rfl) (.inl rfl) (.inl rfl) (.inl rfl) (.inl rfl) (.inl rfl)
    | decide
    | split
    | dsimp +zetaDelta only

theorem execResponseForm_moves (e t s) : MovesO [.time, .qf, .fabric, .fc, .ob] s (execResponseForm e t s) := by
  unfold execResponseForm
  repeat' first
    | extract_lets
    | with_reducible exact Moves.refl _ _
    | with_reducible refine MovesO.next ?_
    | with_reducible refine MovesO.ite ?_ ?_
    | with_reducible exact MovesO.fault _
    | with_reducible exact MovesO.refused _
    | with_reducible refine Moves.ite ?_ ?_
    | with_reducible apply Moves.step (State.upTo_moves _ _)
    | with_reducible apply Moves.step (State.takeEntries_moves _ _ _)
    | with_reducible apply Moves.step (State.epSend_moves _ _ _)
    | with_reducible apply Moves.step (State.setEndpoint_moves _ _ _)
    | with_reducible refine Moves.foldl (fun _ _ => ?_) ?_
    | decide
    | split
    | dsimp +zetaDelta only

theorem State.dowelArrived_moves (s k h port f) : Moves [.fabric, .fc] s (State.dowelArrived s k h port f) := by
  unfold State.dowelArrived
  repeat' first
    | extract_lets
    | with_reducible exact Moves.refl _ _
    | with_reducible refine Moves.ite ?_ ?_
    | with_reducible apply Moves.step (State.setLink_moves _ _ _)
    | with_reducible apply Moves.step (State.raise_moves _ _ _ _ _)
    | with_reducible refine Moves.foldl (fun _ _ => ?_) ?_
    | fail_if_no_progress with_reducible refine Moves.record ?_ (.inl rfl) (.inl rfl) (.inl rfl) (.inl rfl) (.inl rfl) (.inl rfl) (.inr (by decide)) (.inl rfl) (.inl rfl) (.inl rfl) (.inl rfl) (.inl rfl) (.inl rfl) (.inl rfl) (.inl rfl) (.inl rfl) (.inl rfl) (.inl rfl)
    | decide
    | split
    | dsimp +zetaDelta only

theorem State.flitGood_moves (s k h port f) : Moves [.fabric, .fc, .ob] s (State.flitGood s k h port f) := by
  unfold State.flitGood
  repeat' first
    | extract_lets
    | with_reducible exact Moves.refl _ _
    | with_reducible refine Moves.ite ?_ ?_
    | with_reducible apply Moves.step (State.setLink_moves _ _ _)
    | with_reducible apply Moves.step (State.replayPath_moves _ _ _)
    | with_reducible apply Moves.step (State.bump_moves _ _ _)
    | with_reducible apply Moves.step (State.dowelArrived_moves _ _ _ _ _)
    | with_reducible apply Moves.step (State.flitArrived_moves _ _ _ _ _)
    | with_reducible refine Moves.foldl (fun _ _ => ?_) ?_
    | decide
    | split
    | dsimp +zetaDelta only

theorem execReduceCombine_moves (e t s) : MovesO [.time, .arrays, .qf, .fabric, .fc, .ob] s (execReduceCombine e t s) := by
  unfold execReduceCombine
  repeat' first
    | extract_lets
    | with_reducible exact Moves.refl _ _
    | with_reducible refine MovesO.next ?_
    | with_reducible refine MovesO.ite ?_ ?_
    | with_reducible exact MovesO.fault _
    | with_reducible exact MovesO.refused _
    | with_reducible refine Moves.ite ?_ ?_
    | with_reducible apply Moves.step (State.upTo_moves _ _)
    | with_reducible apply Moves.step (State.takeEntries_moves _ _ _)
    | with_reducible apply Moves.step (State.settleMember_moves _ _)
    | with_reducible apply Moves.step (State.setEndpoint_moves _ _ _)
    | with_reducible apply Moves.step (State.originateAt_moves _ _ _)
    | with_reducible apply Moves.step (State.resultToChildren_moves _ _ _ _)
    | with_reducible apply Moves.step (State.takeResult_moves _ _ _)
    | with_reducible refine Moves.foldl (fun _ _ => ?_) ?_
    | decide
    | split
    | dsimp +zetaDelta only

theorem execGetForm_moves (e t s) : MovesO [.time, .qf, .fabric, .fc, .ob] s (execGetForm e t s) := by
  unfold execGetForm
  repeat' first
    | extract_lets
    | with_reducible exact Moves.refl _ _
    | with_reducible refine MovesO.next ?_
    | with_reducible refine MovesO.ite ?_ ?_
    | with_reducible exact MovesO.fault _
    | with_reducible exact MovesO.refused _
    | with_reducible refine Moves.ite ?_ ?_
    | with_reducible apply Moves.step (State.upTo_moves _ _)
    | with_reducible apply Moves.step (State.takeEntries_moves _ _ _)
    | with_reducible apply Moves.step (State.epSend_moves _ _ _)
    | with_reducible apply Moves.step (State.setEndpoint_moves _ _ _)
    | with_reducible refine Moves.foldl (fun _ _ => ?_) ?_
    | decide
    | split
    | dsimp +zetaDelta only

theorem execTransactionForward_moves (t upset s) : MovesO [.time, .fabric, .fc, .ob] s (execTransactionForward t upset s) := by
  unfold execTransactionForward
  repeat' first
    | extract_lets
    | with_reducible exact Moves.refl _ _
    | with_reducible refine MovesO.next ?_
    | with_reducible refine MovesO.ite ?_ ?_
    | with_reducible exact MovesO.fault _
    | with_reducible exact MovesO.refused _
    | with_reducible refine Moves.ite ?_ ?_
    | with_reducible apply Moves.step (State.upTo_moves _ _)
    | with_reducible apply Moves.step (State.creditHeld_moves _ _)
    | with_reducible apply Moves.step (State.raise_moves _ _ _ _ _)
    | with_reducible apply Moves.step (State.bump_moves _ _ _)
    | with_reducible apply Moves.step (State.transmit_moves _ _ _ _)
    | with_reducible refine Moves.foldl (fun _ _ => ?_) ?_
    | fail_if_no_progress with_reducible refine Moves.record ?_ (.inl rfl) (.inl rfl) (.inl rfl) (.inl rfl) (.inl rfl) (.inl rfl) (.inr (by decide)) (.inl rfl) (.inl rfl) (.inl rfl) (.inl rfl) (.inl rfl) (.inl rfl) (.inl rfl) (.inl rfl) (.inl rfl) (.inl rfl) (.inl rfl)
    | decide
    | split
    | dsimp +zetaDelta only

theorem execCreditSend_moves (e t s) : MovesO [.time, .fabric, .fc, .ob] s (execCreditSend e t s) := by
  unfold execCreditSend
  repeat' first
    | extract_lets
    | with_reducible exact Moves.refl _ _
    | with_reducible refine MovesO.next ?_
    | with_reducible refine MovesO.ite ?_ ?_
    | with_reducible exact MovesO.fault _
    | with_reducible exact MovesO.refused _
    | with_reducible refine Moves.ite ?_ ?_
    | with_reducible apply Moves.step (State.upTo_moves _ _)
    | with_reducible apply Moves.step (State.sendCredit_moves _ _)
    | with_reducible refine Moves.foldl (fun _ _ => ?_) ?_
    | decide
    | split
    | dsimp +zetaDelta only

theorem State.flitBad_moves (s port fecBad) : Moves [.fabric, .ob] s (State.flitBad s port fecBad) := by
  unfold State.flitBad
  repeat' first
    | extract_lets
    | with_reducible exact Moves.refl _ _
    | with_reducible refine Moves.ite ?_ ?_
    | with_reducible apply Moves.step (State.setLink_moves _ _ _)
    | with_reducible apply Moves.step (State.bump_moves _ _ _)
    | with_reducible refine Moves.foldl (fun _ _ => ?_) ?_
    | decide
    | split
    | dsimp +zetaDelta only

theorem execFlitReceive_moves (port t raw fecBad fecFixed word s) : MovesO [.time, .fabric, .fc, .ob] s (execFlitReceive port t raw fecBad fecFixed word s) := by
  unfold execFlitReceive
  repeat' first
    | extract_lets
    | with_reducible exact Moves.refl _ _
    | with_reducible refine MovesO.next ?_
    | with_reducible refine MovesO.ite ?_ ?_
    | with_reducible exact MovesO.fault _
    | with_reducible exact MovesO.refused _
    | with_reducible refine Moves.ite ?_ ?_
    | with_reducible apply Moves.step (State.upTo_moves _ _)
    | with_reducible apply Moves.step (State.bump_moves _ _ _)
    | with_reducible apply Moves.step (State.takeLinkWord_moves _ _ _ _)
    | with_reducible apply Moves.step (State.drain_moves _ _ _)
    | with_reducible apply Moves.step (State.flitBad_moves _ _ _)
    | with_reducible apply Moves.step (State.flitGood_moves _ _ _ _ _)
    | with_reducible refine Moves.foldl (fun _ _ => ?_) ?_
    | decide
    | split
    | dsimp +zetaDelta only

theorem execPortTrainingComplete_moves (port neighbour serial level delayNs t s) : MovesO [.time, .fabric, .fc, .ob] s (execPortTrainingComplete port neighbour serial level delayNs t s) := by
  unfold execPortTrainingComplete
  repeat' first
    | extract_lets
    | with_reducible exact Moves.refl _ _
    | with_reducible refine MovesO.next ?_
    | with_reducible refine MovesO.ite ?_ ?_
    | with_reducible exact MovesO.fault _
    | with_reducible exact MovesO.refused _
    | with_reducible refine Moves.ite ?_ ?_
    | with_reducible apply Moves.step (State.upTo_moves _ _)
    | with_reducible apply Moves.step (State.drain_moves _ _ _)
    | with_reducible apply Moves.step (State.setLink_moves _ _ _)
    | with_reducible apply Moves.step (State.raise_moves _ _ _ _ _)
    | with_reducible refine Moves.foldl (fun _ _ => ?_) ?_
    | fail_if_no_progress with_reducible refine Moves.record ?_ (.inl rfl) (.inl rfl) (.inl rfl) (.inl rfl) (.inl rfl) (.inl rfl) (.inr (by decide)) (.inl rfl) (.inl rfl) (.inl rfl) (.inl rfl) (.inl rfl) (.inl rfl) (.inl rfl) (.inl rfl) (.inl rfl) (.inl rfl) (.inl rfl)
    | decide
    | split
    | dsimp +zetaDelta only

theorem execPutForm_moves (e t s) : MovesO [.time, .qf, .fabric, .fc, .ob] s (execPutForm e t s) := by
  unfold execPutForm
  repeat' first
    | extract_lets
    | with_reducible exact Moves.refl _ _
    | with_reducible refine MovesO.next ?_
    | with_reducible refine MovesO.ite ?_ ?_
    | with_reducible exact MovesO.fault _
    | with_reducible exact MovesO.refused _
    | with_reducible refine Moves.ite ?_ ?_
    | with_reducible apply Moves.step (State.upTo_moves _ _)
    | with_reducible apply Moves.step (State.takeEntries_moves _ _ _)
    | with_reducible apply Moves.step (State.epSend_moves _ _ _)
    | with_reducible apply Moves.step (State.setEndpoint_moves _ _ _)
    | with_reducible refine Moves.foldl (fun _ _ => ?_) ?_
    | decide
    | split
    | dsimp +zetaDelta only

end Sys2Proof.Machine
end

