-- ==== Sys2Proof/Laws/MovesFabricCommands.lean ====
section
/-! SUPPORT. What the operations of Machine/FabricCommands.lean keep, and the parts of the state they stay in. -/

namespace Sys2Proof.Machine

theorem ofGetLinkStatus_moves (s : State) (k : Nat) (b : Bytes) : MovesR [] s (ofGetLinkStatus.act s k b) := by
  show MovesR _ _ (Cmd.act _ s k b)
  unfold ofGetLinkStatus
  dsimp -zeta only
  repeat' first
    | extract_lets
    | with_reducible exact Moves.refl _ _
    | with_reducible refine MovesR.done ?_
    | with_reducible refine MovesR.ite ?_ ?_
    | with_reducible exact MovesR.refused _
    | with_reducible refine Moves.ite ?_ ?_
    | with_reducible refine Moves.foldl (fun _ _ => ?_) ?_
    | decide
    | split
    | dsimp +zetaDelta only

theorem ofBindEndpoint_moves (s : State) (k : Nat) (b : Bytes) : MovesR [.fabric] s (ofBindEndpoint.act s k b) := by
  show MovesR _ _ (Cmd.act _ s k b)
  unfold ofBindEndpoint
  dsimp -zeta only
  repeat' first
    | extract_lets
    | with_reducible exact Moves.refl _ _
    | with_reducible refine MovesR.done ?_
    | with_reducible refine MovesR.ite ?_ ?_
    | with_reducible exact MovesR.refused _
    | with_reducible refine Moves.ite ?_ ?_
    | with_reducible refine Moves.foldl (fun _ _ => ?_) ?_
    | fail_if_no_progress with_reducible refine Moves.record ?_ (.inl rfl) (.inl rfl) (.inl rfl) (.inl rfl) (.inl rfl) (.inl rfl) (.inr (by decide)) (.inl rfl) (.inl rfl) (.inl rfl) (.inl rfl) (.inl rfl) (.inl rfl) (.inl rfl) (.inl rfl) (.inl rfl) (.inl rfl) (.inl rfl)
    | decide
    | split
    | dsimp +zetaDelta only

theorem execOfBindEndpoint_moves (slot t s) : MovesO [.time, .fabric, .host, .fc, .mp, .ob] s (execOfBindEndpoint slot t s) :=
  State.serve_moves (fun _ _ _ => (ofBindEndpoint_moves _ _ _).weaken rfl) rfl

theorem State.retrainLink_moves (s k split) : Moves [.fabric, .fc, .ob] s (State.retrainLink s k split) := by
  unfold State.retrainLink
  repeat' first
    | extract_lets
    | with_reducible exact Moves.refl _ _
    | with_reducible refine Moves.ite ?_ ?_
    | with_reducible apply Moves.step (State.setLink_moves _ _ _)
    | with_reducible apply Moves.step (State.parentLinkLost_moves _ _)
    | with_reducible refine Moves.foldl (fun _ _ => ?_) ?_
    | decide
    | split
    | dsimp +zetaDelta only

theorem ofSetLinks_moves (s : State) (k : Nat) (b : Bytes) : MovesR [.fabric, .fc, .ob] s (ofSetLinks.act s k b) := by
  show MovesR _ _ (Cmd.act _ s k b)
  unfold ofSetLinks
  dsimp -zeta only
  repeat' first
    | extract_lets
    | with_reducible exact Moves.refl _ _
    | with_reducible refine MovesR.done ?_
    | with_reducible refine MovesR.ite ?_ ?_
    | with_reducible exact MovesR.refused _
    | with_reducible refine Moves.ite ?_ ?_
    | with_reducible apply Moves.step (State.retrainLink_moves _ _ _)
    | with_reducible refine Moves.foldl (fun _ _ => ?_) ?_
    | fail_if_no_progress with_reducible refine Moves.record ?_ (.inl rfl) (.inl rfl) (.inl rfl) (.inl rfl) (.inl rfl) (.inl rfl) (.inr (by decide)) (.inl rfl) (.inl rfl) (.inl rfl) (.inl rfl) (.inl rfl) (.inl rfl) (.inl rfl) (.inl rfl) (.inl rfl) (.inl rfl) (.inl rfl)
    | decide
    | split
    | dsimp +zetaDelta only

theorem ofSetRoutes_moves (s : State) (k : Nat) (b : Bytes) : MovesR [.fabric] s (ofSetRoutes.act s k b) := by
  show MovesR _ _ (Cmd.act _ s k b)
  unfold ofSetRoutes
  dsimp -zeta only
  repeat' first
    | extract_lets
    | with_reducible exact Moves.refl _ _
    | with_reducible refine MovesR.done ?_
    | with_reducible refine MovesR.ite ?_ ?_
    | with_reducible exact MovesR.refused _
    | with_reducible refine Moves.ite ?_ ?_
    | with_reducible refine Moves.foldl (fun _ _ => ?_) ?_
    | fail_if_no_progress with_reducible refine Moves.record ?_ (.inl rfl) (.inl rfl) (.inl rfl) (.inl rfl) (.inl rfl) (.inl rfl) (.inr (by decide)) (.inl rfl) (.inl rfl) (.inl rfl) (.inl rfl) (.inl rfl) (.inl rfl) (.inl rfl) (.inl rfl) (.inl rfl) (.inl rfl) (.inl rfl)
    | decide
    | split
    | dsimp +zetaDelta only

theorem execOfSetRoutes_moves (slot t s) : MovesO [.time, .fabric, .host, .fc, .mp, .ob] s (execOfSetRoutes slot t s) :=
  State.serve_moves (fun _ _ _ => (ofSetRoutes_moves _ _ _).weaken rfl) rfl

theorem execOfSetLinks_moves (slot t s) : MovesO [.time, .fabric, .host, .fc, .mp, .ob] s (execOfSetLinks slot t s) :=
  State.serve_moves (fun _ _ _ => (ofSetLinks_moves _ _ _).weaken rfl) rfl

theorem execOfGetLinkStatus_moves (slot t s) : MovesO [.time, .host, .fc, .mp, .ob] s (execOfGetLinkStatus slot t s) :=
  State.serve_moves (fun _ _ _ => (ofGetLinkStatus_moves _ _ _).weaken rfl) rfl

end Sys2Proof.Machine
end

