-- ==== Sys2Proof/Laws/MovesFrameCommands.lean ====
section
/-! SUPPORT. What the operations of Machine/FrameCommands.lean keep, and the parts of the state they stay in. -/

namespace Sys2Proof.Machine

theorem State.acceptTree_moves (s j) : MovesR [.frame] s (State.acceptTree s j) := by
  unfold State.acceptTree
  repeat' first
    | extract_lets
    | with_reducible exact Moves.refl _ _
    | with_reducible refine MovesR.done ?_
    | with_reducible refine MovesR.ite ?_ ?_
    | with_reducible exact MovesR.refused _
    | with_reducible refine Moves.ite ?_ ?_
    | with_reducible refine Moves.foldl (fun _ _ => ?_) ?_
    | fail_if_no_progress with_reducible refine Moves.record ?_ (.inr ⟨by decide, by first | exact id | exact fun _ => Nat.mod_lt _ (Nat.two_pow_pos _) | ((try dsimp +zetaDelta only); split <;> exact id)⟩) (.inl rfl) (.inl rfl) (.inl rfl) (.inl rfl) (.inl rfl) (.inl rfl) (.inl rfl) (.inl rfl) (.inl rfl) (.inl rfl) (.inl rfl) (.inl rfl) (.inl rfl) (.inl rfl) (.inl rfl) (.inl rfl) (.inl rfl)
    | decide
    | split
    | dsimp +zetaDelta only

theorem State.refuseLevel_moves (s) : MovesR [.fc] s (State.refuseLevel s) := by
  unfold State.refuseLevel
  repeat' first
    | extract_lets
    | with_reducible exact Moves.refl _ _
    | with_reducible refine MovesR.done ?_
    | with_reducible refine MovesR.ite ?_ ?_
    | with_reducible exact MovesR.refused _
    | with_reducible refine Moves.ite ?_ ?_
    | with_reducible apply Moves.step (State.raise_moves _ _ _ _ _)
    | with_reducible refine Moves.foldl (fun _ _ => ?_) ?_
    | decide
    | split
    | dsimp +zetaDelta only

theorem State.acceptJoin_moves (s j) : MovesR [.frame, .fc] s (State.acceptJoin s j) := by
  unfold State.acceptJoin
  repeat' first
    | extract_lets
    | with_reducible exact Moves.refl _ _
    | with_reducible refine MovesR.done ?_
    | with_reducible refine MovesR.ite ?_ ?_
    | with_reducible exact MovesR.refused _
    | with_reducible refine Moves.ite ?_ ?_
    | with_reducible apply MovesR.step (State.refuseLevel_moves _)
    | with_reducible refine Moves.foldl (fun _ _ => ?_) ?_
    | fail_if_no_progress with_reducible refine Moves.record ?_ (.inr ⟨by decide, by first | exact id | exact fun _ => Nat.mod_lt _ (Nat.two_pow_pos _) | ((try dsimp +zetaDelta only); split <;> exact id)⟩) (.inl rfl) (.inl rfl) (.inl rfl) (.inl rfl) (.inl rfl) (.inl rfl) (.inl rfl) (.inl rfl) (.inl rfl) (.inl rfl) (.inl rfl) (.inl rfl) (.inl rfl) (.inl rfl) (.inl rfl) (.inl rfl) (.inl rfl)
    | decide
    | split
    | dsimp +zetaDelta only

theorem ftJoinDomain_moves (s : State) (k : Nat) (b : Bytes) : MovesR [.frame, .fc] s (ftJoinDomain.act s k b) := by
  show MovesR _ _ (Cmd.act _ s k b)
  unfold ftJoinDomain
  dsimp -zeta only
  repeat' first
    | extract_lets
    | with_reducible exact Moves.refl _ _
    | with_reducible refine MovesR.done ?_
    | with_reducible refine MovesR.ite ?_ ?_
    | with_reducible exact MovesR.refused _
    | with_reducible refine Moves.ite ?_ ?_
    | with_reducible apply MovesR.step (State.acceptTree_moves _ _)
    | with_reducible apply MovesR.step (State.acceptJoin_moves _ _)
    | with_reducible refine Moves.foldl (fun _ _ => ?_) ?_
    | decide
    | split
    | dsimp +zetaDelta only

theorem ftGetFrameStatus_moves (s : State) (k : Nat) (b : Bytes) : MovesR [] s (ftGetFrameStatus.act s k b) := by
  show MovesR _ _ (Cmd.act _ s k b)
  unfold ftGetFrameStatus
  dsimp -zeta only
  repeat' first
    | extract_lets
    | with_reducible exact Moves.refl _ _
    | with_reducible refine MovesR.done ?_
    | with_reducible refine MovesR.ite ?_ ?_
    | with_reducible exact MovesR.refused _
    | with_reducible refine Moves.ite ?_ ?_
    | with_reducible refine Moves.foldl (fun _ _ => ?_) ?_
    | decide
    | split
    | dsimp +zetaDelta only

theorem execFtGetFrameStatus_moves (slot t s) : MovesO [.time, .host, .fc, .mp, .ob] s (execFtGetFrameStatus slot t s) :=
  State.serve_moves (fun _ _ _ => (ftGetFrameStatus_moves _ _ _).weaken rfl) rfl

theorem ftLeaveDomain_moves (s : State) (k : Nat) (b : Bytes) : MovesR [.frame, .jigs, .qf, .fabric, .shim, .fc, .ob] s (ftLeaveDomain.act s k b) := by
  show MovesR _ _ (Cmd.act _ s k b)
  unfold ftLeaveDomain
  dsimp -zeta only
  repeat' first
    | extract_lets
    | with_reducible exact Moves.refl _ _
    | with_reducible refine MovesR.done ?_
    | with_reducible refine MovesR.ite ?_ ?_
    | with_reducible exact MovesR.refused _
    | with_reducible refine Moves.ite ?_ ?_
    | with_reducible apply Moves.step (State.haltJobsOf_moves _ _)
    | with_reducible refine Moves.foldl (fun _ _ => ?_) ?_
    | fail_if_no_progress with_reducible refine Moves.record ?_ (.inr ⟨by decide, by first | exact id | exact fun _ => Nat.mod_lt _ (Nat.two_pow_pos _) | ((try dsimp +zetaDelta only); split <;> exact id)⟩) (.inl rfl) (.inl rfl) (.inl rfl) (.inl rfl) (.inl rfl) (.inl rfl) (.inl rfl) (.inl rfl) (.inl rfl) (.inl rfl) (.inl rfl) (.inl rfl) (.inl rfl) (.inl rfl) (.inl rfl) (.inl rfl) (.inl rfl)
    | decide
    | split
    | dsimp +zetaDelta only

theorem execFtLeaveDomain_moves (slot t s) : MovesO [.time, .frame, .jigs, .qf, .fabric, .host, .shim, .fc, .mp, .ob] s (execFtLeaveDomain slot t s) :=
  State.serve_moves (fun _ _ _ => (ftLeaveDomain_moves _ _ _).weaken rfl) rfl

theorem execFtJoinDomain_moves (slot t s) : MovesO [.time, .frame, .host, .fc, .mp, .ob] s (execFtJoinDomain slot t s) :=
  State.serve_moves (fun _ _ _ => (ftJoinDomain_moves _ _ _).weaken rfl) rfl

theorem ftSetDomain_moves (s : State) (k : Nat) (b : Bytes) : MovesR [.frame, .fc] s (ftSetDomain.act s k b) := by
  show MovesR _ _ (Cmd.act _ s k b)
  unfold ftSetDomain
  dsimp -zeta only
  repeat' first
    | extract_lets
    | with_reducible exact Moves.refl _ _
    | with_reducible refine MovesR.done ?_
    | with_reducible refine MovesR.ite ?_ ?_
    | with_reducible exact MovesR.refused _
    | with_reducible refine Moves.ite ?_ ?_
    | with_reducible apply MovesR.step (State.refuseLevel_moves _)
    | with_reducible refine Moves.foldl (fun _ _ => ?_) ?_
    | fail_if_no_progress with_reducible refine Moves.record ?_ (.inr ⟨by decide, by first | exact id | exact fun _ => Nat.mod_lt _ (Nat.two_pow_pos _) | ((try dsimp +zetaDelta only); split <;> exact id)⟩) (.inl rfl) (.inl rfl) (.inl rfl) (.inl rfl) (.inl rfl) (.inl rfl) (.inl rfl) (.inl rfl) (.inl rfl) (.inl rfl) (.inl rfl) (.inl rfl) (.inl rfl) (.inl rfl) (.inl rfl) (.inl rfl) (.inl rfl)
    | decide
    | split
    | dsimp +zetaDelta only

theorem execFtSetDomain_moves (slot t s) : MovesO [.time, .frame, .host, .fc, .mp, .ob] s (execFtSetDomain slot t s) :=
  State.serve_moves (fun _ _ _ => (ftSetDomain_moves _ _ _).weaken rfl) rfl

end Sys2Proof.Machine
end

