-- ==== Sys2Proof/Laws/MovesGovCode.lean ====
section
/-! SUPPORT. What the operations of Machine/GovCode.lean keep, and the parts of the state they stay in. -/

namespace Sys2Proof.Machine

theorem execDieRestart_moves (t s) : MovesO [.time, .rails] s (execDieRestart t s) := by
  unfold execDieRestart
  repeat' first
    | extract_lets
    | with_reducible exact Moves.refl _ _
    | with_reducible refine MovesO.next ?_
    | with_reducible refine MovesO.ite ?_ ?_
    | with_reducible exact MovesO.fault _
    | with_reducible exact MovesO.refused _
    | with_reducible refine Moves.ite ?_ ?_
    | with_reducible apply Moves.step (State.upTo_moves _ _)
    | with_reducible refine Moves.foldl (fun _ _ => ?_) ?_
    | fail_if_no_progress with_reducible refine Moves.record ?_ (.inl rfl) (.inl rfl) (.inl rfl) (.inl rfl) (.inl rfl) (.inl rfl) (.inl rfl) (.inl rfl) (.inl rfl) (.inl rfl) (.inr (by decide)) (.inl rfl) (.inl rfl) (.inl rfl) (.inl rfl) (.inl rfl) (.inl rfl) (.inl rfl)
    | decide
    | split
    | dsimp +zetaDelta only

theorem execOrderlyStopClocks_moves (t s) : MovesO [.time, .arrays, .lanes, .mem, .qf, .fabric, .gov, .fc, .clocks, .ob] s (execOrderlyStopClocks t s) := by
  unfold execOrderlyStopClocks
  repeat' first
    | extract_lets
    | with_reducible exact Moves.refl _ _
    | with_reducible refine MovesO.next ?_
    | with_reducible refine MovesO.ite ?_ ?_
    | with_reducible exact MovesO.fault _
    | with_reducible exact MovesO.refused _
    | with_reducible refine Moves.ite ?_ ?_
    | with_reducible apply Moves.step (State.upTo_moves _ _)
    | with_reducible apply Moves.step (State.rootsStop_moves _)
    | with_reducible apply Moves.step (State.foldAll_moves _)
    | with_reducible apply Moves.step (State.settleClocks_moves _)
    | with_reducible apply Moves.step (State.benchNow_moves _)
    | with_reducible apply Moves.step (State.settleF0_moves _)
    | with_reducible refine Moves.foldl (fun _ _ => ?_) ?_
    | fail_if_no_progress with_reducible refine Moves.record ?_ (.inl rfl) (.inl rfl) (.inl rfl) (.inl rfl) (.inl rfl) (.inr (by decide)) (.inl rfl) (.inl rfl) (.inl rfl) (.inl rfl) (.inl rfl) (.inr (by decide)) (.inl rfl) (.inl rfl) (.inl rfl) (.inl rfl) (.inl rfl) (.inl rfl)
    | decide
    | split
    | dsimp +zetaDelta only

theorem execVrAlertNRelease_moves (t s) : MovesO [.time, .gov, .fc] s (execVrAlertNRelease t s) := by
  unfold execVrAlertNRelease
  repeat' first
    | extract_lets
    | with_reducible exact Moves.refl _ _
    | with_reducible refine MovesO.next ?_
    | with_reducible refine MovesO.ite ?_ ?_
    | with_reducible exact MovesO.fault _
    | with_reducible exact MovesO.refused _
    | with_reducible refine Moves.ite ?_ ?_
    | with_reducible apply Moves.step (State.onEdge_moves _ _ _)
    | with_reducible apply Moves.step (State.throttleAdd_moves _ _ _ _)
    | with_reducible refine Moves.foldl (fun _ _ => ?_) ?_
    | fail_if_no_progress with_reducible refine Moves.record ?_ (.inl rfl) (.inl rfl) (.inl rfl) (.inl rfl) (.inl rfl) (.inl rfl) (.inl rfl) (.inl rfl) (.inl rfl) (.inl rfl) (.inl rfl) (.inr (by decide)) (.inl rfl) (.inl rfl) (.inl rfl) (.inl rfl) (.inl rfl) (.inl rfl)
    | decide
    | split
    | dsimp +zetaDelta only

theorem gvGetStatus_moves (s : State) (k : Nat) (b : Bytes) : MovesR [] s (gvGetStatus.act s k b) := by
  show MovesR _ _ (Cmd.act _ s k b)
  unfold gvGetStatus
  dsimp -zeta only
  repeat' first
    | extract_lets
    | with_reducible exact Moves.refl _ _
    | with_reducible refine MovesR.done ?_
    | with_reducible refine MovesR.ite ?_ ?_
    | with_reducible exact MovesR.refused _
    | with_reducible refine Moves.ite ?_ ?_
    | with_reducible refine Moves.foldl (fun _ _ => ?_) ?_
    | decide
    | split
    | dsimp +zetaDelta only

theorem State.shutdownStop_moves (s n) : Moves [.frame, .jigs, .arrays, .lanes, .mem, .qf, .fabric, .host, .shim, .rails, .gov, .fc, .mod, .pins, .clocks, .ob] s (State.shutdownStop s n) := by
  unfold State.shutdownStop
  repeat' first
    | extract_lets
    | with_reducible exact Moves.refl _ _
    | with_reducible refine Moves.ite ?_ ?_
    | with_reducible apply Moves.step (State.orderlyStop_moves _ _)
    | with_reducible apply Moves.step (State.raise_moves _ _ _ _ _)
    | with_reducible apply Moves.step (State.immediateStop_moves _ _)
    | with_reducible refine Moves.foldl (fun _ _ => ?_) ?_
    | decide
    | split
    | dsimp +zetaDelta only

theorem State.pace_moves (s n ma partMw) : Moves [.gov, .clocks, .ob] s (State.pace s n ma partMw) := by
  unfold State.pace
  repeat' first
    | extract_lets
    | with_reducible exact Moves.refl _ _
    | with_reducible refine Moves.ite ?_ ?_
    | with_reducible apply Moves.step (State.setPacing_moves _ _ _)
    | with_reducible apply Moves.step (State.setDie_moves _ _ _)
    | with_reducible apply Moves.step (State.paceCount_moves _ _ _)
    | with_reducible apply Moves.step (State.peak_moves _ _ _)
    | with_reducible refine Moves.foldl (fun _ _ => ?_) ?_
    | fail_if_no_progress with_reducible refine Moves.record ?_ (.inl rfl) (.inl rfl) (.inl rfl) (.inl rfl) (.inl rfl) (.inl rfl) (.inl rfl) (.inl rfl) (.inl rfl) (.inl rfl) (.inl rfl) (.inr (by decide)) (.inl rfl) (.inl rfl) (.inl rfl) (.inl rfl) (.inl rfl) (.inl rfl)
    | decide
    | split
    | dsimp +zetaDelta only

theorem execStackTempRead_moves (k v t s) : MovesO [.time, .gov, .fc] s (execStackTempRead k v t s) := by
  unfold execStackTempRead
  repeat' first
    | extract_lets
    | with_reducible exact Moves.refl _ _
    | with_reducible refine MovesO.next ?_
    | with_reducible refine MovesO.ite ?_ ?_
    | with_reducible exact MovesO.fault _
    | with_reducible exact MovesO.refused _
    | with_reducible refine Moves.ite ?_ ?_
    | with_reducible apply Moves.step (State.upTo_moves _ _)
    | with_reducible apply Moves.step (State.setDie_moves _ _ _)
    | with_reducible apply Moves.step (State.raiseCond_moves _ _ _ _ _)
    | with_reducible refine Moves.foldl (fun _ _ => ?_) ?_
    | fail_if_no_progress with_reducible refine Moves.record ?_ (.inl rfl) (.inl rfl) (.inl rfl) (.inl rfl) (.inl rfl) (.inl rfl) (.inl rfl) (.inl rfl) (.inl rfl) (.inl rfl) (.inl rfl) (.inr (by decide)) (.inl rfl) (.inl rfl) (.inl rfl) (.inl rfl) (.inl rfl) (.inl rfl)
    | decide
    | split
    | dsimp +zetaDelta only

theorem execFlowLoss_moves (t s) : MovesO [.time, .frame, .jigs, .arrays, .lanes, .mem, .qf, .fabric, .host, .shim, .rails, .gov, .fc, .mod, .pins, .ob] s (execFlowLoss t s) := by
  unfold execFlowLoss
  repeat' first
    | extract_lets
    | with_reducible exact Moves.refl _ _
    | with_reducible refine MovesO.next ?_
    | with_reducible refine MovesO.ite ?_ ?_
    | with_reducible exact MovesO.fault _
    | with_reducible exact MovesO.refused _
    | with_reducible refine Moves.ite ?_ ?_
    | with_reducible apply Moves.step (State.onEdge_moves _ _ _)
    | with_reducible apply Moves.step (State.orderlyStop_moves _ _)
    | with_reducible apply Moves.step (State.raiseCond_moves _ _ _ _ _)
    | with_reducible refine Moves.foldl (fun _ _ => ?_) ?_
    | fail_if_no_progress with_reducible refine Moves.record ?_ (.inl rfl) (.inl rfl) (.inl rfl) (.inl rfl) (.inl rfl) (.inl rfl) (.inl rfl) (.inl rfl) (.inl rfl) (.inl rfl) (.inl rfl) (.inr (by decide)) (.inl rfl) (.inl rfl) (.inl rfl) (.inr (by decide)) (.inl rfl) (.inl rfl)
    | decide
    | split
    | dsimp +zetaDelta only

theorem gvGetEnergy_moves (s : State) (k : Nat) (b : Bytes) : MovesR [] s (gvGetEnergy.act s k b) := by
  show MovesR _ _ (Cmd.act _ s k b)
  unfold gvGetEnergy
  dsimp -zeta only
  repeat' first
    | extract_lets
    | with_reducible exact Moves.refl _ _
    | with_reducible refine MovesR.done ?_
    | with_reducible refine MovesR.ite ?_ ?_
    | with_reducible exact MovesR.refused _
    | with_reducible refine Moves.ite ?_ ?_
    | with_reducible refine Moves.foldl (fun _ _ => ?_) ?_
    | decide
    | split
    | dsimp +zetaDelta only

theorem execGvGetEnergy_moves (slot t s) : MovesO [.time, .host, .fc, .mp, .ob] s (execGvGetEnergy slot t s) :=
  State.serve_moves (fun _ _ _ => (gvGetEnergy_moves _ _ _).weaken rfl) rfl

theorem State.endForcedWait_moves (s) : Moves [.clocks] s (State.endForcedWait s) := by
  unfold State.endForcedWait
  repeat' first
    | extract_lets
    | with_reducible exact Moves.refl _ _
    | with_reducible refine Moves.ite ?_ ?_
    | with_reducible apply Moves.step (State.switchRoots_moves _ _ _)
    | with_reducible refine Moves.foldl (fun _ _ => ?_) ?_
    | decide
    | split
    | dsimp +zetaDelta only

theorem execStretchEnd_moves (n uv t s) : MovesO [.time, .gov, .clocks, .ob] s (execStretchEnd n uv t s) := by
  unfold execStretchEnd
  repeat' first
    | extract_lets
    | with_reducible exact Moves.refl _ _
    | with_reducible refine MovesO.next ?_
    | with_reducible refine MovesO.ite ?_ ?_
    | with_reducible exact MovesO.fault _
    | with_reducible exact MovesO.refused _
    | with_reducible refine Moves.ite ?_ ?_
    | with_reducible apply Moves.step (State.upTo_moves _ _)
    | with_reducible apply Moves.step (State.changeRoot_moves _ _ _)
    | with_reducible apply Moves.step (State.settleClock_moves _ _)
    | with_reducible apply Moves.step (State.throttleAdd_moves _ _ _ _)
    | with_reducible apply Moves.step (State.setDie_moves _ _ _)
    | with_reducible apply Moves.step (State.endForcedWait_moves _)
    | with_reducible refine Moves.foldl (fun _ _ => ?_) ?_
    | fail_if_no_progress with_reducible refine Moves.record ?_ (.inl rfl) (.inl rfl) (.inl rfl) (.inl rfl) (.inl rfl) (.inl rfl) (.inl rfl) (.inl rfl) (.inl rfl) (.inl rfl) (.inl rfl) (.inr (by decide)) (.inl rfl) (.inl rfl) (.inl rfl) (.inl rfl) (.inl rfl) (.inl rfl)
    | decide
    | split
    | dsimp +zetaDelta only

theorem gvSetClamp_moves (s : State) (k : Nat) (b : Bytes) : MovesR [.gov] s (gvSetClamp.act s k b) := by
  show MovesR _ _ (Cmd.act _ s k b)
  unfold gvSetClamp
  dsimp -zeta only
  repeat' first
    | extract_lets
    | with_reducible exact Moves.refl _ _
    | with_reducible refine MovesR.done ?_
    | with_reducible refine MovesR.ite ?_ ?_
    | with_reducible exact MovesR.refused _
    | with_reducible refine Moves.ite ?_ ?_
    | with_reducible refine Moves.foldl (fun _ _ => ?_) ?_
    | fail_if_no_progress with_reducible refine Moves.record ?_ (.inl rfl) (.inl rfl) (.inl rfl) (.inl rfl) (.inl rfl) (.inl rfl) (.inl rfl) (.inl rfl) (.inl rfl) (.inl rfl) (.inl rfl) (.inr (by decide)) (.inl rfl) (.inl rfl) (.inl rfl) (.inl rfl) (.inl rfl) (.inl rfl)
    | decide
    | split
    | dsimp +zetaDelta only

theorem execCoolantRead_moves (v t s) : MovesO [.time, .gov, .fc] s (execCoolantRead v t s) := by
  unfold execCoolantRead
  repeat' first
    | extract_lets
    | with_reducible exact Moves.refl _ _
    | with_reducible refine MovesO.next ?_
    | with_reducible refine MovesO.ite ?_ ?_
    | with_reducible exact MovesO.fault _
    | with_reducible exact MovesO.refused _
    | with_reducible refine Moves.ite ?_ ?_
    | with_reducible apply Moves.step (State.upTo_moves _ _)
    | with_reducible apply Moves.step (State.raiseCond_moves _ _ _ _ _)
    | with_reducible refine Moves.foldl (fun _ _ => ?_) ?_
    | fail_if_no_progress with_reducible refine Moves.record ?_ (.inl rfl) (.inl rfl) (.inl rfl) (.inl rfl) (.inl rfl) (.inl rfl) (.inl rfl) (.inl rfl) (.inl rfl) (.inl rfl) (.inl rfl) (.inr (by decide)) (.inr (by decide)) (.inl rfl) (.inl rfl) (.inl rfl) (.inl rfl) (.inl rfl)
    | decide
    | split
    | dsimp +zetaDelta only

theorem execPacingUpdate_moves (n ma partMw t s) : MovesO [.time, .gov, .clocks, .ob] s (execPacingUpdate n ma partMw t s) := by
  unfold execPacingUpdate
  repeat' first
    | extract_lets
    | with_reducible exact Moves.refl _ _
    | with_reducible refine MovesO.next ?_
    | with_reducible refine MovesO.ite ?_ ?_
    | with_reducible exact MovesO.fault _
    | with_reducible exact MovesO.refused _
    | with_reducible refine Moves.ite ?_ ?_
    | with_reducible apply Moves.step (State.upTo_moves _ _)
    | with_reducible apply Moves.step (State.settleF0_moves _)
    | with_reducible apply Moves.step (State.pace_moves _ _ _ _)
    | with_reducible apply Moves.step (State.settleClock_moves _ _)
    | with_reducible refine Moves.foldl (fun _ _ => ?_) ?_
    | decide
    | split
    | dsimp +zetaDelta only

theorem gvGetThermal_moves (s : State) (k : Nat) (b : Bytes) : MovesR [] s (gvGetThermal.act s k b) := by
  show MovesR _ _ (Cmd.act _ s k b)
  unfold gvGetThermal
  dsimp -zeta only
  repeat' first
    | extract_lets
    | with_reducible exact Moves.refl _ _
    | with_reducible refine MovesR.done ?_
    | with_reducible refine MovesR.ite ?_ ?_
    | with_reducible exact MovesR.refused _
    | with_reducible refine Moves.ite ?_ ?_
    | with_reducible refine Moves.foldl (fun _ _ => ?_) ?_
    | decide
    | split
    | dsimp +zetaDelta only

theorem State.heatThresholds_moves (s n) : Moves [.frame, .jigs, .arrays, .lanes, .mem, .qf, .fabric, .host, .shim, .rails, .gov, .fc, .mod, .pins, .clocks, .ob] s (State.heatThresholds s n) := by
  unfold State.heatThresholds
  repeat' first
    | extract_lets
    | with_reducible exact Moves.refl _ _
    | with_reducible refine Moves.ite ?_ ?_
    | with_reducible apply Moves.step (State.setDie_moves _ _ _)
    | with_reducible apply Moves.step (State.raiseCond_moves _ _ _ _ _)
    | with_reducible apply Moves.step (State.shutdownStop_moves _ _)
    | with_reducible refine Moves.foldl (fun _ _ => ?_) ?_
    | decide
    | split
    | dsimp +zetaDelta only

theorem execDroopCrossing_moves (n uv t s) : MovesO [.time, .gov, .clocks, .ob, .free] s (execDroopCrossing n uv t s) := by
  unfold execDroopCrossing
  repeat' first
    | extract_lets
    | with_reducible exact Moves.refl _ _
    | with_reducible refine MovesO.next ?_
    | with_reducible refine MovesO.ite ?_ ?_
    | with_reducible exact MovesO.fault _
    | with_reducible exact MovesO.refused _
    | with_reducible refine Moves.ite ?_ ?_
    | with_reducible apply Moves.step (State.upTo_moves _ _)
    | with_reducible apply Moves.step (State.draw_moves _ _)
    | with_reducible apply Moves.step (State.settleClock_moves _ _)
    | with_reducible apply Moves.step (State.changeRoot_moves _ _ _)
    | with_reducible apply Moves.step (State.setDie_moves _ _ _)
    | with_reducible refine Moves.foldl (fun _ _ => ?_) ?_
    | decide
    | split
    | dsimp +zetaDelta only

theorem gvSetLimits_moves (s : State) (k : Nat) (b : Bytes) : MovesR [.gov] s (gvSetLimits.act s k b) := by
  show MovesR _ _ (Cmd.act _ s k b)
  unfold gvSetLimits
  dsimp -zeta only
  repeat' first
    | extract_lets
    | with_reducible exact Moves.refl _ _
    | with_reducible refine MovesR.done ?_
    | with_reducible refine MovesR.ite ?_ ?_
    | with_reducible exact MovesR.refused _
    | with_reducible refine Moves.ite ?_ ?_
    | with_reducible refine Moves.foldl (fun _ _ => ?_) ?_
    | fail_if_no_progress with_reducible refine Moves.record ?_ (.inl rfl) (.inl rfl) (.inl rfl) (.inl rfl) (.inl rfl) (.inl rfl) (.inl rfl) (.inl rfl) (.inl rfl) (.inl rfl) (.inl rfl) (.inr (by decide)) (.inl rfl) (.inl rfl) (.inl rfl) (.inl rfl) (.inl rfl) (.inl rfl)
    | decide
    | split
    | dsimp +zetaDelta only

theorem gvGetThrottle_moves (s : State) (k : Nat) (b : Bytes) : MovesR [] s (gvGetThrottle.act s k b) := by
  show MovesR _ _ (Cmd.act _ s k b)
  unfold gvGetThrottle
  dsimp -zeta only
  repeat' first
    | extract_lets
    | with_reducible exact Moves.refl _ _
    | with_reducible refine MovesR.done ?_
    | with_reducible refine MovesR.ite ?_ ?_
    | with_reducible exact MovesR.refused _
    | with_reducible refine Moves.ite ?_ ?_
    | with_reducible refine Moves.foldl (fun _ _ => ?_) ?_
    | decide
    | split
    | dsimp +zetaDelta only

theorem gvSetQuota_moves (s : State) (k : Nat) (b : Bytes) : MovesR [.gov] s (gvSetQuota.act s k b) := by
  show MovesR _ _ (Cmd.act _ s k b)
  unfold gvSetQuota
  dsimp -zeta only
  repeat' first
    | extract_lets
    | with_reducible exact Moves.refl _ _
    | with_reducible refine MovesR.done ?_
    | with_reducible refine MovesR.ite ?_ ?_
    | with_reducible exact MovesR.refused _
    | with_reducible refine Moves.ite ?_ ?_
    | with_reducible refine Moves.foldl (fun _ _ => ?_) ?_
    | fail_if_no_progress with_reducible refine Moves.record ?_ (.inl rfl) (.inl rfl) (.inl rfl) (.inl rfl) (.inl rfl) (.inl rfl) (.inl rfl) (.inl rfl) (.inl rfl) (.inl rfl) (.inl rfl) (.inr (by decide)) (.inl rfl) (.inl rfl) (.inl rfl) (.inl rfl) (.inl rfl) (.inl rfl)
    | decide
    | split
    | dsimp +zetaDelta only

theorem execFlowRestored_moves (t s) : MovesO [.time, .gov, .fc, .pins] s (execFlowRestored t s) := by
  unfold execFlowRestored
  repeat' first
    | extract_lets
    | with_reducible exact Moves.refl _ _
    | with_reducible refine MovesO.next ?_
    | with_reducible refine MovesO.ite ?_ ?_
    | with_reducible exact MovesO.fault _
    | with_reducible exact MovesO.refused _
    | with_reducible refine Moves.ite ?_ ?_
    | with_reducible apply Moves.step (State.onEdge_moves _ _ _)
    | with_reducible refine Moves.foldl (fun _ _ => ?_) ?_
    | fail_if_no_progress with_reducible refine Moves.record ?_ (.inl rfl) (.inl rfl) (.inl rfl) (.inl rfl) (.inl rfl) (.inl rfl) (.inl rfl) (.inl rfl) (.inl rfl) (.inl rfl) (.inl rfl) (.inr (by decide)) (.inl rfl) (.inl rfl) (.inl rfl) (.inr (by decide)) (.inl rfl) (.inl rfl)
    | decide
    | split
    | dsimp +zetaDelta only

theorem State.heatDie_moves (s n heat) : Moves [.frame, .jigs, .arrays, .lanes, .mem, .qf, .fabric, .host, .shim, .rails, .gov, .fc, .mod, .pins, .clocks, .ob] s (State.heatDie s n heat) := by
  unfold State.heatDie
  repeat' first
    | extract_lets
    | with_reducible exact Moves.refl _ _
    | with_reducible refine Moves.ite ?_ ?_
    | with_reducible apply Moves.step (State.setDie_moves _ _ _)
    | with_reducible apply Moves.step (State.peak_moves _ _ _)
    | with_reducible apply Moves.step (State.heatThresholds_moves _ _)
    | with_reducible refine Moves.foldl (fun _ _ => ?_) ?_
    | decide
    | split
    | dsimp +zetaDelta only

theorem execVrAlertNAssert_moves (t s) : MovesO [.time, .frame, .shim, .gov, .fc, .clocks, .ob] s (execVrAlertNAssert t s) := by
  unfold execVrAlertNAssert
  repeat' first
    | extract_lets
    | with_reducible exact Moves.refl _ _
    | with_reducible refine MovesO.next ?_
    | with_reducible refine MovesO.ite ?_ ?_
    | with_reducible exact MovesO.fault _
    | with_reducible exact MovesO.refused _
    | with_reducible refine Moves.ite ?_ ?_
    | with_reducible apply Moves.step (State.onEdge_moves _ _ _)
    | with_reducible apply Moves.step (State.settleClocks_moves _)
    | with_reducible apply Moves.step (State.settleF0_moves _)
    | with_reducible apply Moves.step (State.switchRoots_moves _ _ _)
    | with_reducible refine Moves.foldl (fun _ _ => ?_) ?_
    | fail_if_no_progress with_reducible refine Moves.record ?_ (.inr ⟨by decide, by first | exact id | exact fun _ => Nat.mod_lt _ (Nat.two_pow_pos _) | ((try dsimp +zetaDelta only); split <;> exact id)⟩) (.inl rfl) (.inl rfl) (.inl rfl) (.inl rfl) (.inl rfl) (.inl rfl) (.inl rfl) (.inr (by decide)) (.inl rfl) (.inl rfl) (.inr (by decide)) (.inl rfl) (.inl rfl) (.inl rfl) (.inl rfl) (.inr (by decide)) (.inl rfl)
    | decide
    | split
    | dsimp +zetaDelta only

theorem execGvGetThrottle_moves (slot t s) : MovesO [.time, .host, .fc, .mp, .ob] s (execGvGetThrottle slot t s) :=
  State.serve_moves (fun _ _ _ => (gvGetThrottle_moves _ _ _).weaken rfl) rfl

theorem execOrderlyStopRails_moves (t s) : MovesO [.time, .frame, .jigs, .arrays, .lanes, .mem, .qf, .fabric, .host, .rails, .gov, .mod, .pins, .clocks, .ob] s (execOrderlyStopRails t s) := by
  unfold execOrderlyStopRails
  repeat' first
    | extract_lets
    | with_reducible exact Moves.refl _ _
    | with_reducible refine MovesO.next ?_
    | with_reducible refine MovesO.ite ?_ ?_
    | with_reducible exact MovesO.fault _
    | with_reducible exact MovesO.refused _
    | with_reducible refine Moves.ite ?_ ?_
    | with_reducible apply Moves.step (State.upTo_moves _ _)
    | with_reducible apply Moves.step (State.pauseStart_moves _)
    | with_reducible apply Moves.step (State.diesOff_moves _)
    | with_reducible apply Moves.step (State.stopRails_moves _ _)
    | with_reducible apply Moves.step (State.foldAll_moves _)
    | with_reducible refine Moves.foldl (fun _ _ => ?_) ?_
    | decide
    | split
    | dsimp +zetaDelta only

theorem execGvSetClamp_moves (slot t s) : MovesO [.time, .host, .gov, .fc, .mp, .ob] s (execGvSetClamp slot t s) :=
  State.serve_moves (fun _ _ _ => (gvSetClamp_moves _ _ _).weaken rfl) rfl

theorem execGvSetQuota_moves (slot t s) : MovesO [.time, .host, .gov, .fc, .mp, .ob] s (execGvSetQuota slot t s) :=
  State.serve_moves (fun _ _ _ => (gvSetQuota_moves _ _ _).weaken rfl) rfl

theorem execEnergyAttribution_moves (est dieNj moduleUj queues t s) : MovesO [.time, .gov] s (execEnergyAttribution est dieNj moduleUj queues t s) := by
  unfold execEnergyAttribution
  repeat' first
    | extract_lets
    | with_reducible exact Moves.refl _ _
    | with_reducible refine MovesO.next ?_
    | with_reducible refine MovesO.ite ?_ ?_
    | with_reducible exact MovesO.fault _
    | with_reducible exact MovesO.refused _
    | with_reducible refine Moves.ite ?_ ?_
    | with_reducible apply Moves.step (State.upTo_moves _ _)
    | with_reducible apply Moves.step (State.setDie_moves _ _ _)
    | with_reducible refine Moves.foldl (fun _ _ => ?_) ?_
    | fail_if_no_progress with_reducible refine Moves.record ?_ (.inl rfl) (.inl rfl) (.inl rfl) (.inl rfl) (.inl rfl) (.inl rfl) (.inl rfl) (.inl rfl) (.inl rfl) (.inl rfl) (.inl rfl) (.inr (by decide)) (.inl rfl) (.inl rfl) (.inl rfl) (.inl rfl) (.inl rfl) (.inl rfl)
    | decide
    | split
    | dsimp +zetaDelta only

theorem execQuotaMeanUpdate_moves (t s) : MovesO [.time, .gov] s (execQuotaMeanUpdate t s) := by
  unfold execQuotaMeanUpdate
  repeat' first
    | extract_lets
    | with_reducible exact Moves.refl _ _
    | with_reducible refine MovesO.next ?_
    | with_reducible refine MovesO.ite ?_ ?_
    | with_reducible exact MovesO.fault _
    | with_reducible exact MovesO.refused _
    | with_reducible refine Moves.ite ?_ ?_
    | with_reducible apply Moves.step (State.upTo_moves _ _)
    | with_reducible refine Moves.foldl (fun _ _ => ?_) ?_
    | fail_if_no_progress with_reducible refine Moves.record ?_ (.inl rfl) (.inl rfl) (.inl rfl) (.inl rfl) (.inl rfl) (.inl rfl) (.inl rfl) (.inl rfl) (.inl rfl) (.inl rfl) (.inl rfl) (.inr (by decide)) (.inl rfl) (.inl rfl) (.inl rfl) (.inl rfl) (.inl rfl) (.inl rfl)
    | decide
    | split
    | dsimp +zetaDelta only

theorem execGvSetLimits_moves (slot t s) : MovesO [.time, .host, .gov, .fc, .mp, .ob] s (execGvSetLimits slot t s) :=
  State.serve_moves (fun _ _ _ => (gvSetLimits_moves _ _ _).weaken rfl) rfl

theorem execGvGetStatus_moves (slot t s) : MovesO [.time, .host, .fc, .mp, .ob] s (execGvGetStatus slot t s) :=
  State.serve_moves (fun _ _ _ => (gvGetStatus_moves _ _ _).weaken rfl) rfl

theorem execGvGetThermal_moves (slot t s) : MovesO [.time, .host, .fc, .mp, .ob] s (execGvGetThermal slot t s) :=
  State.serve_moves (fun _ _ _ => (gvGetThermal_moves _ _ _).weaken rfl) rfl

theorem execF0TimeExhausted_moves (t s) : MovesO [.time, .gov] s (execF0TimeExhausted t s) := by
  unfold execF0TimeExhausted
  repeat' first
    | extract_lets
    | with_reducible exact Moves.refl _ _
    | with_reducible refine MovesO.next ?_
    | with_reducible refine MovesO.ite ?_ ?_
    | with_reducible exact MovesO.fault _
    | with_reducible exact MovesO.refused _
    | with_reducible refine Moves.ite ?_ ?_
    | with_reducible apply Moves.step (State.upTo_moves _ _)
    | with_reducible refine Moves.foldl (fun _ _ => ?_) ?_
    | fail_if_no_progress with_reducible refine Moves.record ?_ (.inl rfl) (.inl rfl) (.inl rfl) (.inl rfl) (.inl rfl) (.inl rfl) (.inl rfl) (.inl rfl) (.inl rfl) (.inl rfl) (.inl rfl) (.inr (by decide)) (.inl rfl) (.inl rfl) (.inl rfl) (.inl rfl) (.inl rfl) (.inl rfl)
    | decide
    | split
    | dsimp +zetaDelta only

theorem execDiodeSample_moves (n v t s) : MovesO [.time, .frame, .jigs, .arrays, .lanes, .mem, .qf, .fabric, .host, .shim, .rails, .gov, .fc, .mod, .pins, .clocks, .ob] s (execDiodeSample n v t s) := by
  unfold execDiodeSample
  repeat' first
    | extract_lets
    | with_reducible exact Moves.refl _ _
    | with_reducible refine MovesO.next ?_
    | with_reducible refine MovesO.ite ?_ ?_
    | with_reducible exact MovesO.fault _
    | with_reducible exact MovesO.refused _
    | with_reducible refine Moves.ite ?_ ?_
    | with_reducible apply Moves.step (State.upTo_moves _ _)
    | with_reducible apply Moves.step (State.setDie_moves _ _ _)
    | with_reducible apply Moves.step (State.bump_moves _ _ _)
    | with_reducible apply Moves.step (State.raiseCond_moves _ _ _ _ _)
    | with_reducible apply Moves.step (State.raise_moves _ _ _ _ _)
    | with_reducible apply Moves.step (State.peak_moves _ _ _)
    | with_reducible apply Moves.step (State.heatThresholds_moves _ _)
    | with_reducible refine Moves.foldl (fun _ _ => ?_) ?_
    | decide
    | split
    | dsimp +zetaDelta only

theorem execThermalModelUpdate_moves (hubHeat t s) : MovesO [.time, .frame, .jigs, .arrays, .lanes, .mem, .qf, .fabric, .host, .shim, .rails, .gov, .fc, .mod, .pins, .clocks, .ob] s (execThermalModelUpdate hubHeat t s) := by
  unfold execThermalModelUpdate
  repeat' first
    | extract_lets
    | with_reducible exact Moves.refl _ _
    | with_reducible refine MovesO.next ?_
    | with_reducible refine MovesO.ite ?_ ?_
    | with_reducible exact MovesO.fault _
    | with_reducible exact MovesO.refused _
    | with_reducible refine Moves.ite ?_ ?_
    | with_reducible apply Moves.step (State.upTo_moves _ _)
    | with_reducible apply Moves.step (State.heatDie_moves _ _ _)
    | with_reducible refine Moves.foldl (fun _ _ => ?_) ?_
    | decide
    | split
    | dsimp +zetaDelta only

end Sys2Proof.Machine
end

