-- ==== Sys2Proof/Laws/MovesHostOps.lean ====
section
/-! SUPPORT. What the operations of Machine/HostOps.lean keep, and the parts of the state they stay in. -/

namespace Sys2Proof.Machine

theorem State.denied_moves (s p) : Moves [.host, .fc, .ob] s (State.denied s p) := by
  unfold State.denied
  repeat' first
    | extract_lets
    | with_reducible exact Moves.refl _ _
    | with_reducible refine Moves.ite ?_ ?_
    | with_reducible apply Moves.step (State.bump_moves _ _ _)
    | with_reducible apply Moves.step (State.raiseVf_moves _ _ _)
    | with_reducible apply Moves.step (State.setVf_moves _ _ _)
    | with_reducible refine Moves.foldl (fun _ _ => ?_) ?_
    | decide
    | split
    | dsimp +zetaDelta only

theorem State.partCtrl_moves (s p action) : Moves [.host] s (State.partCtrl s p action) := by
  unfold State.partCtrl
  repeat' first
    | extract_lets
    | with_reducible exact Moves.refl _ _
    | with_reducible refine Moves.ite ?_ ?_
    | with_reducible refine Moves.foldl (fun _ _ => ?_) ?_
    | fail_if_no_progress with_reducible refine Moves.record ?_ (.inl rfl) (.inl rfl) (.inl rfl) (.inl rfl) (.inl rfl) (.inl rfl) (.inl rfl) (.inr (by decide)) (.inl rfl) (.inl rfl) (.inl rfl) (.inl rfl) (.inl rfl) (.inl rfl) (.inl rfl) (.inl rfl) (.inl rfl) (.inl rfl)
    | decide
    | split
    | dsimp +zetaDelta only

theorem State.complete_moves (s p n c) : Moves [.host, .ob] s (State.complete s p n c) := by
  unfold State.complete
  repeat' first
    | extract_lets
    | with_reducible exact Moves.refl _ _
    | with_reducible refine Moves.ite ?_ ?_
    | with_reducible apply Moves.step (State.bump_moves _ _ _)
    | with_reducible apply Moves.step (State.setVf_moves _ _ _)
    | with_reducible refine Moves.foldl (fun _ _ => ?_) ?_
    | decide
    | split
    | dsimp +zetaDelta only

theorem State.abortAccesses_moves (s p) : Moves [.host, .fc, .ob] s (State.abortAccesses s p) := by
  unfold State.abortAccesses
  repeat' first
    | extract_lets
    | with_reducible exact Moves.refl _ _
    | with_reducible refine Moves.ite ?_ ?_
    | with_reducible apply Moves.step (State.setVf_moves _ _ _)
    | with_reducible apply Moves.step (State.denied_moves _ _)
    | with_reducible apply Moves.step (State.complete_moves _ _ _ _)
    | with_reducible refine Moves.foldl (fun _ _ => ?_) ?_
    | decide
    | split
    | dsimp +zetaDelta only

end Sys2Proof.Machine
end

