-- ==== Sys2Proof/Laws/MovesHostCode.lean ====
section
/-! SUPPORT. What the operations of Machine/HostCode.lean keep, and the parts of the state they stay in. -/

namespace Sys2Proof.Machine

theorem execSectorIncomplete_moves (p t s) : MovesO [.time, .host, .fc] s (execSectorIncomplete p t s) := by
  unfold execSectorIncomplete
  repeat' first
    | extract_lets
    | with_reducible exact Moves.refl _ _
    | with_reducible refine MovesO.next ?_
    | with_reducible refine MovesO.ite ?_ ?_
    | with_reducible exact MovesO.fault _
    | with_reducible exact MovesO.refused _
    | with_reducible refine Moves.ite ?_ ?_
    | with_reducible apply Moves.step (State.upTo_moves _ _)
    | with_reducible apply Moves.step (State.raiseVf_moves _ _ _)
    | with_reducible apply Moves.step (State.setVf_moves _ _ _)
    | with_reducible refine Moves.foldl (fun _ _ => ?_) ?_
    | decide
    | split
    | dsimp +zetaDelta only

theorem State.dmaWrite_moves (s f address data) : Moves [.host, .ob] s (State.dmaWrite s f address data) := by
  unfold State.dmaWrite
  repeat' first
    | extract_lets
    | with_reducible exact Moves.refl _ _
    | with_reducible refine Moves.ite ?_ ?_
    | with_reducible apply Moves.step (State.bump_moves _ _ _)
    | with_reducible refine Moves.foldl (fun _ _ => ?_) ?_
    | fail_if_no_progress with_reducible refine Moves.record ?_ (.inl rfl) (.inl rfl) (.inl rfl) (.inl rfl) (.inl rfl) (.inl rfl) (.inl rfl) (.inr (by decide)) (.inl rfl) (.inl rfl) (.inl rfl) (.inl rfl) (.inl rfl) (.inl rfl) (.inl rfl) (.inl rfl) (.inl rfl) (.inl rfl)
    | decide
    | split
    | dsimp +zetaDelta only

theorem execResultRecordWrite_moves (p t s) : MovesO [.time, .jigs, .host, .ob] s (execResultRecordWrite p t s) := by
  unfold execResultRecordWrite
  repeat' first
    | extract_lets
    | with_reducible exact Moves.refl _ _
    | with_reducible refine MovesO.next ?_
    | with_reducible refine MovesO.ite ?_ ?_
    | with_reducible exact MovesO.fault _
    | with_reducible exact MovesO.refused _
    | with_reducible refine Moves.ite ?_ ?_
    | with_reducible apply Moves.step (State.upTo_moves _ _)
    | with_reducible apply Moves.step (State.dmaWrite_moves _ _ _ _)
    | with_reducible apply Moves.step (State.vfEvent_moves _ _ _)
    | with_reducible apply Moves.step (State.setVf_moves _ _ _)
    | with_reducible refine Moves.foldl (fun _ _ => ?_) ?_
    | fail_if_no_progress with_reducible refine Moves.record ?_ (.inl rfl) (.inl rfl) (.inr (by decide)) (.inl rfl) (.inl rfl) (.inl rfl) (.inl rfl) (.inl rfl) (.inl rfl) (.inl rfl) (.inl rfl) (.inl rfl) (.inl rfl) (.inl rfl) (.inl rfl) (.inl rfl) (.inl rfl) (.inl rfl)
    | decide
    | split
    | dsimp +zetaDelta only

theorem State.undefinedWrite_moves {l : List Part} {s : State} {f : Nat} {put : State → Nat → Nat → State} {offs : List Nat}
    (h : ∀ x a v, Moves l x (put x a v)) (sub : [.free].all l.contains = true) : Moves l s (s.undefinedWrite f put offs) := by
  induction offs generalizing s with
  | nil => exact Moves.refl _ _
  | cons off r ih =>
    unfold State.undefinedWrite
    extract_lets x s1
    refine Moves.trans ?_ ih
    have hd : Moves l s (s.draw 9).2 := (State.draw_moves _ _).weaken (sub_of (by rfl) sub)
    exact Moves.ite hd (hd.trans (h _ _ _))

theorem State.mailboxWrite_moves (s f off b) : Moves [.host, .mp, .ob, .free] s (State.mailboxWrite s f off b) := by
  unfold State.mailboxWrite
  repeat' first
    | extract_lets
    | with_reducible exact Moves.refl _ _
    | with_reducible refine Moves.ite ?_ ?_
    | with_reducible apply MovesQ.step (State.windowWrite_moves _ _ _ _)
    | with_reducible refine Moves.trans ?_ (State.undefinedWrite_moves (fun _ _ _ => ?_) (by decide))
    | with_reducible apply Moves.step (State.setSlot_moves _ _ _)
    | with_reducible refine Moves.foldl (fun _ _ => ?_) ?_
    | decide
    | with_reducible refine Moves.getD ?_ ?_
    | refine Moves.step (State.windowWrite_moves _ _ _ _ _ ‹_›) ?_ ?_
    | split
    | dsimp +zetaDelta only

theorem State.sendWindow_moves (s p q off b) : Moves [.qf, .host, .fc, .ob] s (State.sendWindow s p q off b) := by
  unfold State.sendWindow
  repeat' first
    | extract_lets
    | with_reducible exact Moves.refl _ _
    | with_reducible refine Moves.ite ?_ ?_
    | with_reducible apply Moves.step (State.denied_moves _ _)
    | with_reducible apply Moves.step (State.setVf_moves _ _ _)
    | with_reducible apply Moves.step (State.sendQueue_moves _ _ _)
    | with_reducible apply Moves.step (State.raiseVf_moves _ _ _)
    | with_reducible refine Moves.foldl (fun _ _ => ?_) ?_
    | decide
    | split
    | dsimp +zetaDelta only

theorem State.msixWrite_moves (s f off v) : Moves [.host, .ob] s (State.msixWrite s f off v) := by
  unfold State.msixWrite
  repeat' first
    | extract_lets
    | with_reducible exact Moves.refl _ _
    | with_reducible refine Moves.ite ?_ ?_
    | with_reducible apply Moves.step (State.settleMsix_moves _ _)
    | with_reducible apply Moves.step (State.setMsixOf_moves _ _ _)
    | with_reducible refine Moves.foldl (fun _ _ => ?_) ?_
    | decide
    | split
    | dsimp +zetaDelta only

theorem State.pfRegister_moves (s off v) : Moves [.host] s (State.pfRegister s off v) := by
  unfold State.pfRegister
  repeat' first
    | extract_lets
    | with_reducible exact Moves.refl _ _
    | with_reducible refine Moves.ite ?_ ?_
    | with_reducible apply Moves.step (State.partCtrl_moves _ _ _)
    | with_reducible refine Moves.foldl (fun _ _ => ?_) ?_
    | fail_if_no_progress with_reducible refine Moves.record ?_ (.inl rfl) (.inl rfl) (.inl rfl) (.inl rfl) (.inl rfl) (.inl rfl) (.inl rfl) (.inr (by decide)) (.inl rfl) (.inl rfl) (.inl rfl) (.inl rfl) (.inl rfl) (.inl rfl) (.inl rfl) (.inl rfl) (.inl rfl) (.inl rfl)
    | decide
    | split
    | dsimp +zetaDelta only

theorem State.dropDoorbell_moves (s p) : Moves [.host, .fc, .ob] s (State.dropDoorbell s p) := by
  unfold State.dropDoorbell
  repeat' first
    | extract_lets
    | with_reducible exact Moves.refl _ _
    | with_reducible refine Moves.ite ?_ ?_
    | with_reducible apply Moves.step (State.bump_moves _ _ _)
    | with_reducible apply Moves.step (State.raiseVf_moves _ _ _)
    | with_reducible apply Moves.step (State.setVf_moves _ _ _)
    | with_reducible refine Moves.foldl (fun _ _ => ?_) ?_
    | decide
    | split
    | dsimp +zetaDelta only

theorem State.doorbell_moves (s p adr) : Moves [.jigs, .host, .fc, .ob] s (State.doorbell s p adr) := by
  unfold State.doorbell
  repeat' first
    | extract_lets
    | with_reducible exact Moves.refl _ _
    | with_reducible refine Moves.ite ?_ ?_
    | with_reducible apply Moves.step (State.bump_moves _ _ _)
    | with_reducible apply Moves.step (State.dropDoorbell_moves _ _)
    | with_reducible refine Moves.foldl (fun _ _ => ?_) ?_
    | fail_if_no_progress with_reducible refine Moves.record ?_ (.inl rfl) (.inl rfl) (.inr (by decide)) (.inl rfl) (.inl rfl) (.inl rfl) (.inl rfl) (.inl rfl) (.inl rfl) (.inl rfl) (.inl rfl) (.inl rfl) (.inl rfl) (.inl rfl) (.inl rfl) (.inl rfl) (.inl rfl) (.inl rfl)
    | decide
    | split
    | dsimp +zetaDelta only

theorem State.vfRegister_moves (s p off v) : Moves [.jigs, .host, .fc, .ob] s (State.vfRegister s p off v) := by
  unfold State.vfRegister
  repeat' first
    | extract_lets
    | with_reducible exact Moves.refl _ _
    | with_reducible refine Moves.ite ?_ ?_
    | with_reducible apply Moves.step (State.doorbell_moves _ _ _)
    | with_reducible apply Moves.step (State.setVf_moves _ _ _)
    | with_reducible refine Moves.foldl (fun _ _ => ?_) ?_
    | decide
    | split
    | dsimp +zetaDelta only

theorem State.registerWrite64_moves (s f off v) : Moves [.jigs, .host, .fc, .ob] s (State.registerWrite64 s f off v) := by
  unfold State.registerWrite64
  repeat' first
    | extract_lets
    | with_reducible exact Moves.refl _ _
    | with_reducible refine Moves.ite ?_ ?_
    | with_reducible apply Moves.step (State.msixWrite_moves _ _ _ _)
    | with_reducible apply Moves.step (State.pfRegister_moves _ _ _)
    | with_reducible apply Moves.step (State.vfRegister_moves _ _ _ _)
    | with_reducible refine Moves.foldl (fun _ _ => ?_) ?_
    | decide
    | split
    | dsimp +zetaDelta only

theorem State.bar0Write_moves (s f off b) : Moves [.jigs, .qf, .host, .fc, .mp, .ob, .free] s (State.bar0Write s f off b) := by
  unfold State.bar0Write
  repeat' first
    | extract_lets
    | with_reducible exact Moves.refl _ _
    | with_reducible refine Moves.ite ?_ ?_
    | with_reducible apply Moves.step (State.mailboxWrite_moves _ _ _ _)
    | with_reducible apply Moves.step (State.sendWindow_moves _ _ _ _ _)
    | with_reducible apply Moves.step (State.registerWrite64_moves _ _ _ _)
    | with_reducible refine Moves.trans ?_ (State.undefinedWrite_moves (fun _ _ _ => ?_) (by decide))
    | with_reducible refine Moves.foldl (fun _ _ => ?_) ?_
    | decide
    | split
    | dsimp +zetaDelta only

theorem State.partitionReset_moves (s p) : Moves [.frame, .jigs, .qf, .fabric, .shim, .fc, .ob] s (State.partitionReset s p) := by
  unfold State.partitionReset
  repeat' first
    | extract_lets
    | with_reducible exact Moves.refl _ _
    | with_reducible refine Moves.ite ?_ ?_
    | with_reducible apply Moves.step (State.sendHalt_moves _ _)
    | with_reducible apply Moves.step (State.abandonJig_moves _ _ _)
    | with_reducible refine Moves.foldl (fun _ _ => ?_) ?_
    | fail_if_no_progress with_reducible refine Moves.record ?_ (.inl rfl) (.inl rfl) (.inr (by decide)) (.inl rfl) (.inl rfl) (.inl rfl) (.inl rfl) (.inl rfl) (.inl rfl) (.inl rfl) (.inl rfl) (.inl rfl) (.inl rfl) (.inl rfl) (.inl rfl) (.inl rfl) (.inl rfl) (.inl rfl)
    | decide
    | split
    | dsimp +zetaDelta only

theorem State.resetWindow_moves (s k) : Moves [.mp] s (State.resetWindow s k) := by
  unfold State.resetWindow
  repeat' first
    | extract_lets
    | with_reducible exact Moves.refl _ _
    | with_reducible refine Moves.ite ?_ ?_
    | with_reducible apply Moves.step (State.setSlot_moves _ _ _)
    | with_reducible refine Moves.foldl (fun _ _ => ?_) ?_
    | decide
    | split
    | dsimp +zetaDelta only

theorem State.dropReads_moves (s p) : Moves [.mem] s (State.dropReads s p) := by
  unfold State.dropReads
  repeat' first
    | extract_lets
    | with_reducible exact Moves.refl _ _
    | with_reducible refine Moves.ite ?_ ?_
    | with_reducible refine Moves.foldl (fun _ _ => ?_) ?_
    | fail_if_no_progress with_reducible refine Moves.record ?_ (.inl rfl) (.inr ⟨by decide, by with_reducible first | exact .same rfl rfl rfl | exact MemState.lose_keeps _ _ _ | exact MemState.store_keeps _ _ _ | exact .marks _ _ _ _ _ | exact .poison _ _ _⟩) (.inl rfl) (.inl rfl) (.inl rfl) (.inl rfl) (.inl rfl) (.inl rfl) (.inl rfl) (.inl rfl) (.inl rfl) (.inl rfl) (.inl rfl) (.inl rfl) (.inl rfl) (.inl rfl) (.inl rfl) (.inl rfl)
    | decide
    | split
    | dsimp +zetaDelta only

theorem State.dropDoorbells_moves (s p) : Moves [.jigs] s (State.dropDoorbells s p) := by
  unfold State.dropDoorbells
  repeat' first
    | extract_lets
    | with_reducible exact Moves.refl _ _
    | with_reducible refine Moves.ite ?_ ?_
    | with_reducible refine Moves.foldl (fun _ _ => ?_) ?_
    | fail_if_no_progress with_reducible refine Moves.record ?_ (.inl rfl) (.inl rfl) (.inr (by decide)) (.inl rfl) (.inl rfl) (.inl rfl) (.inl rfl) (.inl rfl) (.inl rfl) (.inl rfl) (.inl rfl) (.inl rfl) (.inl rfl) (.inl rfl) (.inl rfl) (.inl rfl) (.inl rfl) (.inl rfl)
    | decide
    | split
    | dsimp +zetaDelta only

theorem State.vfReset_moves (s p stays) : Moves [.frame, .jigs, .mem, .qf, .fabric, .host, .shim, .fc, .mp, .ob] s (State.vfReset s p stays) := by
  unfold State.vfReset
  repeat' first
    | extract_lets
    | with_reducible exact Moves.refl _ _
    | with_reducible refine Moves.ite ?_ ?_
    | with_reducible apply Moves.step (State.setMsixOf_moves _ _ _)
    | with_reducible apply Moves.step (State.setVf_moves _ _ _)
    | with_reducible apply Moves.step (State.partitionReset_moves _ _)
    | with_reducible apply Moves.step (State.resetWindow_moves _ _)
    | with_reducible apply Moves.step (State.dropReads_moves _ _)
    | with_reducible apply Moves.step (State.dropDoorbells_moves _ _)
    | with_reducible refine Moves.foldl (fun _ _ => ?_) ?_
    | decide
    | split
    | dsimp +zetaDelta only

theorem execVfFlr_moves (p removed t s) : MovesO [.time, .frame, .jigs, .mem, .qf, .fabric, .host, .shim, .fc, .mp, .ob] s (execVfFlr p removed t s) := by
  unfold execVfFlr
  repeat' first
    | extract_lets
    | with_reducible exact Moves.refl _ _
    | with_reducible refine MovesO.next ?_
    | with_reducible refine MovesO.ite ?_ ?_
    | with_reducible exact MovesO.fault _
    | with_reducible exact MovesO.refused _
    | with_reducible refine Moves.ite ?_ ?_
    | with_reducible apply Moves.step (State.vfReset_moves _ _ _)
    | with_reducible apply Moves.step (State.upTo_moves _ _)
    | with_reducible refine Moves.foldl (fun _ _ => ?_) ?_
    | decide
    | split
    | dsimp +zetaDelta only

theorem execPcieUncorrectable_moves (bit t s) : MovesO [.time, .host, .fc] s (execPcieUncorrectable bit t s) := by
  unfold execPcieUncorrectable
  repeat' first
    | extract_lets
    | with_reducible exact Moves.refl _ _
    | with_reducible refine MovesO.next ?_
    | with_reducible refine MovesO.ite ?_ ?_
    | with_reducible exact MovesO.fault _
    | with_reducible exact MovesO.refused _
    | with_reducible refine Moves.ite ?_ ?_
    | with_reducible apply Moves.step (State.upTo_moves _ _)
    | with_reducible apply Moves.step (State.raise_moves _ _ _ _ _)
    | with_reducible refine Moves.foldl (fun _ _ => ?_) ?_
    | fail_if_no_progress with_reducible refine Moves.record ?_ (.inl rfl) (.inl rfl) (.inl rfl) (.inl rfl) (.inl rfl) (.inl rfl) (.inl rfl) (.inr (by decide)) (.inl rfl) (.inl rfl) (.inl rfl) (.inl rfl) (.inl rfl) (.inl rfl) (.inl rfl) (.inl rfl) (.inl rfl) (.inl rfl)
    | decide
    | split
    | dsimp +zetaDelta only

theorem execJigDoorbell_moves (p adr t s) : MovesO [.time, .jigs, .host, .fc, .ob] s (execJigDoorbell p adr t s) := by
  unfold execJigDoorbell
  repeat' first
    | extract_lets
    | with_reducible exact Moves.refl _ _
    | with_reducible refine MovesO.next ?_
    | with_reducible refine MovesO.ite ?_ ?_
    | with_reducible exact MovesO.fault _
    | with_reducible exact MovesO.refused _
    | with_reducible refine Moves.ite ?_ ?_
    | with_reducible apply Moves.step (State.doorbell_moves _ _ _)
    | with_reducible apply Moves.step (State.bump_moves _ _ _)
    | with_reducible apply Moves.step (State.onEdge_moves _ _ _)
    | with_reducible refine Moves.foldl (fun _ _ => ?_) ?_
    | decide
    | split
    | dsimp +zetaDelta only

theorem State.setNumVfs_moves (s n) : Moves [.frame, .jigs, .mem, .qf, .fabric, .host, .shim, .fc, .mp, .ob] s (State.setNumVfs s n) := by
  unfold State.setNumVfs
  repeat' first
    | extract_lets
    | with_reducible exact Moves.refl _ _
    | with_reducible refine Moves.ite ?_ ?_
    | with_reducible apply Moves.step (State.setVf_moves _ _ _)
    | with_reducible apply Moves.step (State.vfReset_moves _ _ _)
    | with_reducible refine Moves.foldl (fun _ _ => ?_) ?_
    | decide
    | split
    | dsimp +zetaDelta only

theorem State.hostAccess_moves (s p x instant errs spare) : Moves [.mem, .fc, .ob] s (State.hostAccess s p x instant errs spare) := by
  unfold State.hostAccess
  repeat' first
    | extract_lets
    | with_reducible exact Moves.refl _ _
    | with_reducible refine Moves.ite ?_ ?_
    | with_reducible apply Moves.step (State.t3Write_moves _ _ _ _ _ _)
    | with_reducible apply Moves.step (State.writeMem_moves _ _ _)
    | with_reducible apply Moves.step (State.tierRead_moves _ _ _ _ _ _ _ _)
    | with_reducible apply Moves.step (State.memErrors_moves _ _ _)
    | with_reducible refine Moves.foldl (fun _ _ => ?_) ?_
    | decide
    | split
    | dsimp +zetaDelta only

theorem execHqToHostWrite_moves (p q t s) : MovesO [.time, .qf, .host, .ob] s (execHqToHostWrite p q t s) := by
  unfold execHqToHostWrite
  repeat' first
    | extract_lets
    | with_reducible exact Moves.refl _ _
    | with_reducible refine MovesO.next ?_
    | with_reducible refine MovesO.ite ?_ ?_
    | with_reducible exact MovesO.fault _
    | with_reducible exact MovesO.refused _
    | with_reducible refine Moves.ite ?_ ?_
    | with_reducible apply Moves.step (State.upTo_moves _ _)
    | with_reducible apply Moves.step (State.dmaWrite_moves _ _ _ _)
    | with_reducible apply Moves.step (State.takeQueue_moves _ _)
    | with_reducible apply Moves.step (State.setVf_moves _ _ _)
    | with_reducible apply Moves.step (State.vfEvent_moves _ _ _)
    | with_reducible refine Moves.foldl (fun _ _ => ?_) ?_
    | decide
    | split
    | dsimp +zetaDelta only

theorem execHqSendEntry_moves (p q off data t s) : MovesO [.time, .qf, .host, .fc, .ob] s (execHqSendEntry p q off data t s) := by
  unfold execHqSendEntry
  repeat' first
    | extract_lets
    | with_reducible exact Moves.refl _ _
    | with_reducible refine MovesO.next ?_
    | with_reducible refine MovesO.ite ?_ ?_
    | with_reducible exact MovesO.fault _
    | with_reducible exact MovesO.refused _
    | with_reducible refine Moves.ite ?_ ?_
    | with_reducible apply Moves.step (State.sendWindow_moves _ _ _ _ _)
    | with_reducible apply Moves.step (State.bump_moves _ _ _)
    | with_reducible apply Moves.step (State.upTo_moves _ _)
    | with_reducible refine Moves.foldl (fun _ _ => ?_) ?_
    | decide
    | split
    | dsimp +zetaDelta only

theorem execPartCtrlDisable_moves (p t s) : MovesO [.time, .host, .fc, .ob] s (execPartCtrlDisable p t s) := by
  unfold execPartCtrlDisable
  repeat' first
    | extract_lets
    | with_reducible exact Moves.refl _ _
    | with_reducible refine MovesO.next ?_
    | with_reducible refine MovesO.ite ?_ ?_
    | with_reducible exact MovesO.fault _
    | with_reducible exact MovesO.refused _
    | with_reducible refine Moves.ite ?_ ?_
    | with_reducible apply Moves.step (State.partCtrl_moves _ _ _)
    | with_reducible apply Moves.step (State.bump_moves _ _ _)
    | with_reducible apply Moves.step (State.onEdge_moves _ _ _)
    | with_reducible refine Moves.foldl (fun _ _ => ?_) ?_
    | decide
    | split
    | dsimp +zetaDelta only

theorem execPartCtrlEnable_moves (p t s) : MovesO [.time, .host, .fc, .ob] s (execPartCtrlEnable p t s) := by
  unfold execPartCtrlEnable
  repeat' first
    | extract_lets
    | with_reducible exact Moves.refl _ _
    | with_reducible refine MovesO.next ?_
    | with_reducible refine MovesO.ite ?_ ?_
    | with_reducible exact MovesO.fault _
    | with_reducible exact MovesO.refused _
    | with_reducible refine Moves.ite ?_ ?_
    | with_reducible apply Moves.step (State.partCtrl_moves _ _ _)
    | with_reducible apply Moves.step (State.bump_moves _ _ _)
    | with_reducible apply Moves.step (State.onEdge_moves _ _ _)
    | with_reducible refine Moves.foldl (fun _ _ => ?_) ?_
    | decide
    | split
    | dsimp +zetaDelta only

theorem State.pfReset_moves (s) : Moves [.host, .mp] s (State.pfReset s) := by
  unfold State.pfReset
  repeat' first
    | extract_lets
    | with_reducible exact Moves.refl _ _
    | with_reducible refine Moves.ite ?_ ?_
    | with_reducible apply Moves.step (State.resetWindow_moves _ _)
    | with_reducible apply Moves.step (State.setMsixOf_moves _ _ _)
    | with_reducible refine Moves.foldl (fun _ _ => ?_) ?_
    | fail_if_no_progress with_reducible refine Moves.record ?_ (.inl rfl) (.inl rfl) (.inl rfl) (.inl rfl) (.inl rfl) (.inl rfl) (.inl rfl) (.inr (by decide)) (.inl rfl) (.inl rfl) (.inl rfl) (.inl rfl) (.inl rfl) (.inl rfl) (.inl rfl) (.inl rfl) (.inl rfl) (.inl rfl)
    | decide
    | split
    | dsimp +zetaDelta only

theorem execApertureRead_moves (p offset length t s) : MovesO [.time, .host, .fc, .ob] s (execApertureRead p offset length t s) := by
  unfold execApertureRead
  repeat' first
    | extract_lets
    | with_reducible exact Moves.refl _ _
    | with_reducible refine MovesO.next ?_
    | with_reducible refine MovesO.ite ?_ ?_
    | with_reducible exact MovesO.fault _
    | with_reducible exact MovesO.refused _
    | with_reducible refine Moves.ite ?_ ?_
    | with_reducible apply Moves.step (State.bump_moves _ _ _)
    | with_reducible apply Moves.step (State.upTo_moves _ _)
    | with_reducible apply Moves.step (State.setVf_moves _ _ _)
    | with_reducible apply Moves.step (State.complete_moves _ _ _ _)
    | with_reducible apply Moves.step (State.denied_moves _ _)
    | with_reducible refine Moves.foldl (fun _ _ => ?_) ?_
    | decide
    | split
    | dsimp +zetaDelta only

theorem execApertureWrite_moves (p offset data enables t s) : MovesO [.time, .host, .fc, .ob] s (execApertureWrite p offset data enables t s) := by
  unfold execApertureWrite
  repeat' first
    | extract_lets
    | with_reducible exact Moves.refl _ _
    | with_reducible refine MovesO.next ?_
    | with_reducible refine MovesO.ite ?_ ?_
    | with_reducible exact MovesO.fault _
    | with_reducible exact MovesO.refused _
    | with_reducible refine Moves.ite ?_ ?_
    | with_reducible apply Moves.step (State.bump_moves _ _ _)
    | with_reducible apply Moves.step (State.upTo_moves _ _)
    | with_reducible apply Moves.step (State.setVf_moves _ _ _)
    | with_reducible apply Moves.step (State.denied_moves _ _)
    | with_reducible refine Moves.foldl (fun _ _ => ?_) ?_
    | decide
    | split
    | dsimp +zetaDelta only

theorem execPfFlr_moves (t s) : MovesO [.time, .frame, .jigs, .mem, .qf, .fabric, .host, .shim, .fc, .mp, .ob] s (execPfFlr t s) := by
  unfold execPfFlr
  repeat' first
    | extract_lets
    | with_reducible exact Moves.refl _ _
    | with_reducible refine MovesO.next ?_
    | with_reducible refine MovesO.ite ?_ ?_
    | with_reducible exact MovesO.fault _
    | with_reducible exact MovesO.refused _
    | with_reducible refine Moves.ite ?_ ?_
    | with_reducible apply Moves.step (State.setNumVfs_moves _ _)
    | with_reducible apply Moves.step (State.pfReset_moves _)
    | with_reducible apply Moves.step (State.upTo_moves _ _)
    | with_reducible refine Moves.foldl (fun _ _ => ?_) ?_
    | decide
    | split
    | dsimp +zetaDelta only

theorem execHostSlotAccess_moves (p t errs spare s) : MovesO [.time, .mem, .host, .fc, .ob] s (execHostSlotAccess p t errs spare s) := by
  unfold execHostSlotAccess
  repeat' first
    | extract_lets
    | with_reducible exact Moves.refl _ _
    | with_reducible refine MovesO.next ?_
    | with_reducible refine MovesO.ite ?_ ?_
    | with_reducible exact MovesO.fault _
    | with_reducible exact MovesO.refused _
    | with_reducible refine Moves.ite ?_ ?_
    | with_reducible apply Moves.step (State.upTo_moves _ _)
    | with_reducible apply Moves.step (State.useSlot_moves _ _)
    | with_reducible apply Moves.step (State.setVf_moves _ _ _)
    | with_reducible apply Moves.step (State.countTier_moves _ _ _ _)
    | with_reducible apply Moves.step (State.hostAccess_moves _ _ _ _ _ _)
    | with_reducible refine Moves.foldl (fun _ _ => ?_) ?_
    | decide
    | split
    | dsimp +zetaDelta only

theorem State.vfLinkReset_moves (s p) : Moves [.jigs, .mem, .host, .mp] s (State.vfLinkReset s p) := by
  unfold State.vfLinkReset
  repeat' first
    | extract_lets
    | with_reducible exact Moves.refl _ _
    | with_reducible refine Moves.ite ?_ ?_
    | with_reducible apply Moves.step (State.setMsixOf_moves _ _ _)
    | with_reducible apply Moves.step (State.setVf_moves _ _ _)
    | with_reducible apply Moves.step (State.resetWindow_moves _ _)
    | with_reducible apply Moves.step (State.dropReads_moves _ _)
    | with_reducible apply Moves.step (State.dropDoorbells_moves _ _)
    | with_reducible refine Moves.foldl (fun _ _ => ?_) ?_
    | decide
    | split
    | dsimp +zetaDelta only

theorem execLinkReset_moves (cause t s) : MovesO [.time, .jigs, .mem, .host, .fc, .mp, .pins] s (execLinkReset cause t s) := by
  unfold execLinkReset
  repeat' first
    | extract_lets
    | with_reducible exact Moves.refl _ _
    | with_reducible refine MovesO.next ?_
    | with_reducible refine MovesO.ite ?_ ?_
    | with_reducible exact MovesO.fault _
    | with_reducible exact MovesO.refused _
    | with_reducible refine Moves.ite ?_ ?_
    | with_reducible apply Moves.step (State.upTo_moves _ _)
    | with_reducible apply Moves.step (State.vfLinkReset_moves _ _)
    | with_reducible apply Moves.step (State.pfReset_moves _)
    | with_reducible apply Moves.step (State.raise_moves _ _ _ _ _)
    | with_reducible refine Moves.foldl (fun _ _ => ?_) ?_
    | fail_if_no_progress with_reducible refine Moves.record ?_ (.inl rfl) (.inl rfl) (.inl rfl) (.inl rfl) (.inl rfl) (.inl rfl) (.inl rfl) (.inr (by decide)) (.inl rfl) (.inl rfl) (.inl rfl) (.inl rfl) (.inl rfl) (.inl rfl) (.inl rfl) (.inr (by decide)) (.inl rfl) (.inl rfl)
    | decide
    | split
    | dsimp +zetaDelta only

theorem execRegisterWrite_moves (f space data t s) : MovesO [.time, .frame, .jigs, .mem, .qf, .fabric, .host, .shim, .fc, .mp, .ob, .free] s (execRegisterWrite f space data t s) := by
  unfold execRegisterWrite
  repeat' first
    | extract_lets
    | with_reducible exact Moves.refl _ _
    | with_reducible refine MovesO.next ?_
    | with_reducible refine MovesO.ite ?_ ?_
    | with_reducible exact MovesO.fault _
    | with_reducible exact MovesO.refused _
    | with_reducible refine Moves.ite ?_ ?_
    | with_reducible apply Moves.step (State.bump_moves _ _ _)
    | with_reducible apply Moves.step (State.onEdge_moves _ _ _)
    | with_reducible apply Moves.step (State.bar0Write_moves _ _ _ _)
    | with_reducible apply Moves.step (State.setVf_moves _ _ _)
    | with_reducible apply Moves.step (State.settleMsix_moves _ _)
    | with_reducible apply Moves.step (State.setNumVfs_moves _ _)
    | with_reducible apply Moves.step (State.setMsixOf_moves _ _ _)
    | with_reducible refine Moves.foldl (fun _ _ => ?_) ?_
    | fail_if_no_progress with_reducible refine Moves.record ?_ (.inl rfl) (.inl rfl) (.inl rfl) (.inl rfl) (.inl rfl) (.inl rfl) (.inl rfl) (.inr (by decide)) (.inl rfl) (.inl rfl) (.inl rfl) (.inl rfl) (.inl rfl) (.inl rfl) (.inl rfl) (.inl rfl) (.inl rfl) (.inl rfl)
    | decide
    | split
    | dsimp +zetaDelta only

end Sys2Proof.Machine
end

