-- ==== Sys2Proof/Laws/MovesMgmtCode.lean ====
section
/-! SUPPORT. What the operations of Machine/MgmtCode.lean keep, and the parts of the state they stay in. -/

namespace Sys2Proof.Machine

theorem State.firmwareReset_moves (s) : Moves [.shim, .cells, .gov, .mp, .mod] s (State.firmwareReset s) := by
  unfold State.firmwareReset
  repeat' first
    | extract_lets
    | with_reducible exact Moves.refl _ _
    | with_reducible refine Moves.ite ?_ ?_
    | with_reducible apply Moves.step (State.endRest_moves _)
    | with_reducible refine Moves.foldl (fun _ _ => ?_) ?_
    | fail_if_no_progress with_reducible refine Moves.record ?_ (.inl rfl) (.inl rfl) (.inl rfl) (.inl rfl) (.inl rfl) (.inl rfl) (.inl rfl) (.inl rfl) (.inr (by decide)) (.inr (by decide)) (.inl rfl) (.inr (by decide)) (.inl rfl) (.inr (by decide)) (.inr (by decide)) (.inl rfl) (.inl rfl) (.inl rfl)
    | decide
    | split
    | dsimp +zetaDelta only

theorem State.journalBegun_moves (s) : Moves [.mp, .ob] s (State.journalBegun s) := by
  unfold State.journalBegun
  repeat' first
    | extract_lets
    | with_reducible exact Moves.refl _ _
    | with_reducible refine Moves.ite ?_ ?_
    | with_reducible apply Moves.step (State.bump_moves _ _ _)
    | with_reducible apply Moves.step (State.setSlot_moves _ _ _)
    | with_reducible refine Moves.foldl (fun _ _ => ?_) ?_
    | fail_if_no_progress with_reducible refine Moves.record ?_ (.inl rfl) (.inl rfl) (.inl rfl) (.inl rfl) (.inl rfl) (.inl rfl) (.inl rfl) (.inl rfl) (.inl rfl) (.inl rfl) (.inl rfl) (.inl rfl) (.inl rfl) (.inr (by decide)) (.inl rfl) (.inl rfl) (.inl rfl) (.inl rfl)
    | decide
    | split
    | dsimp +zetaDelta only

theorem State.failControl_moves (s mid) : Moves [.mp, .ob] s (State.failControl s mid) := by
  unfold State.failControl
  repeat' first
    | extract_lets
    | with_reducible exact Moves.refl _ _
    | with_reducible refine Moves.ite ?_ ?_
    | with_reducible apply Moves.step (State.procLost_moves _ _)
    | with_reducible apply Moves.step (State.journalBegun_moves _)
    | with_reducible refine Moves.foldl (fun _ _ => ?_) ?_
    | fail_if_no_progress with_reducible refine Moves.record ?_ (.inl rfl) (.inl rfl) (.inl rfl) (.inl rfl) (.inl rfl) (.inl rfl) (.inl rfl) (.inl rfl) (.inl rfl) (.inl rfl) (.inl rfl) (.inl rfl) (.inl rfl) (.inr (by decide)) (.inl rfl) (.inl rfl) (.inl rfl) (.inl rfl)
    | decide
    | split
    | dsimp +zetaDelta only

theorem execCoastTimeout_moves (t s) : MovesO [.time, .fc, .mp] s (execCoastTimeout t s) := by
  unfold execCoastTimeout
  repeat' first
    | extract_lets
    | with_reducible exact Moves.refl _ _
    | with_reducible refine MovesO.next ?_
    | with_reducible refine MovesO.ite ?_ ?_
    | with_reducible exact MovesO.fault _
    | with_reducible exact MovesO.refused _
    | with_reducible refine Moves.ite ?_ ?_
    | with_reducible apply Moves.step (State.upTo_moves _ _)
    | with_reducible apply Moves.step (State.raiseCond_moves _ _ _ _ _)
    | with_reducible refine Moves.foldl (fun _ _ => ?_) ?_
    | fail_if_no_progress with_reducible refine Moves.record ?_ (.inl rfl) (.inl rfl) (.inl rfl) (.inl rfl) (.inl rfl) (.inl rfl) (.inl rfl) (.inl rfl) (.inl rfl) (.inl rfl) (.inl rfl) (.inl rfl) (.inl rfl) (.inr (by decide)) (.inl rfl) (.inl rfl) (.inl rfl) (.inl rfl)
    | decide
    | split
    | dsimp +zetaDelta only

theorem execImageCopyStart_moves (t s) : MovesO [.time, .mp] s (execImageCopyStart t s) := by
  unfold execImageCopyStart
  repeat' first
    | extract_lets
    | with_reducible exact Moves.refl _ _
    | with_reducible refine MovesO.next ?_
    | with_reducible refine MovesO.ite ?_ ?_
    | with_reducible exact MovesO.fault _
    | with_reducible exact MovesO.refused _
    | with_reducible refine Moves.ite ?_ ?_
    | with_reducible apply Moves.step (State.upTo_moves _ _)
    | with_reducible refine Moves.foldl (fun _ _ => ?_) ?_
    | fail_if_no_progress with_reducible refine Moves.record ?_ (.inl rfl) (.inl rfl) (.inl rfl) (.inl rfl) (.inl rfl) (.inl rfl) (.inl rfl) (.inl rfl) (.inl rfl) (.inl rfl) (.inl rfl) (.inl rfl) (.inl rfl) (.inr (by decide)) (.inl rfl) (.inl rfl) (.inl rfl) (.inl rfl)
    | decide
    | split
    | dsimp +zetaDelta only

theorem State.activate_moves (s i) : Moves [.rails, .mp, .mod] s (State.activate s i) := by
  unfold State.activate
  repeat' first
    | extract_lets
    | with_reducible exact Moves.refl _ _
    | with_reducible refine Moves.ite ?_ ?_
    | with_reducible apply Moves.step (State.setProc_moves _ _ _)
    | with_reducible apply Moves.step (State.beginStart_moves _)
    | with_reducible refine Moves.foldl (fun _ _ => ?_) ?_
    | fail_if_no_progress with_reducible refine Moves.record ?_ (.inl rfl) (.inl rfl) (.inl rfl) (.inl rfl) (.inl rfl) (.inl rfl) (.inl rfl) (.inl rfl) (.inl rfl) (.inl rfl) (.inl rfl) (.inl rfl) (.inl rfl) (.inr (by decide)) (.inr (by decide)) (.inl rfl) (.inl rfl) (.inl rfl)
    | decide
    | split
    | dsimp +zetaDelta only

theorem State.bootFails_moves (s i) : Moves [.rails, .mp, .mod] s (State.bootFails s i) := by
  unfold State.bootFails
  repeat' first
    | extract_lets
    | with_reducible exact Moves.refl _ _
    | with_reducible refine Moves.ite ?_ ?_
    | with_reducible apply Moves.step (State.procLost_moves _ _)
    | with_reducible apply Moves.step (State.activate_moves _ _)
    | with_reducible refine Moves.foldl (fun _ _ => ?_) ?_
    | decide
    | split
    | dsimp +zetaDelta only

theorem execMpFailureDeclared_moves (mid t s) : MovesO [.time, .mp, .ob] s (execMpFailureDeclared mid t s) := by
  unfold execMpFailureDeclared
  repeat' first
    | extract_lets
    | with_reducible exact Moves.refl _ _
    | with_reducible refine MovesO.next ?_
    | with_reducible refine MovesO.ite ?_ ?_
    | with_reducible exact MovesO.fault _
    | with_reducible exact MovesO.refused _
    | with_reducible refine Moves.ite ?_ ?_
    | with_reducible apply Moves.step (State.failControl_moves _ _)
    | with_reducible apply Moves.step (State.upTo_moves _ _)
    | with_reducible refine Moves.foldl (fun _ _ => ?_) ?_
    | decide
    | split
    | dsimp +zetaDelta only

theorem execWatchdogExpiry_moves (mid t s) : MovesO [.time, .mp, .ob] s (execWatchdogExpiry mid t s) := by
  unfold execWatchdogExpiry
  repeat' first
    | extract_lets
    | with_reducible exact Moves.refl _ _
    | with_reducible refine MovesO.next ?_
    | with_reducible refine MovesO.ite ?_ ?_
    | with_reducible exact MovesO.fault _
    | with_reducible exact MovesO.refused _
    | with_reducible refine Moves.ite ?_ ?_
    | with_reducible apply Moves.step (State.upTo_moves _ _)
    | with_reducible apply Moves.step (State.failControl_moves _ _)
    | with_reducible refine Moves.foldl (fun _ _ => ?_) ?_
    | decide
    | split
    | dsimp +zetaDelta only

theorem State.handOver_moves (s) : Moves [.mp] s (State.handOver s) := by
  unfold State.handOver
  repeat' first
    | extract_lets
    | with_reducible exact Moves.refl _ _
    | with_reducible refine Moves.ite ?_ ?_
    | with_reducible apply Moves.step (State.setProc_moves _ _ _)
    | with_reducible refine Moves.foldl (fun _ _ => ?_) ?_
    | fail_if_no_progress with_reducible refine Moves.record ?_ (.inl rfl) (.inl rfl) (.inl rfl) (.inl rfl) (.inl rfl) (.inl rfl) (.inl rfl) (.inl rfl) (.inl rfl) (.inl rfl) (.inl rfl) (.inl rfl) (.inl rfl) (.inr (by decide)) (.inl rfl) (.inl rfl) (.inl rfl) (.inl rfl)
    | decide
    | split
    | dsimp +zetaDelta only

theorem State.handOverKerf_moves (s) : Moves [.fc, .mp] s (State.handOverKerf s) := by
  unfold State.handOverKerf
  repeat' first
    | extract_lets
    | with_reducible exact Moves.refl _ _
    | with_reducible refine Moves.ite ?_ ?_
    | with_reducible apply Moves.step (State.handOver_moves _)
    | with_reducible apply Moves.step (State.raise_moves _ _ _ _ _)
    | with_reducible refine Moves.foldl (fun _ _ => ?_) ?_
    | fail_if_no_progress with_reducible refine Moves.record ?_ (.inl rfl) (.inl rfl) (.inl rfl) (.inl rfl) (.inl rfl) (.inl rfl) (.inl rfl) (.inl rfl) (.inl rfl) (.inl rfl) (.inl rfl) (.inl rfl) (.inl rfl) (.inr (by decide)) (.inl rfl) (.inl rfl) (.inl rfl) (.inl rfl)
    | decide
    | split
    | dsimp +zetaDelta only

theorem execProcessorRestart_moves (who t s) : MovesO [.time, .fc, .mp, .ob] s (execProcessorRestart who t s) := by
  unfold execProcessorRestart
  repeat' first
    | extract_lets
    | with_reducible exact Moves.refl _ _
    | with_reducible refine MovesO.next ?_
    | with_reducible refine MovesO.ite ?_ ?_
    | with_reducible exact MovesO.fault _
    | with_reducible exact MovesO.refused _
    | with_reducible refine Moves.ite ?_ ?_
    | with_reducible apply Moves.step (State.upTo_moves _ _)
    | with_reducible apply Moves.step (State.raise_moves _ _ _ _ _)
    | with_reducible apply Moves.step (State.setProc_moves _ _ _)
    | with_reducible apply Moves.step (State.bump_moves _ _ _)
    | with_reducible refine Moves.foldl (fun _ _ => ?_) ?_
    | decide
    | split
    | dsimp +zetaDelta only

theorem State.enterRecovery_moves (s) : Moves [.rails, .fc, .mp, .mod] s (State.enterRecovery s) := by
  unfold State.enterRecovery
  repeat' first
    | extract_lets
    | with_reducible exact Moves.refl _ _
    | with_reducible refine Moves.ite ?_ ?_
    | with_reducible apply Moves.step (State.changeMode_moves _ _)
    | with_reducible apply Moves.step (State.raise_moves _ _ _ _ _)
    | with_reducible apply Moves.step (State.beginStart_moves _)
    | with_reducible refine Moves.foldl (fun _ _ => ?_) ?_
    | fail_if_no_progress with_reducible refine Moves.record ?_ (.inl rfl) (.inl rfl) (.inl rfl) (.inl rfl) (.inl rfl) (.inl rfl) (.inl rfl) (.inl rfl) (.inl rfl) (.inl rfl) (.inl rfl) (.inl rfl) (.inl rfl) (.inr (by decide)) (.inl rfl) (.inl rfl) (.inl rfl) (.inl rfl)
    | decide
    | split
    | dsimp +zetaDelta only

theorem State.bootPasses_moves (s i b) : Moves [.rails, .mp, .mod] s (State.bootPasses s i b) := by
  unfold State.bootPasses
  repeat' first
    | extract_lets
    | with_reducible exact Moves.refl _ _
    | with_reducible refine Moves.ite ?_ ?_
    | with_reducible apply Moves.step (State.setProc_moves _ _ _)
    | with_reducible apply Moves.step (State.activate_moves _ _)
    | with_reducible refine Moves.foldl (fun _ _ => ?_) ?_
    | decide
    | split
    | dsimp +zetaDelta only

theorem execMpBootComplete_moves (who pass t s) : MovesO [.time, .rails, .fc, .mp, .mod] s (execMpBootComplete who pass t s) := by
  unfold execMpBootComplete
  repeat' first
    | extract_lets
    | with_reducible exact Moves.refl _ _
    | with_reducible refine MovesO.next ?_
    | with_reducible refine MovesO.ite ?_ ?_
    | with_reducible exact MovesO.fault _
    | with_reducible exact MovesO.refused _
    | with_reducible refine Moves.ite ?_ ?_
    | with_reducible apply Moves.step (State.upTo_moves _ _)
    | with_reducible apply Moves.step (State.enterRecovery_moves _)
    | with_reducible apply Moves.step (State.raise_moves _ _ _ _ _)
    | with_reducible apply Moves.step (State.procLost_moves _ _)
    | with_reducible apply Moves.step (State.bootPasses_moves _ _ _)
    | with_reducible apply Moves.step (State.bootFails_moves _ _)
    | with_reducible refine Moves.foldl (fun _ _ => ?_) ?_
    | decide
    | split
    | dsimp +zetaDelta only

theorem allCommands_moves {c : Cmd} (h : c ∈ allCommands) : ∀ (s : State) (k : Nat) (b : Bytes), MovesR [.frame, .jigs, .arrays, .lanes, .mem, .qf, .fabric, .host, .shim, .cells, .rails, .gov, .fc, .mp, .mod, .pins, .clocks, .ob, .free] s (c.act s k b) := by
  revert c
  have hall : allCommands.Forall (fun c => ∀ s k b, MovesR [.frame, .jigs, .arrays, .lanes, .mem, .qf, .fabric, .host, .shim, .cells, .rails, .gov, .fc, .mp, .mod, .pins, .clocks, .ob, .free] s (c.act s k b)) := by
    refine ⟨fun s k b => (mpGetStatus_moves s k b).weaken (by decide),
      fun s k b => (mpStageImage_moves s k b).weaken (by decide),
      fun s k b => (mpRestartStandby_moves s k b).weaken (by decide),
      fun s k b => (mpHandover_moves s k b).weaken (by decide),
      fun s k b => (mpSetSwitchback_moves s k b).weaken (by decide),
      fun s k b => (mpSetMgmt_moves s k b).weaken (by decide),
      fun s k b => (modSetState_moves s k b).weaken (by decide),
      fun s k b => (modGetState_moves s k b).weaken (by decide),
      fun s k b => (shimGetStatus_moves s k b).weaken (by decide),
      fun s k b => (shimSetPolicy_moves s k b).weaken (by decide),
      fun s k b => (shimGrantLease_moves s k b).weaken (by decide),
      fun s k b => (shimSetLimits_moves s k b).weaken (by decide),
      fun s k b => (cellGetStatus_moves s k b).weaken (by decide),
      fun s k b => (cellGetCells_moves s k b).weaken (by decide),
      fun s k b => (cellGrantRest_moves s k b).weaken (by decide),
      fun s k b => (cellSaveState_moves s k b).weaken (by decide),
      fun s k b => (cellRestoreState_moves s k b).weaken (by decide),
      fun s k b => (regGetTelemetry_moves s k b).weaken (by decide),
      fun s k b => (regSetCompensator_moves s k b).weaken (by decide),
      fun s k b => (regSetTrim_moves s k b).weaken (by decide),
      fun s k b => (gvGetStatus_moves s k b).weaken (by decide),
      fun s k b => (gvSetClamp_moves s k b).weaken (by decide),
      fun s k b => (gvSetQuota_moves s k b).weaken (by decide),
      fun s k b => (gvSetLimits_moves s k b).weaken (by decide),
      fun s k b => (gvGetThrottle_moves s k b).weaken (by decide),
      fun s k b => (gvGetEnergy_moves s k b).weaken (by decide),
      fun s k b => (gvGetThermal_moves s k b).weaken (by decide),
      fun s k b => (fcGetSummary_moves s k b).weaken (by decide),
      fun s k b => (fcGetLog_moves s k b).weaken (by decide),
      fun s k b => (fcAckFaults_moves s k b).weaken (by decide),
      fun s k b => (fcSetLevel_moves s k b).weaken (by decide),
      fun s k b => (fcInjectFault_moves s k b).weaken (by decide),
      fun s k b => (obReadCounters_moves s k b).weaken (by decide),
      fun s k b => (obArmSnapshot_moves s k b).weaken (by decide),
      fun s k b => (obReadSnapshot_moves s k b).weaken (by decide),
      fun s k b => (obSetGrant_moves s k b).weaken (by decide),
      fun s k b => (ftJoinDomain_moves s k b).weaken (by decide),
      fun s k b => (ftLeaveDomain_moves s k b).weaken (by decide),
      fun s k b => (ftSetDomain_moves s k b).weaken (by decide),
      fun s k b => (ftGetFrameStatus_moves s k b).weaken (by decide),
      fun s k b => (ofGetLinkStatus_moves s k b).weaken (by decide),
      fun s k b => (ofSetLinks_moves s k b).weaken (by decide),
      fun s k b => (ofSetRoutes_moves s k b).weaken (by decide),
      fun s k b => (ofBindEndpoint_moves s k b).weaken (by decide),
      fun s k b => (idGetIdentity_moves s k b).weaken (by decide),
      fun s k b => (fuseReadGroup_moves s k b).weaken (by decide)⟩
  exact List.forall_iff_forall_mem.mp hall

theorem State.replayEntry_moves (s e) : Moves [.frame, .jigs, .arrays, .lanes, .mem, .qf, .fabric, .host, .shim, .cells, .rails, .gov, .fc, .mp, .mod, .pins, .clocks, .ob, .free] s (State.replayEntry s e) := by
  unfold State.replayEntry
  extract_lets k fin
  split
  · exact Moves.refl _ _
  · rename_i c hc
    have hf : ∀ x st p, Moves [.frame, .jigs, .arrays, .lanes, .mem, .qf, .fabric, .host, .shim, .cells, .rails, .gov, .fc, .mp, .mod, .pins, .clocks, .ob, .free] x (fin x st p) := by
      intro x st p
      simp only [fin]
      exact Moves.record ((State.setSlot_moves _ _ _).weaken (by decide)) (.inl rfl) (.inl rfl) (.inl rfl) (.inl rfl) (.inl rfl) (.inl rfl) (.inl rfl) (.inl rfl) (.inl rfl) (.inl rfl) (.inl rfl) (.inl rfl) (.inl rfl) (.inr (by decide)) (.inl rfl) (.inl rfl) (.inl rfl) (.inl rfl)
    have ha := allCommands_moves (List.mem_of_find?_eq_some hc) s k (e.request.drop 32)
    split
    · exact hf _ _ _
    · rename_i h
      exact (ha _ _ _ h).trans (hf _ _ _)

theorem State.replay_moves (s mark bad) : Moves [.frame, .jigs, .arrays, .lanes, .mem, .qf, .fabric, .host, .shim, .cells, .rails, .gov, .fc, .mp, .mod, .pins, .clocks, .ob, .free] s (State.replay s mark bad) := by
  unfold State.replay
  repeat' first
    | extract_lets
    | with_reducible exact Moves.refl _ _
    | with_reducible refine Moves.ite ?_ ?_
    | with_reducible apply Moves.step (State.raise_moves _ _ _ _ _)
    | with_reducible apply Moves.step (State.replayEntry_moves _ _)
    | with_reducible refine Moves.foldl (fun _ _ => ?_) ?_
    | fail_if_no_progress with_reducible refine Moves.record ?_ (.inl rfl) (.inl rfl) (.inl rfl) (.inl rfl) (.inl rfl) (.inl rfl) (.inl rfl) (.inl rfl) (.inl rfl) (.inl rfl) (.inl rfl) (.inl rfl) (.inl rfl) (.inr (by decide)) (.inl rfl) (.inl rfl) (.inl rfl) (.inl rfl)
    | decide
    | split
    | dsimp +zetaDelta only

theorem State.memoryCorrected_moves (s corrected) : Moves [.fc, .ob] s (State.memoryCorrected s corrected) := by
  unfold State.memoryCorrected
  repeat' first
    | extract_lets
    | with_reducible exact Moves.refl _ _
    | with_reducible refine Moves.ite ?_ ?_
    | with_reducible apply Moves.step (State.bump_moves _ _ _)
    | with_reducible apply Moves.step (State.raise_moves _ _ _ _ _)
    | with_reducible refine Moves.foldl (fun _ _ => ?_) ?_
    | decide
    | split
    | dsimp +zetaDelta only

theorem execStandbyWatchdogExpiry_moves (t s) : MovesO [.time, .fc, .mp] s (execStandbyWatchdogExpiry t s) := by
  unfold execStandbyWatchdogExpiry
  repeat' first
    | extract_lets
    | with_reducible exact Moves.refl _ _
    | with_reducible refine MovesO.next ?_
    | with_reducible refine MovesO.ite ?_ ?_
    | with_reducible exact MovesO.fault _
    | with_reducible exact MovesO.refused _
    | with_reducible refine Moves.ite ?_ ?_
    | with_reducible apply Moves.step (State.upTo_moves _ _)
    | with_reducible apply Moves.step (State.raise_moves _ _ _ _ _)
    | with_reducible apply Moves.step (State.procLost_moves _ _)
    | with_reducible refine Moves.foldl (fun _ _ => ?_) ?_
    | decide
    | split
    | dsimp +zetaDelta only

theorem execMpNoneTimeout_moves (t s) : MovesO [.time, .fc, .mp] s (execMpNoneTimeout t s) := by
  unfold execMpNoneTimeout
  repeat' first
    | extract_lets
    | with_reducible exact Moves.refl _ _
    | with_reducible refine MovesO.next ?_
    | with_reducible refine MovesO.ite ?_ ?_
    | with_reducible exact MovesO.fault _
    | with_reducible exact MovesO.refused _
    | with_reducible refine Moves.ite ?_ ?_
    | with_reducible apply Moves.step (State.upTo_moves _ _)
    | with_reducible apply Moves.step (State.raiseCond_moves _ _ _ _ _)
    | with_reducible refine Moves.foldl (fun _ _ => ?_) ?_
    | fail_if_no_progress with_reducible refine Moves.record ?_ (.inl rfl) (.inl rfl) (.inl rfl) (.inl rfl) (.inl rfl) (.inl rfl) (.inl rfl) (.inl rfl) (.inl rfl) (.inl rfl) (.inl rfl) (.inl rfl) (.inl rfl) (.inr (by decide)) (.inl rfl) (.inl rfl) (.inl rfl) (.inl rfl)
    | decide
    | split
    | dsimp +zetaDelta only

theorem State.takeControl_moves (s i older) : Moves [.host, .fc, .mp, .ob] s (State.takeControl s i older) := by
  unfold State.takeControl
  repeat' first
    | extract_lets
    | with_reducible exact Moves.refl _ _
    | with_reducible refine Moves.ite ?_ ?_
    | with_reducible apply Moves.step (State.setBoot_moves _ _ _)
    | with_reducible apply Moves.step (State.setProc_moves _ _ _)
    | with_reducible apply Moves.step (State.bump_moves _ _ _)
    | with_reducible apply Moves.step (State.raise_moves _ _ _ _ _)
    | with_reducible apply Moves.step (State.settleUnknown_moves _)
    | with_reducible refine Moves.foldl (fun _ _ => ?_) ?_
    | fail_if_no_progress with_reducible refine Moves.record ?_ (.inl rfl) (.inl rfl) (.inl rfl) (.inl rfl) (.inl rfl) (.inl rfl) (.inl rfl) (.inl rfl) (.inl rfl) (.inl rfl) (.inl rfl) (.inl rfl) (.inl rfl) (.inr (by decide)) (.inl rfl) (.inl rfl) (.inl rfl) (.inl rfl)
    | decide
    | split
    | dsimp +zetaDelta only

theorem execStandbySelfTest_moves (pass corrected t s) : MovesO [.time, .fc, .mp, .ob] s (execStandbySelfTest pass corrected t s) := by
  unfold execStandbySelfTest
  repeat' first
    | extract_lets
    | with_reducible exact Moves.refl _ _
    | with_reducible refine MovesO.next ?_
    | with_reducible refine MovesO.ite ?_ ?_
    | with_reducible exact MovesO.fault _
    | with_reducible exact MovesO.refused _
    | with_reducible refine Moves.ite ?_ ?_
    | with_reducible apply Moves.step (State.upTo_moves _ _)
    | with_reducible apply Moves.step (State.memoryCorrected_moves _ _)
    | with_reducible apply Moves.step (State.bump_moves _ _ _)
    | with_reducible apply Moves.step (State.raise_moves _ _ _ _ _)
    | with_reducible apply Moves.step (State.procLost_moves _ _)
    | with_reducible apply Moves.step (State.setProc_moves _ _ _)
    | with_reducible refine Moves.foldl (fun _ _ => ?_) ?_
    | decide
    | split
    | dsimp +zetaDelta only

theorem execWatchdogKick_moves (who t s) : MovesO [.time, .mp] s (execWatchdogKick who t s) := by
  unfold execWatchdogKick
  repeat' first
    | extract_lets
    | with_reducible exact Moves.refl _ _
    | with_reducible refine MovesO.next ?_
    | with_reducible refine MovesO.ite ?_ ?_
    | with_reducible exact MovesO.fault _
    | with_reducible exact MovesO.refused _
    | with_reducible refine Moves.ite ?_ ?_
    | with_reducible apply Moves.step (State.upTo_moves _ _)
    | with_reducible apply Moves.step (State.setProc_moves _ _ _)
    | with_reducible refine Moves.foldl (fun _ _ => ?_) ?_
    | decide
    | split
    | dsimp +zetaDelta only

theorem State.takeover_moves (s i bad) : Moves [.frame, .jigs, .arrays, .lanes, .mem, .qf, .fabric, .host, .shim, .cells, .rails, .gov, .fc, .mp, .mod, .pins, .clocks, .ob, .free] s (State.takeover s i bad) := by
  unfold State.takeover
  repeat' first
    | extract_lets
    | with_reducible exact Moves.refl _ _
    | with_reducible refine Moves.ite ?_ ?_
    | with_reducible apply Moves.step (State.settleRestart_moves _)
    | with_reducible apply Moves.step (State.takeControl_moves _ _ _)
    | with_reducible apply Moves.step (State.replay_moves _ _ _)
    | with_reducible apply Moves.step (State.raise_moves _ _ _ _ _)
    | with_reducible apply Moves.step (State.firmwareReset_moves _)
    | with_reducible refine Moves.foldl (fun _ _ => ?_) ?_
    | decide
    | split
    | dsimp +zetaDelta only

theorem execTakeoverComplete_moves (who bad0 bad1 corrected badEntry t s) : MovesO [.time, .frame, .jigs, .arrays, .lanes, .mem, .qf, .fabric, .host, .shim, .cells, .rails, .gov, .fc, .mp, .mod, .pins, .clocks, .ob, .free] s (execTakeoverComplete who bad0 bad1 corrected badEntry t s) := by
  unfold execTakeoverComplete
  repeat' first
    | extract_lets
    | with_reducible exact Moves.refl _ _
    | with_reducible refine MovesO.next ?_
    | with_reducible refine MovesO.ite ?_ ?_
    | with_reducible exact MovesO.fault _
    | with_reducible exact MovesO.refused _
    | with_reducible refine Moves.ite ?_ ?_
    | with_reducible apply Moves.step (State.memoryCorrected_moves _ _)
    | with_reducible apply Moves.step (State.upTo_moves _ _)
    | with_reducible apply Moves.step (State.takeover_moves _ _ _)
    | with_reducible refine Moves.foldl (fun _ _ => ?_) ?_
    | fail_if_no_progress with_reducible refine Moves.record ?_ (.inl rfl) (.inl rfl) (.inl rfl) (.inl rfl) (.inl rfl) (.inl rfl) (.inl rfl) (.inl rfl) (.inl rfl) (.inl rfl) (.inl rfl) (.inl rfl) (.inl rfl) (.inr (by decide)) (.inl rfl) (.inl rfl) (.inl rfl) (.inl rfl)
    | decide
    | split
    | dsimp +zetaDelta only

theorem execImageCopyComplete_moves (corrected t s) : MovesO [.time, .fc, .mp, .ob] s (execImageCopyComplete corrected t s) := by
  unfold execImageCopyComplete
  repeat' first
    | extract_lets
    | with_reducible exact Moves.refl _ _
    | with_reducible refine MovesO.next ?_
    | with_reducible refine MovesO.ite ?_ ?_
    | with_reducible exact MovesO.fault _
    | with_reducible exact MovesO.refused _
    | with_reducible refine Moves.ite ?_ ?_
    | with_reducible apply Moves.step (State.upTo_moves _ _)
    | with_reducible apply Moves.step (State.memoryCorrected_moves _ _)
    | with_reducible apply Moves.step (State.settleReady_moves _)
    | with_reducible apply Moves.step (State.bump_moves _ _ _)
    | with_reducible refine Moves.foldl (fun _ _ => ?_) ?_
    | fail_if_no_progress with_reducible refine Moves.record ?_ (.inl rfl) (.inl rfl) (.inl rfl) (.inl rfl) (.inl rfl) (.inl rfl) (.inl rfl) (.inl rfl) (.inl rfl) (.inl rfl) (.inl rfl) (.inl rfl) (.inl rfl) (.inr (by decide)) (.inl rfl) (.inl rfl) (.inl rfl) (.inl rfl)
    | decide
    | split
    | dsimp +zetaDelta only

end Sys2Proof.Machine
end

