-- ==== Sys2Proof/Laws/MovesLaneCode.lean ====
section
/-! SUPPORT. What the operations of Machine/LaneCode.lean keep, and the parts of the state they stay in. -/

namespace Sys2Proof.Machine

theorem execLanePlog_moves (w d a b op s) : MovesO [.time, .arrays, .lanes, .mem, .qf, .fc, .ob] s (execLanePlog w d a b op s) := by
  unfold execLanePlog
  repeat' first
    | extract_lets
    | with_reducible exact Moves.refl _ _
    | with_reducible refine MovesO.next ?_
    | with_reducible refine MovesO.ite ?_ ?_
    | with_reducible exact MovesO.fault _
    | with_reducible exact MovesO.refused _
    | with_reducible refine Moves.ite ?_ ?_
    | with_reducible refine State.laneIssue_moves (fun _ => ?_) (by decide)
    | with_reducible apply Moves.step (State.issueRow_moves _ _ _ _)
    | with_reducible refine Moves.foldl (fun _ _ => ?_) ?_
    | decide
    | split
    | dsimp +zetaDelta only

theorem execLaneFmin_moves (w d a b s) : MovesO [.time, .arrays, .lanes, .mem, .qf, .fc, .ob] s (execLaneFmin w d a b s) := by
  unfold execLaneFmin
  repeat' first
    | extract_lets
    | with_reducible exact Moves.refl _ _
    | with_reducible refine MovesO.next ?_
    | with_reducible refine MovesO.ite ?_ ?_
    | with_reducible exact MovesO.fault _
    | with_reducible exact MovesO.refused _
    | with_reducible refine Moves.ite ?_ ?_
    | with_reducible refine State.laneIssue_moves (fun _ => ?_) (by decide)
    | with_reducible apply Moves.step (State.binary_moves _ _ _ _ _ _)
    | with_reducible refine Moves.foldl (fun _ _ => ?_) ?_
    | decide
    | split
    | dsimp +zetaDelta only

theorem execLaneQsig_moves (r q s) : MovesO [.time, .arrays, .lanes, .mem, .qf, .fc, .ob] s (execLaneQsig r q s) := by
  unfold execLaneQsig State.laneQueue
  repeat' first
    | extract_lets
    | with_reducible exact Moves.refl _ _
    | with_reducible refine MovesO.next ?_
    | with_reducible refine MovesO.ite ?_ ?_
    | with_reducible exact MovesO.fault _
    | with_reducible exact MovesO.refused _
    | with_reducible refine Moves.ite ?_ ?_
    | with_reducible refine State.rowIssue_moves (fun _ => ?_) (by decide)
    | with_reducible apply Moves.step (State.sendQueue_moves _ _ _)
    | with_reducible apply Moves.step (State.rowNext_moves _ _ _)
    | with_reducible apply Moves.step (State.skipQueue_moves _ _)
    | with_reducible refine Moves.foldl (fun _ _ => ?_) ?_
    | decide
    | split
    | dsimp +zetaDelta only

theorem execLaneIadd_moves (w d a b s) : MovesO [.time, .arrays, .lanes, .mem, .qf, .fc, .ob] s (execLaneIadd w d a b s) := by
  unfold execLaneIadd
  repeat' first
    | extract_lets
    | with_reducible exact Moves.refl _ _
    | with_reducible refine MovesO.next ?_
    | with_reducible refine MovesO.ite ?_ ?_
    | with_reducible exact MovesO.fault _
    | with_reducible exact MovesO.refused _
    | with_reducible refine Moves.ite ?_ ?_
    | with_reducible refine State.laneIssue_moves (fun _ => ?_) (by decide)
    | with_reducible apply Moves.step (State.binary_moves _ _ _ _ _ _)
    | with_reducible refine Moves.foldl (fun _ _ => ?_) ?_
    | decide
    | split
    | dsimp +zetaDelta only

theorem execLaneOri_moves (w d a imm s) : MovesO [.time, .arrays, .lanes, .mem, .qf, .fc, .ob] s (execLaneOri w d a imm s) := by
  unfold execLaneOri
  repeat' first
    | extract_lets
    | with_reducible exact Moves.refl _ _
    | with_reducible refine MovesO.next ?_
    | with_reducible refine MovesO.ite ?_ ?_
    | with_reducible exact MovesO.fault _
    | with_reducible exact MovesO.refused _
    | with_reducible refine Moves.ite ?_ ?_
    | with_reducible refine State.laneIssue_moves (fun _ => ?_) (by decide)
    | with_reducible apply Moves.step (State.unary_moves _ _ _ _ _)
    | with_reducible refine Moves.foldl (fun _ _ => ?_) ?_
    | decide
    | split
    | dsimp +zetaDelta only

theorem execLaneXunzip_moves (w d a b s) : MovesO [.time, .arrays, .lanes, .mem, .qf, .fc, .ob] s (execLaneXunzip w d a b s) := by
  unfold execLaneXunzip
  repeat' first
    | extract_lets
    | with_reducible exact Moves.refl _ _
    | with_reducible refine MovesO.next ?_
    | with_reducible refine MovesO.ite ?_ ?_
    | with_reducible exact MovesO.fault _
    | with_reducible exact MovesO.refused _
    | with_reducible refine Moves.ite ?_ ?_
    | with_reducible refine State.laneIssue_moves (fun _ => ?_) (by decide)
    | with_reducible apply Moves.step (State.issueRow_moves _ _ _ _)
    | with_reducible refine Moves.foldl (fun _ _ => ?_) ?_
    | decide
    | split
    | dsimp +zetaDelta only

theorem execLaneFadd_moves (w d a b s) : MovesO [.time, .arrays, .lanes, .mem, .qf, .fc, .ob] s (execLaneFadd w d a b s) := by
  unfold execLaneFadd
  repeat' first
    | extract_lets
    | with_reducible exact Moves.refl _ _
    | with_reducible refine MovesO.next ?_
    | with_reducible refine MovesO.ite ?_ ?_
    | with_reducible exact MovesO.fault _
    | with_reducible exact MovesO.refused _
    | with_reducible refine Moves.ite ?_ ?_
    | with_reducible refine State.laneIssue_moves (fun _ => ?_) (by decide)
    | with_reducible apply Moves.step (State.binary_moves _ _ _ _ _ _)
    | with_reducible refine Moves.foldl (fun _ _ => ?_) ?_
    | decide
    | split
    | dsimp +zetaDelta only

theorem execLaneSlst_moves (r slot a b withFlag s) : MovesO [.time, .arrays, .lanes, .mem, .qf, .fc, .ob] s (execLaneSlst r slot a b withFlag s) := by
  unfold execLaneSlst
  repeat' first
    | extract_lets
    | with_reducible exact Moves.refl _ _
    | with_reducible refine MovesO.next ?_
    | with_reducible refine MovesO.ite ?_ ?_
    | with_reducible exact MovesO.fault _
    | with_reducible exact MovesO.refused _
    | with_reducible refine Moves.ite ?_ ?_
    | with_reducible refine State.rowIssue_moves (fun _ => ?_) (by decide)
    | with_reducible apply Moves.step (State.laneAccess_moves _ _ _ _)
    | with_reducible refine Moves.foldl (fun _ _ => ?_) ?_
    | decide
    | split
    | dsimp +zetaDelta only

theorem State.laneBranch_moves (s r taken target) : Moves [.lanes, .ob] s (State.laneBranch s r taken target) := by
  unfold State.laneBranch
  repeat' first
    | extract_lets
    | with_reducible exact Moves.refl _ _
    | with_reducible refine Moves.ite ?_ ?_
    | with_reducible apply Moves.step (State.rowTo_moves _ _ _ _)
    | with_reducible apply Moves.step (State.setCluster_moves _ _ _)
    | with_reducible apply Moves.step (State.rowNext_moves _ _ _)
    | with_reducible refine Moves.foldl (fun _ _ => ?_) ?_
    | decide
    | split
    | dsimp +zetaDelta only

theorem execLaneJmp_moves (r target s) : MovesO [.time, .arrays, .lanes, .mem, .qf, .fc, .ob] s (execLaneJmp r target s) := by
  unfold execLaneJmp
  repeat' first
    | extract_lets
    | with_reducible exact Moves.refl _ _
    | with_reducible refine MovesO.next ?_
    | with_reducible refine MovesO.ite ?_ ?_
    | with_reducible exact MovesO.fault _
    | with_reducible exact MovesO.refused _
    | with_reducible refine Moves.ite ?_ ?_
    | with_reducible refine State.rowIssue_moves (fun _ => ?_) (by decide)
    | with_reducible apply Moves.step (State.laneBranch_moves _ _ _ _)
    | with_reducible refine Moves.foldl (fun _ _ => ?_) ?_
    | decide
    | split
    | dsimp +zetaDelta only

theorem execLanePcount_moves (w d a s) : MovesO [.time, .arrays, .lanes, .mem, .qf, .fc, .ob] s (execLanePcount w d a s) := by
  unfold execLanePcount
  repeat' first
    | extract_lets
    | with_reducible exact Moves.refl _ _
    | with_reducible refine MovesO.next ?_
    | with_reducible refine MovesO.ite ?_ ?_
    | with_reducible exact MovesO.fault _
    | with_reducible exact MovesO.refused _
    | with_reducible refine Moves.ite ?_ ?_
    | with_reducible refine State.laneIssue_moves (fun _ => ?_) (by decide)
    | with_reducible apply Moves.step (State.issueRow_moves _ _ _ _)
    | with_reducible refine Moves.foldl (fun _ _ => ?_) ?_
    | decide
    | split
    | dsimp +zetaDelta only

theorem execLaneCvtfi_moves (w d a rnd s) : MovesO [.time, .arrays, .lanes, .mem, .qf, .fc, .ob] s (execLaneCvtfi w d a rnd s) := by
  unfold execLaneCvtfi
  repeat' first
    | extract_lets
    | with_reducible exact Moves.refl _ _
    | with_reducible refine MovesO.next ?_
    | with_reducible refine MovesO.ite ?_ ?_
    | with_reducible exact MovesO.fault _
    | with_reducible exact MovesO.refused _
    | with_reducible refine Moves.ite ?_ ?_
    | with_reducible refine State.laneIssue_moves (fun _ => ?_) (by decide)
    | with_reducible apply Moves.step (State.rounded_moves _ _ _ _ _ _)
    | with_reducible refine Moves.foldl (fun _ _ => ?_) ?_
    | decide
    | split
    | dsimp +zetaDelta only

theorem execLaneShr_moves (w d a b s) : MovesO [.time, .arrays, .lanes, .mem, .qf, .fc, .ob] s (execLaneShr w d a b s) := by
  unfold execLaneShr
  repeat' first
    | extract_lets
    | with_reducible exact Moves.refl _ _
    | with_reducible refine MovesO.next ?_
    | with_reducible refine MovesO.ite ?_ ?_
    | with_reducible exact MovesO.fault _
    | with_reducible exact MovesO.refused _
    | with_reducible refine Moves.ite ?_ ?_
    | with_reducible refine State.laneIssue_moves (fun _ => ?_) (by decide)
    | with_reducible apply Moves.step (State.binary_moves _ _ _ _ _ _)
    | with_reducible refine Moves.foldl (fun _ _ => ?_) ?_
    | decide
    | split
    | dsimp +zetaDelta only

theorem execLaneSlfm_moves (r slot a s) : MovesO [.time, .arrays, .lanes, .mem, .qf, .fc, .ob] s (execLaneSlfm r slot a s) := by
  unfold execLaneSlfm
  repeat' first
    | extract_lets
    | with_reducible exact Moves.refl _ _
    | with_reducible refine MovesO.next ?_
    | with_reducible refine MovesO.ite ?_ ?_
    | with_reducible exact MovesO.fault _
    | with_reducible exact MovesO.refused _
    | with_reducible refine Moves.ite ?_ ?_
    | with_reducible refine State.rowIssue_moves (fun _ => ?_) (by decide)
    | with_reducible apply Moves.step (State.laneAccess_moves _ _ _ _)
    | with_reducible refine Moves.foldl (fun _ _ => ?_) ?_
    | decide
    | split
    | dsimp +zetaDelta only

theorem execLaneXor_moves (w d a b s) : MovesO [.time, .arrays, .lanes, .mem, .qf, .fc, .ob] s (execLaneXor w d a b s) := by
  unfold execLaneXor
  repeat' first
    | extract_lets
    | with_reducible exact Moves.refl _ _
    | with_reducible refine MovesO.next ?_
    | with_reducible refine MovesO.ite ?_ ?_
    | with_reducible exact MovesO.fault _
    | with_reducible exact MovesO.refused _
    | with_reducible refine Moves.ite ?_ ?_
    | with_reducible refine State.laneIssue_moves (fun _ => ?_) (by decide)
    | with_reducible apply Moves.step (State.binary_moves _ _ _ _ _ _)
    | with_reducible refine Moves.foldl (fun _ _ => ?_) ?_
    | decide
    | split
    | dsimp +zetaDelta only

theorem execLaneWshift_moves (w d a by_ s) : MovesO [.time, .arrays, .lanes, .mem, .qf, .fc, .ob] s (execLaneWshift w d a by_ s) := by
  unfold execLaneWshift
  repeat' first
    | extract_lets
    | with_reducible exact Moves.refl _ _
    | with_reducible refine MovesO.next ?_
    | with_reducible refine MovesO.ite ?_ ?_
    | with_reducible exact MovesO.fault _
    | with_reducible exact MovesO.refused _
    | with_reducible refine Moves.ite ?_ ?_
    | with_reducible refine State.laneIssue_moves (fun _ => ?_) (by decide)
    | with_reducible apply Moves.step (State.issueRow_moves _ _ _ _)
    | with_reducible refine Moves.foldl (fun _ _ => ?_) ?_
    | decide
    | split
    | dsimp +zetaDelta only

theorem execLaneSlcvt_moves (w slot d fmt rnd s) : MovesO [.time, .arrays, .lanes, .mem, .qf, .fc, .ob] s (execLaneSlcvt w slot d fmt rnd s) := by
  unfold execLaneSlcvt
  repeat' first
    | extract_lets
    | with_reducible exact Moves.refl _ _
    | with_reducible refine MovesO.next ?_
    | with_reducible refine MovesO.ite ?_ ?_
    | with_reducible exact MovesO.fault _
    | with_reducible exact MovesO.refused _
    | with_reducible refine Moves.ite ?_ ?_
    | with_reducible refine State.laneIssue_moves (fun _ => ?_) (by decide)
    | with_reducible apply Moves.step (State.issueRow_moves _ _ _ _)
    | with_reducible refine Moves.foldl (fun _ _ => ?_) ?_
    | decide
    | split
    | dsimp +zetaDelta only

theorem execLaneFsub_moves (w d a b s) : MovesO [.time, .arrays, .lanes, .mem, .qf, .fc, .ob] s (execLaneFsub w d a b s) := by
  unfold execLaneFsub
  repeat' first
    | extract_lets
    | with_reducible exact Moves.refl _ _
    | with_reducible refine MovesO.next ?_
    | with_reducible refine MovesO.ite ?_ ?_
    | with_reducible exact MovesO.fault _
    | with_reducible exact MovesO.refused _
    | with_reducible refine Moves.ite ?_ ?_
    | with_reducible refine State.laneIssue_moves (fun _ => ?_) (by decide)
    | with_reducible apply Moves.step (State.binary_moves _ _ _ _ _ _)
    | with_reducible refine Moves.foldl (fun _ _ => ?_) ?_
    | decide
    | split
    | dsimp +zetaDelta only

theorem execLaneFcmp_moves (w d a b cond s) : MovesO [.time, .arrays, .lanes, .mem, .qf, .fc, .ob] s (execLaneFcmp w d a b cond s) := by
  unfold execLaneFcmp
  repeat' first
    | extract_lets
    | with_reducible exact Moves.refl _ _
    | with_reducible refine MovesO.next ?_
    | with_reducible refine MovesO.ite ?_ ?_
    | with_reducible exact MovesO.fault _
    | with_reducible exact MovesO.refused _
    | with_reducible refine Moves.ite ?_ ?_
    | with_reducible refine State.laneIssue_moves (fun _ => ?_) (by decide)
    | with_reducible apply Moves.step (State.issueRow_moves _ _ _ _)
    | with_reducible refine Moves.foldl (fun _ _ => ?_) ?_
    | decide
    | split
    | dsimp +zetaDelta only

theorem execLaneMxexp_moves (w d a fmt s) : MovesO [.time, .arrays, .lanes, .mem, .qf, .fc, .ob] s (execLaneMxexp w d a fmt s) := by
  unfold execLaneMxexp
  repeat' first
    | extract_lets
    | with_reducible exact Moves.refl _ _
    | with_reducible refine MovesO.next ?_
    | with_reducible refine MovesO.ite ?_ ?_
    | with_reducible exact MovesO.fault _
    | with_reducible exact MovesO.refused _
    | with_reducible refine Moves.ite ?_ ?_
    | with_reducible refine State.laneIssue_moves (fun _ => ?_) (by decide)
    | with_reducible apply Moves.step (State.unary_moves _ _ _ _ _)
    | with_reducible refine Moves.foldl (fun _ _ => ?_) ?_
    | decide
    | split
    | dsimp +zetaDelta only

theorem execLanePset_moves (w d a s) : MovesO [.time, .arrays, .lanes, .mem, .qf, .fc, .ob] s (execLanePset w d a s) := by
  unfold execLanePset
  repeat' first
    | extract_lets
    | with_reducible exact Moves.refl _ _
    | with_reducible refine MovesO.next ?_
    | with_reducible refine MovesO.ite ?_ ?_
    | with_reducible exact MovesO.fault _
    | with_reducible exact MovesO.refused _
    | with_reducible refine Moves.ite ?_ ?_
    | with_reducible refine State.laneIssue_moves (fun _ => ?_) (by decide)
    | with_reducible apply Moves.step (State.issueRow_moves _ _ _ _)
    | with_reducible refine Moves.foldl (fun _ _ => ?_) ?_
    | decide
    | split
    | dsimp +zetaDelta only

theorem execLaneUnpk_moves (w d a fmt pos digit s) : MovesO [.time, .arrays, .lanes, .mem, .qf, .fc, .ob] s (execLaneUnpk w d a fmt pos digit s) := by
  unfold execLaneUnpk
  repeat' first
    | extract_lets
    | with_reducible exact Moves.refl _ _
    | with_reducible refine MovesO.next ?_
    | with_reducible refine MovesO.ite ?_ ?_
    | with_reducible exact MovesO.fault _
    | with_reducible exact MovesO.refused _
    | with_reducible refine Moves.ite ?_ ?_
    | with_reducible refine State.laneIssue_moves (fun _ => ?_) (by decide)
    | with_reducible apply Moves.step (State.issueRow_moves _ _ _ _)
    | with_reducible refine Moves.foldl (fun _ _ => ?_) ?_
    | decide
    | split
    | dsimp +zetaDelta only

theorem execLaneQsend_moves (r d q s) : MovesO [.time, .arrays, .lanes, .mem, .qf, .fc, .ob] s (execLaneQsend r d q s) := by
  unfold execLaneQsend State.laneQueue
  repeat' first
    | extract_lets
    | with_reducible exact Moves.refl _ _
    | with_reducible refine MovesO.next ?_
    | with_reducible refine MovesO.ite ?_ ?_
    | with_reducible exact MovesO.fault _
    | with_reducible exact MovesO.refused _
    | with_reducible refine Moves.ite ?_ ?_
    | with_reducible refine State.rowIssue_moves (fun _ => ?_) (by decide)
    | with_reducible apply Moves.step (State.sendQueue_moves _ _ _)
    | with_reducible apply Moves.step (State.rowNext_moves _ _ _)
    | with_reducible apply Moves.step (State.skipQueue_moves _ _)
    | with_reducible refine Moves.foldl (fun _ _ => ?_) ?_
    | decide
    | split
    | dsimp +zetaDelta only

theorem execLaneShli_moves (w d a imm s) : MovesO [.time, .arrays, .lanes, .mem, .qf, .fc, .ob] s (execLaneShli w d a imm s) := by
  unfold execLaneShli
  repeat' first
    | extract_lets
    | with_reducible exact Moves.refl _ _
    | with_reducible refine MovesO.next ?_
    | with_reducible refine MovesO.ite ?_ ?_
    | with_reducible exact MovesO.fault _
    | with_reducible exact MovesO.refused _
    | with_reducible refine Moves.ite ?_ ?_
    | with_reducible refine State.laneIssue_moves (fun _ => ?_) (by decide)
    | with_reducible apply Moves.step (State.unary_moves _ _ _ _ _)
    | with_reducible refine Moves.foldl (fun _ _ => ?_) ?_
    | decide
    | split
    | dsimp +zetaDelta only

theorem execLaneFlog_moves (w d a s) : MovesO [.time, .arrays, .lanes, .mem, .qf, .fc, .ob] s (execLaneFlog w d a s) := by
  unfold execLaneFlog
  repeat' first
    | extract_lets
    | with_reducible exact Moves.refl _ _
    | with_reducible refine MovesO.next ?_
    | with_reducible refine MovesO.ite ?_ ?_
    | with_reducible exact MovesO.fault _
    | with_reducible exact MovesO.refused _
    | with_reducible refine Moves.ite ?_ ?_
    | with_reducible refine State.laneIssue_moves (fun _ => ?_) (by decide)
    | with_reducible apply Moves.step (State.unary_moves _ _ _ _ _)
    | with_reducible refine Moves.foldl (fun _ _ => ?_) ?_
    | decide
    | split
    | dsimp +zetaDelta only

theorem execLaneFclass_moves (w d a classes s) : MovesO [.time, .arrays, .lanes, .mem, .qf, .fc, .ob] s (execLaneFclass w d a classes s) := by
  unfold execLaneFclass
  repeat' first
    | extract_lets
    | with_reducible exact Moves.refl _ _
    | with_reducible refine MovesO.next ?_
    | with_reducible refine MovesO.ite ?_ ?_
    | with_reducible exact MovesO.fault _
    | with_reducible exact MovesO.refused _
    | with_reducible refine Moves.ite ?_ ?_
    | with_reducible refine State.laneIssue_moves (fun _ => ?_) (by decide)
    | with_reducible apply Moves.step (State.issueRow_moves _ _ _ _)
    | with_reducible refine Moves.foldl (fun _ _ => ?_) ?_
    | decide
    | split
    | dsimp +zetaDelta only

theorem execLaneShl_moves (w d a b s) : MovesO [.time, .arrays, .lanes, .mem, .qf, .fc, .ob] s (execLaneShl w d a b s) := by
  unfold execLaneShl
  repeat' first
    | extract_lets
    | with_reducible exact Moves.refl _ _
    | with_reducible refine MovesO.next ?_
    | with_reducible refine MovesO.ite ?_ ?_
    | with_reducible exact MovesO.fault _
    | with_reducible exact MovesO.refused _
    | with_reducible refine Moves.ite ?_ ?_
    | with_reducible refine State.laneIssue_moves (fun _ => ?_) (by decide)
    | with_reducible apply Moves.step (State.binary_moves _ _ _ _ _ _)
    | with_reducible refine Moves.foldl (fun _ _ => ?_) ?_
    | decide
    | split
    | dsimp +zetaDelta only

theorem execLaneStr_moves (w d a imm s) : MovesO [.time, .arrays, .lanes, .mem, .qf, .fc, .ob] s (execLaneStr w d a imm s) := by
  unfold execLaneStr
  repeat' first
    | extract_lets
    | with_reducible exact Moves.refl _ _
    | with_reducible refine MovesO.next ?_
    | with_reducible refine MovesO.ite ?_ ?_
    | with_reducible exact MovesO.fault _
    | with_reducible exact MovesO.refused _
    | with_reducible refine Moves.ite ?_ ?_
    | with_reducible refine State.laneIssue_moves (fun _ => ?_) (by decide)
    | with_reducible apply Moves.step (State.laneStore_moves _ _ _ _ _)
    | with_reducible refine Moves.foldl (fun _ _ => ?_) ?_
    | decide
    | split
    | dsimp +zetaDelta only

theorem execLaneNop_moves (r s) : MovesO [.time, .arrays, .lanes, .mem, .qf, .fc, .ob] s (execLaneNop r s) := by
  unfold execLaneNop
  repeat' first
    | extract_lets
    | with_reducible exact Moves.refl _ _
    | with_reducible refine MovesO.next ?_
    | with_reducible refine MovesO.ite ?_ ?_
    | with_reducible exact MovesO.fault _
    | with_reducible exact MovesO.refused _
    | with_reducible refine Moves.ite ?_ ?_
    | with_reducible refine State.rowIssue_moves (fun _ => ?_) (by decide)
    | with_reducible apply Moves.step (State.issueRow_moves _ _ _ _)
    | with_reducible refine Moves.foldl (fun _ _ => ?_) ?_
    | decide
    | split
    | dsimp +zetaDelta only

theorem execLaneXori_moves (w d a imm s) : MovesO [.time, .arrays, .lanes, .mem, .qf, .fc, .ob] s (execLaneXori w d a imm s) := by
  unfold execLaneXori
  repeat' first
    | extract_lets
    | with_reducible exact Moves.refl _ _
    | with_reducible refine MovesO.next ?_
    | with_reducible refine MovesO.ite ?_ ?_
    | with_reducible exact MovesO.fault _
    | with_reducible exact MovesO.refused _
    | with_reducible refine Moves.ite ?_ ?_
    | with_reducible refine State.laneIssue_moves (fun _ => ?_) (by decide)
    | with_reducible apply Moves.step (State.unary_moves _ _ _ _ _)
    | with_reducible refine Moves.foldl (fun _ _ => ?_) ?_
    | decide
    | split
    | dsimp +zetaDelta only

theorem execLaneIsub_moves (w d a b s) : MovesO [.time, .arrays, .lanes, .mem, .qf, .fc, .ob] s (execLaneIsub w d a b s) := by
  unfold execLaneIsub
  repeat' first
    | extract_lets
    | with_reducible exact Moves.refl _ _
    | with_reducible refine MovesO.next ?_
    | with_reducible refine MovesO.ite ?_ ?_
    | with_reducible exact MovesO.fault _
    | with_reducible exact MovesO.refused _
    | with_reducible refine Moves.ite ?_ ?_
    | with_reducible refine State.laneIssue_moves (fun _ => ?_) (by decide)
    | with_reducible apply Moves.step (State.binary_moves _ _ _ _ _ _)
    | with_reducible refine Moves.foldl (fun _ _ => ?_) ?_
    | decide
    | split
    | dsimp +zetaDelta only

theorem execLaneFlog2_moves (w d a s) : MovesO [.time, .arrays, .lanes, .mem, .qf, .fc, .ob] s (execLaneFlog2 w d a s) := by
  unfold execLaneFlog2
  repeat' first
    | extract_lets
    | with_reducible exact Moves.refl _ _
    | with_reducible refine MovesO.next ?_
    | with_reducible refine MovesO.ite ?_ ?_
    | with_reducible exact MovesO.fault _
    | with_reducible exact MovesO.refused _
    | with_reducible refine Moves.ite ?_ ?_
    | with_reducible refine State.laneIssue_moves (fun _ => ?_) (by decide)
    | with_reducible apply Moves.step (State.unary_moves _ _ _ _ _)
    | with_reducible refine Moves.foldl (fun _ _ => ?_) ?_
    | decide
    | split
    | dsimp +zetaDelta only

theorem execLaneFmul_moves (w d a b s) : MovesO [.time, .arrays, .lanes, .mem, .qf, .fc, .ob] s (execLaneFmul w d a b s) := by
  unfold execLaneFmul
  repeat' first
    | extract_lets
    | with_reducible exact Moves.refl _ _
    | with_reducible refine MovesO.next ?_
    | with_reducible refine MovesO.ite ?_ ?_
    | with_reducible exact MovesO.fault _
    | with_reducible exact MovesO.refused _
    | with_reducible refine Moves.ite ?_ ?_
    | with_reducible refine State.laneIssue_moves (fun _ => ?_) (by decide)
    | with_reducible apply Moves.step (State.binary_moves _ _ _ _ _ _)
    | with_reducible refine Moves.foldl (fun _ _ => ?_) ?_
    | decide
    | split
    | dsimp +zetaDelta only

theorem execLaneSar_moves (w d a b s) : MovesO [.time, .arrays, .lanes, .mem, .qf, .fc, .ob] s (execLaneSar w d a b s) := by
  unfold execLaneSar
  repeat' first
    | extract_lets
    | with_reducible exact Moves.refl _ _
    | with_reducible refine MovesO.next ?_
    | with_reducible refine MovesO.ite ?_ ?_
    | with_reducible exact MovesO.fault _
    | with_reducible exact MovesO.refused _
    | with_reducible refine Moves.ite ?_ ?_
    | with_reducible refine State.laneIssue_moves (fun _ => ?_) (by decide)
    | with_reducible apply Moves.step (State.binary_moves _ _ _ _ _ _)
    | with_reducible refine Moves.foldl (fun _ _ => ?_) ?_
    | decide
    | split
    | dsimp +zetaDelta only

theorem execLaneFaddi_moves (w d a imm s) : MovesO [.time, .arrays, .lanes, .mem, .qf, .fc, .ob] s (execLaneFaddi w d a imm s) := by
  unfold execLaneFaddi
  repeat' first
    | extract_lets
    | with_reducible exact Moves.refl _ _
    | with_reducible refine MovesO.next ?_
    | with_reducible refine MovesO.ite ?_ ?_
    | with_reducible exact MovesO.fault _
    | with_reducible exact MovesO.refused _
    | with_reducible refine Moves.ite ?_ ?_
    | with_reducible refine State.laneIssue_moves (fun _ => ?_) (by decide)
    | with_reducible apply Moves.step (State.unary_moves _ _ _ _ _)
    | with_reducible refine Moves.foldl (fun _ _ => ?_) ?_
    | decide
    | split
    | dsimp +zetaDelta only

theorem execLaneLdb_moves (w d a imm s) : MovesO [.time, .arrays, .lanes, .mem, .qf, .fc, .ob] s (execLaneLdb w d a imm s) := by
  unfold execLaneLdb
  repeat' first
    | extract_lets
    | with_reducible exact Moves.refl _ _
    | with_reducible refine MovesO.next ?_
    | with_reducible refine MovesO.ite ?_ ?_
    | with_reducible exact MovesO.fault _
    | with_reducible exact MovesO.refused _
    | with_reducible refine Moves.ite ?_ ?_
    | with_reducible refine State.laneIssue_moves (fun _ => ?_) (by decide)
    | with_reducible apply Moves.step (State.laneLoad_moves _ _ _ _ _)
    | with_reducible refine Moves.foldl (fun _ _ => ?_) ?_
    | decide
    | split
    | dsimp +zetaDelta only

theorem execLaneLdp_moves (w d a imm part s) : MovesO [.time, .arrays, .lanes, .mem, .qf, .fc, .ob] s (execLaneLdp w d a imm part s) := by
  unfold execLaneLdp
  repeat' first
    | extract_lets
    | with_reducible exact Moves.refl _ _
    | with_reducible refine MovesO.next ?_
    | with_reducible refine MovesO.ite ?_ ?_
    | with_reducible exact MovesO.fault _
    | with_reducible exact MovesO.refused _
    | with_reducible refine Moves.ite ?_ ?_
    | with_reducible refine State.laneIssue_moves (fun _ => ?_) (by decide)
    | with_reducible apply Moves.step (State.laneLoad_moves _ _ _ _ _)
    | with_reducible refine Moves.foldl (fun _ _ => ?_) ?_
    | decide
    | split
    | dsimp +zetaDelta only

theorem execLaneFmuli_moves (w d a imm s) : MovesO [.time, .arrays, .lanes, .mem, .qf, .fc, .ob] s (execLaneFmuli w d a imm s) := by
  unfold execLaneFmuli
  repeat' first
    | extract_lets
    | with_reducible exact Moves.refl _ _
    | with_reducible refine MovesO.next ?_
    | with_reducible refine MovesO.ite ?_ ?_
    | with_reducible exact MovesO.fault _
    | with_reducible exact MovesO.refused _
    | with_reducible refine Moves.ite ?_ ?_
    | with_reducible refine State.laneIssue_moves (fun _ => ?_) (by decide)
    | with_reducible apply Moves.step (State.unary_moves _ _ _ _ _)
    | with_reducible refine Moves.foldl (fun _ _ => ?_) ?_
    | decide
    | split
    | dsimp +zetaDelta only

theorem execLaneFrsqrt_moves (w d a s) : MovesO [.time, .arrays, .lanes, .mem, .qf, .fc, .ob] s (execLaneFrsqrt w d a s) := by
  unfold execLaneFrsqrt
  repeat' first
    | extract_lets
    | with_reducible exact Moves.refl _ _
    | with_reducible refine MovesO.next ?_
    | with_reducible refine MovesO.ite ?_ ?_
    | with_reducible exact MovesO.fault _
    | with_reducible exact MovesO.refused _
    | with_reducible refine Moves.ite ?_ ?_
    | with_reducible refine State.laneIssue_moves (fun _ => ?_) (by decide)
    | with_reducible apply Moves.step (State.unary_moves _ _ _ _ _)
    | with_reducible refine Moves.foldl (fun _ _ => ?_) ?_
    | decide
    | split
    | dsimp +zetaDelta only

theorem execLaneAndi_moves (w d a imm s) : MovesO [.time, .arrays, .lanes, .mem, .qf, .fc, .ob] s (execLaneAndi w d a imm s) := by
  unfold execLaneAndi
  repeat' first
    | extract_lets
    | with_reducible exact Moves.refl _ _
    | with_reducible refine MovesO.next ?_
    | with_reducible refine MovesO.ite ?_ ?_
    | with_reducible exact MovesO.fault _
    | with_reducible exact MovesO.refused _
    | with_reducible refine Moves.ite ?_ ?_
    | with_reducible refine State.laneIssue_moves (fun _ => ?_) (by decide)
    | with_reducible apply Moves.step (State.unary_moves _ _ _ _ _)
    | with_reducible refine Moves.foldl (fun _ _ => ?_) ?_
    | decide
    | split
    | dsimp +zetaDelta only

theorem execLaneQrecv_moves (w d q s) : MovesO [.time, .arrays, .lanes, .mem, .qf, .fc, .ob] s (execLaneQrecv w d q s) := by
  unfold execLaneQrecv State.laneQueue
  repeat' first
    | extract_lets
    | with_reducible exact Moves.refl _ _
    | with_reducible refine MovesO.next ?_
    | with_reducible refine MovesO.ite ?_ ?_
    | with_reducible exact MovesO.fault _
    | with_reducible exact MovesO.refused _
    | with_reducible refine Moves.ite ?_ ?_
    | with_reducible refine State.laneIssue_moves (fun _ => ?_) (by decide)
    | with_reducible apply Moves.step (State.takeQueue_moves _ _)
    | with_reducible apply Moves.step (State.setCluster_moves _ _ _)
    | with_reducible apply Moves.step (State.noteArith_moves _ _ _)
    | with_reducible apply Moves.step (State.rowNext_moves _ _ _)
    | with_reducible apply Moves.step (State.skipQueue_moves _ _)
    | with_reducible refine Moves.foldl (fun _ _ => ?_) ?_
    | decide
    | split
    | dsimp +zetaDelta only

theorem execLaneImax_moves (w d a b s) : MovesO [.time, .arrays, .lanes, .mem, .qf, .fc, .ob] s (execLaneImax w d a b s) := by
  unfold execLaneImax
  repeat' first
    | extract_lets
    | with_reducible exact Moves.refl _ _
    | with_reducible refine MovesO.next ?_
    | with_reducible refine MovesO.ite ?_ ?_
    | with_reducible exact MovesO.fault _
    | with_reducible exact MovesO.refused _
    | with_reducible refine Moves.ite ?_ ?_
    | with_reducible refine State.laneIssue_moves (fun _ => ?_) (by decide)
    | with_reducible apply Moves.step (State.binary_moves _ _ _ _ _ _)
    | with_reducible refine Moves.foldl (fun _ _ => ?_) ?_
    | decide
    | split
    | dsimp +zetaDelta only

theorem execLaneAnd_moves (w d a b s) : MovesO [.time, .arrays, .lanes, .mem, .qf, .fc, .ob] s (execLaneAnd w d a b s) := by
  unfold execLaneAnd
  repeat' first
    | extract_lets
    | with_reducible exact Moves.refl _ _
    | with_reducible refine MovesO.next ?_
    | with_reducible refine MovesO.ite ?_ ?_
    | with_reducible exact MovesO.fault _
    | with_reducible exact MovesO.refused _
    | with_reducible refine Moves.ite ?_ ?_
    | with_reducible refine State.laneIssue_moves (fun _ => ?_) (by decide)
    | with_reducible apply Moves.step (State.binary_moves _ _ _ _ _ _)
    | with_reducible refine Moves.foldl (fun _ _ => ?_) ?_
    | decide
    | split
    | dsimp +zetaDelta only

theorem execLaneCvtfb_moves (w d a rnd s) : MovesO [.time, .arrays, .lanes, .mem, .qf, .fc, .ob] s (execLaneCvtfb w d a rnd s) := by
  unfold execLaneCvtfb
  repeat' first
    | extract_lets
    | with_reducible exact Moves.refl _ _
    | with_reducible refine MovesO.next ?_
    | with_reducible refine MovesO.ite ?_ ?_
    | with_reducible exact MovesO.fault _
    | with_reducible exact MovesO.refused _
    | with_reducible refine Moves.ite ?_ ?_
    | with_reducible refine State.laneIssue_moves (fun _ => ?_) (by decide)
    | with_reducible apply Moves.step (State.rounded_moves _ _ _ _ _ _)
    | with_reducible refine Moves.foldl (fun _ _ => ?_) ?_
    | decide
    | split
    | dsimp +zetaDelta only

theorem execLanePballot_moves (w d a s) : MovesO [.time, .arrays, .lanes, .mem, .qf, .fc, .ob] s (execLanePballot w d a s) := by
  unfold execLanePballot
  repeat' first
    | extract_lets
    | with_reducible exact Moves.refl _ _
    | with_reducible refine MovesO.next ?_
    | with_reducible refine MovesO.ite ?_ ?_
    | with_reducible exact MovesO.fault _
    | with_reducible exact MovesO.refused _
    | with_reducible refine Moves.ite ?_ ?_
    | with_reducible refine State.laneIssue_moves (fun _ => ?_) (by decide)
    | with_reducible apply Moves.step (State.issueRow_moves _ _ _ _)
    | with_reducible refine Moves.foldl (fun _ _ => ?_) ?_
    | decide
    | split
    | dsimp +zetaDelta only

theorem execLaneXrot_moves (w d a group k s) : MovesO [.time, .arrays, .lanes, .mem, .qf, .fc, .ob] s (execLaneXrot w d a group k s) := by
  unfold execLaneXrot
  repeat' first
    | extract_lets
    | with_reducible exact Moves.refl _ _
    | with_reducible refine MovesO.next ?_
    | with_reducible refine MovesO.ite ?_ ?_
    | with_reducible exact MovesO.fault _
    | with_reducible exact MovesO.refused _
    | with_reducible refine Moves.ite ?_ ?_
    | with_reducible refine State.laneIssue_moves (fun _ => ?_) (by decide)
    | with_reducible apply Moves.step (State.issueRow_moves _ _ _ _)
    | with_reducible refine Moves.foldl (fun _ _ => ?_) ?_
    | decide
    | split
    | dsimp +zetaDelta only

theorem execLaneFfms_moves (w d a b c s) : MovesO [.time, .arrays, .lanes, .mem, .qf, .fc, .ob] s (execLaneFfms w d a b c s) := by
  unfold execLaneFfms
  repeat' first
    | extract_lets
    | with_reducible exact Moves.refl _ _
    | with_reducible refine MovesO.next ?_
    | with_reducible refine MovesO.ite ?_ ?_
    | with_reducible exact MovesO.fault _
    | with_reducible exact MovesO.refused _
    | with_reducible refine Moves.ite ?_ ?_
    | with_reducible refine State.laneIssue_moves (fun _ => ?_) (by decide)
    | with_reducible apply Moves.step (State.ternary_moves _ _ _ _ _ _ _)
    | with_reducible refine Moves.foldl (fun _ _ => ?_) ?_
    | decide
    | split
    | dsimp +zetaDelta only

theorem execLaneSel_moves (w d a b p s) : MovesO [.time, .arrays, .lanes, .mem, .qf, .fc, .ob] s (execLaneSel w d a b p s) := by
  unfold execLaneSel
  repeat' first
    | extract_lets
    | with_reducible exact Moves.refl _ _
    | with_reducible refine MovesO.next ?_
    | with_reducible refine MovesO.ite ?_ ?_
    | with_reducible exact MovesO.fault _
    | with_reducible exact MovesO.refused _
    | with_reducible refine Moves.ite ?_ ?_
    | with_reducible refine State.laneIssue_moves (fun _ => ?_) (by decide)
    | with_reducible apply Moves.step (State.issueRow_moves _ _ _ _)
    | with_reducible refine Moves.foldl (fun _ _ => ?_) ?_
    | decide
    | split
    | dsimp +zetaDelta only

theorem execLaneFsigm_moves (w d a s) : MovesO [.time, .arrays, .lanes, .mem, .qf, .fc, .ob] s (execLaneFsigm w d a s) := by
  unfold execLaneFsigm
  repeat' first
    | extract_lets
    | with_reducible exact Moves.refl _ _
    | with_reducible refine MovesO.next ?_
    | with_reducible refine MovesO.ite ?_ ?_
    | with_reducible exact MovesO.fault _
    | with_reducible exact MovesO.refused _
    | with_reducible refine Moves.ite ?_ ?_
    | with_reducible refine State.laneIssue_moves (fun _ => ?_) (by decide)
    | with_reducible apply Moves.step (State.unary_moves _ _ _ _ _)
    | with_reducible refine Moves.foldl (fun _ _ => ?_) ?_
    | decide
    | split
    | dsimp +zetaDelta only

theorem execLaneMxdiv_moves (w d a b fmt s) : MovesO [.time, .arrays, .lanes, .mem, .qf, .fc, .ob] s (execLaneMxdiv w d a b fmt s) := by
  unfold execLaneMxdiv
  repeat' first
    | extract_lets
    | with_reducible exact Moves.refl _ _
    | with_reducible refine MovesO.next ?_
    | with_reducible refine MovesO.ite ?_ ?_
    | with_reducible exact MovesO.fault _
    | with_reducible exact MovesO.refused _
    | with_reducible refine Moves.ite ?_ ?_
    | with_reducible refine State.laneIssue_moves (fun _ => ?_) (by decide)
    | with_reducible apply Moves.step (State.binary_moves _ _ _ _ _ _)
    | with_reducible refine Moves.foldl (fun _ _ => ?_) ?_
    | decide
    | split
    | dsimp +zetaDelta only

theorem execLaneLoopend_moves (r p s) : MovesO [.time, .arrays, .lanes, .mem, .qf, .fc, .ob] s (execLaneLoopend r p s) := by
  unfold execLaneLoopend
  repeat' first
    | extract_lets
    | with_reducible exact Moves.refl _ _
    | with_reducible refine MovesO.next ?_
    | with_reducible refine MovesO.ite ?_ ?_
    | with_reducible exact MovesO.fault _
    | with_reducible exact MovesO.refused _
    | with_reducible refine Moves.ite ?_ ?_
    | with_reducible refine State.rowIssue_moves (fun _ => ?_) (by decide)
    | with_reducible apply Moves.step (State.rowNext_moves _ _ _)
    | with_reducible apply Moves.step (State.setCluster_moves _ _ _)
    | with_reducible apply Moves.step (State.rowTo_moves _ _ _ _)
    | with_reducible refine Moves.foldl (fun _ _ => ?_) ?_
    | decide
    | split
    | dsimp +zetaDelta only

theorem execLaneCvtif_moves (w d a rnd s) : MovesO [.time, .arrays, .lanes, .mem, .qf, .fc, .ob] s (execLaneCvtif w d a rnd s) := by
  unfold execLaneCvtif
  repeat' first
    | extract_lets
    | with_reducible exact Moves.refl _ _
    | with_reducible refine MovesO.next ?_
    | with_reducible refine MovesO.ite ?_ ?_
    | with_reducible exact MovesO.fault _
    | with_reducible exact MovesO.refused _
    | with_reducible refine Moves.ite ?_ ?_
    | with_reducible refine State.laneIssue_moves (fun _ => ?_) (by decide)
    | with_reducible apply Moves.step (State.rounded_moves _ _ _ _ _ _)
    | with_reducible refine Moves.foldl (fun _ _ => ?_) ?_
    | decide
    | split
    | dsimp +zetaDelta only

theorem execLaneMovi_moves (w d imm s) : MovesO [.time, .arrays, .lanes, .mem, .qf, .fc, .ob] s (execLaneMovi w d imm s) := by
  unfold execLaneMovi
  repeat' first
    | extract_lets
    | with_reducible exact Moves.refl _ _
    | with_reducible refine MovesO.next ?_
    | with_reducible refine MovesO.ite ?_ ?_
    | with_reducible exact MovesO.fault _
    | with_reducible exact MovesO.refused _
    | with_reducible refine Moves.ite ?_ ?_
    | with_reducible refine State.laneIssue_moves (fun _ => ?_) (by decide)
    | with_reducible apply Moves.step (State.unary_moves _ _ _ _ _)
    | with_reducible refine Moves.foldl (fun _ _ => ?_) ?_
    | decide
    | split
    | dsimp +zetaDelta only

theorem execLaneUmax_moves (w d a b s) : MovesO [.time, .arrays, .lanes, .mem, .qf, .fc, .ob] s (execLaneUmax w d a b s) := by
  unfold execLaneUmax
  repeat' first
    | extract_lets
    | with_reducible exact Moves.refl _ _
    | with_reducible refine MovesO.next ?_
    | with_reducible refine MovesO.ite ?_ ?_
    | with_reducible exact MovesO.fault _
    | with_reducible exact MovesO.refused _
    | with_reducible refine Moves.ite ?_ ?_
    | with_reducible refine State.laneIssue_moves (fun _ => ?_) (by decide)
    | with_reducible apply Moves.step (State.binary_moves _ _ _ _ _ _)
    | with_reducible refine Moves.foldl (fun _ _ => ?_) ?_
    | decide
    | split
    | dsimp +zetaDelta only

theorem execLaneRed_moves (w slot a sub s) : MovesO [.time, .arrays, .lanes, .mem, .qf, .fc, .ob] s (execLaneRed w slot a sub s) := by
  unfold execLaneRed
  repeat' first
    | extract_lets
    | with_reducible exact Moves.refl _ _
    | with_reducible refine MovesO.next ?_
    | with_reducible refine MovesO.ite ?_ ?_
    | with_reducible exact MovesO.fault _
    | with_reducible exact MovesO.refused _
    | with_reducible refine Moves.ite ?_ ?_
    | with_reducible refine State.laneIssue_moves (fun _ => ?_) (by decide)
    | with_reducible apply Moves.step (State.issueRow_moves _ _ _ _)
    | with_reducible refine Moves.foldl (fun _ _ => ?_) ?_
    | decide
    | split
    | dsimp +zetaDelta only

theorem execLaneUmin_moves (w d a b s) : MovesO [.time, .arrays, .lanes, .mem, .qf, .fc, .ob] s (execLaneUmin w d a b s) := by
  unfold execLaneUmin
  repeat' first
    | extract_lets
    | with_reducible exact Moves.refl _ _
    | with_reducible refine MovesO.next ?_
    | with_reducible refine MovesO.ite ?_ ?_
    | with_reducible exact MovesO.fault _
    | with_reducible exact MovesO.refused _
    | with_reducible refine Moves.ite ?_ ?_
    | with_reducible refine State.laneIssue_moves (fun _ => ?_) (by decide)
    | with_reducible apply Moves.step (State.binary_moves _ _ _ _ _ _)
    | with_reducible refine Moves.foldl (fun _ _ => ?_) ?_
    | decide
    | split
    | dsimp +zetaDelta only

theorem execLaneFtanh_moves (w d a s) : MovesO [.time, .arrays, .lanes, .mem, .qf, .fc, .ob] s (execLaneFtanh w d a s) := by
  unfold execLaneFtanh
  repeat' first
    | extract_lets
    | with_reducible exact Moves.refl _ _
    | with_reducible refine MovesO.next ?_
    | with_reducible refine MovesO.ite ?_ ?_
    | with_reducible exact MovesO.fault _
    | with_reducible exact MovesO.refused _
    | with_reducible refine Moves.ite ?_ ?_
    | with_reducible refine State.laneIssue_moves (fun _ => ?_) (by decide)
    | with_reducible apply Moves.step (State.unary_moves _ _ _ _ _)
    | with_reducible refine Moves.foldl (fun _ _ => ?_) ?_
    | decide
    | split
    | dsimp +zetaDelta only

theorem execLaneImin_moves (w d a b s) : MovesO [.time, .arrays, .lanes, .mem, .qf, .fc, .ob] s (execLaneImin w d a b s) := by
  unfold execLaneImin
  repeat' first
    | extract_lets
    | with_reducible exact Moves.refl _ _
    | with_reducible refine MovesO.next ?_
    | with_reducible refine MovesO.ite ?_ ?_
    | with_reducible exact MovesO.fault _
    | with_reducible exact MovesO.refused _
    | with_reducible refine Moves.ite ?_ ?_
    | with_reducible refine State.laneIssue_moves (fun _ => ?_) (by decide)
    | with_reducible apply Moves.step (State.binary_moves _ _ _ _ _ _)
    | with_reducible refine Moves.foldl (fun _ _ => ?_) ?_
    | decide
    | split
    | dsimp +zetaDelta only

theorem execLaneSpr_moves (w d sel s) : MovesO [.time, .arrays, .lanes, .mem, .qf, .fc, .ob] s (execLaneSpr w d sel s) := by
  unfold execLaneSpr
  repeat' first
    | extract_lets
    | with_reducible exact Moves.refl _ _
    | with_reducible refine MovesO.next ?_
    | with_reducible refine MovesO.ite ?_ ?_
    | with_reducible exact MovesO.fault _
    | with_reducible exact MovesO.refused _
    | with_reducible refine Moves.ite ?_ ?_
    | with_reducible refine State.laneIssue_moves (fun _ => ?_) (by decide)
    | with_reducible apply Moves.step (State.issueRow_moves _ _ _ _)
    | with_reducible refine Moves.foldl (fun _ _ => ?_) ?_
    | decide
    | split
    | dsimp +zetaDelta only

theorem execLaneFcospi_moves (w d a s) : MovesO [.time, .arrays, .lanes, .mem, .qf, .fc, .ob] s (execLaneFcospi w d a s) := by
  unfold execLaneFcospi
  repeat' first
    | extract_lets
    | with_reducible exact Moves.refl _ _
    | with_reducible refine MovesO.next ?_
    | with_reducible refine MovesO.ite ?_ ?_
    | with_reducible exact MovesO.fault _
    | with_reducible exact MovesO.refused _
    | with_reducible refine Moves.ite ?_ ?_
    | with_reducible refine State.laneIssue_moves (fun _ => ?_) (by decide)
    | with_reducible apply Moves.step (State.unary_moves _ _ _ _ _)
    | with_reducible refine Moves.foldl (fun _ _ => ?_) ?_
    | decide
    | split
    | dsimp +zetaDelta only

theorem execLaneLdr_moves (w d a imm s) : MovesO [.time, .arrays, .lanes, .mem, .qf, .fc, .ob] s (execLaneLdr w d a imm s) := by
  unfold execLaneLdr
  repeat' first
    | extract_lets
    | with_reducible exact Moves.refl _ _
    | with_reducible refine MovesO.next ?_
    | with_reducible refine MovesO.ite ?_ ?_
    | with_reducible exact MovesO.fault _
    | with_reducible exact MovesO.refused _
    | with_reducible refine Moves.ite ?_ ?_
    | with_reducible refine State.laneIssue_moves (fun _ => ?_) (by decide)
    | with_reducible apply Moves.step (State.laneLoad_moves _ _ _ _ _)
    | with_reducible refine Moves.foldl (fun _ _ => ?_) ?_
    | decide
    | split
    | dsimp +zetaDelta only

theorem execLaneFabs_moves (w d a s) : MovesO [.time, .arrays, .lanes, .mem, .qf, .fc, .ob] s (execLaneFabs w d a s) := by
  unfold execLaneFabs
  repeat' first
    | extract_lets
    | with_reducible exact Moves.refl _ _
    | with_reducible refine MovesO.next ?_
    | with_reducible refine MovesO.ite ?_ ?_
    | with_reducible exact MovesO.fault _
    | with_reducible exact MovesO.refused _
    | with_reducible refine Moves.ite ?_ ?_
    | with_reducible refine State.laneIssue_moves (fun _ => ?_) (by decide)
    | with_reducible apply Moves.step (State.unary_moves _ _ _ _ _)
    | with_reducible refine Moves.foldl (fun _ _ => ?_) ?_
    | decide
    | split
    | dsimp +zetaDelta only

theorem execLaneQwait_moves (r q s) : MovesO [.time, .arrays, .lanes, .mem, .qf, .fc, .ob] s (execLaneQwait r q s) := by
  unfold execLaneQwait State.laneQueue
  repeat' first
    | extract_lets
    | with_reducible exact Moves.refl _ _
    | with_reducible refine MovesO.next ?_
    | with_reducible refine MovesO.ite ?_ ?_
    | with_reducible exact MovesO.fault _
    | with_reducible exact MovesO.refused _
    | with_reducible refine Moves.ite ?_ ?_
    | with_reducible refine State.rowIssue_moves (fun _ => ?_) (by decide)
    | with_reducible apply Moves.step (State.takeQueue_moves _ _)
    | with_reducible apply Moves.step (State.rowNext_moves _ _ _)
    | with_reducible apply Moves.step (State.skipQueue_moves _ _)
    | with_reducible refine Moves.foldl (fun _ _ => ?_) ?_
    | decide
    | split
    | dsimp +zetaDelta only

theorem execLaneFfma_moves (w d a b c s) : MovesO [.time, .arrays, .lanes, .mem, .qf, .fc, .ob] s (execLaneFfma w d a b c s) := by
  unfold execLaneFfma
  repeat' first
    | extract_lets
    | with_reducible exact Moves.refl _ _
    | with_reducible refine MovesO.next ?_
    | with_reducible refine MovesO.ite ?_ ?_
    | with_reducible exact MovesO.fault _
    | with_reducible exact MovesO.refused _
    | with_reducible refine Moves.ite ?_ ?_
    | with_reducible refine State.laneIssue_moves (fun _ => ?_) (by decide)
    | with_reducible apply Moves.step (State.ternary_moves _ _ _ _ _ _ _)
    | with_reducible refine Moves.foldl (fun _ _ => ?_) ?_
    | decide
    | split
    | dsimp +zetaDelta only

theorem execLaneStp_moves (w d a imm part s) : MovesO [.time, .arrays, .lanes, .mem, .qf, .fc, .ob] s (execLaneStp w d a imm part s) := by
  unfold execLaneStp
  repeat' first
    | extract_lets
    | with_reducible exact Moves.refl _ _
    | with_reducible refine MovesO.next ?_
    | with_reducible refine MovesO.ite ?_ ?_
    | with_reducible exact MovesO.fault _
    | with_reducible exact MovesO.refused _
    | with_reducible refine Moves.ite ?_ ?_
    | with_reducible refine State.laneIssue_moves (fun _ => ?_) (by decide)
    | with_reducible apply Moves.step (State.laneStore_moves _ _ _ _ _)
    | with_reducible refine Moves.foldl (fun _ _ => ?_) ?_
    | decide
    | split
    | dsimp +zetaDelta only

theorem execLaneXzip_moves (w d a s) : MovesO [.time, .arrays, .lanes, .mem, .qf, .fc, .ob] s (execLaneXzip w d a s) := by
  unfold execLaneXzip
  repeat' first
    | extract_lets
    | with_reducible exact Moves.refl _ _
    | with_reducible refine MovesO.next ?_
    | with_reducible refine MovesO.ite ?_ ?_
    | with_reducible exact MovesO.fault _
    | with_reducible exact MovesO.refused _
    | with_reducible refine Moves.ite ?_ ?_
    | with_reducible refine State.laneIssue_moves (fun _ => ?_) (by decide)
    | with_reducible apply Moves.step (State.issueRow_moves _ _ _ _)
    | with_reducible refine Moves.foldl (fun _ _ => ?_) ?_
    | decide
    | split
    | dsimp +zetaDelta only

theorem execLaneFrcp_moves (w d a s) : MovesO [.time, .arrays, .lanes, .mem, .qf, .fc, .ob] s (execLaneFrcp w d a s) := by
  unfold execLaneFrcp
  repeat' first
    | extract_lets
    | with_reducible exact Moves.refl _ _
    | with_reducible refine MovesO.next ?_
    | with_reducible refine MovesO.ite ?_ ?_
    | with_reducible exact MovesO.fault _
    | with_reducible exact MovesO.refused _
    | with_reducible refine Moves.ite ?_ ?_
    | with_reducible refine State.laneIssue_moves (fun _ => ?_) (by decide)
    | with_reducible apply Moves.step (State.unary_moves _ _ _ _ _)
    | with_reducible refine Moves.foldl (fun _ _ => ?_) ?_
    | decide
    | split
    | dsimp +zetaDelta only

theorem execLaneXbcast_moves (w d a group k s) : MovesO [.time, .arrays, .lanes, .mem, .qf, .fc, .ob] s (execLaneXbcast w d a group k s) := by
  unfold execLaneXbcast
  repeat' first
    | extract_lets
    | with_reducible exact Moves.refl _ _
    | with_reducible refine MovesO.next ?_
    | with_reducible refine MovesO.ite ?_ ?_
    | with_reducible exact MovesO.fault _
    | with_reducible exact MovesO.refused _
    | with_reducible refine Moves.ite ?_ ?_
    | with_reducible refine State.laneIssue_moves (fun _ => ?_) (by decide)
    | with_reducible apply Moves.step (State.issueRow_moves _ _ _ _)
    | with_reducible refine Moves.foldl (fun _ _ => ?_) ?_
    | decide
    | split
    | dsimp +zetaDelta only

theorem execLaneFneg_moves (w d a s) : MovesO [.time, .arrays, .lanes, .mem, .qf, .fc, .ob] s (execLaneFneg w d a s) := by
  unfold execLaneFneg
  repeat' first
    | extract_lets
    | with_reducible exact Moves.refl _ _
    | with_reducible refine MovesO.next ?_
    | with_reducible refine MovesO.ite ?_ ?_
    | with_reducible exact MovesO.fault _
    | with_reducible exact MovesO.refused _
    | with_reducible refine Moves.ite ?_ ?_
    | with_reducible refine State.laneIssue_moves (fun _ => ?_) (by decide)
    | with_reducible apply Moves.step (State.unary_moves _ _ _ _ _)
    | with_reducible refine Moves.foldl (fun _ _ => ?_) ?_
    | decide
    | split
    | dsimp +zetaDelta only

theorem execLaneFsqrt_moves (w d a s) : MovesO [.time, .arrays, .lanes, .mem, .qf, .fc, .ob] s (execLaneFsqrt w d a s) := by
  unfold execLaneFsqrt
  repeat' first
    | extract_lets
    | with_reducible exact Moves.refl _ _
    | with_reducible refine MovesO.next ?_
    | with_reducible refine MovesO.ite ?_ ?_
    | with_reducible exact MovesO.fault _
    | with_reducible exact MovesO.refused _
    | with_reducible refine Moves.ite ?_ ?_
    | with_reducible refine State.laneIssue_moves (fun _ => ?_) (by decide)
    | with_reducible apply Moves.step (State.unary_moves _ _ _ _ _)
    | with_reducible refine Moves.foldl (fun _ _ => ?_) ?_
    | decide
    | split
    | dsimp +zetaDelta only

theorem execLaneMov_moves (w d a s) : MovesO [.time, .arrays, .lanes, .mem, .qf, .fc, .ob] s (execLaneMov w d a s) := by
  unfold execLaneMov
  repeat' first
    | extract_lets
    | with_reducible exact Moves.refl _ _
    | with_reducible refine MovesO.next ?_
    | with_reducible refine MovesO.ite ?_ ?_
    | with_reducible exact MovesO.fault _
    | with_reducible exact MovesO.refused _
    | with_reducible refine Moves.ite ?_ ?_
    | with_reducible refine State.laneIssue_moves (fun _ => ?_) (by decide)
    | with_reducible apply Moves.step (State.unary_moves _ _ _ _ _)
    | with_reducible refine Moves.foldl (fun _ _ => ?_) ?_
    | decide
    | split
    | dsimp +zetaDelta only

theorem execLaneImul_moves (w d a b s) : MovesO [.time, .arrays, .lanes, .mem, .qf, .fc, .ob] s (execLaneImul w d a b s) := by
  unfold execLaneImul
  repeat' first
    | extract_lets
    | with_reducible exact Moves.refl _ _
    | with_reducible refine MovesO.next ?_
    | with_reducible refine MovesO.ite ?_ ?_
    | with_reducible exact MovesO.fault _
    | with_reducible exact MovesO.refused _
    | with_reducible refine Moves.ite ?_ ?_
    | with_reducible refine State.laneIssue_moves (fun _ => ?_) (by decide)
    | with_reducible apply Moves.step (State.binary_moves _ _ _ _ _ _)
    | with_reducible refine Moves.foldl (fun _ _ => ?_) ?_
    | decide
    | split
    | dsimp +zetaDelta only

theorem execLaneSari_moves (w d a imm s) : MovesO [.time, .arrays, .lanes, .mem, .qf, .fc, .ob] s (execLaneSari w d a imm s) := by
  unfold execLaneSari
  repeat' first
    | extract_lets
    | with_reducible exact Moves.refl _ _
    | with_reducible refine MovesO.next ?_
    | with_reducible refine MovesO.ite ?_ ?_
    | with_reducible exact MovesO.fault _
    | with_reducible exact MovesO.refused _
    | with_reducible refine Moves.ite ?_ ?_
    | with_reducible refine State.laneIssue_moves (fun _ => ?_) (by decide)
    | with_reducible apply Moves.step (State.unary_moves _ _ _ _ _)
    | with_reducible refine Moves.foldl (fun _ _ => ?_) ?_
    | decide
    | split
    | dsimp +zetaDelta only

theorem execLaneShri_moves (w d a imm s) : MovesO [.time, .arrays, .lanes, .mem, .qf, .fc, .ob] s (execLaneShri w d a imm s) := by
  unfold execLaneShri
  repeat' first
    | extract_lets
    | with_reducible exact Moves.refl _ _
    | with_reducible refine MovesO.next ?_
    | with_reducible refine MovesO.ite ?_ ?_
    | with_reducible exact MovesO.fault _
    | with_reducible exact MovesO.refused _
    | with_reducible refine Moves.ite ?_ ?_
    | with_reducible refine State.laneIssue_moves (fun _ => ?_) (by decide)
    | with_reducible apply Moves.step (State.unary_moves _ _ _ _ _)
    | with_reducible refine Moves.foldl (fun _ _ => ?_) ?_
    | decide
    | split
    | dsimp +zetaDelta only

theorem execLaneSlset_moves (r slot window s) : MovesO [.time, .arrays, .lanes, .mem, .qf, .fc, .ob] s (execLaneSlset r slot window s) := by
  unfold execLaneSlset
  repeat' first
    | extract_lets
    | with_reducible exact Moves.refl _ _
    | with_reducible refine MovesO.next ?_
    | with_reducible refine MovesO.ite ?_ ?_
    | with_reducible exact MovesO.fault _
    | with_reducible exact MovesO.refused _
    | with_reducible refine Moves.ite ?_ ?_
    | with_reducible refine State.rowIssue_moves (fun _ => ?_) (by decide)
    | with_reducible apply Moves.step (State.issueRow_moves _ _ _ _)
    | with_reducible refine Moves.foldl (fun _ _ => ?_) ?_
    | decide
    | split
    | dsimp +zetaDelta only

theorem execLaneWadd_moves (w d a b s) : MovesO [.time, .arrays, .lanes, .mem, .qf, .fc, .ob] s (execLaneWadd w d a b s) := by
  unfold execLaneWadd
  repeat' first
    | extract_lets
    | with_reducible exact Moves.refl _ _
    | with_reducible refine MovesO.next ?_
    | with_reducible refine MovesO.ite ?_ ?_
    | with_reducible exact MovesO.fault _
    | with_reducible exact MovesO.refused _
    | with_reducible refine Moves.ite ?_ ?_
    | with_reducible refine State.laneIssue_moves (fun _ => ?_) (by decide)
    | with_reducible apply Moves.step (State.issueRow_moves _ _ _ _)
    | with_reducible refine Moves.foldl (fun _ _ => ?_) ?_
    | decide
    | split
    | dsimp +zetaDelta only

theorem execLaneLoop_moves (r trip imm maxTrip target s) : MovesO [.time, .arrays, .lanes, .mem, .qf, .fc, .ob] s (execLaneLoop r trip imm maxTrip target s) := by
  unfold execLaneLoop
  repeat' first
    | extract_lets
    | with_reducible exact Moves.refl _ _
    | with_reducible refine MovesO.next ?_
    | with_reducible refine MovesO.ite ?_ ?_
    | with_reducible exact MovesO.fault _
    | with_reducible exact MovesO.refused _
    | with_reducible refine Moves.ite ?_ ?_
    | with_reducible refine State.rowIssue_moves (fun _ => ?_) (by decide)
    | with_reducible apply Moves.step (State.rowTo_moves _ _ _ _)
    | with_reducible apply Moves.step (State.rowNext_moves _ _ _)
    | with_reducible apply Moves.step (State.setCluster_moves _ _ _)
    | with_reducible apply Moves.step (State.raiseFor_moves _ _ _ _ _)
    | with_reducible refine Moves.foldl (fun _ _ => ?_) ?_
    | decide
    | split
    | dsimp +zetaDelta only

theorem execLaneFexp_moves (w d a s) : MovesO [.time, .arrays, .lanes, .mem, .qf, .fc, .ob] s (execLaneFexp w d a s) := by
  unfold execLaneFexp
  repeat' first
    | extract_lets
    | with_reducible exact Moves.refl _ _
    | with_reducible refine MovesO.next ?_
    | with_reducible refine MovesO.ite ?_ ?_
    | with_reducible exact MovesO.fault _
    | with_reducible exact MovesO.refused _
    | with_reducible refine Moves.ite ?_ ?_
    | with_reducible refine State.laneIssue_moves (fun _ => ?_) (by decide)
    | with_reducible apply Moves.step (State.unary_moves _ _ _ _ _)
    | with_reducible refine Moves.foldl (fun _ _ => ?_) ?_
    | decide
    | split
    | dsimp +zetaDelta only

theorem execLaneImulhu_moves (w d a b s) : MovesO [.time, .arrays, .lanes, .mem, .qf, .fc, .ob] s (execLaneImulhu w d a b s) := by
  unfold execLaneImulhu
  repeat' first
    | extract_lets
    | with_reducible exact Moves.refl _ _
    | with_reducible refine MovesO.next ?_
    | with_reducible refine MovesO.ite ?_ ?_
    | with_reducible exact MovesO.fault _
    | with_reducible exact MovesO.refused _
    | with_reducible refine Moves.ite ?_ ?_
    | with_reducible refine State.laneIssue_moves (fun _ => ?_) (by decide)
    | with_reducible apply Moves.step (State.binary_moves _ _ _ _ _ _)
    | with_reducible refine Moves.foldl (fun _ _ => ?_) ?_
    | decide
    | split
    | dsimp +zetaDelta only

theorem execLaneIcmp_moves (w d a b cond s) : MovesO [.time, .arrays, .lanes, .mem, .qf, .fc, .ob] s (execLaneIcmp w d a b cond s) := by
  unfold execLaneIcmp
  repeat' first
    | extract_lets
    | with_reducible exact Moves.refl _ _
    | with_reducible refine MovesO.next ?_
    | with_reducible refine MovesO.ite ?_ ?_
    | with_reducible exact MovesO.fault _
    | with_reducible exact MovesO.refused _
    | with_reducible refine Moves.ite ?_ ?_
    | with_reducible refine State.laneIssue_moves (fun _ => ?_) (by decide)
    | with_reducible apply Moves.step (State.issueRow_moves _ _ _ _)
    | with_reducible refine Moves.foldl (fun _ _ => ?_) ?_
    | decide
    | split
    | dsimp +zetaDelta only

theorem execLanePack_moves (w d a fmt pos rnd s) : MovesO [.time, .arrays, .lanes, .mem, .qf, .fc, .ob] s (execLanePack w d a fmt pos rnd s) := by
  unfold execLanePack
  repeat' first
    | extract_lets
    | with_reducible exact Moves.refl _ _
    | with_reducible refine MovesO.next ?_
    | with_reducible refine MovesO.ite ?_ ?_
    | with_reducible exact MovesO.fault _
    | with_reducible exact MovesO.refused _
    | with_reducible refine Moves.ite ?_ ?_
    | with_reducible refine State.laneIssue_moves (fun _ => ?_) (by decide)
    | with_reducible apply Moves.step (State.issueRow_moves _ _ _ _)
    | with_reducible refine Moves.foldl (fun _ _ => ?_) ?_
    | decide
    | split
    | dsimp +zetaDelta only

theorem execLaneEnd_moves (r s) : MovesO [.time, .arrays, .lanes, .mem, .qf, .fc, .ob] s (execLaneEnd r s) := by
  unfold execLaneEnd
  repeat' first
    | extract_lets
    | with_reducible exact Moves.refl _ _
    | with_reducible refine MovesO.next ?_
    | with_reducible refine MovesO.ite ?_ ?_
    | with_reducible exact MovesO.fault _
    | with_reducible exact MovesO.refused _
    | with_reducible refine Moves.ite ?_ ?_
    | with_reducible refine State.rowIssue_moves (fun _ => ?_) (by decide)
    | with_reducible apply Moves.step (State.bump_moves _ _ _)
    | with_reducible apply Moves.step (State.setCluster_moves _ _ _)
    | with_reducible refine Moves.foldl (fun _ _ => ?_) ?_
    | decide
    | split
    | dsimp +zetaDelta only

theorem execLaneFsinpi_moves (w d a s) : MovesO [.time, .arrays, .lanes, .mem, .qf, .fc, .ob] s (execLaneFsinpi w d a s) := by
  unfold execLaneFsinpi
  repeat' first
    | extract_lets
    | with_reducible exact Moves.refl _ _
    | with_reducible refine MovesO.next ?_
    | with_reducible refine MovesO.ite ?_ ?_
    | with_reducible exact MovesO.fault _
    | with_reducible exact MovesO.refused _
    | with_reducible refine Moves.ite ?_ ?_
    | with_reducible refine State.laneIssue_moves (fun _ => ?_) (by decide)
    | with_reducible apply Moves.step (State.unary_moves _ _ _ _ _)
    | with_reducible refine Moves.foldl (fun _ _ => ?_) ?_
    | decide
    | split
    | dsimp +zetaDelta only

theorem execLaneFexp2_moves (w d a s) : MovesO [.time, .arrays, .lanes, .mem, .qf, .fc, .ob] s (execLaneFexp2 w d a s) := by
  unfold execLaneFexp2
  repeat' first
    | extract_lets
    | with_reducible exact Moves.refl _ _
    | with_reducible refine MovesO.next ?_
    | with_reducible refine MovesO.ite ?_ ?_
    | with_reducible exact MovesO.fault _
    | with_reducible exact MovesO.refused _
    | with_reducible refine Moves.ite ?_ ?_
    | with_reducible refine State.laneIssue_moves (fun _ => ?_) (by decide)
    | with_reducible apply Moves.step (State.unary_moves _ _ _ _ _)
    | with_reducible refine Moves.foldl (fun _ _ => ?_) ?_
    | decide
    | split
    | dsimp +zetaDelta only

theorem execLaneImulh_moves (w d a b s) : MovesO [.time, .arrays, .lanes, .mem, .qf, .fc, .ob] s (execLaneImulh w d a b s) := by
  unfold execLaneImulh
  repeat' first
    | extract_lets
    | with_reducible exact Moves.refl _ _
    | with_reducible refine MovesO.next ?_
    | with_reducible refine MovesO.ite ?_ ?_
    | with_reducible exact MovesO.fault _
    | with_reducible exact MovesO.refused _
    | with_reducible refine Moves.ite ?_ ?_
    | with_reducible refine State.laneIssue_moves (fun _ => ?_) (by decide)
    | with_reducible apply Moves.step (State.binary_moves _ _ _ _ _ _)
    | with_reducible refine Moves.foldl (fun _ _ => ?_) ?_
    | decide
    | split
    | dsimp +zetaDelta only

theorem execLaneBr_moves (r all p pol target s) : MovesO [.time, .arrays, .lanes, .mem, .qf, .fc, .ob] s (execLaneBr r all p pol target s) := by
  unfold execLaneBr
  repeat' first
    | extract_lets
    | with_reducible exact Moves.refl _ _
    | with_reducible refine MovesO.next ?_
    | with_reducible refine MovesO.ite ?_ ?_
    | with_reducible exact MovesO.fault _
    | with_reducible exact MovesO.refused _
    | with_reducible refine Moves.ite ?_ ?_
    | with_reducible refine State.rowIssue_moves (fun _ => ?_) (by decide)
    | with_reducible apply Moves.step (State.laneBranch_moves _ _ _ _)
    | with_reducible refine Moves.foldl (fun _ _ => ?_) ?_
    | decide
    | split
    | dsimp +zetaDelta only

theorem execLaneIaddi_moves (w d a imm s) : MovesO [.time, .arrays, .lanes, .mem, .qf, .fc, .ob] s (execLaneIaddi w d a imm s) := by
  unfold execLaneIaddi
  repeat' first
    | extract_lets
    | with_reducible exact Moves.refl _ _
    | with_reducible refine MovesO.next ?_
    | with_reducible refine MovesO.ite ?_ ?_
    | with_reducible exact MovesO.fault _
    | with_reducible exact MovesO.refused _
    | with_reducible refine Moves.ite ?_ ?_
    | with_reducible refine State.laneIssue_moves (fun _ => ?_) (by decide)
    | with_reducible apply Moves.step (State.unary_moves _ _ _ _ _)
    | with_reducible refine Moves.foldl (fun _ _ => ?_) ?_
    | decide
    | split
    | dsimp +zetaDelta only

theorem execLaneXred_moves (w d a sub group s) : MovesO [.time, .arrays, .lanes, .mem, .qf, .fc, .ob] s (execLaneXred w d a sub group s) := by
  unfold execLaneXred
  repeat' first
    | extract_lets
    | with_reducible exact Moves.refl _ _
    | with_reducible refine MovesO.next ?_
    | with_reducible refine MovesO.ite ?_ ?_
    | with_reducible exact MovesO.fault _
    | with_reducible exact MovesO.refused _
    | with_reducible refine Moves.ite ?_ ?_
    | with_reducible refine State.laneIssue_moves (fun _ => ?_) (by decide)
    | with_reducible apply Moves.step (State.issueRow_moves _ _ _ _)
    | with_reducible refine Moves.foldl (fun _ _ => ?_) ?_
    | decide
    | split
    | dsimp +zetaDelta only

theorem execLaneFmax_moves (w d a b s) : MovesO [.time, .arrays, .lanes, .mem, .qf, .fc, .ob] s (execLaneFmax w d a b s) := by
  unfold execLaneFmax
  repeat' first
    | extract_lets
    | with_reducible exact Moves.refl _ _
    | with_reducible refine MovesO.next ?_
    | with_reducible refine MovesO.ite ?_ ?_
    | with_reducible exact MovesO.fault _
    | with_reducible exact MovesO.refused _
    | with_reducible refine Moves.ite ?_ ?_
    | with_reducible refine State.laneIssue_moves (fun _ => ?_) (by decide)
    | with_reducible apply Moves.step (State.binary_moves _ _ _ _ _ _)
    | with_reducible refine Moves.foldl (fun _ _ => ?_) ?_
    | decide
    | split
    | dsimp +zetaDelta only

theorem execLaneOr_moves (w d a b s) : MovesO [.time, .arrays, .lanes, .mem, .qf, .fc, .ob] s (execLaneOr w d a b s) := by
  unfold execLaneOr
  repeat' first
    | extract_lets
    | with_reducible exact Moves.refl _ _
    | with_reducible refine MovesO.next ?_
    | with_reducible refine MovesO.ite ?_ ?_
    | with_reducible exact MovesO.fault _
    | with_reducible exact MovesO.refused _
    | with_reducible refine Moves.ite ?_ ?_
    | with_reducible refine State.laneIssue_moves (fun _ => ?_) (by decide)
    | with_reducible apply Moves.step (State.binary_moves _ _ _ _ _ _)
    | with_reducible refine Moves.foldl (fun _ _ => ?_) ?_
    | decide
    | split
    | dsimp +zetaDelta only

end Sys2Proof.Machine
end

