-- ==== Sys2Proof/Laws/PerInstr.lean ====
section
/-! SUPPORT. One lemma for each constructor of `Instr`: the parts its row may change are named once each, and there is one. -/

open Sys2Proof.Machine

namespace Sys2Proof.Laws.Table

def Statement (i : Instr) : Prop := partsOf i ≠ [] ∧ (partsOf i).Nodup

theorem mailboxRequestPcie (f : Fin 17) (word : BitVec 64) (t : Nat) : Statement (.mailboxRequestPcie f word t) := by dsimp only [Statement, partsOf]; decide
theorem mailboxDatagram (port : Fin 2) (src : Nat) (srcPort : Nat) (dstPort : Nat) (data : Bytes) (t : Nat) : Statement (.mailboxDatagram port src srcPort dstPort data t) := by dsimp only [Statement, partsOf]; decide
theorem i3cPrivateWrite (data : Bytes) (t : Nat) : Statement (.i3cPrivateWrite data t) := by dsimp only [Statement, partsOf]; decide
theorem i3cPrivateRead (t : Nat) : Statement (.i3cPrivateRead t) := by dsimp only [Statement, partsOf]; decide
theorem i3cSclStuck (t : Nat) : Statement (.i3cSclStuck t) := by dsimp only [Statement, partsOf]; decide
theorem mpGetStatus (slot : Fin 19) (t : Nat) : Statement (.mpGetStatus slot t) := by dsimp only [Statement, partsOf]; decide
theorem mpStageImage (slot : Fin 19) (t : Nat) : Statement (.mpStageImage slot t) := by dsimp only [Statement, partsOf]; decide
theorem mpRestartStandby (slot : Fin 19) (t : Nat) : Statement (.mpRestartStandby slot t) := by dsimp only [Statement, partsOf]; decide
theorem mpHandover (slot : Fin 19) (t : Nat) : Statement (.mpHandover slot t) := by dsimp only [Statement, partsOf]; decide
theorem mpSetSwitchback (slot : Fin 19) (t : Nat) : Statement (.mpSetSwitchback slot t) := by dsimp only [Statement, partsOf]; decide
theorem mpSetMgmt (slot : Fin 19) (t : Nat) : Statement (.mpSetMgmt slot t) := by dsimp only [Statement, partsOf]; decide
theorem modSetState (slot : Fin 19) (t : Nat) : Statement (.modSetState slot t) := by dsimp only [Statement, partsOf]; decide
theorem modGetState (slot : Fin 19) (t : Nat) : Statement (.modGetState slot t) := by dsimp only [Statement, partsOf]; decide
theorem shimGetStatus (slot : Fin 19) (t : Nat) : Statement (.shimGetStatus slot t) := by dsimp only [Statement, partsOf]; decide
theorem shimSetPolicy (slot : Fin 19) (t : Nat) : Statement (.shimSetPolicy slot t) := by dsimp only [Statement, partsOf]; decide
theorem shimGrantLease (slot : Fin 19) (t : Nat) : Statement (.shimGrantLease slot t) := by dsimp only [Statement, partsOf]; decide
theorem shimSetLimits (slot : Fin 19) (t : Nat) : Statement (.shimSetLimits slot t) := by dsimp only [Statement, partsOf]; decide
theorem cellGetStatus (slot : Fin 19) (t : Nat) : Statement (.cellGetStatus slot t) := by dsimp only [Statement, partsOf]; decide
theorem cellGetCells (slot : Fin 19) (t : Nat) : Statement (.cellGetCells slot t) := by dsimp only [Statement, partsOf]; decide
theorem cellGrantRest (slot : Fin 19) (t : Nat) : Statement (.cellGrantRest slot t) := by dsimp only [Statement, partsOf]; decide
theorem cellSaveState (slot : Fin 19) (t : Nat) : Statement (.cellSaveState slot t) := by dsimp only [Statement, partsOf]; decide
theorem cellRestoreState (slot : Fin 19) (t : Nat) : Statement (.cellRestoreState slot t) := by dsimp only [Statement, partsOf]; decide
theorem regGetTelemetry (slot : Fin 19) (t : Nat) : Statement (.regGetTelemetry slot t) := by dsimp only [Statement, partsOf]; decide
theorem regSetCompensator (slot : Fin 19) (t : Nat) : Statement (.regSetCompensator slot t) := by dsimp only [Statement, partsOf]; decide
theorem regSetTrim (slot : Fin 19) (t : Nat) : Statement (.regSetTrim slot t) := by dsimp only [Statement, partsOf]; decide
theorem gvGetStatus (slot : Fin 19) (t : Nat) : Statement (.gvGetStatus slot t) := by dsimp only [Statement, partsOf]; decide
theorem gvSetClamp (slot : Fin 19) (t : Nat) : Statement (.gvSetClamp slot t) := by dsimp only [Statement, partsOf]; decide
theorem gvSetQuota (slot : Fin 19) (t : Nat) : Statement (.gvSetQuota slot t) := by dsimp only [Statement, partsOf]; decide
theorem gvSetLimits (slot : Fin 19) (t : Nat) : Statement (.gvSetLimits slot t) := by dsimp only [Statement, partsOf]; decide
theorem gvGetThrottle (slot : Fin 19) (t : Nat) : Statement (.gvGetThrottle slot t) := by dsimp only [Statement, partsOf]; decide
theorem gvGetEnergy (slot : Fin 19) (t : Nat) : Statement (.gvGetEnergy slot t) := by dsimp only [Statement, partsOf]; decide
theorem gvGetThermal (slot : Fin 19) (t : Nat) : Statement (.gvGetThermal slot t) := by dsimp only [Statement, partsOf]; decide
theorem fcGetSummary (slot : Fin 19) (t : Nat) : Statement (.fcGetSummary slot t) := by dsimp only [Statement, partsOf]; decide
theorem fcGetLog (slot : Fin 19) (t : Nat) : Statement (.fcGetLog slot t) := by dsimp only [Statement, partsOf]; decide
theorem fcAckFaults (slot : Fin 19) (t : Nat) : Statement (.fcAckFaults slot t) := by dsimp only [Statement, partsOf]; decide
theorem fcSetLevel (slot : Fin 19) (t : Nat) : Statement (.fcSetLevel slot t) := by dsimp only [Statement, partsOf]; decide
theorem fcInjectFault (slot : Fin 19) (t : Nat) : Statement (.fcInjectFault slot t) := by dsimp only [Statement, partsOf]; decide
theorem idGetIdentity (slot : Fin 19) (t : Nat) : Statement (.idGetIdentity slot t) := by dsimp only [Statement, partsOf]; decide
theorem fuseReadGroup (slot : Fin 19) (t : Nat) : Statement (.fuseReadGroup slot t) := by dsimp only [Statement, partsOf]; decide
theorem obReadCounters (slot : Fin 19) (t : Nat) : Statement (.obReadCounters slot t) := by dsimp only [Statement, partsOf]; decide
theorem obArmSnapshot (slot : Fin 19) (t : Nat) : Statement (.obArmSnapshot slot t) := by dsimp only [Statement, partsOf]; decide
theorem obReadSnapshot (slot : Fin 19) (t : Nat) : Statement (.obReadSnapshot slot t) := by dsimp only [Statement, partsOf]; decide
theorem obSetGrant (slot : Fin 19) (t : Nat) : Statement (.obSetGrant slot t) := by dsimp only [Statement, partsOf]; decide
theorem ftJoinDomain (slot : Fin 19) (t : Nat) : Statement (.ftJoinDomain slot t) := by dsimp only [Statement, partsOf]; decide
theorem ftLeaveDomain (slot : Fin 19) (t : Nat) : Statement (.ftLeaveDomain slot t) := by dsimp only [Statement, partsOf]; decide
theorem ftSetDomain (slot : Fin 19) (t : Nat) : Statement (.ftSetDomain slot t) := by dsimp only [Statement, partsOf]; decide
theorem ftGetFrameStatus (slot : Fin 19) (t : Nat) : Statement (.ftGetFrameStatus slot t) := by dsimp only [Statement, partsOf]; decide
theorem ofGetLinkStatus (slot : Fin 19) (t : Nat) : Statement (.ofGetLinkStatus slot t) := by dsimp only [Statement, partsOf]; decide
theorem ofSetLinks (slot : Fin 19) (t : Nat) : Statement (.ofSetLinks slot t) := by dsimp only [Statement, partsOf]; decide
theorem ofSetRoutes (slot : Fin 19) (t : Nat) : Statement (.ofSetRoutes slot t) := by dsimp only [Statement, partsOf]; decide
theorem ofBindEndpoint (slot : Fin 19) (t : Nat) : Statement (.ofBindEndpoint slot t) := by dsimp only [Statement, partsOf]; decide
theorem jigDoorbell (p : Fin 16) (adr : Fin 0x20000000) (t : Nat) : Statement (.jigDoorbell p adr t) := by dsimp only [Statement, partsOf]; decide
theorem partCtrlEnable (p : Fin 16) (t : Nat) : Statement (.partCtrlEnable p t) := by dsimp only [Statement, partsOf]; decide
theorem partCtrlDisable (p : Fin 16) (t : Nat) : Statement (.partCtrlDisable p t) := by dsimp only [Statement, partsOf]; decide
theorem registerWrite (f : Fin 17) (space : RegSpace) (data : Bytes) (t : Nat) : Statement (.registerWrite f space data t) := by dsimp only [Statement, partsOf]; decide
theorem hqSendEntry (p : Fin 16) (q : Fin 4) (off : Fin 512) (data : Bytes) (t : Nat) : Statement (.hqSendEntry p q off data t) := by dsimp only [Statement, partsOf]; decide
theorem apertureWrite (p : Fin 16) (offset : Nat) (data : Bytes) (enables : List Bool) (t : Nat) : Statement (.apertureWrite p offset data enables t) := by dsimp only [Statement, partsOf]; decide
theorem apertureRead (p : Fin 16) (offset : Nat) (length : Nat) (t : Nat) : Statement (.apertureRead p offset length t) := by dsimp only [Statement, partsOf]; decide
theorem hostSlotAccess (p : Fin 16) (t : Nat) (errs : List (Nat × Bool)) (spare : Option Nat) : Statement (.hostSlotAccess p t errs spare) := by dsimp only [Statement, partsOf]; decide
theorem sectorIncomplete (p : Fin 16) (t : Nat) : Statement (.sectorIncomplete p t) := by dsimp only [Statement, partsOf]; decide
theorem resultRecordWrite (p : Fin 16) (t : Nat) : Statement (.resultRecordWrite p t) := by dsimp only [Statement, partsOf]; decide
theorem hqToHostWrite (p : Fin 16) (q : Fin 4) (t : Nat) : Statement (.hqToHostWrite p q t) := by dsimp only [Statement, partsOf]; decide
theorem linkReset (cause : LinkResetCause) (t : Nat) : Statement (.linkReset cause t) := by dsimp only [Statement, partsOf]; decide
theorem vfFlr (p : Fin 16) (removed : Bool) (t : Nat) : Statement (.vfFlr p removed t) := by dsimp only [Statement, partsOf]; decide
theorem pfFlr (t : Nat) : Statement (.pfFlr t) := by dsimp only [Statement, partsOf]; decide
theorem pcieUncorrectable (bit : Fin 32) (t : Nat) : Statement (.pcieUncorrectable bit t) := by dsimp only [Statement, partsOf]; decide
theorem pcieLinkTrainingStart (t : Nat) : Statement (.pcieLinkTrainingStart t) := by dsimp only [Statement, partsOf]; decide
theorem kerfStrobe (plan : Bool) (copies : List (Fin 5)) : Statement (.kerfStrobe plan copies) := by dsimp only [Statement, partsOf]; decide
theorem freqStateSwitch (t : Nat) : Statement (.freqStateSwitch t) := by dsimp only [Statement, partsOf]; decide
theorem freqSwitchDeferred (t : Nat) : Statement (.freqSwitchDeferred t) := by dsimp only [Statement, partsOf]; decide
theorem moverStart (t : Nat) : Statement (.moverStart t) := by dsimp only [Statement, partsOf]; decide
theorem clusterGroupStart (j : Fin 16) (t : Nat) : Statement (.clusterGroupStart j t) := by dsimp only [Statement, partsOf]; decide
theorem arrayStart (k : Fin 16) (t : Nat) : Statement (.arrayStart k t) := by dsimp only [Statement, partsOf]; decide
theorem clampLoad (t : Nat) : Statement (.clampLoad t) := by dsimp only [Statement, partsOf]; decide
theorem kerfEnd (known : Bool) (t : Nat) : Statement (.kerfEnd known t) := by dsimp only [Statement, partsOf]; decide
theorem kerfLate (t : Nat) : Statement (.kerfLate t) := by dsimp only [Statement, partsOf]; decide
theorem frameMark (t : Nat) (b : Bool) (word : BitVec 64) (edgesRc : Nat) : Statement (.frameMark t b word edgesRc) := by dsimp only [Statement, partsOf]; decide
theorem markMissing (t : Nat) : Statement (.markMissing t) := by dsimp only [Statement, partsOf]; decide
theorem referenceLost (t : Nat) (b : Bool) : Statement (.referenceLost t b) := by dsimp only [Statement, partsOf]; decide
theorem holdoverExpiry (t : Nat) : Statement (.holdoverExpiry t) := by dsimp only [Statement, partsOf]; decide
theorem localDone (t : Nat) : Statement (.localDone t) := by dsimp only [Statement, partsOf]; decide
theorem barrierWatchdog (t : Nat) : Statement (.barrierWatchdog t) := by dsimp only [Statement, partsOf]; decide
theorem dowelDone (src : DowelFrom) (tok : Dowel) (t : Nat) : Statement (.dowelDone src tok t) := by dsimp only [Statement, partsOf]; decide
theorem dowelGo (src : DowelFrom) (tok : Dowel) (t : Nat) : Statement (.dowelGo src tok t) := by dsimp only [Statement, partsOf]; decide
theorem dowelHalt (src : DowelFrom) (tok : Dowel) (t : Nat) : Statement (.dowelHalt src tok t) := by dsimp only [Statement, partsOf]; decide
theorem dowelLeave (src : DowelFrom) (tok : Dowel) (t : Nat) : Statement (.dowelLeave src tok t) := by dsimp only [Statement, partsOf]; decide
theorem relayNotice (src : DowelFrom) (tok : Dowel) (t : Nat) : Statement (.relayNotice src tok t) := by dsimp only [Statement, partsOf]; decide
theorem loaderTakeJig (t : Nat) : Statement (.loaderTakeJig t) := by dsimp only [Statement, partsOf]; decide
theorem planRecord (t : Nat) : Statement (.planRecord t) := by dsimp only [Statement, partsOf]; decide
theorem planAck (t : Nat) : Statement (.planAck t) := by dsimp only [Statement, partsOf]; decide
theorem arrayLoad (m : Fin 16) (x : ArrayDesc) (t : Nat) (e : ArrayUpset) : Statement (.arrayLoad m x t e) := by dsimp only [Statement, partsOf]; decide
theorem arrayPass (m : Fin 16) (x : ArrayDesc) (t : Nat) (e : ArrayUpset) : Statement (.arrayPass m x t e) := by dsimp only [Statement, partsOf]; decide
theorem arrayFootLoad (m : Fin 16) (x : ArrayDesc) (t : Nat) (e : ArrayUpset) : Statement (.arrayFootLoad m x t e) := by dsimp only [Statement, partsOf]; decide
theorem arrayDrain (m : Fin 16) (x : ArrayDesc) (t : Nat) (e : ArrayUpset) : Statement (.arrayDrain m x t e) := by dsimp only [Statement, partsOf]; decide
theorem arrayEnd (m : Fin 16) (t : Nat) (e : ArrayUpset) : Statement (.arrayEnd m t e) := by dsimp only [Statement, partsOf]; decide
theorem arrayDescriptorComplete (m : Fin 16) (t : Nat) : Statement (.arrayDescriptorComplete m t) := by dsimp only [Statement, partsOf]; decide
theorem deferredSignalSend (g : Engine) (q : Nat) : Statement (.deferredSignalSend g q) := by dsimp only [Statement, partsOf]; decide
theorem laneNop (r : RowAt) : Statement (.laneNop r) := by dsimp only [Statement, partsOf]; decide
theorem laneEnd (r : RowAt) : Statement (.laneEnd r) := by dsimp only [Statement, partsOf]; decide
theorem laneBr (r : RowAt) (all : Bool) (p : Fin 8) (pol : Bool) (target : Fin 1024) : Statement (.laneBr r all p pol target) := by dsimp only [Statement, partsOf]; decide
theorem laneJmp (r : RowAt) (target : Fin 1024) : Statement (.laneJmp r target) := by dsimp only [Statement, partsOf]; decide
theorem laneLoop (r : RowAt) (trip : Option (Fin 16)) (imm : Fin 65536) (maxTrip : Fin 65536) (target : Fin 1024) : Statement (.laneLoop r trip imm maxTrip target) := by dsimp only [Statement, partsOf]; decide
theorem laneLoopend (r : RowAt) (p : Fin 8) : Statement (.laneLoopend r p) := by dsimp only [Statement, partsOf]; decide
theorem laneIadd (w : LaneAt) (d : Fin 16) (a : Fin 16) (b : Fin 16) : Statement (.laneIadd w d a b) := by dsimp only [Statement, partsOf]; decide
theorem laneIsub (w : LaneAt) (d : Fin 16) (a : Fin 16) (b : Fin 16) : Statement (.laneIsub w d a b) := by dsimp only [Statement, partsOf]; decide
theorem laneImul (w : LaneAt) (d : Fin 16) (a : Fin 16) (b : Fin 16) : Statement (.laneImul w d a b) := by dsimp only [Statement, partsOf]; decide
theorem laneImulh (w : LaneAt) (d : Fin 16) (a : Fin 16) (b : Fin 16) : Statement (.laneImulh w d a b) := by dsimp only [Statement, partsOf]; decide
theorem laneImulhu (w : LaneAt) (d : Fin 16) (a : Fin 16) (b : Fin 16) : Statement (.laneImulhu w d a b) := by dsimp only [Statement, partsOf]; decide
theorem laneImin (w : LaneAt) (d : Fin 16) (a : Fin 16) (b : Fin 16) : Statement (.laneImin w d a b) := by dsimp only [Statement, partsOf]; decide
theorem laneImax (w : LaneAt) (d : Fin 16) (a : Fin 16) (b : Fin 16) : Statement (.laneImax w d a b) := by dsimp only [Statement, partsOf]; decide
theorem laneUmin (w : LaneAt) (d : Fin 16) (a : Fin 16) (b : Fin 16) : Statement (.laneUmin w d a b) := by dsimp only [Statement, partsOf]; decide
theorem laneUmax (w : LaneAt) (d : Fin 16) (a : Fin 16) (b : Fin 16) : Statement (.laneUmax w d a b) := by dsimp only [Statement, partsOf]; decide
theorem laneAnd (w : LaneAt) (d : Fin 16) (a : Fin 16) (b : Fin 16) : Statement (.laneAnd w d a b) := by dsimp only [Statement, partsOf]; decide
theorem laneOr (w : LaneAt) (d : Fin 16) (a : Fin 16) (b : Fin 16) : Statement (.laneOr w d a b) := by dsimp only [Statement, partsOf]; decide
theorem laneXor (w : LaneAt) (d : Fin 16) (a : Fin 16) (b : Fin 16) : Statement (.laneXor w d a b) := by dsimp only [Statement, partsOf]; decide
theorem laneShl (w : LaneAt) (d : Fin 16) (a : Fin 16) (b : Fin 16) : Statement (.laneShl w d a b) := by dsimp only [Statement, partsOf]; decide
theorem laneShr (w : LaneAt) (d : Fin 16) (a : Fin 16) (b : Fin 16) : Statement (.laneShr w d a b) := by dsimp only [Statement, partsOf]; decide
theorem laneSar (w : LaneAt) (d : Fin 16) (a : Fin 16) (b : Fin 16) : Statement (.laneSar w d a b) := by dsimp only [Statement, partsOf]; decide
theorem laneSel (w : LaneAt) (d : Fin 16) (a : Fin 16) (b : Fin 16) (p : Fin 8) : Statement (.laneSel w d a b p) := by dsimp only [Statement, partsOf]; decide
theorem laneFadd (w : LaneAt) (d : Fin 16) (a : Fin 16) (b : Fin 16) : Statement (.laneFadd w d a b) := by dsimp only [Statement, partsOf]; decide
theorem laneFsub (w : LaneAt) (d : Fin 16) (a : Fin 16) (b : Fin 16) : Statement (.laneFsub w d a b) := by dsimp only [Statement, partsOf]; decide
theorem laneFmul (w : LaneAt) (d : Fin 16) (a : Fin 16) (b : Fin 16) : Statement (.laneFmul w d a b) := by dsimp only [Statement, partsOf]; decide
theorem laneFfma (w : LaneAt) (d : Fin 16) (a : Fin 16) (b : Fin 16) (c : Fin 16) : Statement (.laneFfma w d a b c) := by dsimp only [Statement, partsOf]; decide
theorem laneFfms (w : LaneAt) (d : Fin 16) (a : Fin 16) (b : Fin 16) (c : Fin 16) : Statement (.laneFfms w d a b c) := by dsimp only [Statement, partsOf]; decide
theorem laneFmin (w : LaneAt) (d : Fin 16) (a : Fin 16) (b : Fin 16) : Statement (.laneFmin w d a b) := by dsimp only [Statement, partsOf]; decide
theorem laneFmax (w : LaneAt) (d : Fin 16) (a : Fin 16) (b : Fin 16) : Statement (.laneFmax w d a b) := by dsimp only [Statement, partsOf]; decide
theorem laneFabs (w : LaneAt) (d : Fin 16) (a : Fin 16) : Statement (.laneFabs w d a) := by dsimp only [Statement, partsOf]; decide
theorem laneFneg (w : LaneAt) (d : Fin 16) (a : Fin 16) : Statement (.laneFneg w d a) := by dsimp only [Statement, partsOf]; decide
theorem laneMovi (w : LaneAt) (d : Fin 16) (imm : W32) : Statement (.laneMovi w d imm) := by dsimp only [Statement, partsOf]; decide
theorem laneIaddi (w : LaneAt) (d : Fin 16) (a : Fin 16) (imm : W32) : Statement (.laneIaddi w d a imm) := by dsimp only [Statement, partsOf]; decide
theorem laneAndi (w : LaneAt) (d : Fin 16) (a : Fin 16) (imm : W32) : Statement (.laneAndi w d a imm) := by dsimp only [Statement, partsOf]; decide
theorem laneOri (w : LaneAt) (d : Fin 16) (a : Fin 16) (imm : W32) : Statement (.laneOri w d a imm) := by dsimp only [Statement, partsOf]; decide
theorem laneXori (w : LaneAt) (d : Fin 16) (a : Fin 16) (imm : W32) : Statement (.laneXori w d a imm) := by dsimp only [Statement, partsOf]; decide
theorem laneShli (w : LaneAt) (d : Fin 16) (a : Fin 16) (imm : W32) : Statement (.laneShli w d a imm) := by dsimp only [Statement, partsOf]; decide
theorem laneShri (w : LaneAt) (d : Fin 16) (a : Fin 16) (imm : W32) : Statement (.laneShri w d a imm) := by dsimp only [Statement, partsOf]; decide
theorem laneSari (w : LaneAt) (d : Fin 16) (a : Fin 16) (imm : W32) : Statement (.laneSari w d a imm) := by dsimp only [Statement, partsOf]; decide
theorem laneFaddi (w : LaneAt) (d : Fin 16) (a : Fin 16) (imm : W32) : Statement (.laneFaddi w d a imm) := by dsimp only [Statement, partsOf]; decide
theorem laneFmuli (w : LaneAt) (d : Fin 16) (a : Fin 16) (imm : W32) : Statement (.laneFmuli w d a imm) := by dsimp only [Statement, partsOf]; decide
theorem laneMov (w : LaneAt) (d : Fin 16) (a : Fin 16) : Statement (.laneMov w d a) := by dsimp only [Statement, partsOf]; decide
theorem laneSpr (w : LaneAt) (d : Fin 16) (sel : Fin 9) : Statement (.laneSpr w d sel) := by dsimp only [Statement, partsOf]; decide
theorem laneWadd (w : LaneAt) (d : Fin 8) (a : Fin 8) (b : Fin 8) : Statement (.laneWadd w d a b) := by dsimp only [Statement, partsOf]; decide
theorem laneWshift (w : LaneAt) (d : Fin 8) (a : Fin 8) (by_ : BitVec 32) : Statement (.laneWshift w d a by_) := by dsimp only [Statement, partsOf]; decide
theorem laneFcmp (w : LaneAt) (d : Fin 8) (a : Fin 16) (b : Fin 16) (cond : Fin 8) : Statement (.laneFcmp w d a b cond) := by dsimp only [Statement, partsOf]; decide
theorem laneIcmp (w : LaneAt) (d : Fin 8) (a : Fin 16) (b : Fin 16) (cond : Fin 10) : Statement (.laneIcmp w d a b cond) := by dsimp only [Statement, partsOf]; decide
theorem laneFclass (w : LaneAt) (d : Fin 8) (a : Fin 16) (classes : Fin 512) : Statement (.laneFclass w d a classes) := by dsimp only [Statement, partsOf]; decide
theorem lanePlog (w : LaneAt) (d : Fin 8) (a : Fin 8) (b : Fin 8) (op : Fin 4) : Statement (.lanePlog w d a b op) := by dsimp only [Statement, partsOf]; decide
theorem lanePset (w : LaneAt) (d : Fin 8) (a : Fin 16) : Statement (.lanePset w d a) := by dsimp only [Statement, partsOf]; decide
theorem laneCvtfi (w : LaneAt) (d : Fin 16) (a : Fin 16) (rnd : LaneRound) : Statement (.laneCvtfi w d a rnd) := by dsimp only [Statement, partsOf]; decide
theorem laneCvtif (w : LaneAt) (d : Fin 16) (a : Fin 16) (rnd : LaneRound) : Statement (.laneCvtif w d a rnd) := by dsimp only [Statement, partsOf]; decide
theorem laneCvtfb (w : LaneAt) (d : Fin 16) (a : Fin 16) (rnd : LaneRound) : Statement (.laneCvtfb w d a rnd) := by dsimp only [Statement, partsOf]; decide
theorem laneUnpk (w : LaneAt) (d : Fin 16) (a : Fin 8) (fmt : Machine.Format) (pos : Fin 64) (digit : Fin 5) : Statement (.laneUnpk w d a fmt pos digit) := by dsimp only [Statement, partsOf]; decide
theorem laneMxexp (w : LaneAt) (d : Fin 16) (a : Fin 16) (fmt : Machine.Format) : Statement (.laneMxexp w d a fmt) := by dsimp only [Statement, partsOf]; decide
theorem laneMxdiv (w : LaneAt) (d : Fin 16) (a : Fin 16) (b : Fin 16) (fmt : Machine.Format) : Statement (.laneMxdiv w d a b fmt) := by dsimp only [Statement, partsOf]; decide
theorem lanePack (w : LaneAt) (d : Fin 8) (a : Fin 16) (fmt : Machine.Format) (pos : Fin 64) (rnd : LaneRound) : Statement (.lanePack w d a fmt pos rnd) := by dsimp only [Statement, partsOf]; decide
theorem laneXred (w : LaneAt) (d : Fin 16) (a : Fin 16) (sub : Fin 12) (group : Fin 8) : Statement (.laneXred w d a sub group) := by dsimp only [Statement, partsOf]; decide
theorem laneXrot (w : LaneAt) (d : Fin 16) (a : Fin 16) (group : Fin 8) (k : Fin 128) : Statement (.laneXrot w d a group k) := by dsimp only [Statement, partsOf]; decide
theorem laneXbcast (w : LaneAt) (d : Fin 16) (a : Fin 16) (group : Fin 8) (k : Fin 128) : Statement (.laneXbcast w d a group k) := by dsimp only [Statement, partsOf]; decide
theorem laneXzip (w : LaneAt) (d : Fin 8) (a : Fin 8) : Statement (.laneXzip w d a) := by dsimp only [Statement, partsOf]; decide
theorem laneXunzip (w : LaneAt) (d : Fin 8) (a : Fin 16) (b : Fin 16) : Statement (.laneXunzip w d a b) := by dsimp only [Statement, partsOf]; decide
theorem lanePballot (w : LaneAt) (d : Fin 16) (a : Fin 8) : Statement (.lanePballot w d a) := by dsimp only [Statement, partsOf]; decide
theorem lanePcount (w : LaneAt) (d : Fin 16) (a : Fin 8) : Statement (.lanePcount w d a) := by dsimp only [Statement, partsOf]; decide
theorem laneFrcp (w : LaneAt) (d : Fin 16) (a : Fin 16) : Statement (.laneFrcp w d a) := by dsimp only [Statement, partsOf]; decide
theorem laneFrsqrt (w : LaneAt) (d : Fin 16) (a : Fin 16) : Statement (.laneFrsqrt w d a) := by dsimp only [Statement, partsOf]; decide
theorem laneFsqrt (w : LaneAt) (d : Fin 16) (a : Fin 16) : Statement (.laneFsqrt w d a) := by dsimp only [Statement, partsOf]; decide
theorem laneFexp2 (w : LaneAt) (d : Fin 16) (a : Fin 16) : Statement (.laneFexp2 w d a) := by dsimp only [Statement, partsOf]; decide
theorem laneFlog2 (w : LaneAt) (d : Fin 16) (a : Fin 16) : Statement (.laneFlog2 w d a) := by dsimp only [Statement, partsOf]; decide
theorem laneFexp (w : LaneAt) (d : Fin 16) (a : Fin 16) : Statement (.laneFexp w d a) := by dsimp only [Statement, partsOf]; decide
theorem laneFlog (w : LaneAt) (d : Fin 16) (a : Fin 16) : Statement (.laneFlog w d a) := by dsimp only [Statement, partsOf]; decide
theorem laneFsinpi (w : LaneAt) (d : Fin 16) (a : Fin 16) : Statement (.laneFsinpi w d a) := by dsimp only [Statement, partsOf]; decide
theorem laneFcospi (w : LaneAt) (d : Fin 16) (a : Fin 16) : Statement (.laneFcospi w d a) := by dsimp only [Statement, partsOf]; decide
theorem laneFtanh (w : LaneAt) (d : Fin 16) (a : Fin 16) : Statement (.laneFtanh w d a) := by dsimp only [Statement, partsOf]; decide
theorem laneFsigm (w : LaneAt) (d : Fin 16) (a : Fin 16) : Statement (.laneFsigm w d a) := by dsimp only [Statement, partsOf]; decide
theorem laneLdr (w : LaneAt) (d : Fin 16) (a : Fin 16) (imm : W32) : Statement (.laneLdr w d a imm) := by dsimp only [Statement, partsOf]; decide
theorem laneStr (w : LaneAt) (d : Fin 16) (a : Fin 16) (imm : W32) : Statement (.laneStr w d a imm) := by dsimp only [Statement, partsOf]; decide
theorem laneLdb (w : LaneAt) (d : Fin 16) (a : Fin 16) (imm : W32) : Statement (.laneLdb w d a imm) := by dsimp only [Statement, partsOf]; decide
theorem laneLdp (w : LaneAt) (d : Fin 16) (a : Fin 16) (imm : W32) (part : Fin 16) : Statement (.laneLdp w d a imm part) := by dsimp only [Statement, partsOf]; decide
theorem laneStp (w : LaneAt) (d : Fin 16) (a : Fin 16) (imm : W32) (part : Fin 16) : Statement (.laneStp w d a imm part) := by dsimp only [Statement, partsOf]; decide
theorem laneQsend (r : RowAt) (d : Fin 16) (q : Fin 65536) : Statement (.laneQsend r d q) := by dsimp only [Statement, partsOf]; decide
theorem laneQsig (r : RowAt) (q : Fin 65536) : Statement (.laneQsig r q) := by dsimp only [Statement, partsOf]; decide
theorem laneQrecv (w : LaneAt) (d : Fin 16) (q : Fin 65536) : Statement (.laneQrecv w d q) := by dsimp only [Statement, partsOf]; decide
theorem laneQwait (r : RowAt) (q : Fin 65536) : Statement (.laneQwait r q) := by dsimp only [Statement, partsOf]; decide
theorem laneSlset (r : RowAt) (slot : Fin 64) (window : Int) : Statement (.laneSlset r slot window) := by dsimp only [Statement, partsOf]; decide
theorem laneRed (w : LaneAt) (slot : Fin 64) (a : Fin 16) (sub : Fin 4) : Statement (.laneRed w slot a sub) := by dsimp only [Statement, partsOf]; decide
theorem laneSlfm (r : RowAt) (slot : Fin 64) (a : Fin 16) : Statement (.laneSlfm r slot a) := by dsimp only [Statement, partsOf]; decide
theorem laneSlst (r : RowAt) (slot : Fin 64) (a : Fin 16) (b : Fin 16) (withFlag : Bool) : Statement (.laneSlst r slot a b withFlag) := by dsimp only [Statement, partsOf]; decide
theorem laneSlcvt (w : LaneAt) (slot : Fin 64) (d : Fin 16) (fmt : Machine.Format) (rnd : LaneRound) : Statement (.laneSlcvt w slot d fmt rnd) := by dsimp only [Statement, partsOf]; decide
theorem moverCopy (k : Fin 128) (x : MvDesc) (t : Nat) (parity : Bool) : Statement (.moverCopy k x t parity) := by dsimp only [Statement, partsOf]; decide
theorem moverPush (k : Fin 128) (x : MvDesc) (t : Nat) (parity : Bool) : Statement (.moverPush k x t parity) := by dsimp only [Statement, partsOf]; decide
theorem moverPull (k : Fin 128) (x : MvDesc) (t : Nat) (parity : Bool) : Statement (.moverPull k x t parity) := by dsimp only [Statement, partsOf]; decide
theorem moverFill (k : Fin 128) (x : MvDesc) (t : Nat) (parity : Bool) : Statement (.moverFill k x t parity) := by dsimp only [Statement, partsOf]; decide
theorem moverEnd (k : Fin 128) (t : Nat) (parity : Bool) : Statement (.moverEnd k t parity) := by dsimp only [Statement, partsOf]; decide
theorem moverSourceAccess (k : Fin 128) (t : Nat) (errs : List (Nat × Bool)) : Statement (.moverSourceAccess k t errs) := by dsimp only [Statement, partsOf]; decide
theorem moverDestAccess (k : Fin 128) (t : Nat) (bad : List Nat) (cross : Crossing) (spare : Option Nat) : Statement (.moverDestAccess k t bad cross spare) := by dsimp only [Statement, partsOf]; decide
theorem moverComplete (k : Fin 128) (t : Nat) : Statement (.moverComplete k t) := by dsimp only [Statement, partsOf]; decide
theorem queueEntryVisible (q : Fin 4416) (t : Nat) (cross : Crossing) (bad : List (Fin 128)) (fixed : Bool) (parity : Bool) : Statement (.queueEntryVisible q t cross bad fixed parity) := by dsimp only [Statement, partsOf]; decide
theorem queueCreditVisible (q : Fin 4416) (t : Nat) (parity : Bool) : Statement (.queueCreditVisible q t parity) := by dsimp only [Statement, partsOf]; decide
theorem t1ReadDeliver (k : Fin 16) (cross : Crossing) : Statement (.t1ReadDeliver k cross) := by dsimp only [Statement, partsOf]; decide
theorem t1RefreshWindow (k : Fin 16) (t : Nat) (err : Option Bool) : Statement (.t1RefreshWindow k t err) := by dsimp only [Statement, partsOf]; decide
theorem t1TempRead (k : Fin 16) (decic : Int) : Statement (.t1TempRead k decic) := by dsimp only [Statement, partsOf]; decide
theorem t2ReadDeliver (cross : Crossing) : Statement (.t2ReadDeliver cross) := by dsimp only [Statement, partsOf]; decide
theorem t3ReadRelease (missed : Bool) (cross : Crossing) : Statement (.t3ReadRelease missed cross) := by dsimp only [Statement, partsOf]; decide
theorem t3Reclamation (bytes : Nat) (spare : Nat) : Statement (.t3Reclamation bytes spare) := by dsimp only [Statement, partsOf]; decide
theorem memoryScrub (m : ScrubTarget) (err : Option Bool) : Statement (.memoryScrub m err) := by dsimp only [Statement, partsOf]; decide
theorem portTrainingComplete (port : Fin 32) (neighbour : Nat) (serial : Bytes) (level : Nat) (delayNs : Nat) (t : Nat) : Statement (.portTrainingComplete port neighbour serial level delayNs t) := by dsimp only [Statement, partsOf]; decide
theorem trainFail (port : Fin 32) (t : Nat) : Statement (.trainFail port t) := by dsimp only [Statement, partsOf]; decide
theorem flitReceive (port : Fin 32) (t : Nat) (raw : Bytes) (fecBad : Bool) (fecFixed : Bool) (word : Option LinkWord) : Statement (.flitReceive port t raw fecBad fecFixed word) := by dsimp only [Statement, partsOf]; decide
theorem pathDown (port : Fin 32) (lockLost : Bool) (t : Nat) : Statement (.pathDown port lockLost t) := by dsimp only [Statement, partsOf]; decide
theorem transactionForward (t : Nat) (upset : Bool) : Statement (.transactionForward t upset) := by dsimp only [Statement, partsOf]; decide
theorem transactionRelease (t : Nat) : Statement (.transactionRelease t) := by dsimp only [Statement, partsOf]; decide
theorem putForm (e : Fin 256) (t : Nat) : Statement (.putForm e t) := by dsimp only [Statement, partsOf]; decide
theorem creditSend (e : Fin 256) (t : Nat) : Statement (.creditSend e t) := by dsimp only [Statement, partsOf]; decide
theorem getForm (e : Fin 256) (t : Nat) : Statement (.getForm e t) := by dsimp only [Statement, partsOf]; decide
theorem responseForm (e : Fin 256) (t : Nat) : Statement (.responseForm e t) := by dsimp only [Statement, partsOf]; decide
theorem reduceCombine (e : Fin 256) (t : Nat) : Statement (.reduceCombine e t) := by dsimp only [Statement, partsOf]; decide
theorem reduceResultForward (e : Fin 256) (t : Nat) : Statement (.reduceResultForward e t) := by dsimp only [Statement, partsOf]; decide
theorem shimTargetStep (t : Nat) (x : ShimInputs) : Statement (.shimTargetStep t x) := by dsimp only [Statement, partsOf]; decide
theorem feedForwardStep (t : Nat) : Statement (.feedForwardStep t) := by dsimp only [Statement, partsOf]; decide
theorem shortImportExhausted (t : Nat) : Statement (.shortImportExhausted t) := by dsimp only [Statement, partsOf]; decide
theorem leaseExpiry (t : Nat) : Statement (.leaseExpiry t) := by dsimp only [Statement, partsOf]; decide
theorem busLoss (t : Nat) : Statement (.busLoss t) := by dsimp only [Statement, partsOf]; decide
theorem busOvervoltage (t : Nat) : Statement (.busOvervoltage t) := by dsimp only [Statement, partsOf]; decide
theorem busPresent (t : Nat) (capMv : Nat) : Statement (.busPresent t capMv) := by dsimp only [Statement, partsOf]; decide
theorem prechargeStart (t : Nat) : Statement (.prechargeStart t) := by dsimp only [Statement, partsOf]; decide
theorem prechargeComplete (t : Nat) (capMv : Nat) : Statement (.prechargeComplete t capMv) := by dsimp only [Statement, partsOf]; decide
theorem prechargeFail (t : Nat) : Statement (.prechargeFail t) := by dsimp only [Statement, partsOf]; decide
theorem inputOvercurrent (t : Nat) : Statement (.inputOvercurrent t) := by dsimp only [Statement, partsOf]; decide
theorem storageOvercurrent (t : Nat) : Statement (.storageOvercurrent t) := by dsimp only [Statement, partsOf]; decide
theorem ibusOvervoltage (t : Nat) : Statement (.ibusOvervoltage t) := by dsimp only [Statement, partsOf]; decide
theorem inputRestartAfterOv (t : Nat) : Statement (.inputRestartAfterOv t) := by dsimp only [Statement, partsOf]; decide
theorem ibusUndervoltage (t : Nat) : Statement (.ibusUndervoltage t) := by dsimp only [Statement, partsOf]; decide
theorem converterHot (t : Nat) (storage : Bool) : Statement (.converterHot t storage) := by dsimp only [Statement, partsOf]; decide
theorem converterOvertemp (t : Nat) (storage : Bool) : Statement (.converterOvertemp t storage) := by dsimp only [Statement, partsOf]; decide
theorem storageFinalStop (t : Nat) : Statement (.storageFinalStop t) := by dsimp only [Statement, partsOf]; decide
theorem cellScan (t : Nat) (inp : ScanInput) : Statement (.cellScan t inp) := by dsimp only [Statement, partsOf]; decide
theorem restTimeout (t : Nat) : Statement (.restTimeout t) := by dsimp only [Statement, partsOf]; decide
theorem captureArm (t : Nat) (stepMa : Nat) : Statement (.captureArm t stepMa) := by dsimp only [Statement, partsOf]; decide
theorem captureRead (t : Nat) (ring : List CaptureTick) : Statement (.captureRead t ring) := by dsimp only [Statement, partsOf]; decide
theorem captureCancel (t : Nat) : Statement (.captureCancel t) := by dsimp only [Statement, partsOf]; decide
theorem sliceCommandTimeout (k : Fin 6) (t : Nat) : Statement (.sliceCommandTimeout k t) := by dsimp only [Statement, partsOf]; decide
theorem chainEnumeration (t : Nat) (r : ChainRead) : Statement (.chainEnumeration t r) := by dsimp only [Statement, partsOf]; decide
theorem chargeCountTick (t : Nat) (currentMa : Int) : Statement (.chargeCountTick t currentMa) := by dsimp only [Statement, partsOf]; decide
theorem voltageSample (r : Fin 16) (code : Nat) (t : Nat) : Statement (.voltageSample r code t) := by dsimp only [Statement, partsOf]; decide
theorem pwmPeriodStart (r : Fin 16) (p : Fin 40) (iAvg : Int) (iP : Int) (ibusMv : Nat) (frMa : Nat) (limitAt : Option Nat) (t : Nat) : Statement (.pwmPeriodStart r p iAvg iP ibusMv frMa limitAt t) := by dsimp only [Statement, partsOf]; decide
theorem overshootTrip (r : Fin 16) (uv : Nat) (t : Nat) : Statement (.overshootTrip r uv t) := by dsimp only [Statement, partsOf]; decide
theorem overshootClear (r : Fin 16) (uv : Nat) (t : Nat) : Statement (.overshootClear r uv t) := by dsimp only [Statement, partsOf]; decide
theorem undershootTrip (r : Fin 16) (uv : Nat) (ibusMv : Nat) (frMa : Nat) (limits : List (Fin 40 × Nat)) (t : Nat) : Statement (.undershootTrip r uv ibusMv frMa limits t) := by dsimp only [Statement, partsOf]; decide
theorem phaseFail (r : Fin 16) (p : Fin 40) (t : Nat) : Statement (.phaseFail r p t) := by dsimp only [Statement, partsOf]; decide
theorem phaseLimiting (r : Fin 16) (p : Fin 40) (t : Nat) : Statement (.phaseLimiting r p t) := by dsimp only [Statement, partsOf]; decide
theorem stageHot (r : Fin 16) (p : Fin 40) (t : Nat) : Statement (.stageHot r p t) := by dsimp only [Statement, partsOf]; decide
theorem railOvercurrent (r : Fin 16) (ma : Nat) (t : Nat) : Statement (.railOvercurrent r ma t) := by dsimp only [Statement, partsOf]; decide
theorem railUndervoltage (r : Fin 16) (uv : Nat) (t : Nat) : Statement (.railUndervoltage r uv t) := by dsimp only [Statement, partsOf]; decide
theorem railOvervoltage (r : Fin 16) (uv : Nat) (t : Nat) : Statement (.railOvervoltage r uv t) := by dsimp only [Statement, partsOf]; decide
theorem railOvFrStop (r : Fin 16) (uv : Nat) (t : Nat) : Statement (.railOvFrStop r uv t) := by dsimp only [Statement, partsOf]; decide
theorem currentImbalance (r : Fin 16) (p : Fin 40) (t : Nat) : Statement (.currentImbalance r p t) := by dsimp only [Statement, partsOf]; decide
theorem frOvercurrent (t : Nat) : Statement (.frOvercurrent t) := by dsimp only [Statement, partsOf]; decide
theorem frUndervoltage (t : Nat) : Statement (.frUndervoltage t) := by dsimp only [Statement, partsOf]; decide
theorem rippleBlockCheck (r : Fin 16) (peakToPeakUv : Nat) (t : Nat) : Statement (.rippleBlockCheck r peakToPeakUv t) := by dsimp only [Statement, partsOf]; decide
theorem telemetryBlock (r : Fin 17) (rawUv : Nat) (rawMa : Nat) (tempDc : Int) (pwcDc : Int) (t : Nat) : Statement (.telemetryBlock r rawUv rawMa tempDc pwcDc t) := by dsimp only [Statement, partsOf]; decide
theorem stagedStartEvent (frUv : Nat) (shorts : List (Fin 16 × Fin 40)) (repaired : List (Fin 5)) (t : Nat) : Statement (.stagedStartEvent frUv shorts repaired t) := by dsimp only [Statement, partsOf]; decide
theorem railStopStep (t : Nat) : Statement (.railStopStep t) := by dsimp only [Statement, partsOf]; decide
theorem vrAlertNAssert (t : Nat) : Statement (.vrAlertNAssert t) := by dsimp only [Statement, partsOf]; decide
theorem vrAlertNRelease (t : Nat) : Statement (.vrAlertNRelease t) := by dsimp only [Statement, partsOf]; decide
theorem pacingUpdate (n : Fin 4) (ma : Nat) (partMw : List (Fin 16 × Nat)) (t : Nat) : Statement (.pacingUpdate n ma partMw t) := by dsimp only [Statement, partsOf]; decide
theorem f0TimeExhausted (t : Nat) : Statement (.f0TimeExhausted t) := by dsimp only [Statement, partsOf]; decide
theorem droopCrossing (n : Fin 4) (uv : Nat) (t : Nat) : Statement (.droopCrossing n uv t) := by dsimp only [Statement, partsOf]; decide
theorem stretchEnd (n : Fin 4) (uv : Nat) (t : Nat) : Statement (.stretchEnd n uv t) := by dsimp only [Statement, partsOf]; decide
theorem diodeSample (n : Fin 5) (v : Int) (t : Nat) : Statement (.diodeSample n v t) := by dsimp only [Statement, partsOf]; decide
theorem thermalModelUpdate (hubHeat : List Nat) (t : Nat) : Statement (.thermalModelUpdate hubHeat t) := by dsimp only [Statement, partsOf]; decide
theorem orderlyStopClocks (t : Nat) : Statement (.orderlyStopClocks t) := by dsimp only [Statement, partsOf]; decide
theorem orderlyStopRails (t : Nat) : Statement (.orderlyStopRails t) := by dsimp only [Statement, partsOf]; decide
theorem flowLoss (t : Nat) : Statement (.flowLoss t) := by dsimp only [Statement, partsOf]; decide
theorem flowRestored (t : Nat) : Statement (.flowRestored t) := by dsimp only [Statement, partsOf]; decide
theorem dieRestart (t : Nat) : Statement (.dieRestart t) := by dsimp only [Statement, partsOf]; decide
theorem stackTempRead (k : Fin 16) (v : Int) (t : Nat) : Statement (.stackTempRead k v t) := by dsimp only [Statement, partsOf]; decide
theorem coolantRead (v : Int) (t : Nat) : Statement (.coolantRead v t) := by dsimp only [Statement, partsOf]; decide
theorem quotaMeanUpdate (t : Nat) : Statement (.quotaMeanUpdate t) := by dsimp only [Statement, partsOf]; decide
theorem energyAttribution (est : List (Nat × Nat)) (dieNj : List Nat) (moduleUj : Nat) (queues : List (Fin 4416 × Nat)) (t : Nat) : Statement (.energyAttribution est dieNj moduleUj queues t) := by dsimp only [Statement, partsOf]; decide
theorem faultArrival (src : Source) (msg : FaultMsg) (bad : Bool) (t : Nat) : Statement (.faultArrival src msg bad t) := by dsimp only [Statement, partsOf]; decide
theorem reactionHaltDowels (t : Nat) : Statement (.reactionHaltDowels t) := by dsimp only [Statement, partsOf]; decide
theorem faultEvent (t : Nat) : Statement (.faultEvent t) := by dsimp only [Statement, partsOf]; decide
theorem faultOutTimer (t : Nat) : Statement (.faultOutTimer t) := by dsimp only [Statement, partsOf]; decide
theorem faultConditionClear (code : Nat) (unit : Nat) (which : Nat) (t : Nat) : Statement (.faultConditionClear code unit which t) := by dsimp only [Statement, partsOf]; decide
theorem watchdogKick (who : Fin 2) (t : Nat) : Statement (.watchdogKick who t) := by dsimp only [Statement, partsOf]; decide
theorem watchdogExpiry (mid : Bool) (t : Nat) : Statement (.watchdogExpiry mid t) := by dsimp only [Statement, partsOf]; decide
theorem mpFailureDeclared (mid : Bool) (t : Nat) : Statement (.mpFailureDeclared mid t) := by dsimp only [Statement, partsOf]; decide
theorem standbyWatchdogExpiry (t : Nat) : Statement (.standbyWatchdogExpiry t) := by dsimp only [Statement, partsOf]; decide
theorem takeoverComplete (who : Fin 2) (bad0 : Bool) (bad1 : Bool) (corrected : Bool) (badEntry : Option Nat) (t : Nat) : Statement (.takeoverComplete who bad0 bad1 corrected badEntry t) := by dsimp only [Statement, partsOf]; decide
theorem coastTimeout (t : Nat) : Statement (.coastTimeout t) := by dsimp only [Statement, partsOf]; decide
theorem mpNoneTimeout (t : Nat) : Statement (.mpNoneTimeout t) := by dsimp only [Statement, partsOf]; decide
theorem imageCopyStart (t : Nat) : Statement (.imageCopyStart t) := by dsimp only [Statement, partsOf]; decide
theorem imageCopyComplete (corrected : Bool) (t : Nat) : Statement (.imageCopyComplete corrected t) := by dsimp only [Statement, partsOf]; decide
theorem standbySelfTest (pass : Bool) (corrected : Bool) (t : Nat) : Statement (.standbySelfTest pass corrected t) := by dsimp only [Statement, partsOf]; decide
theorem processorRestart (who : Fin 2) (t : Nat) : Statement (.processorRestart who t) := by dsimp only [Statement, partsOf]; decide
theorem mpBootComplete (who : Fin 2) (pass : Bool) (t : Nat) : Statement (.mpBootComplete who pass t) := by dsimp only [Statement, partsOf]; decide
theorem ptpMessage (port : Fin 2) (timeNs : Nat) (t : Nat) : Statement (.ptpMessage port timeNs t) := by dsimp only [Statement, partsOf]; decide
theorem mgmtLinkDown (port : Fin 2) (t : Nat) : Statement (.mgmtLinkDown port t) := by dsimp only [Statement, partsOf]; decide
theorem alwaysOnPowerUp (mated : Bool) (first : List (Fin 12)) (second : List (Fin 12)) (calBad : Bool) (t : Nat) : Statement (.alwaysOnPowerUp mated first second calBad t) := by dsimp only [Statement, partsOf]; decide
theorem presentNMate (t : Nat) : Statement (.presentNMate t) := by dsimp only [Statement, partsOf]; decide
theorem presentNBreak (t : Nat) : Statement (.presentNBreak t) := by dsimp only [Statement, partsOf]; decide
theorem holdOffExpiry (t : Nat) : Statement (.holdOffExpiry t) := by dsimp only [Statement, partsOf]; decide
theorem trayStartChange (high : Bool) (t : Nat) : Statement (.trayStartChange high t) := by dsimp only [Statement, partsOf]; decide
theorem emergencyStop (low : Bool) (t : Nat) : Statement (.emergencyStop low t) := by dsimp only [Statement, partsOf]; decide
theorem slotIdSample (v : Fin 32) (t : Nat) : Statement (.slotIdSample v t) := by dsimp only [Statement, partsOf]; decide
theorem slotIdMismatch (t : Nat) : Statement (.slotIdMismatch t) := by dsimp only [Statement, partsOf]; decide
theorem standbyPllLock (n : Fin 4) (t : Nat) : Statement (.standbyPllLock n t) := by dsimp only [Statement, partsOf]; decide
theorem pllLockLost (p : Pll) (t : Nat) : Statement (.pllLockLost p t) := by dsimp only [Statement, partsOf]; decide
theorem pwcPllChangeover (t : Nat) : Statement (.pwcPllChangeover t) := by dsimp only [Statement, partsOf]; decide
theorem oscillatorCalibration (tempDc : Int) (measured : Int) (t : Nat) : Statement (.oscillatorCalibration tempDc measured t) := by dsimp only [Statement, partsOf]; decide
theorem counterFold (t : Nat) : Statement (.counterFold t) := by dsimp only [Statement, partsOf]; decide
theorem mgmtLinkUp (port : Fin 2) (t : Nat) : Statement (.mgmtLinkUp port t) := by dsimp only [Statement, partsOf]; decide
theorem pcieLinkUp (rate : LinkRate) (t : Nat) : Statement (.pcieLinkUp rate t) := by dsimp only [Statement, partsOf]; decide
theorem wakeNTimeout (t : Nat) : Statement (.wakeNTimeout t) := by dsimp only [Statement, partsOf]; decide
theorem i3cAddressAssignment (address : Fin 128) (viaStatic : Option (Fin 128)) (t : Nat) : Statement (.i3cAddressAssignment address viaStatic t) := by dsimp only [Statement, partsOf]; decide
theorem icmpv6Message (port : Fin 2) (src : Nat) (msg : Icmp6) (t : Nat) : Statement (.icmpv6Message port src msg t) := by dsimp only [Statement, partsOf]; decide

end Sys2Proof.Laws.Table
end

