-- ==== Sys2Proof/Laws/State.lean ====
section
/-! SUPPORT. What each field of the state reads after each named update, true by computation, and what each table reads. -/

namespace Sys2Proof.Machine

/-! #### `upTo` -/

@[simp] theorem State.now_upTo (s : State) (t : Nat) : (s.upTo t).now = max s.now t := rfl
@[simp] theorem State.frame_upTo (s : State) (t : Nat) : (s.upTo t).frame = s.frame := rfl
@[simp] theorem State.jigs_upTo (s : State) (t : Nat) : (s.upTo t).jigs = s.jigs := rfl
@[simp] theorem State.arrays_upTo (s : State) (t : Nat) : (s.upTo t).arrays = s.arrays := rfl
@[simp] theorem State.lanes_upTo (s : State) (t : Nat) : (s.upTo t).lanes = s.lanes := rfl
@[simp] theorem State.mem_upTo (s : State) (t : Nat) : (s.upTo t).mem = s.mem := rfl
@[simp] theorem State.qf_upTo (s : State) (t : Nat) : (s.upTo t).qf = s.qf := rfl
@[simp] theorem State.fabric_upTo (s : State) (t : Nat) : (s.upTo t).fabric = s.fabric := rfl
@[simp] theorem State.host_upTo (s : State) (t : Nat) : (s.upTo t).host = s.host := rfl
@[simp] theorem State.shim_upTo (s : State) (t : Nat) : (s.upTo t).shim = s.shim := rfl
@[simp] theorem State.cells_upTo (s : State) (t : Nat) : (s.upTo t).cells = s.cells := rfl
@[simp] theorem State.rails_upTo (s : State) (t : Nat) : (s.upTo t).rails = s.rails := rfl
@[simp] theorem State.gov_upTo (s : State) (t : Nat) : (s.upTo t).gov = s.gov := rfl
@[simp] theorem State.fc_upTo (s : State) (t : Nat) : (s.upTo t).fc = s.fc := rfl
@[simp] theorem State.mp_upTo (s : State) (t : Nat) : (s.upTo t).mp = s.mp := rfl
@[simp] theorem State.mod_upTo (s : State) (t : Nat) : (s.upTo t).mod = s.mod := rfl
@[simp] theorem State.pins_upTo (s : State) (t : Nat) : (s.upTo t).pins = s.pins := rfl
@[simp] theorem State.clocks_upTo (s : State) (t : Nat) : (s.upTo t).clocks = s.clocks := rfl
@[simp] theorem State.ob_upTo (s : State) (t : Nat) : (s.upTo t).ob = s.ob := rfl
@[simp] theorem State.free_upTo (s : State) (t : Nat) : (s.upTo t).free = s.free := rfl
@[simp] theorem State.pending_upTo (s : State) (t : Nat) : (s.upTo t).pending = s.pending := rfl

/-! #### `raiseMsg` -/

@[simp] theorem State.now_raiseMsg (s : State) (src : Source) (m : FaultMsg) : (s.raiseMsg src m).now = s.now := rfl
@[simp] theorem State.frame_raiseMsg (s : State) (src : Source) (m : FaultMsg) : (s.raiseMsg src m).frame = s.frame := rfl
@[simp] theorem State.jigs_raiseMsg (s : State) (src : Source) (m : FaultMsg) : (s.raiseMsg src m).jigs = s.jigs := rfl
@[simp] theorem State.arrays_raiseMsg (s : State) (src : Source) (m : FaultMsg) : (s.raiseMsg src m).arrays = s.arrays := rfl
@[simp] theorem State.lanes_raiseMsg (s : State) (src : Source) (m : FaultMsg) : (s.raiseMsg src m).lanes = s.lanes := rfl
@[simp] theorem State.mem_raiseMsg (s : State) (src : Source) (m : FaultMsg) : (s.raiseMsg src m).mem = s.mem := rfl
@[simp] theorem State.qf_raiseMsg (s : State) (src : Source) (m : FaultMsg) : (s.raiseMsg src m).qf = s.qf := rfl
@[simp] theorem State.fabric_raiseMsg (s : State) (src : Source) (m : FaultMsg) : (s.raiseMsg src m).fabric = s.fabric := rfl
@[simp] theorem State.host_raiseMsg (s : State) (src : Source) (m : FaultMsg) : (s.raiseMsg src m).host = s.host := rfl
@[simp] theorem State.shim_raiseMsg (s : State) (src : Source) (m : FaultMsg) : (s.raiseMsg src m).shim = s.shim := rfl
@[simp] theorem State.cells_raiseMsg (s : State) (src : Source) (m : FaultMsg) : (s.raiseMsg src m).cells = s.cells := rfl
@[simp] theorem State.rails_raiseMsg (s : State) (src : Source) (m : FaultMsg) : (s.raiseMsg src m).rails = s.rails := rfl
@[simp] theorem State.gov_raiseMsg (s : State) (src : Source) (m : FaultMsg) : (s.raiseMsg src m).gov = s.gov := rfl
@[simp] theorem State.fc_raiseMsg (s : State) (src : Source) (m : FaultMsg) : (s.raiseMsg src m).fc = { s.fc with raised := s.fc.raised ++ [{ src := src, msg := m, raisedAt := s.now }] } := rfl
@[simp] theorem State.mp_raiseMsg (s : State) (src : Source) (m : FaultMsg) : (s.raiseMsg src m).mp = s.mp := rfl
@[simp] theorem State.mod_raiseMsg (s : State) (src : Source) (m : FaultMsg) : (s.raiseMsg src m).mod = s.mod := rfl
@[simp] theorem State.pins_raiseMsg (s : State) (src : Source) (m : FaultMsg) : (s.raiseMsg src m).pins = s.pins := rfl
@[simp] theorem State.clocks_raiseMsg (s : State) (src : Source) (m : FaultMsg) : (s.raiseMsg src m).clocks = s.clocks := rfl
@[simp] theorem State.ob_raiseMsg (s : State) (src : Source) (m : FaultMsg) : (s.raiseMsg src m).ob = s.ob := rfl
@[simp] theorem State.free_raiseMsg (s : State) (src : Source) (m : FaultMsg) : (s.raiseMsg src m).free = s.free := rfl
@[simp] theorem State.pending_raiseMsg (s : State) (src : Source) (m : FaultMsg) : (s.raiseMsg src m).pending = s.pending := rfl

/-! #### `raise` -/

@[simp] theorem State.now_raise (s : State) (src : Source) (c u d : Nat) : (s.raise src c u d).now = s.now := rfl
@[simp] theorem State.frame_raise (s : State) (src : Source) (c u d : Nat) : (s.raise src c u d).frame = s.frame := rfl
@[simp] theorem State.jigs_raise (s : State) (src : Source) (c u d : Nat) : (s.raise src c u d).jigs = s.jigs := rfl
@[simp] theorem State.arrays_raise (s : State) (src : Source) (c u d : Nat) : (s.raise src c u d).arrays = s.arrays := rfl
@[simp] theorem State.lanes_raise (s : State) (src : Source) (c u d : Nat) : (s.raise src c u d).lanes = s.lanes := rfl
@[simp] theorem State.mem_raise (s : State) (src : Source) (c u d : Nat) : (s.raise src c u d).mem = s.mem := rfl
@[simp] theorem State.qf_raise (s : State) (src : Source) (c u d : Nat) : (s.raise src c u d).qf = s.qf := rfl
@[simp] theorem State.fabric_raise (s : State) (src : Source) (c u d : Nat) : (s.raise src c u d).fabric = s.fabric := rfl
@[simp] theorem State.host_raise (s : State) (src : Source) (c u d : Nat) : (s.raise src c u d).host = s.host := rfl
@[simp] theorem State.shim_raise (s : State) (src : Source) (c u d : Nat) : (s.raise src c u d).shim = s.shim := rfl
@[simp] theorem State.cells_raise (s : State) (src : Source) (c u d : Nat) : (s.raise src c u d).cells = s.cells := rfl
@[simp] theorem State.rails_raise (s : State) (src : Source) (c u d : Nat) : (s.raise src c u d).rails = s.rails := rfl
@[simp] theorem State.gov_raise (s : State) (src : Source) (c u d : Nat) : (s.raise src c u d).gov = s.gov := rfl
@[simp] theorem State.fc_raise (s : State) (src : Source) (c u d : Nat) : (s.raise src c u d).fc = { s.fc with raised := s.fc.raised ++ [{ src := src, msg := { code := c, unit := u, scope := 0xFF, detail := d, cond := false }, raisedAt := s.now }] } := rfl
@[simp] theorem State.mp_raise (s : State) (src : Source) (c u d : Nat) : (s.raise src c u d).mp = s.mp := rfl
@[simp] theorem State.mod_raise (s : State) (src : Source) (c u d : Nat) : (s.raise src c u d).mod = s.mod := rfl
@[simp] theorem State.pins_raise (s : State) (src : Source) (c u d : Nat) : (s.raise src c u d).pins = s.pins := rfl
@[simp] theorem State.clocks_raise (s : State) (src : Source) (c u d : Nat) : (s.raise src c u d).clocks = s.clocks := rfl
@[simp] theorem State.ob_raise (s : State) (src : Source) (c u d : Nat) : (s.raise src c u d).ob = s.ob := rfl
@[simp] theorem State.free_raise (s : State) (src : Source) (c u d : Nat) : (s.raise src c u d).free = s.free := rfl
@[simp] theorem State.pending_raise (s : State) (src : Source) (c u d : Nat) : (s.raise src c u d).pending = s.pending := rfl

/-! #### `raiseCond` -/

@[simp] theorem State.now_raiseCond (s : State) (src : Source) (c u d : Nat) : (s.raiseCond src c u d).now = s.now := rfl
@[simp] theorem State.frame_raiseCond (s : State) (src : Source) (c u d : Nat) : (s.raiseCond src c u d).frame = s.frame := rfl
@[simp] theorem State.jigs_raiseCond (s : State) (src : Source) (c u d : Nat) : (s.raiseCond src c u d).jigs = s.jigs := rfl
@[simp] theorem State.arrays_raiseCond (s : State) (src : Source) (c u d : Nat) : (s.raiseCond src c u d).arrays = s.arrays := rfl
@[simp] theorem State.lanes_raiseCond (s : State) (src : Source) (c u d : Nat) : (s.raiseCond src c u d).lanes = s.lanes := rfl
@[simp] theorem State.mem_raiseCond (s : State) (src : Source) (c u d : Nat) : (s.raiseCond src c u d).mem = s.mem := rfl
@[simp] theorem State.qf_raiseCond (s : State) (src : Source) (c u d : Nat) : (s.raiseCond src c u d).qf = s.qf := rfl
@[simp] theorem State.fabric_raiseCond (s : State) (src : Source) (c u d : Nat) : (s.raiseCond src c u d).fabric = s.fabric := rfl
@[simp] theorem State.host_raiseCond (s : State) (src : Source) (c u d : Nat) : (s.raiseCond src c u d).host = s.host := rfl
@[simp] theorem State.shim_raiseCond (s : State) (src : Source) (c u d : Nat) : (s.raiseCond src c u d).shim = s.shim := rfl
@[simp] theorem State.cells_raiseCond (s : State) (src : Source) (c u d : Nat) : (s.raiseCond src c u d).cells = s.cells := rfl
@[simp] theorem State.rails_raiseCond (s : State) (src : Source) (c u d : Nat) : (s.raiseCond src c u d).rails = s.rails := rfl
@[simp] theorem State.gov_raiseCond (s : State) (src : Source) (c u d : Nat) : (s.raiseCond src c u d).gov = s.gov := rfl
@[simp] theorem State.fc_raiseCond (s : State) (src : Source) (c u d : Nat) : (s.raiseCond src c u d).fc = { s.fc with raised := s.fc.raised ++ [{ src := src, msg := { code := c, unit := u, scope := 0xFF, detail := d, cond := true }, raisedAt := s.now }] } := rfl
@[simp] theorem State.mp_raiseCond (s : State) (src : Source) (c u d : Nat) : (s.raiseCond src c u d).mp = s.mp := rfl
@[simp] theorem State.mod_raiseCond (s : State) (src : Source) (c u d : Nat) : (s.raiseCond src c u d).mod = s.mod := rfl
@[simp] theorem State.pins_raiseCond (s : State) (src : Source) (c u d : Nat) : (s.raiseCond src c u d).pins = s.pins := rfl
@[simp] theorem State.clocks_raiseCond (s : State) (src : Source) (c u d : Nat) : (s.raiseCond src c u d).clocks = s.clocks := rfl
@[simp] theorem State.ob_raiseCond (s : State) (src : Source) (c u d : Nat) : (s.raiseCond src c u d).ob = s.ob := rfl
@[simp] theorem State.free_raiseCond (s : State) (src : Source) (c u d : Nat) : (s.raiseCond src c u d).free = s.free := rfl
@[simp] theorem State.pending_raiseCond (s : State) (src : Source) (c u d : Nat) : (s.raiseCond src c u d).pending = s.pending := rfl

/-! #### `raiseFor` -/

@[simp] theorem State.now_raiseFor (s : State) (src : Source) (c u : Nat) (p : Option Nat) : (s.raiseFor src c u p).now = s.now := rfl
@[simp] theorem State.frame_raiseFor (s : State) (src : Source) (c u : Nat) (p : Option Nat) : (s.raiseFor src c u p).frame = s.frame := rfl
@[simp] theorem State.jigs_raiseFor (s : State) (src : Source) (c u : Nat) (p : Option Nat) : (s.raiseFor src c u p).jigs = s.jigs := rfl
@[simp] theorem State.arrays_raiseFor (s : State) (src : Source) (c u : Nat) (p : Option Nat) : (s.raiseFor src c u p).arrays = s.arrays := rfl
@[simp] theorem State.lanes_raiseFor (s : State) (src : Source) (c u : Nat) (p : Option Nat) : (s.raiseFor src c u p).lanes = s.lanes := rfl
@[simp] theorem State.mem_raiseFor (s : State) (src : Source) (c u : Nat) (p : Option Nat) : (s.raiseFor src c u p).mem = s.mem := rfl
@[simp] theorem State.qf_raiseFor (s : State) (src : Source) (c u : Nat) (p : Option Nat) : (s.raiseFor src c u p).qf = s.qf := rfl
@[simp] theorem State.fabric_raiseFor (s : State) (src : Source) (c u : Nat) (p : Option Nat) : (s.raiseFor src c u p).fabric = s.fabric := rfl
@[simp] theorem State.host_raiseFor (s : State) (src : Source) (c u : Nat) (p : Option Nat) : (s.raiseFor src c u p).host = s.host := rfl
@[simp] theorem State.shim_raiseFor (s : State) (src : Source) (c u : Nat) (p : Option Nat) : (s.raiseFor src c u p).shim = s.shim := rfl
@[simp] theorem State.cells_raiseFor (s : State) (src : Source) (c u : Nat) (p : Option Nat) : (s.raiseFor src c u p).cells = s.cells := rfl
@[simp] theorem State.rails_raiseFor (s : State) (src : Source) (c u : Nat) (p : Option Nat) : (s.raiseFor src c u p).rails = s.rails := rfl
@[simp] theorem State.gov_raiseFor (s : State) (src : Source) (c u : Nat) (p : Option Nat) : (s.raiseFor src c u p).gov = s.gov := rfl
@[simp] theorem State.fc_raiseFor (s : State) (src : Source) (c u : Nat) (p : Option Nat) : (s.raiseFor src c u p).fc = { s.fc with raised := s.fc.raised ++ [{ src := src, msg := { code := c, unit := u, scope := p.getD 0xFF, detail := 0, cond := false }, raisedAt := s.now }] } := rfl
@[simp] theorem State.mp_raiseFor (s : State) (src : Source) (c u : Nat) (p : Option Nat) : (s.raiseFor src c u p).mp = s.mp := rfl
@[simp] theorem State.mod_raiseFor (s : State) (src : Source) (c u : Nat) (p : Option Nat) : (s.raiseFor src c u p).mod = s.mod := rfl
@[simp] theorem State.pins_raiseFor (s : State) (src : Source) (c u : Nat) (p : Option Nat) : (s.raiseFor src c u p).pins = s.pins := rfl
@[simp] theorem State.clocks_raiseFor (s : State) (src : Source) (c u : Nat) (p : Option Nat) : (s.raiseFor src c u p).clocks = s.clocks := rfl
@[simp] theorem State.ob_raiseFor (s : State) (src : Source) (c u : Nat) (p : Option Nat) : (s.raiseFor src c u p).ob = s.ob := rfl
@[simp] theorem State.free_raiseFor (s : State) (src : Source) (c u : Nat) (p : Option Nat) : (s.raiseFor src c u p).free = s.free := rfl
@[simp] theorem State.pending_raiseFor (s : State) (src : Source) (c u : Nat) (p : Option Nat) : (s.raiseFor src c u p).pending = s.pending := rfl

/-! #### `raiseVf` -/

@[simp] theorem State.now_raiseVf (s : State) (c p : Nat) : (s.raiseVf c p).now = s.now := rfl
@[simp] theorem State.frame_raiseVf (s : State) (c p : Nat) : (s.raiseVf c p).frame = s.frame := rfl
@[simp] theorem State.jigs_raiseVf (s : State) (c p : Nat) : (s.raiseVf c p).jigs = s.jigs := rfl
@[simp] theorem State.arrays_raiseVf (s : State) (c p : Nat) : (s.raiseVf c p).arrays = s.arrays := rfl
@[simp] theorem State.lanes_raiseVf (s : State) (c p : Nat) : (s.raiseVf c p).lanes = s.lanes := rfl
@[simp] theorem State.mem_raiseVf (s : State) (c p : Nat) : (s.raiseVf c p).mem = s.mem := rfl
@[simp] theorem State.qf_raiseVf (s : State) (c p : Nat) : (s.raiseVf c p).qf = s.qf := rfl
@[simp] theorem State.fabric_raiseVf (s : State) (c p : Nat) : (s.raiseVf c p).fabric = s.fabric := rfl
@[simp] theorem State.host_raiseVf (s : State) (c p : Nat) : (s.raiseVf c p).host = s.host := rfl
@[simp] theorem State.shim_raiseVf (s : State) (c p : Nat) : (s.raiseVf c p).shim = s.shim := rfl
@[simp] theorem State.cells_raiseVf (s : State) (c p : Nat) : (s.raiseVf c p).cells = s.cells := rfl
@[simp] theorem State.rails_raiseVf (s : State) (c p : Nat) : (s.raiseVf c p).rails = s.rails := rfl
@[simp] theorem State.gov_raiseVf (s : State) (c p : Nat) : (s.raiseVf c p).gov = s.gov := rfl
@[simp] theorem State.fc_raiseVf (s : State) (c p : Nat) : (s.raiseVf c p).fc = { s.fc with raised := s.fc.raised ++ [{ src := .hd, msg := { code := c, unit := p + 1, scope := p, detail := 0, cond := false }, raisedAt := s.now }] } := rfl
@[simp] theorem State.mp_raiseVf (s : State) (c p : Nat) : (s.raiseVf c p).mp = s.mp := rfl
@[simp] theorem State.mod_raiseVf (s : State) (c p : Nat) : (s.raiseVf c p).mod = s.mod := rfl
@[simp] theorem State.pins_raiseVf (s : State) (c p : Nat) : (s.raiseVf c p).pins = s.pins := rfl
@[simp] theorem State.clocks_raiseVf (s : State) (c p : Nat) : (s.raiseVf c p).clocks = s.clocks := rfl
@[simp] theorem State.ob_raiseVf (s : State) (c p : Nat) : (s.raiseVf c p).ob = s.ob := rfl
@[simp] theorem State.free_raiseVf (s : State) (c p : Nat) : (s.raiseVf c p).free = s.free := rfl
@[simp] theorem State.pending_raiseVf (s : State) (c p : Nat) : (s.raiseVf c p).pending = s.pending := rfl

/-! #### `bump` -/

@[simp] theorem State.now_bump (s : State) (i n : Nat) : (s.bump i n).now = s.now := rfl
@[simp] theorem State.frame_bump (s : State) (i n : Nat) : (s.bump i n).frame = s.frame := rfl
@[simp] theorem State.jigs_bump (s : State) (i n : Nat) : (s.bump i n).jigs = s.jigs := rfl
@[simp] theorem State.arrays_bump (s : State) (i n : Nat) : (s.bump i n).arrays = s.arrays := rfl
@[simp] theorem State.lanes_bump (s : State) (i n : Nat) : (s.bump i n).lanes = s.lanes := rfl
@[simp] theorem State.mem_bump (s : State) (i n : Nat) : (s.bump i n).mem = s.mem := rfl
@[simp] theorem State.qf_bump (s : State) (i n : Nat) : (s.bump i n).qf = s.qf := rfl
@[simp] theorem State.fabric_bump (s : State) (i n : Nat) : (s.bump i n).fabric = s.fabric := rfl
@[simp] theorem State.host_bump (s : State) (i n : Nat) : (s.bump i n).host = s.host := rfl
@[simp] theorem State.shim_bump (s : State) (i n : Nat) : (s.bump i n).shim = s.shim := rfl
@[simp] theorem State.cells_bump (s : State) (i n : Nat) : (s.bump i n).cells = s.cells := rfl
@[simp] theorem State.rails_bump (s : State) (i n : Nat) : (s.bump i n).rails = s.rails := rfl
@[simp] theorem State.gov_bump (s : State) (i n : Nat) : (s.bump i n).gov = s.gov := rfl
@[simp] theorem State.fc_bump (s : State) (i n : Nat) : (s.bump i n).fc = s.fc := rfl
@[simp] theorem State.mp_bump (s : State) (i n : Nat) : (s.bump i n).mp = s.mp := rfl
@[simp] theorem State.mod_bump (s : State) (i n : Nat) : (s.bump i n).mod = s.mod := rfl
@[simp] theorem State.pins_bump (s : State) (i n : Nat) : (s.bump i n).pins = s.pins := rfl
@[simp] theorem State.clocks_bump (s : State) (i n : Nat) : (s.bump i n).clocks = s.clocks := rfl
@[simp] theorem State.ob_bump (s : State) (i n : Nat) : (s.bump i n).ob = { s.ob with local32 := SMap.modify s.ob.local32 i 0 (fun v => (v + n) % 2 ^ 32) } := rfl
@[simp] theorem State.free_bump (s : State) (i n : Nat) : (s.bump i n).free = s.free := rfl
@[simp] theorem State.pending_bump (s : State) (i n : Nat) : (s.bump i n).pending = s.pending := rfl

/-! #### `level` -/

@[simp] theorem State.now_level (s : State) (i : Nat) (v : Int) : (s.level i v).now = s.now := rfl
@[simp] theorem State.frame_level (s : State) (i : Nat) (v : Int) : (s.level i v).frame = s.frame := rfl
@[simp] theorem State.jigs_level (s : State) (i : Nat) (v : Int) : (s.level i v).jigs = s.jigs := rfl
@[simp] theorem State.arrays_level (s : State) (i : Nat) (v : Int) : (s.level i v).arrays = s.arrays := rfl
@[simp] theorem State.lanes_level (s : State) (i : Nat) (v : Int) : (s.level i v).lanes = s.lanes := rfl
@[simp] theorem State.mem_level (s : State) (i : Nat) (v : Int) : (s.level i v).mem = s.mem := rfl
@[simp] theorem State.qf_level (s : State) (i : Nat) (v : Int) : (s.level i v).qf = s.qf := rfl
@[simp] theorem State.fabric_level (s : State) (i : Nat) (v : Int) : (s.level i v).fabric = s.fabric := rfl
@[simp] theorem State.host_level (s : State) (i : Nat) (v : Int) : (s.level i v).host = s.host := rfl
@[simp] theorem State.shim_level (s : State) (i : Nat) (v : Int) : (s.level i v).shim = s.shim := rfl
@[simp] theorem State.cells_level (s : State) (i : Nat) (v : Int) : (s.level i v).cells = s.cells := rfl
@[simp] theorem State.rails_level (s : State) (i : Nat) (v : Int) : (s.level i v).rails = s.rails := rfl
@[simp] theorem State.gov_level (s : State) (i : Nat) (v : Int) : (s.level i v).gov = s.gov := rfl
@[simp] theorem State.fc_level (s : State) (i : Nat) (v : Int) : (s.level i v).fc = s.fc := rfl
@[simp] theorem State.mp_level (s : State) (i : Nat) (v : Int) : (s.level i v).mp = s.mp := rfl
@[simp] theorem State.mod_level (s : State) (i : Nat) (v : Int) : (s.level i v).mod = s.mod := rfl
@[simp] theorem State.pins_level (s : State) (i : Nat) (v : Int) : (s.level i v).pins = s.pins := rfl
@[simp] theorem State.clocks_level (s : State) (i : Nat) (v : Int) : (s.level i v).clocks = s.clocks := rfl
@[simp] theorem State.ob_level (s : State) (i : Nat) (v : Int) : (s.level i v).ob = { s.ob with values := SMap.set s.ob.values i (v % 2 ^ 48).toNat 0, local32 := SMap.set s.ob.local32 i 0 0 } := rfl
@[simp] theorem State.free_level (s : State) (i : Nat) (v : Int) : (s.level i v).free = s.free := rfl
@[simp] theorem State.pending_level (s : State) (i : Nat) (v : Int) : (s.level i v).pending = s.pending := rfl

/-! #### `setVf` -/

@[simp] theorem State.now_setVf (s : State) (p : Nat) (v : Vf) : (s.setVf p v).now = s.now := rfl
@[simp] theorem State.frame_setVf (s : State) (p : Nat) (v : Vf) : (s.setVf p v).frame = s.frame := rfl
@[simp] theorem State.jigs_setVf (s : State) (p : Nat) (v : Vf) : (s.setVf p v).jigs = s.jigs := rfl
@[simp] theorem State.arrays_setVf (s : State) (p : Nat) (v : Vf) : (s.setVf p v).arrays = s.arrays := rfl
@[simp] theorem State.lanes_setVf (s : State) (p : Nat) (v : Vf) : (s.setVf p v).lanes = s.lanes := rfl
@[simp] theorem State.mem_setVf (s : State) (p : Nat) (v : Vf) : (s.setVf p v).mem = s.mem := rfl
@[simp] theorem State.qf_setVf (s : State) (p : Nat) (v : Vf) : (s.setVf p v).qf = s.qf := rfl
@[simp] theorem State.fabric_setVf (s : State) (p : Nat) (v : Vf) : (s.setVf p v).fabric = s.fabric := rfl
@[simp] theorem State.host_setVf (s : State) (p : Nat) (v : Vf) : (s.setVf p v).host = { s.host with vfs := SMap.set s.host.vfs p v Vf.reset } := rfl
@[simp] theorem State.shim_setVf (s : State) (p : Nat) (v : Vf) : (s.setVf p v).shim = s.shim := rfl
@[simp] theorem State.cells_setVf (s : State) (p : Nat) (v : Vf) : (s.setVf p v).cells = s.cells := rfl
@[simp] theorem State.rails_setVf (s : State) (p : Nat) (v : Vf) : (s.setVf p v).rails = s.rails := rfl
@[simp] theorem State.gov_setVf (s : State) (p : Nat) (v : Vf) : (s.setVf p v).gov = s.gov := rfl
@[simp] theorem State.fc_setVf (s : State) (p : Nat) (v : Vf) : (s.setVf p v).fc = s.fc := rfl
@[simp] theorem State.mp_setVf (s : State) (p : Nat) (v : Vf) : (s.setVf p v).mp = s.mp := rfl
@[simp] theorem State.mod_setVf (s : State) (p : Nat) (v : Vf) : (s.setVf p v).mod = s.mod := rfl
@[simp] theorem State.pins_setVf (s : State) (p : Nat) (v : Vf) : (s.setVf p v).pins = s.pins := rfl
@[simp] theorem State.clocks_setVf (s : State) (p : Nat) (v : Vf) : (s.setVf p v).clocks = s.clocks := rfl
@[simp] theorem State.ob_setVf (s : State) (p : Nat) (v : Vf) : (s.setVf p v).ob = s.ob := rfl
@[simp] theorem State.free_setVf (s : State) (p : Nat) (v : Vf) : (s.setVf p v).free = s.free := rfl
@[simp] theorem State.pending_setVf (s : State) (p : Nat) (v : Vf) : (s.setVf p v).pending = s.pending := rfl

/-! #### `writeMem` -/

@[simp] theorem State.now_writeMem (s : State) (a : Nat) (d : Data) : (s.writeMem a d).now = s.now := rfl
@[simp] theorem State.frame_writeMem (s : State) (a : Nat) (d : Data) : (s.writeMem a d).frame = s.frame := rfl
@[simp] theorem State.jigs_writeMem (s : State) (a : Nat) (d : Data) : (s.writeMem a d).jigs = s.jigs := rfl
@[simp] theorem State.arrays_writeMem (s : State) (a : Nat) (d : Data) : (s.writeMem a d).arrays = s.arrays := rfl
@[simp] theorem State.lanes_writeMem (s : State) (a : Nat) (d : Data) : (s.writeMem a d).lanes = s.lanes := rfl
@[simp] theorem State.mem_writeMem (s : State) (a : Nat) (d : Data) : (s.writeMem a d).mem = s.mem.store a d := rfl
@[simp] theorem State.qf_writeMem (s : State) (a : Nat) (d : Data) : (s.writeMem a d).qf = s.qf := rfl
@[simp] theorem State.fabric_writeMem (s : State) (a : Nat) (d : Data) : (s.writeMem a d).fabric = s.fabric := rfl
@[simp] theorem State.host_writeMem (s : State) (a : Nat) (d : Data) : (s.writeMem a d).host = s.host := rfl
@[simp] theorem State.shim_writeMem (s : State) (a : Nat) (d : Data) : (s.writeMem a d).shim = s.shim := rfl
@[simp] theorem State.cells_writeMem (s : State) (a : Nat) (d : Data) : (s.writeMem a d).cells = s.cells := rfl
@[simp] theorem State.rails_writeMem (s : State) (a : Nat) (d : Data) : (s.writeMem a d).rails = s.rails := rfl
@[simp] theorem State.gov_writeMem (s : State) (a : Nat) (d : Data) : (s.writeMem a d).gov = s.gov := rfl
@[simp] theorem State.fc_writeMem (s : State) (a : Nat) (d : Data) : (s.writeMem a d).fc = s.fc := rfl
@[simp] theorem State.mp_writeMem (s : State) (a : Nat) (d : Data) : (s.writeMem a d).mp = s.mp := rfl
@[simp] theorem State.mod_writeMem (s : State) (a : Nat) (d : Data) : (s.writeMem a d).mod = s.mod := rfl
@[simp] theorem State.pins_writeMem (s : State) (a : Nat) (d : Data) : (s.writeMem a d).pins = s.pins := rfl
@[simp] theorem State.clocks_writeMem (s : State) (a : Nat) (d : Data) : (s.writeMem a d).clocks = s.clocks := rfl
@[simp] theorem State.ob_writeMem (s : State) (a : Nat) (d : Data) : (s.writeMem a d).ob = s.ob := rfl
@[simp] theorem State.free_writeMem (s : State) (a : Nat) (d : Data) : (s.writeMem a d).free = s.free := rfl
@[simp] theorem State.pending_writeMem (s : State) (a : Nat) (d : Data) : (s.writeMem a d).pending = s.pending := rfl

/-! #### `holdRead` -/

@[simp] theorem State.now_holdRead (s : State) (tier : Nat) (who : Requester) (tag a : Nat) (d : Data) (slot : Nat) : (s.holdRead tier who tag a d slot).now = s.now := rfl
@[simp] theorem State.frame_holdRead (s : State) (tier : Nat) (who : Requester) (tag a : Nat) (d : Data) (slot : Nat) : (s.holdRead tier who tag a d slot).frame = s.frame := rfl
@[simp] theorem State.jigs_holdRead (s : State) (tier : Nat) (who : Requester) (tag a : Nat) (d : Data) (slot : Nat) : (s.holdRead tier who tag a d slot).jigs = s.jigs := rfl
@[simp] theorem State.arrays_holdRead (s : State) (tier : Nat) (who : Requester) (tag a : Nat) (d : Data) (slot : Nat) : (s.holdRead tier who tag a d slot).arrays = s.arrays := rfl
@[simp] theorem State.lanes_holdRead (s : State) (tier : Nat) (who : Requester) (tag a : Nat) (d : Data) (slot : Nat) : (s.holdRead tier who tag a d slot).lanes = s.lanes := rfl
@[simp] theorem State.mem_holdRead (s : State) (tier : Nat) (who : Requester) (tag a : Nat) (d : Data) (slot : Nat) : (s.holdRead tier who tag a d slot).mem = { s.mem with held := s.mem.held ++ [{ tier := tier, who := who, tag := tag, address := a, data := d, slot := slot }] } := rfl
@[simp] theorem State.qf_holdRead (s : State) (tier : Nat) (who : Requester) (tag a : Nat) (d : Data) (slot : Nat) : (s.holdRead tier who tag a d slot).qf = s.qf := rfl
@[simp] theorem State.fabric_holdRead (s : State) (tier : Nat) (who : Requester) (tag a : Nat) (d : Data) (slot : Nat) : (s.holdRead tier who tag a d slot).fabric = s.fabric := rfl
@[simp] theorem State.host_holdRead (s : State) (tier : Nat) (who : Requester) (tag a : Nat) (d : Data) (slot : Nat) : (s.holdRead tier who tag a d slot).host = s.host := rfl
@[simp] theorem State.shim_holdRead (s : State) (tier : Nat) (who : Requester) (tag a : Nat) (d : Data) (slot : Nat) : (s.holdRead tier who tag a d slot).shim = s.shim := rfl
@[simp] theorem State.cells_holdRead (s : State) (tier : Nat) (who : Requester) (tag a : Nat) (d : Data) (slot : Nat) : (s.holdRead tier who tag a d slot).cells = s.cells := rfl
@[simp] theorem State.rails_holdRead (s : State) (tier : Nat) (who : Requester) (tag a : Nat) (d : Data) (slot : Nat) : (s.holdRead tier who tag a d slot).rails = s.rails := rfl
@[simp] theorem State.gov_holdRead (s : State) (tier : Nat) (who : Requester) (tag a : Nat) (d : Data) (slot : Nat) : (s.holdRead tier who tag a d slot).gov = s.gov := rfl
@[simp] theorem State.fc_holdRead (s : State) (tier : Nat) (who : Requester) (tag a : Nat) (d : Data) (slot : Nat) : (s.holdRead tier who tag a d slot).fc = s.fc := rfl
@[simp] theorem State.mp_holdRead (s : State) (tier : Nat) (who : Requester) (tag a : Nat) (d : Data) (slot : Nat) : (s.holdRead tier who tag a d slot).mp = s.mp := rfl
@[simp] theorem State.mod_holdRead (s : State) (tier : Nat) (who : Requester) (tag a : Nat) (d : Data) (slot : Nat) : (s.holdRead tier who tag a d slot).mod = s.mod := rfl
@[simp] theorem State.pins_holdRead (s : State) (tier : Nat) (who : Requester) (tag a : Nat) (d : Data) (slot : Nat) : (s.holdRead tier who tag a d slot).pins = s.pins := rfl
@[simp] theorem State.clocks_holdRead (s : State) (tier : Nat) (who : Requester) (tag a : Nat) (d : Data) (slot : Nat) : (s.holdRead tier who tag a d slot).clocks = s.clocks := rfl
@[simp] theorem State.ob_holdRead (s : State) (tier : Nat) (who : Requester) (tag a : Nat) (d : Data) (slot : Nat) : (s.holdRead tier who tag a d slot).ob = s.ob := rfl
@[simp] theorem State.free_holdRead (s : State) (tier : Nat) (who : Requester) (tag a : Nat) (d : Data) (slot : Nat) : (s.holdRead tier who tag a d slot).free = s.free := rfl
@[simp] theorem State.pending_holdRead (s : State) (tier : Nat) (who : Requester) (tag a : Nat) (d : Data) (slot : Nat) : (s.holdRead tier who tag a d slot).pending = s.pending := rfl

/-! #### `addAccess` -/

@[simp] theorem State.now_addAccess (s : State) (x : BenchAccess) : (s.addAccess x).now = s.now := rfl
@[simp] theorem State.frame_addAccess (s : State) (x : BenchAccess) : (s.addAccess x).frame = s.frame := rfl
@[simp] theorem State.jigs_addAccess (s : State) (x : BenchAccess) : (s.addAccess x).jigs = s.jigs := rfl
@[simp] theorem State.arrays_addAccess (s : State) (x : BenchAccess) : (s.addAccess x).arrays = s.arrays := rfl
@[simp] theorem State.lanes_addAccess (s : State) (x : BenchAccess) : (s.addAccess x).lanes = s.lanes := rfl
@[simp] theorem State.mem_addAccess (s : State) (x : BenchAccess) : (s.addAccess x).mem = { s.mem with bench := insertAccess x s.mem.bench } := rfl
@[simp] theorem State.qf_addAccess (s : State) (x : BenchAccess) : (s.addAccess x).qf = s.qf := rfl
@[simp] theorem State.fabric_addAccess (s : State) (x : BenchAccess) : (s.addAccess x).fabric = s.fabric := rfl
@[simp] theorem State.host_addAccess (s : State) (x : BenchAccess) : (s.addAccess x).host = s.host := rfl
@[simp] theorem State.shim_addAccess (s : State) (x : BenchAccess) : (s.addAccess x).shim = s.shim := rfl
@[simp] theorem State.cells_addAccess (s : State) (x : BenchAccess) : (s.addAccess x).cells = s.cells := rfl
@[simp] theorem State.rails_addAccess (s : State) (x : BenchAccess) : (s.addAccess x).rails = s.rails := rfl
@[simp] theorem State.gov_addAccess (s : State) (x : BenchAccess) : (s.addAccess x).gov = s.gov := rfl
@[simp] theorem State.fc_addAccess (s : State) (x : BenchAccess) : (s.addAccess x).fc = s.fc := rfl
@[simp] theorem State.mp_addAccess (s : State) (x : BenchAccess) : (s.addAccess x).mp = s.mp := rfl
@[simp] theorem State.mod_addAccess (s : State) (x : BenchAccess) : (s.addAccess x).mod = s.mod := rfl
@[simp] theorem State.pins_addAccess (s : State) (x : BenchAccess) : (s.addAccess x).pins = s.pins := rfl
@[simp] theorem State.clocks_addAccess (s : State) (x : BenchAccess) : (s.addAccess x).clocks = s.clocks := rfl
@[simp] theorem State.ob_addAccess (s : State) (x : BenchAccess) : (s.addAccess x).ob = s.ob := rfl
@[simp] theorem State.free_addAccess (s : State) (x : BenchAccess) : (s.addAccess x).free = s.free := rfl
@[simp] theorem State.pending_addAccess (s : State) (x : BenchAccess) : (s.addAccess x).pending = s.pending := rfl

/-! #### `setMsixOf` -/

@[simp] theorem State.now_setMsixOf (s : State) (f : Nat) (m : MsixFn) : (s.setMsixOf f m).now = s.now := rfl
@[simp] theorem State.frame_setMsixOf (s : State) (f : Nat) (m : MsixFn) : (s.setMsixOf f m).frame = s.frame := rfl
@[simp] theorem State.jigs_setMsixOf (s : State) (f : Nat) (m : MsixFn) : (s.setMsixOf f m).jigs = s.jigs := rfl
@[simp] theorem State.arrays_setMsixOf (s : State) (f : Nat) (m : MsixFn) : (s.setMsixOf f m).arrays = s.arrays := rfl
@[simp] theorem State.lanes_setMsixOf (s : State) (f : Nat) (m : MsixFn) : (s.setMsixOf f m).lanes = s.lanes := rfl
@[simp] theorem State.mem_setMsixOf (s : State) (f : Nat) (m : MsixFn) : (s.setMsixOf f m).mem = s.mem := rfl
@[simp] theorem State.qf_setMsixOf (s : State) (f : Nat) (m : MsixFn) : (s.setMsixOf f m).qf = s.qf := rfl
@[simp] theorem State.fabric_setMsixOf (s : State) (f : Nat) (m : MsixFn) : (s.setMsixOf f m).fabric = s.fabric := rfl
@[simp] theorem State.host_setMsixOf (s : State) (f : Nat) (m : MsixFn) : (s.setMsixOf f m).host = { s.host with msixFns := SMap.set s.host.msixFns f m MsixFn.reset } := rfl
@[simp] theorem State.shim_setMsixOf (s : State) (f : Nat) (m : MsixFn) : (s.setMsixOf f m).shim = s.shim := rfl
@[simp] theorem State.cells_setMsixOf (s : State) (f : Nat) (m : MsixFn) : (s.setMsixOf f m).cells = s.cells := rfl
@[simp] theorem State.rails_setMsixOf (s : State) (f : Nat) (m : MsixFn) : (s.setMsixOf f m).rails = s.rails := rfl
@[simp] theorem State.gov_setMsixOf (s : State) (f : Nat) (m : MsixFn) : (s.setMsixOf f m).gov = s.gov := rfl
@[simp] theorem State.fc_setMsixOf (s : State) (f : Nat) (m : MsixFn) : (s.setMsixOf f m).fc = s.fc := rfl
@[simp] theorem State.mp_setMsixOf (s : State) (f : Nat) (m : MsixFn) : (s.setMsixOf f m).mp = s.mp := rfl
@[simp] theorem State.mod_setMsixOf (s : State) (f : Nat) (m : MsixFn) : (s.setMsixOf f m).mod = s.mod := rfl
@[simp] theorem State.pins_setMsixOf (s : State) (f : Nat) (m : MsixFn) : (s.setMsixOf f m).pins = s.pins := rfl
@[simp] theorem State.clocks_setMsixOf (s : State) (f : Nat) (m : MsixFn) : (s.setMsixOf f m).clocks = s.clocks := rfl
@[simp] theorem State.ob_setMsixOf (s : State) (f : Nat) (m : MsixFn) : (s.setMsixOf f m).ob = s.ob := rfl
@[simp] theorem State.free_setMsixOf (s : State) (f : Nat) (m : MsixFn) : (s.setMsixOf f m).free = s.free := rfl
@[simp] theorem State.pending_setMsixOf (s : State) (f : Nat) (m : MsixFn) : (s.setMsixOf f m).pending = s.pending := rfl

/-! #### `setQueue` -/

@[simp] theorem State.now_setQueue (s : State) (q : Nat) (v : Queue) : (s.setQueue q v).now = s.now := rfl
@[simp] theorem State.frame_setQueue (s : State) (q : Nat) (v : Queue) : (s.setQueue q v).frame = s.frame := rfl
@[simp] theorem State.jigs_setQueue (s : State) (q : Nat) (v : Queue) : (s.setQueue q v).jigs = s.jigs := rfl
@[simp] theorem State.arrays_setQueue (s : State) (q : Nat) (v : Queue) : (s.setQueue q v).arrays = s.arrays := rfl
@[simp] theorem State.lanes_setQueue (s : State) (q : Nat) (v : Queue) : (s.setQueue q v).lanes = s.lanes := rfl
@[simp] theorem State.mem_setQueue (s : State) (q : Nat) (v : Queue) : (s.setQueue q v).mem = s.mem := rfl
@[simp] theorem State.qf_setQueue (s : State) (q : Nat) (v : Queue) : (s.setQueue q v).qf = { s.qf with queues := SMap.set s.qf.queues q v Queue.none } := rfl
@[simp] theorem State.fabric_setQueue (s : State) (q : Nat) (v : Queue) : (s.setQueue q v).fabric = s.fabric := rfl
@[simp] theorem State.host_setQueue (s : State) (q : Nat) (v : Queue) : (s.setQueue q v).host = s.host := rfl
@[simp] theorem State.shim_setQueue (s : State) (q : Nat) (v : Queue) : (s.setQueue q v).shim = s.shim := rfl
@[simp] theorem State.cells_setQueue (s : State) (q : Nat) (v : Queue) : (s.setQueue q v).cells = s.cells := rfl
@[simp] theorem State.rails_setQueue (s : State) (q : Nat) (v : Queue) : (s.setQueue q v).rails = s.rails := rfl
@[simp] theorem State.gov_setQueue (s : State) (q : Nat) (v : Queue) : (s.setQueue q v).gov = s.gov := rfl
@[simp] theorem State.fc_setQueue (s : State) (q : Nat) (v : Queue) : (s.setQueue q v).fc = s.fc := rfl
@[simp] theorem State.mp_setQueue (s : State) (q : Nat) (v : Queue) : (s.setQueue q v).mp = s.mp := rfl
@[simp] theorem State.mod_setQueue (s : State) (q : Nat) (v : Queue) : (s.setQueue q v).mod = s.mod := rfl
@[simp] theorem State.pins_setQueue (s : State) (q : Nat) (v : Queue) : (s.setQueue q v).pins = s.pins := rfl
@[simp] theorem State.clocks_setQueue (s : State) (q : Nat) (v : Queue) : (s.setQueue q v).clocks = s.clocks := rfl
@[simp] theorem State.ob_setQueue (s : State) (q : Nat) (v : Queue) : (s.setQueue q v).ob = s.ob := rfl
@[simp] theorem State.free_setQueue (s : State) (q : Nat) (v : Queue) : (s.setQueue q v).free = s.free := rfl
@[simp] theorem State.pending_setQueue (s : State) (q : Nat) (v : Queue) : (s.setQueue q v).pending = s.pending := rfl

/-! #### `setMover` -/

@[simp] theorem State.now_setMover (s : State) (k : Nat) (v : Mover) : (s.setMover k v).now = s.now := rfl
@[simp] theorem State.frame_setMover (s : State) (k : Nat) (v : Mover) : (s.setMover k v).frame = s.frame := rfl
@[simp] theorem State.jigs_setMover (s : State) (k : Nat) (v : Mover) : (s.setMover k v).jigs = s.jigs := rfl
@[simp] theorem State.arrays_setMover (s : State) (k : Nat) (v : Mover) : (s.setMover k v).arrays = s.arrays := rfl
@[simp] theorem State.lanes_setMover (s : State) (k : Nat) (v : Mover) : (s.setMover k v).lanes = s.lanes := rfl
@[simp] theorem State.mem_setMover (s : State) (k : Nat) (v : Mover) : (s.setMover k v).mem = s.mem := rfl
@[simp] theorem State.qf_setMover (s : State) (k : Nat) (v : Mover) : (s.setMover k v).qf = { s.qf with movers := SMap.set s.qf.movers k v Mover.reset } := rfl
@[simp] theorem State.fabric_setMover (s : State) (k : Nat) (v : Mover) : (s.setMover k v).fabric = s.fabric := rfl
@[simp] theorem State.host_setMover (s : State) (k : Nat) (v : Mover) : (s.setMover k v).host = s.host := rfl
@[simp] theorem State.shim_setMover (s : State) (k : Nat) (v : Mover) : (s.setMover k v).shim = s.shim := rfl
@[simp] theorem State.cells_setMover (s : State) (k : Nat) (v : Mover) : (s.setMover k v).cells = s.cells := rfl
@[simp] theorem State.rails_setMover (s : State) (k : Nat) (v : Mover) : (s.setMover k v).rails = s.rails := rfl
@[simp] theorem State.gov_setMover (s : State) (k : Nat) (v : Mover) : (s.setMover k v).gov = s.gov := rfl
@[simp] theorem State.fc_setMover (s : State) (k : Nat) (v : Mover) : (s.setMover k v).fc = s.fc := rfl
@[simp] theorem State.mp_setMover (s : State) (k : Nat) (v : Mover) : (s.setMover k v).mp = s.mp := rfl
@[simp] theorem State.mod_setMover (s : State) (k : Nat) (v : Mover) : (s.setMover k v).mod = s.mod := rfl
@[simp] theorem State.pins_setMover (s : State) (k : Nat) (v : Mover) : (s.setMover k v).pins = s.pins := rfl
@[simp] theorem State.clocks_setMover (s : State) (k : Nat) (v : Mover) : (s.setMover k v).clocks = s.clocks := rfl
@[simp] theorem State.ob_setMover (s : State) (k : Nat) (v : Mover) : (s.setMover k v).ob = s.ob := rfl
@[simp] theorem State.free_setMover (s : State) (k : Nat) (v : Mover) : (s.setMover k v).free = s.free := rfl
@[simp] theorem State.pending_setMover (s : State) (k : Nat) (v : Mover) : (s.setMover k v).pending = s.pending := rfl

/-! #### `setPartJig` -/

@[simp] theorem State.now_setPartJig (s : State) (p : Nat) (j : Option PartJig) : (s.setPartJig p j).now = s.now := rfl
@[simp] theorem State.frame_setPartJig (s : State) (p : Nat) (j : Option PartJig) : (s.setPartJig p j).frame = s.frame := rfl
@[simp] theorem State.jigs_setPartJig (s : State) (p : Nat) (j : Option PartJig) : (s.setPartJig p j).jigs = { s.jigs with parts := SMap.set s.jigs.parts p j none } := rfl
@[simp] theorem State.arrays_setPartJig (s : State) (p : Nat) (j : Option PartJig) : (s.setPartJig p j).arrays = s.arrays := rfl
@[simp] theorem State.lanes_setPartJig (s : State) (p : Nat) (j : Option PartJig) : (s.setPartJig p j).lanes = s.lanes := rfl
@[simp] theorem State.mem_setPartJig (s : State) (p : Nat) (j : Option PartJig) : (s.setPartJig p j).mem = s.mem := rfl
@[simp] theorem State.qf_setPartJig (s : State) (p : Nat) (j : Option PartJig) : (s.setPartJig p j).qf = s.qf := rfl
@[simp] theorem State.fabric_setPartJig (s : State) (p : Nat) (j : Option PartJig) : (s.setPartJig p j).fabric = s.fabric := rfl
@[simp] theorem State.host_setPartJig (s : State) (p : Nat) (j : Option PartJig) : (s.setPartJig p j).host = s.host := rfl
@[simp] theorem State.shim_setPartJig (s : State) (p : Nat) (j : Option PartJig) : (s.setPartJig p j).shim = s.shim := rfl
@[simp] theorem State.cells_setPartJig (s : State) (p : Nat) (j : Option PartJig) : (s.setPartJig p j).cells = s.cells := rfl
@[simp] theorem State.rails_setPartJig (s : State) (p : Nat) (j : Option PartJig) : (s.setPartJig p j).rails = s.rails := rfl
@[simp] theorem State.gov_setPartJig (s : State) (p : Nat) (j : Option PartJig) : (s.setPartJig p j).gov = s.gov := rfl
@[simp] theorem State.fc_setPartJig (s : State) (p : Nat) (j : Option PartJig) : (s.setPartJig p j).fc = s.fc := rfl
@[simp] theorem State.mp_setPartJig (s : State) (p : Nat) (j : Option PartJig) : (s.setPartJig p j).mp = s.mp := rfl
@[simp] theorem State.mod_setPartJig (s : State) (p : Nat) (j : Option PartJig) : (s.setPartJig p j).mod = s.mod := rfl
@[simp] theorem State.pins_setPartJig (s : State) (p : Nat) (j : Option PartJig) : (s.setPartJig p j).pins = s.pins := rfl
@[simp] theorem State.clocks_setPartJig (s : State) (p : Nat) (j : Option PartJig) : (s.setPartJig p j).clocks = s.clocks := rfl
@[simp] theorem State.ob_setPartJig (s : State) (p : Nat) (j : Option PartJig) : (s.setPartJig p j).ob = s.ob := rfl
@[simp] theorem State.free_setPartJig (s : State) (p : Nat) (j : Option PartJig) : (s.setPartJig p j).free = s.free := rfl
@[simp] theorem State.pending_setPartJig (s : State) (p : Nat) (j : Option PartJig) : (s.setPartJig p j).pending = s.pending := rfl

/-! #### `setCluster` -/

@[simp] theorem State.now_setCluster (s : State) (c : Nat) (v : Cluster) : (s.setCluster c v).now = s.now := rfl
@[simp] theorem State.frame_setCluster (s : State) (c : Nat) (v : Cluster) : (s.setCluster c v).frame = s.frame := rfl
@[simp] theorem State.jigs_setCluster (s : State) (c : Nat) (v : Cluster) : (s.setCluster c v).jigs = s.jigs := rfl
@[simp] theorem State.arrays_setCluster (s : State) (c : Nat) (v : Cluster) : (s.setCluster c v).arrays = s.arrays := rfl
@[simp] theorem State.lanes_setCluster (s : State) (c : Nat) (v : Cluster) : (s.setCluster c v).lanes = { s.lanes with clusters := SMap.set s.lanes.clusters c v Cluster.reset } := rfl
@[simp] theorem State.mem_setCluster (s : State) (c : Nat) (v : Cluster) : (s.setCluster c v).mem = s.mem := rfl
@[simp] theorem State.qf_setCluster (s : State) (c : Nat) (v : Cluster) : (s.setCluster c v).qf = s.qf := rfl
@[simp] theorem State.fabric_setCluster (s : State) (c : Nat) (v : Cluster) : (s.setCluster c v).fabric = s.fabric := rfl
@[simp] theorem State.host_setCluster (s : State) (c : Nat) (v : Cluster) : (s.setCluster c v).host = s.host := rfl
@[simp] theorem State.shim_setCluster (s : State) (c : Nat) (v : Cluster) : (s.setCluster c v).shim = s.shim := rfl
@[simp] theorem State.cells_setCluster (s : State) (c : Nat) (v : Cluster) : (s.setCluster c v).cells = s.cells := rfl
@[simp] theorem State.rails_setCluster (s : State) (c : Nat) (v : Cluster) : (s.setCluster c v).rails = s.rails := rfl
@[simp] theorem State.gov_setCluster (s : State) (c : Nat) (v : Cluster) : (s.setCluster c v).gov = s.gov := rfl
@[simp] theorem State.fc_setCluster (s : State) (c : Nat) (v : Cluster) : (s.setCluster c v).fc = s.fc := rfl
@[simp] theorem State.mp_setCluster (s : State) (c : Nat) (v : Cluster) : (s.setCluster c v).mp = s.mp := rfl
@[simp] theorem State.mod_setCluster (s : State) (c : Nat) (v : Cluster) : (s.setCluster c v).mod = s.mod := rfl
@[simp] theorem State.pins_setCluster (s : State) (c : Nat) (v : Cluster) : (s.setCluster c v).pins = s.pins := rfl
@[simp] theorem State.clocks_setCluster (s : State) (c : Nat) (v : Cluster) : (s.setCluster c v).clocks = s.clocks := rfl
@[simp] theorem State.ob_setCluster (s : State) (c : Nat) (v : Cluster) : (s.setCluster c v).ob = s.ob := rfl
@[simp] theorem State.free_setCluster (s : State) (c : Nat) (v : Cluster) : (s.setCluster c v).free = s.free := rfl
@[simp] theorem State.pending_setCluster (s : State) (c : Nat) (v : Cluster) : (s.setCluster c v).pending = s.pending := rfl

/-! #### `setArray` -/

@[simp] theorem State.now_setArray (s : State) (m : Nat) (v : ArrayUnit) : (s.setArray m v).now = s.now := rfl
@[simp] theorem State.frame_setArray (s : State) (m : Nat) (v : ArrayUnit) : (s.setArray m v).frame = s.frame := rfl
@[simp] theorem State.jigs_setArray (s : State) (m : Nat) (v : ArrayUnit) : (s.setArray m v).jigs = s.jigs := rfl
@[simp] theorem State.arrays_setArray (s : State) (m : Nat) (v : ArrayUnit) : (s.setArray m v).arrays = { s.arrays with units := SMap.set s.arrays.units m v ArrayUnit.reset } := rfl
@[simp] theorem State.lanes_setArray (s : State) (m : Nat) (v : ArrayUnit) : (s.setArray m v).lanes = s.lanes := rfl
@[simp] theorem State.mem_setArray (s : State) (m : Nat) (v : ArrayUnit) : (s.setArray m v).mem = s.mem := rfl
@[simp] theorem State.qf_setArray (s : State) (m : Nat) (v : ArrayUnit) : (s.setArray m v).qf = s.qf := rfl
@[simp] theorem State.fabric_setArray (s : State) (m : Nat) (v : ArrayUnit) : (s.setArray m v).fabric = s.fabric := rfl
@[simp] theorem State.host_setArray (s : State) (m : Nat) (v : ArrayUnit) : (s.setArray m v).host = s.host := rfl
@[simp] theorem State.shim_setArray (s : State) (m : Nat) (v : ArrayUnit) : (s.setArray m v).shim = s.shim := rfl
@[simp] theorem State.cells_setArray (s : State) (m : Nat) (v : ArrayUnit) : (s.setArray m v).cells = s.cells := rfl
@[simp] theorem State.rails_setArray (s : State) (m : Nat) (v : ArrayUnit) : (s.setArray m v).rails = s.rails := rfl
@[simp] theorem State.gov_setArray (s : State) (m : Nat) (v : ArrayUnit) : (s.setArray m v).gov = s.gov := rfl
@[simp] theorem State.fc_setArray (s : State) (m : Nat) (v : ArrayUnit) : (s.setArray m v).fc = s.fc := rfl
@[simp] theorem State.mp_setArray (s : State) (m : Nat) (v : ArrayUnit) : (s.setArray m v).mp = s.mp := rfl
@[simp] theorem State.mod_setArray (s : State) (m : Nat) (v : ArrayUnit) : (s.setArray m v).mod = s.mod := rfl
@[simp] theorem State.pins_setArray (s : State) (m : Nat) (v : ArrayUnit) : (s.setArray m v).pins = s.pins := rfl
@[simp] theorem State.clocks_setArray (s : State) (m : Nat) (v : ArrayUnit) : (s.setArray m v).clocks = s.clocks := rfl
@[simp] theorem State.ob_setArray (s : State) (m : Nat) (v : ArrayUnit) : (s.setArray m v).ob = s.ob := rfl
@[simp] theorem State.free_setArray (s : State) (m : Nat) (v : ArrayUnit) : (s.setArray m v).free = s.free := rfl
@[simp] theorem State.pending_setArray (s : State) (m : Nat) (v : ArrayUnit) : (s.setArray m v).pending = s.pending := rfl

/-! #### `setLink` -/

@[simp] theorem State.now_setLink (s : State) (k : Nat) (l : Link) : (s.setLink k l).now = s.now := rfl
@[simp] theorem State.frame_setLink (s : State) (k : Nat) (l : Link) : (s.setLink k l).frame = s.frame := rfl
@[simp] theorem State.jigs_setLink (s : State) (k : Nat) (l : Link) : (s.setLink k l).jigs = s.jigs := rfl
@[simp] theorem State.arrays_setLink (s : State) (k : Nat) (l : Link) : (s.setLink k l).arrays = s.arrays := rfl
@[simp] theorem State.lanes_setLink (s : State) (k : Nat) (l : Link) : (s.setLink k l).lanes = s.lanes := rfl
@[simp] theorem State.mem_setLink (s : State) (k : Nat) (l : Link) : (s.setLink k l).mem = s.mem := rfl
@[simp] theorem State.qf_setLink (s : State) (k : Nat) (l : Link) : (s.setLink k l).qf = s.qf := rfl
@[simp] theorem State.fabric_setLink (s : State) (k : Nat) (l : Link) : (s.setLink k l).fabric = { s.fabric with links := SMap.set s.fabric.links k l Link.cold } := rfl
@[simp] theorem State.host_setLink (s : State) (k : Nat) (l : Link) : (s.setLink k l).host = s.host := rfl
@[simp] theorem State.shim_setLink (s : State) (k : Nat) (l : Link) : (s.setLink k l).shim = s.shim := rfl
@[simp] theorem State.cells_setLink (s : State) (k : Nat) (l : Link) : (s.setLink k l).cells = s.cells := rfl
@[simp] theorem State.rails_setLink (s : State) (k : Nat) (l : Link) : (s.setLink k l).rails = s.rails := rfl
@[simp] theorem State.gov_setLink (s : State) (k : Nat) (l : Link) : (s.setLink k l).gov = s.gov := rfl
@[simp] theorem State.fc_setLink (s : State) (k : Nat) (l : Link) : (s.setLink k l).fc = s.fc := rfl
@[simp] theorem State.mp_setLink (s : State) (k : Nat) (l : Link) : (s.setLink k l).mp = s.mp := rfl
@[simp] theorem State.mod_setLink (s : State) (k : Nat) (l : Link) : (s.setLink k l).mod = s.mod := rfl
@[simp] theorem State.pins_setLink (s : State) (k : Nat) (l : Link) : (s.setLink k l).pins = s.pins := rfl
@[simp] theorem State.clocks_setLink (s : State) (k : Nat) (l : Link) : (s.setLink k l).clocks = s.clocks := rfl
@[simp] theorem State.ob_setLink (s : State) (k : Nat) (l : Link) : (s.setLink k l).ob = s.ob := rfl
@[simp] theorem State.free_setLink (s : State) (k : Nat) (l : Link) : (s.setLink k l).free = s.free := rfl
@[simp] theorem State.pending_setLink (s : State) (k : Nat) (l : Link) : (s.setLink k l).pending = s.pending := rfl

/-! #### `setEndpoint` -/

@[simp] theorem State.now_setEndpoint (s : State) (e : Nat) (x : EpState) : (s.setEndpoint e x).now = s.now := rfl
@[simp] theorem State.frame_setEndpoint (s : State) (e : Nat) (x : EpState) : (s.setEndpoint e x).frame = s.frame := rfl
@[simp] theorem State.jigs_setEndpoint (s : State) (e : Nat) (x : EpState) : (s.setEndpoint e x).jigs = s.jigs := rfl
@[simp] theorem State.arrays_setEndpoint (s : State) (e : Nat) (x : EpState) : (s.setEndpoint e x).arrays = s.arrays := rfl
@[simp] theorem State.lanes_setEndpoint (s : State) (e : Nat) (x : EpState) : (s.setEndpoint e x).lanes = s.lanes := rfl
@[simp] theorem State.mem_setEndpoint (s : State) (e : Nat) (x : EpState) : (s.setEndpoint e x).mem = s.mem := rfl
@[simp] theorem State.qf_setEndpoint (s : State) (e : Nat) (x : EpState) : (s.setEndpoint e x).qf = s.qf := rfl
@[simp] theorem State.fabric_setEndpoint (s : State) (e : Nat) (x : EpState) : (s.setEndpoint e x).fabric = { s.fabric with endpoints := SMap.set s.fabric.endpoints e x EpState.start } := rfl
@[simp] theorem State.host_setEndpoint (s : State) (e : Nat) (x : EpState) : (s.setEndpoint e x).host = s.host := rfl
@[simp] theorem State.shim_setEndpoint (s : State) (e : Nat) (x : EpState) : (s.setEndpoint e x).shim = s.shim := rfl
@[simp] theorem State.cells_setEndpoint (s : State) (e : Nat) (x : EpState) : (s.setEndpoint e x).cells = s.cells := rfl
@[simp] theorem State.rails_setEndpoint (s : State) (e : Nat) (x : EpState) : (s.setEndpoint e x).rails = s.rails := rfl
@[simp] theorem State.gov_setEndpoint (s : State) (e : Nat) (x : EpState) : (s.setEndpoint e x).gov = s.gov := rfl
@[simp] theorem State.fc_setEndpoint (s : State) (e : Nat) (x : EpState) : (s.setEndpoint e x).fc = s.fc := rfl
@[simp] theorem State.mp_setEndpoint (s : State) (e : Nat) (x : EpState) : (s.setEndpoint e x).mp = s.mp := rfl
@[simp] theorem State.mod_setEndpoint (s : State) (e : Nat) (x : EpState) : (s.setEndpoint e x).mod = s.mod := rfl
@[simp] theorem State.pins_setEndpoint (s : State) (e : Nat) (x : EpState) : (s.setEndpoint e x).pins = s.pins := rfl
@[simp] theorem State.clocks_setEndpoint (s : State) (e : Nat) (x : EpState) : (s.setEndpoint e x).clocks = s.clocks := rfl
@[simp] theorem State.ob_setEndpoint (s : State) (e : Nat) (x : EpState) : (s.setEndpoint e x).ob = s.ob := rfl
@[simp] theorem State.free_setEndpoint (s : State) (e : Nat) (x : EpState) : (s.setEndpoint e x).free = s.free := rfl
@[simp] theorem State.pending_setEndpoint (s : State) (e : Nat) (x : EpState) : (s.setEndpoint e x).pending = s.pending := rfl

/-! #### `setRail` -/

@[simp] theorem State.now_setRail (s : State) (r : Nat) (v : Rail) : (s.setRail r v).now = s.now := rfl
@[simp] theorem State.frame_setRail (s : State) (r : Nat) (v : Rail) : (s.setRail r v).frame = s.frame := rfl
@[simp] theorem State.jigs_setRail (s : State) (r : Nat) (v : Rail) : (s.setRail r v).jigs = s.jigs := rfl
@[simp] theorem State.arrays_setRail (s : State) (r : Nat) (v : Rail) : (s.setRail r v).arrays = s.arrays := rfl
@[simp] theorem State.lanes_setRail (s : State) (r : Nat) (v : Rail) : (s.setRail r v).lanes = s.lanes := rfl
@[simp] theorem State.mem_setRail (s : State) (r : Nat) (v : Rail) : (s.setRail r v).mem = s.mem := rfl
@[simp] theorem State.qf_setRail (s : State) (r : Nat) (v : Rail) : (s.setRail r v).qf = s.qf := rfl
@[simp] theorem State.fabric_setRail (s : State) (r : Nat) (v : Rail) : (s.setRail r v).fabric = s.fabric := rfl
@[simp] theorem State.host_setRail (s : State) (r : Nat) (v : Rail) : (s.setRail r v).host = s.host := rfl
@[simp] theorem State.shim_setRail (s : State) (r : Nat) (v : Rail) : (s.setRail r v).shim = s.shim := rfl
@[simp] theorem State.cells_setRail (s : State) (r : Nat) (v : Rail) : (s.setRail r v).cells = s.cells := rfl
@[simp] theorem State.rails_setRail (s : State) (r : Nat) (v : Rail) : (s.setRail r v).rails = { s.rails with rails := SMap.set s.rails.rails r v Rail.reset } := rfl
@[simp] theorem State.gov_setRail (s : State) (r : Nat) (v : Rail) : (s.setRail r v).gov = s.gov := rfl
@[simp] theorem State.fc_setRail (s : State) (r : Nat) (v : Rail) : (s.setRail r v).fc = s.fc := rfl
@[simp] theorem State.mp_setRail (s : State) (r : Nat) (v : Rail) : (s.setRail r v).mp = s.mp := rfl
@[simp] theorem State.mod_setRail (s : State) (r : Nat) (v : Rail) : (s.setRail r v).mod = s.mod := rfl
@[simp] theorem State.pins_setRail (s : State) (r : Nat) (v : Rail) : (s.setRail r v).pins = s.pins := rfl
@[simp] theorem State.clocks_setRail (s : State) (r : Nat) (v : Rail) : (s.setRail r v).clocks = s.clocks := rfl
@[simp] theorem State.ob_setRail (s : State) (r : Nat) (v : Rail) : (s.setRail r v).ob = s.ob := rfl
@[simp] theorem State.free_setRail (s : State) (r : Nat) (v : Rail) : (s.setRail r v).free = s.free := rfl
@[simp] theorem State.pending_setRail (s : State) (r : Nat) (v : Rail) : (s.setRail r v).pending = s.pending := rfl

/-! #### `setDie` -/

@[simp] theorem State.now_setDie (s : State) (n : Nat) (d : DieGov) : (s.setDie n d).now = s.now := rfl
@[simp] theorem State.frame_setDie (s : State) (n : Nat) (d : DieGov) : (s.setDie n d).frame = s.frame := rfl
@[simp] theorem State.jigs_setDie (s : State) (n : Nat) (d : DieGov) : (s.setDie n d).jigs = s.jigs := rfl
@[simp] theorem State.arrays_setDie (s : State) (n : Nat) (d : DieGov) : (s.setDie n d).arrays = s.arrays := rfl
@[simp] theorem State.lanes_setDie (s : State) (n : Nat) (d : DieGov) : (s.setDie n d).lanes = s.lanes := rfl
@[simp] theorem State.mem_setDie (s : State) (n : Nat) (d : DieGov) : (s.setDie n d).mem = s.mem := rfl
@[simp] theorem State.qf_setDie (s : State) (n : Nat) (d : DieGov) : (s.setDie n d).qf = s.qf := rfl
@[simp] theorem State.fabric_setDie (s : State) (n : Nat) (d : DieGov) : (s.setDie n d).fabric = s.fabric := rfl
@[simp] theorem State.host_setDie (s : State) (n : Nat) (d : DieGov) : (s.setDie n d).host = s.host := rfl
@[simp] theorem State.shim_setDie (s : State) (n : Nat) (d : DieGov) : (s.setDie n d).shim = s.shim := rfl
@[simp] theorem State.cells_setDie (s : State) (n : Nat) (d : DieGov) : (s.setDie n d).cells = s.cells := rfl
@[simp] theorem State.rails_setDie (s : State) (n : Nat) (d : DieGov) : (s.setDie n d).rails = s.rails := rfl
@[simp] theorem State.gov_setDie (s : State) (n : Nat) (d : DieGov) : (s.setDie n d).gov = { s.gov with dies := setNth s.gov.dies n d } := rfl
@[simp] theorem State.fc_setDie (s : State) (n : Nat) (d : DieGov) : (s.setDie n d).fc = s.fc := rfl
@[simp] theorem State.mp_setDie (s : State) (n : Nat) (d : DieGov) : (s.setDie n d).mp = s.mp := rfl
@[simp] theorem State.mod_setDie (s : State) (n : Nat) (d : DieGov) : (s.setDie n d).mod = s.mod := rfl
@[simp] theorem State.pins_setDie (s : State) (n : Nat) (d : DieGov) : (s.setDie n d).pins = s.pins := rfl
@[simp] theorem State.clocks_setDie (s : State) (n : Nat) (d : DieGov) : (s.setDie n d).clocks = s.clocks := rfl
@[simp] theorem State.ob_setDie (s : State) (n : Nat) (d : DieGov) : (s.setDie n d).ob = s.ob := rfl
@[simp] theorem State.free_setDie (s : State) (n : Nat) (d : DieGov) : (s.setDie n d).free = s.free := rfl
@[simp] theorem State.pending_setDie (s : State) (n : Nat) (d : DieGov) : (s.setDie n d).pending = s.pending := rfl

/-! #### `setDieClock` -/

@[simp] theorem State.now_setDieClock (s : State) (n : Nat) (d : DieClock) : (s.setDieClock n d).now = s.now := rfl
@[simp] theorem State.frame_setDieClock (s : State) (n : Nat) (d : DieClock) : (s.setDieClock n d).frame = s.frame := rfl
@[simp] theorem State.jigs_setDieClock (s : State) (n : Nat) (d : DieClock) : (s.setDieClock n d).jigs = s.jigs := rfl
@[simp] theorem State.arrays_setDieClock (s : State) (n : Nat) (d : DieClock) : (s.setDieClock n d).arrays = s.arrays := rfl
@[simp] theorem State.lanes_setDieClock (s : State) (n : Nat) (d : DieClock) : (s.setDieClock n d).lanes = s.lanes := rfl
@[simp] theorem State.mem_setDieClock (s : State) (n : Nat) (d : DieClock) : (s.setDieClock n d).mem = s.mem := rfl
@[simp] theorem State.qf_setDieClock (s : State) (n : Nat) (d : DieClock) : (s.setDieClock n d).qf = s.qf := rfl
@[simp] theorem State.fabric_setDieClock (s : State) (n : Nat) (d : DieClock) : (s.setDieClock n d).fabric = s.fabric := rfl
@[simp] theorem State.host_setDieClock (s : State) (n : Nat) (d : DieClock) : (s.setDieClock n d).host = s.host := rfl
@[simp] theorem State.shim_setDieClock (s : State) (n : Nat) (d : DieClock) : (s.setDieClock n d).shim = s.shim := rfl
@[simp] theorem State.cells_setDieClock (s : State) (n : Nat) (d : DieClock) : (s.setDieClock n d).cells = s.cells := rfl
@[simp] theorem State.rails_setDieClock (s : State) (n : Nat) (d : DieClock) : (s.setDieClock n d).rails = s.rails := rfl
@[simp] theorem State.gov_setDieClock (s : State) (n : Nat) (d : DieClock) : (s.setDieClock n d).gov = s.gov := rfl
@[simp] theorem State.fc_setDieClock (s : State) (n : Nat) (d : DieClock) : (s.setDieClock n d).fc = s.fc := rfl
@[simp] theorem State.mp_setDieClock (s : State) (n : Nat) (d : DieClock) : (s.setDieClock n d).mp = s.mp := rfl
@[simp] theorem State.mod_setDieClock (s : State) (n : Nat) (d : DieClock) : (s.setDieClock n d).mod = s.mod := rfl
@[simp] theorem State.pins_setDieClock (s : State) (n : Nat) (d : DieClock) : (s.setDieClock n d).pins = s.pins := rfl
@[simp] theorem State.clocks_setDieClock (s : State) (n : Nat) (d : DieClock) : (s.setDieClock n d).clocks = { s.clocks with dies := setNth s.clocks.dies n d } := rfl
@[simp] theorem State.ob_setDieClock (s : State) (n : Nat) (d : DieClock) : (s.setDieClock n d).ob = s.ob := rfl
@[simp] theorem State.free_setDieClock (s : State) (n : Nat) (d : DieClock) : (s.setDieClock n d).free = s.free := rfl
@[simp] theorem State.pending_setDieClock (s : State) (n : Nat) (d : DieClock) : (s.setDieClock n d).pending = s.pending := rfl

/-! #### `setClassSlot` -/

@[simp] theorem State.now_setClassSlot (s : State) (c : Nat) (x : ClassSlot) : (s.setClassSlot c x).now = s.now := rfl
@[simp] theorem State.frame_setClassSlot (s : State) (c : Nat) (x : ClassSlot) : (s.setClassSlot c x).frame = s.frame := rfl
@[simp] theorem State.jigs_setClassSlot (s : State) (c : Nat) (x : ClassSlot) : (s.setClassSlot c x).jigs = s.jigs := rfl
@[simp] theorem State.arrays_setClassSlot (s : State) (c : Nat) (x : ClassSlot) : (s.setClassSlot c x).arrays = s.arrays := rfl
@[simp] theorem State.lanes_setClassSlot (s : State) (c : Nat) (x : ClassSlot) : (s.setClassSlot c x).lanes = s.lanes := rfl
@[simp] theorem State.mem_setClassSlot (s : State) (c : Nat) (x : ClassSlot) : (s.setClassSlot c x).mem = s.mem := rfl
@[simp] theorem State.qf_setClassSlot (s : State) (c : Nat) (x : ClassSlot) : (s.setClassSlot c x).qf = s.qf := rfl
@[simp] theorem State.fabric_setClassSlot (s : State) (c : Nat) (x : ClassSlot) : (s.setClassSlot c x).fabric = s.fabric := rfl
@[simp] theorem State.host_setClassSlot (s : State) (c : Nat) (x : ClassSlot) : (s.setClassSlot c x).host = s.host := rfl
@[simp] theorem State.shim_setClassSlot (s : State) (c : Nat) (x : ClassSlot) : (s.setClassSlot c x).shim = s.shim := rfl
@[simp] theorem State.cells_setClassSlot (s : State) (c : Nat) (x : ClassSlot) : (s.setClassSlot c x).cells = s.cells := rfl
@[simp] theorem State.rails_setClassSlot (s : State) (c : Nat) (x : ClassSlot) : (s.setClassSlot c x).rails = s.rails := rfl
@[simp] theorem State.gov_setClassSlot (s : State) (c : Nat) (x : ClassSlot) : (s.setClassSlot c x).gov = s.gov := rfl
@[simp] theorem State.fc_setClassSlot (s : State) (c : Nat) (x : ClassSlot) : (s.setClassSlot c x).fc = { s.fc with slots := SMap.set s.fc.slots c x emptySlot } := rfl
@[simp] theorem State.mp_setClassSlot (s : State) (c : Nat) (x : ClassSlot) : (s.setClassSlot c x).mp = s.mp := rfl
@[simp] theorem State.mod_setClassSlot (s : State) (c : Nat) (x : ClassSlot) : (s.setClassSlot c x).mod = s.mod := rfl
@[simp] theorem State.pins_setClassSlot (s : State) (c : Nat) (x : ClassSlot) : (s.setClassSlot c x).pins = s.pins := rfl
@[simp] theorem State.clocks_setClassSlot (s : State) (c : Nat) (x : ClassSlot) : (s.setClassSlot c x).clocks = s.clocks := rfl
@[simp] theorem State.ob_setClassSlot (s : State) (c : Nat) (x : ClassSlot) : (s.setClassSlot c x).ob = s.ob := rfl
@[simp] theorem State.free_setClassSlot (s : State) (c : Nat) (x : ClassSlot) : (s.setClassSlot c x).free = s.free := rfl
@[simp] theorem State.pending_setClassSlot (s : State) (c : Nat) (x : ClassSlot) : (s.setClassSlot c x).pending = s.pending := rfl

/-! #### `setSlot` -/

@[simp] theorem State.now_setSlot (s : State) (k : Nat) (v : MailSlot) : (s.setSlot k v).now = s.now := rfl
@[simp] theorem State.frame_setSlot (s : State) (k : Nat) (v : MailSlot) : (s.setSlot k v).frame = s.frame := rfl
@[simp] theorem State.jigs_setSlot (s : State) (k : Nat) (v : MailSlot) : (s.setSlot k v).jigs = s.jigs := rfl
@[simp] theorem State.arrays_setSlot (s : State) (k : Nat) (v : MailSlot) : (s.setSlot k v).arrays = s.arrays := rfl
@[simp] theorem State.lanes_setSlot (s : State) (k : Nat) (v : MailSlot) : (s.setSlot k v).lanes = s.lanes := rfl
@[simp] theorem State.mem_setSlot (s : State) (k : Nat) (v : MailSlot) : (s.setSlot k v).mem = s.mem := rfl
@[simp] theorem State.qf_setSlot (s : State) (k : Nat) (v : MailSlot) : (s.setSlot k v).qf = s.qf := rfl
@[simp] theorem State.fabric_setSlot (s : State) (k : Nat) (v : MailSlot) : (s.setSlot k v).fabric = s.fabric := rfl
@[simp] theorem State.host_setSlot (s : State) (k : Nat) (v : MailSlot) : (s.setSlot k v).host = s.host := rfl
@[simp] theorem State.shim_setSlot (s : State) (k : Nat) (v : MailSlot) : (s.setSlot k v).shim = s.shim := rfl
@[simp] theorem State.cells_setSlot (s : State) (k : Nat) (v : MailSlot) : (s.setSlot k v).cells = s.cells := rfl
@[simp] theorem State.rails_setSlot (s : State) (k : Nat) (v : MailSlot) : (s.setSlot k v).rails = s.rails := rfl
@[simp] theorem State.gov_setSlot (s : State) (k : Nat) (v : MailSlot) : (s.setSlot k v).gov = s.gov := rfl
@[simp] theorem State.fc_setSlot (s : State) (k : Nat) (v : MailSlot) : (s.setSlot k v).fc = s.fc := rfl
@[simp] theorem State.mp_setSlot (s : State) (k : Nat) (v : MailSlot) : (s.setSlot k v).mp = { s.mp with slots := SMap.set s.mp.slots k v MailSlot.empty } := rfl
@[simp] theorem State.mod_setSlot (s : State) (k : Nat) (v : MailSlot) : (s.setSlot k v).mod = s.mod := rfl
@[simp] theorem State.pins_setSlot (s : State) (k : Nat) (v : MailSlot) : (s.setSlot k v).pins = s.pins := rfl
@[simp] theorem State.clocks_setSlot (s : State) (k : Nat) (v : MailSlot) : (s.setSlot k v).clocks = s.clocks := rfl
@[simp] theorem State.ob_setSlot (s : State) (k : Nat) (v : MailSlot) : (s.setSlot k v).ob = s.ob := rfl
@[simp] theorem State.free_setSlot (s : State) (k : Nat) (v : MailSlot) : (s.setSlot k v).free = s.free := rfl
@[simp] theorem State.pending_setSlot (s : State) (k : Nat) (v : MailSlot) : (s.setSlot k v).pending = s.pending := rfl

/-! #### Tables -/

@[simp] theorem State.msixOf_setMsixOf_read (s : State) (f f' : Nat) (m : MsixFn) :
    (s.setMsixOf f m).msixOf f' = if f' = f then m else s.msixOf f' := SMap.get_set _ _ _ _ _
@[simp] theorem State.vf_setVf_read (s : State) (p p' : Nat) (v : Vf) :
    (s.setVf p v).vf p' = if p' = p then v else s.vf p' := SMap.get_set _ _ _ _ _
@[simp] theorem State.queue_setQueue_read (s : State) (q q' : Nat) (v : Queue) :
    (s.setQueue q v).queue q' = if q' = q then v else s.queue q' := SMap.get_set _ _ _ _ _
@[simp] theorem State.mover_setMover_read (s : State) (k k' : Nat) (v : Mover) :
    (s.setMover k v).mover k' = if k' = k then v else s.mover k' := SMap.get_set _ _ _ _ _
@[simp] theorem State.partJig_setPartJig_read (s : State) (p p' : Nat) (j : Option PartJig) :
    (s.setPartJig p j).partJig p' = if p' = p then j else s.partJig p' := SMap.get_set _ _ _ _ _
@[simp] theorem State.array_setArray_read (s : State) (m m' : Nat) (v : ArrayUnit) :
    (s.setArray m v).array m' = if m' = m then v else s.array m' := SMap.get_set _ _ _ _ _
@[simp] theorem State.link_setLink_read (s : State) (k k' : Nat) (l : Link) :
    (s.setLink k l).link k' = if k' = k then l else s.link k' := SMap.get_set _ _ _ _ _
@[simp] theorem State.endpoint_setEndpoint_read (s : State) (e e' : Nat) (x : EpState) :
    (s.setEndpoint e x).endpoint e' = if e' = e then x else s.endpoint e' := SMap.get_set _ _ _ _ _
@[simp] theorem State.rail_setRail_read (s : State) (r r' : Nat) (v : Rail) :
    (s.setRail r v).rail r' = if r' = r then v else s.rail r' := SMap.get_set _ _ _ _ _
@[simp] theorem State.slot_setSlot_read (s : State) (k k' : Nat) (v : MailSlot) :
    (s.setSlot k v).slot k' = if k' = k then v else s.slot k' := SMap.get_set _ _ _ _ _
@[simp] theorem State.classSlot_setClassSlot_read (s : State) (c c' : Nat) (x : ClassSlot) :
    (s.setClassSlot c x).classSlot c' = if c' = c then x else s.classSlot c' := SMap.get_set _ _ _ _ _

/-! #### An edge of the fault controller -/

/-- Where no later step of the same edge has been taken, a step at `t` only moves time and marks the edge (R683). -/
theorem State.onEdge_eq (s : State) (t k : Nat) (h : ¬ (s.fc.edge.1 = max s.now t / rcPc ∧ k < s.fc.edge.2)) :
    s.onEdge t k = { s.upTo t with fc := { s.fc with edge := (max s.now t / rcPc, k) } } := by
  unfold State.onEdge; exact if_neg h
@[simp] theorem State.frame_onEdge (s : State) (t k : Nat) : (s.onEdge t k).frame = s.frame := by unfold State.onEdge; dsimp only; split <;> rfl
@[simp] theorem State.jigs_onEdge (s : State) (t k : Nat) : (s.onEdge t k).jigs = s.jigs := by unfold State.onEdge; dsimp only; split <;> rfl
@[simp] theorem State.arrays_onEdge (s : State) (t k : Nat) : (s.onEdge t k).arrays = s.arrays := by unfold State.onEdge; dsimp only; split <;> rfl
@[simp] theorem State.lanes_onEdge (s : State) (t k : Nat) : (s.onEdge t k).lanes = s.lanes := by unfold State.onEdge; dsimp only; split <;> rfl
@[simp] theorem State.mem_onEdge (s : State) (t k : Nat) : (s.onEdge t k).mem = s.mem := by unfold State.onEdge; dsimp only; split <;> rfl
@[simp] theorem State.qf_onEdge (s : State) (t k : Nat) : (s.onEdge t k).qf = s.qf := by unfold State.onEdge; dsimp only; split <;> rfl
@[simp] theorem State.fabric_onEdge (s : State) (t k : Nat) : (s.onEdge t k).fabric = s.fabric := by unfold State.onEdge; dsimp only; split <;> rfl
@[simp] theorem State.host_onEdge (s : State) (t k : Nat) : (s.onEdge t k).host = s.host := by unfold State.onEdge; dsimp only; split <;> rfl
@[simp] theorem State.shim_onEdge (s : State) (t k : Nat) : (s.onEdge t k).shim = s.shim := by unfold State.onEdge; dsimp only; split <;> rfl
@[simp] theorem State.cells_onEdge (s : State) (t k : Nat) : (s.onEdge t k).cells = s.cells := by unfold State.onEdge; dsimp only; split <;> rfl
@[simp] theorem State.rails_onEdge (s : State) (t k : Nat) : (s.onEdge t k).rails = s.rails := by unfold State.onEdge; dsimp only; split <;> rfl
@[simp] theorem State.gov_onEdge (s : State) (t k : Nat) : (s.onEdge t k).gov = s.gov := by unfold State.onEdge; dsimp only; split <;> rfl
@[simp] theorem State.mp_onEdge (s : State) (t k : Nat) : (s.onEdge t k).mp = s.mp := by unfold State.onEdge; dsimp only; split <;> rfl
@[simp] theorem State.mod_onEdge (s : State) (t k : Nat) : (s.onEdge t k).mod = s.mod := by unfold State.onEdge; dsimp only; split <;> rfl
@[simp] theorem State.pins_onEdge (s : State) (t k : Nat) : (s.onEdge t k).pins = s.pins := by unfold State.onEdge; dsimp only; split <;> rfl
@[simp] theorem State.clocks_onEdge (s : State) (t k : Nat) : (s.onEdge t k).clocks = s.clocks := by unfold State.onEdge; dsimp only; split <;> rfl
@[simp] theorem State.ob_onEdge (s : State) (t k : Nat) : (s.onEdge t k).ob = s.ob := by unfold State.onEdge; dsimp only; split <;> rfl
@[simp] theorem State.free_onEdge (s : State) (t k : Nat) : (s.onEdge t k).free = s.free := by unfold State.onEdge; dsimp only; split <;> rfl
@[simp] theorem State.pending_onEdge (s : State) (t k : Nat) : (s.onEdge t k).pending = s.pending := by unfold State.onEdge; dsimp only; split <;> rfl
@[simp] theorem State.raised_onEdge (s : State) (t k : Nat) : (s.onEdge t k).fc.raised = s.fc.raised := by unfold State.onEdge; dsimp only; split <;> rfl
@[simp] theorem State.slots_onEdge (s : State) (t k : Nat) : (s.onEdge t k).fc.slots = s.fc.slots := by unfold State.onEdge; dsimp only; split <;> rfl

/-! #### Tables under updates elsewhere -/

@[simp] theorem State.vf_after_upTo (s : State) (t : Nat) (key : Nat) : (s.upTo t).vf key = s.vf key := rfl
@[simp] theorem State.vf_after_raiseMsg (s : State) (src : Source) (m : FaultMsg) (key : Nat) : (s.raiseMsg src m).vf key = s.vf key := rfl
@[simp] theorem State.vf_after_raise (s : State) (src : Source) (c u d : Nat) (key : Nat) : (s.raise src c u d).vf key = s.vf key := rfl
@[simp] theorem State.vf_after_raiseCond (s : State) (src : Source) (c u d : Nat) (key : Nat) : (s.raiseCond src c u d).vf key = s.vf key := rfl
@[simp] theorem State.vf_after_raiseFor (s : State) (src : Source) (c u : Nat) (p : Option Nat) (key : Nat) : (s.raiseFor src c u p).vf key = s.vf key := rfl
@[simp] theorem State.vf_after_raiseVf (s : State) (c p : Nat) (key : Nat) : (s.raiseVf c p).vf key = s.vf key := rfl
@[simp] theorem State.vf_after_bump (s : State) (i n : Nat) (key : Nat) : (s.bump i n).vf key = s.vf key := rfl
@[simp] theorem State.vf_after_level (s : State) (i : Nat) (v : Int) (key : Nat) : (s.level i v).vf key = s.vf key := rfl
@[simp] theorem State.vf_after_writeMem (s : State) (a : Nat) (d : Data) (key : Nat) : (s.writeMem a d).vf key = s.vf key := rfl
@[simp] theorem State.vf_after_holdRead (s : State) (tier : Nat) (who : Requester) (tag a : Nat) (d : Data) (slot : Nat) (key : Nat) : (s.holdRead tier who tag a d slot).vf key = s.vf key := rfl
@[simp] theorem State.vf_after_addAccess (s : State) (x : BenchAccess) (key : Nat) : (s.addAccess x).vf key = s.vf key := rfl
@[simp] theorem State.vf_after_setMsixOf (s : State) (f : Nat) (m : MsixFn) (key : Nat) : (s.setMsixOf f m).vf key = s.vf key := rfl
@[simp] theorem State.vf_after_setQueue (s : State) (q : Nat) (v : Queue) (key : Nat) : (s.setQueue q v).vf key = s.vf key := rfl
@[simp] theorem State.vf_after_setMover (s : State) (k : Nat) (v : Mover) (key : Nat) : (s.setMover k v).vf key = s.vf key := rfl
@[simp] theorem State.vf_after_setPartJig (s : State) (p : Nat) (j : Option PartJig) (key : Nat) : (s.setPartJig p j).vf key = s.vf key := rfl
@[simp] theorem State.vf_after_setCluster (s : State) (c : Nat) (v : Cluster) (key : Nat) : (s.setCluster c v).vf key = s.vf key := rfl
@[simp] theorem State.vf_after_setArray (s : State) (m : Nat) (v : ArrayUnit) (key : Nat) : (s.setArray m v).vf key = s.vf key := rfl
@[simp] theorem State.vf_after_setLink (s : State) (k : Nat) (l : Link) (key : Nat) : (s.setLink k l).vf key = s.vf key := rfl
@[simp] theorem State.vf_after_setEndpoint (s : State) (e : Nat) (x : EpState) (key : Nat) : (s.setEndpoint e x).vf key = s.vf key := rfl
@[simp] theorem State.vf_after_setRail (s : State) (r : Nat) (v : Rail) (key : Nat) : (s.setRail r v).vf key = s.vf key := rfl
@[simp] theorem State.vf_after_setDie (s : State) (n : Nat) (d : DieGov) (key : Nat) : (s.setDie n d).vf key = s.vf key := rfl
@[simp] theorem State.vf_after_setDieClock (s : State) (n : Nat) (d : DieClock) (key : Nat) : (s.setDieClock n d).vf key = s.vf key := rfl
@[simp] theorem State.vf_after_setClassSlot (s : State) (c : Nat) (x : ClassSlot) (key : Nat) : (s.setClassSlot c x).vf key = s.vf key := rfl
@[simp] theorem State.vf_after_setSlot (s : State) (k : Nat) (v : MailSlot) (key : Nat) : (s.setSlot k v).vf key = s.vf key := rfl
@[simp] theorem State.msixOf_after_upTo (s : State) (t : Nat) (key : Nat) : (s.upTo t).msixOf key = s.msixOf key := rfl
@[simp] theorem State.msixOf_after_raiseMsg (s : State) (src : Source) (m : FaultMsg) (key : Nat) : (s.raiseMsg src m).msixOf key = s.msixOf key := rfl
@[simp] theorem State.msixOf_after_raise (s : State) (src : Source) (c u d : Nat) (key : Nat) : (s.raise src c u d).msixOf key = s.msixOf key := rfl
@[simp] theorem State.msixOf_after_raiseCond (s : State) (src : Source) (c u d : Nat) (key : Nat) : (s.raiseCond src c u d).msixOf key = s.msixOf key := rfl
@[simp] theorem State.msixOf_after_raiseFor (s : State) (src : Source) (c u : Nat) (p : Option Nat) (key : Nat) : (s.raiseFor src c u p).msixOf key = s.msixOf key := rfl
@[simp] theorem State.msixOf_after_raiseVf (s : State) (c p : Nat) (key : Nat) : (s.raiseVf c p).msixOf key = s.msixOf key := rfl
@[simp] theorem State.msixOf_after_bump (s : State) (i n : Nat) (key : Nat) : (s.bump i n).msixOf key = s.msixOf key := rfl
@[simp] theorem State.msixOf_after_level (s : State) (i : Nat) (v : Int) (key : Nat) : (s.level i v).msixOf key = s.msixOf key := rfl
@[simp] theorem State.msixOf_after_setVf (s : State) (p : Nat) (v : Vf) (key : Nat) : (s.setVf p v).msixOf key = s.msixOf key := rfl
@[simp] theorem State.msixOf_after_writeMem (s : State) (a : Nat) (d : Data) (key : Nat) : (s.writeMem a d).msixOf key = s.msixOf key := rfl
@[simp] theorem State.msixOf_after_holdRead (s : State) (tier : Nat) (who : Requester) (tag a : Nat) (d : Data) (slot : Nat) (key : Nat) : (s.holdRead tier who tag a d slot).msixOf key = s.msixOf key := rfl
@[simp] theorem State.msixOf_after_addAccess (s : State) (x : BenchAccess) (key : Nat) : (s.addAccess x).msixOf key = s.msixOf key := rfl
@[simp] theorem State.msixOf_after_setQueue (s : State) (q : Nat) (v : Queue) (key : Nat) : (s.setQueue q v).msixOf key = s.msixOf key := rfl
@[simp] theorem State.msixOf_after_setMover (s : State) (k : Nat) (v : Mover) (key : Nat) : (s.setMover k v).msixOf key = s.msixOf key := rfl
@[simp] theorem State.msixOf_after_setPartJig (s : State) (p : Nat) (j : Option PartJig) (key : Nat) : (s.setPartJig p j).msixOf key = s.msixOf key := rfl
@[simp] theorem State.msixOf_after_setCluster (s : State) (c : Nat) (v : Cluster) (key : Nat) : (s.setCluster c v).msixOf key = s.msixOf key := rfl
@[simp] theorem State.msixOf_after_setArray (s : State) (m : Nat) (v : ArrayUnit) (key : Nat) : (s.setArray m v).msixOf key = s.msixOf key := rfl
@[simp] theorem State.msixOf_after_setLink (s : State) (k : Nat) (l : Link) (key : Nat) : (s.setLink k l).msixOf key = s.msixOf key := rfl
@[simp] theorem State.msixOf_after_setEndpoint (s : State) (e : Nat) (x : EpState) (key : Nat) : (s.setEndpoint e x).msixOf key = s.msixOf key := rfl
@[simp] theorem State.msixOf_after_setRail (s : State) (r : Nat) (v : Rail) (key : Nat) : (s.setRail r v).msixOf key = s.msixOf key := rfl
@[simp] theorem State.msixOf_after_setDie (s : State) (n : Nat) (d : DieGov) (key : Nat) : (s.setDie n d).msixOf key = s.msixOf key := rfl
@[simp] theorem State.msixOf_after_setDieClock (s : State) (n : Nat) (d : DieClock) (key : Nat) : (s.setDieClock n d).msixOf key = s.msixOf key := rfl
@[simp] theorem State.msixOf_after_setClassSlot (s : State) (c : Nat) (x : ClassSlot) (key : Nat) : (s.setClassSlot c x).msixOf key = s.msixOf key := rfl
@[simp] theorem State.msixOf_after_setSlot (s : State) (k : Nat) (v : MailSlot) (key : Nat) : (s.setSlot k v).msixOf key = s.msixOf key := rfl
@[simp] theorem State.queue_after_upTo (s : State) (t : Nat) (key : Nat) : (s.upTo t).queue key = s.queue key := rfl
@[simp] theorem State.queue_after_raiseMsg (s : State) (src : Source) (m : FaultMsg) (key : Nat) : (s.raiseMsg src m).queue key = s.queue key := rfl
@[simp] theorem State.queue_after_raise (s : State) (src : Source) (c u d : Nat) (key : Nat) : (s.raise src c u d).queue key = s.queue key := rfl
@[simp] theorem State.queue_after_raiseCond (s : State) (src : Source) (c u d : Nat) (key : Nat) : (s.raiseCond src c u d).queue key = s.queue key := rfl
@[simp] theorem State.queue_after_raiseFor (s : State) (src : Source) (c u : Nat) (p : Option Nat) (key : Nat) : (s.raiseFor src c u p).queue key = s.queue key := rfl
@[simp] theorem State.queue_after_raiseVf (s : State) (c p : Nat) (key : Nat) : (s.raiseVf c p).queue key = s.queue key := rfl
@[simp] theorem State.queue_after_bump (s : State) (i n : Nat) (key : Nat) : (s.bump i n).queue key = s.queue key := rfl
@[simp] theorem State.queue_after_level (s : State) (i : Nat) (v : Int) (key : Nat) : (s.level i v).queue key = s.queue key := rfl
@[simp] theorem State.queue_after_setVf (s : State) (p : Nat) (v : Vf) (key : Nat) : (s.setVf p v).queue key = s.queue key := rfl
@[simp] theorem State.queue_after_writeMem (s : State) (a : Nat) (d : Data) (key : Nat) : (s.writeMem a d).queue key = s.queue key := rfl
@[simp] theorem State.queue_after_holdRead (s : State) (tier : Nat) (who : Requester) (tag a : Nat) (d : Data) (slot : Nat) (key : Nat) : (s.holdRead tier who tag a d slot).queue key = s.queue key := rfl
@[simp] theorem State.queue_after_addAccess (s : State) (x : BenchAccess) (key : Nat) : (s.addAccess x).queue key = s.queue key := rfl
@[simp] theorem State.queue_after_setMsixOf (s : State) (f : Nat) (m : MsixFn) (key : Nat) : (s.setMsixOf f m).queue key = s.queue key := rfl
@[simp] theorem State.queue_after_setMover (s : State) (k : Nat) (v : Mover) (key : Nat) : (s.setMover k v).queue key = s.queue key := rfl
@[simp] theorem State.queue_after_setPartJig (s : State) (p : Nat) (j : Option PartJig) (key : Nat) : (s.setPartJig p j).queue key = s.queue key := rfl
@[simp] theorem State.queue_after_setCluster (s : State) (c : Nat) (v : Cluster) (key : Nat) : (s.setCluster c v).queue key = s.queue key := rfl
@[simp] theorem State.queue_after_setArray (s : State) (m : Nat) (v : ArrayUnit) (key : Nat) : (s.setArray m v).queue key = s.queue key := rfl
@[simp] theorem State.queue_after_setLink (s : State) (k : Nat) (l : Link) (key : Nat) : (s.setLink k l).queue key = s.queue key := rfl
@[simp] theorem State.queue_after_setEndpoint (s : State) (e : Nat) (x : EpState) (key : Nat) : (s.setEndpoint e x).queue key = s.queue key := rfl
@[simp] theorem State.queue_after_setRail (s : State) (r : Nat) (v : Rail) (key : Nat) : (s.setRail r v).queue key = s.queue key := rfl
@[simp] theorem State.queue_after_setDie (s : State) (n : Nat) (d : DieGov) (key : Nat) : (s.setDie n d).queue key = s.queue key := rfl
@[simp] theorem State.queue_after_setDieClock (s : State) (n : Nat) (d : DieClock) (key : Nat) : (s.setDieClock n d).queue key = s.queue key := rfl
@[simp] theorem State.queue_after_setClassSlot (s : State) (c : Nat) (x : ClassSlot) (key : Nat) : (s.setClassSlot c x).queue key = s.queue key := rfl
@[simp] theorem State.queue_after_setSlot (s : State) (k : Nat) (v : MailSlot) (key : Nat) : (s.setSlot k v).queue key = s.queue key := rfl
@[simp] theorem State.mover_after_upTo (s : State) (t : Nat) (key : Nat) : (s.upTo t).mover key = s.mover key := rfl
@[simp] theorem State.mover_after_raiseMsg (s : State) (src : Source) (m : FaultMsg) (key : Nat) : (s.raiseMsg src m).mover key = s.mover key := rfl
@[simp] theorem State.mover_after_raise (s : State) (src : Source) (c u d : Nat) (key : Nat) : (s.raise src c u d).mover key = s.mover key := rfl
@[simp] theorem State.mover_after_raiseCond (s : State) (src : Source) (c u d : Nat) (key : Nat) : (s.raiseCond src c u d).mover key = s.mover key := rfl
@[simp] theorem State.mover_after_raiseFor (s : State) (src : Source) (c u : Nat) (p : Option Nat) (key : Nat) : (s.raiseFor src c u p).mover key = s.mover key := rfl
@[simp] theorem State.mover_after_raiseVf (s : State) (c p : Nat) (key : Nat) : (s.raiseVf c p).mover key = s.mover key := rfl
@[simp] theorem State.mover_after_bump (s : State) (i n : Nat) (key : Nat) : (s.bump i n).mover key = s.mover key := rfl
@[simp] theorem State.mover_after_level (s : State) (i : Nat) (v : Int) (key : Nat) : (s.level i v).mover key = s.mover key := rfl
@[simp] theorem State.mover_after_setVf (s : State) (p : Nat) (v : Vf) (key : Nat) : (s.setVf p v).mover key = s.mover key := rfl
@[simp] theorem State.mover_after_writeMem (s : State) (a : Nat) (d : Data) (key : Nat) : (s.writeMem a d).mover key = s.mover key := rfl
@[simp] theorem State.mover_after_holdRead (s : State) (tier : Nat) (who : Requester) (tag a : Nat) (d : Data) (slot : Nat) (key : Nat) : (s.holdRead tier who tag a d slot).mover key = s.mover key := rfl
@[simp] theorem State.mover_after_addAccess (s : State) (x : BenchAccess) (key : Nat) : (s.addAccess x).mover key = s.mover key := rfl
@[simp] theorem State.mover_after_setMsixOf (s : State) (f : Nat) (m : MsixFn) (key : Nat) : (s.setMsixOf f m).mover key = s.mover key := rfl
@[simp] theorem State.mover_after_setQueue (s : State) (q : Nat) (v : Queue) (key : Nat) : (s.setQueue q v).mover key = s.mover key := rfl
@[simp] theorem State.mover_after_setPartJig (s : State) (p : Nat) (j : Option PartJig) (key : Nat) : (s.setPartJig p j).mover key = s.mover key := rfl
@[simp] theorem State.mover_after_setCluster (s : State) (c : Nat) (v : Cluster) (key : Nat) : (s.setCluster c v).mover key = s.mover key := rfl
@[simp] theorem State.mover_after_setArray (s : State) (m : Nat) (v : ArrayUnit) (key : Nat) : (s.setArray m v).mover key = s.mover key := rfl
@[simp] theorem State.mover_after_setLink (s : State) (k : Nat) (l : Link) (key : Nat) : (s.setLink k l).mover key = s.mover key := rfl
@[simp] theorem State.mover_after_setEndpoint (s : State) (e : Nat) (x : EpState) (key : Nat) : (s.setEndpoint e x).mover key = s.mover key := rfl
@[simp] theorem State.mover_after_setRail (s : State) (r : Nat) (v : Rail) (key : Nat) : (s.setRail r v).mover key = s.mover key := rfl
@[simp] theorem State.mover_after_setDie (s : State) (n : Nat) (d : DieGov) (key : Nat) : (s.setDie n d).mover key = s.mover key := rfl
@[simp] theorem State.mover_after_setDieClock (s : State) (n : Nat) (d : DieClock) (key : Nat) : (s.setDieClock n d).mover key = s.mover key := rfl
@[simp] theorem State.mover_after_setClassSlot (s : State) (c : Nat) (x : ClassSlot) (key : Nat) : (s.setClassSlot c x).mover key = s.mover key := rfl
@[simp] theorem State.mover_after_setSlot (s : State) (k : Nat) (v : MailSlot) (key : Nat) : (s.setSlot k v).mover key = s.mover key := rfl
@[simp] theorem State.partJig_after_upTo (s : State) (t : Nat) (key : Nat) : (s.upTo t).partJig key = s.partJig key := rfl
@[simp] theorem State.partJig_after_raiseMsg (s : State) (src : Source) (m : FaultMsg) (key : Nat) : (s.raiseMsg src m).partJig key = s.partJig key := rfl
@[simp] theorem State.partJig_after_raise (s : State) (src : Source) (c u d : Nat) (key : Nat) : (s.raise src c u d).partJig key = s.partJig key := rfl
@[simp] theorem State.partJig_after_raiseCond (s : State) (src : Source) (c u d : Nat) (key : Nat) : (s.raiseCond src c u d).partJig key = s.partJig key := rfl
@[simp] theorem State.partJig_after_raiseFor (s : State) (src : Source) (c u : Nat) (p : Option Nat) (key : Nat) : (s.raiseFor src c u p).partJig key = s.partJig key := rfl
@[simp] theorem State.partJig_after_raiseVf (s : State) (c p : Nat) (key : Nat) : (s.raiseVf c p).partJig key = s.partJig key := rfl
@[simp] theorem State.partJig_after_bump (s : State) (i n : Nat) (key : Nat) : (s.bump i n).partJig key = s.partJig key := rfl
@[simp] theorem State.partJig_after_level (s : State) (i : Nat) (v : Int) (key : Nat) : (s.level i v).partJig key = s.partJig key := rfl
@[simp] theorem State.partJig_after_setVf (s : State) (p : Nat) (v : Vf) (key : Nat) : (s.setVf p v).partJig key = s.partJig key := rfl
@[simp] theorem State.partJig_after_writeMem (s : State) (a : Nat) (d : Data) (key : Nat) : (s.writeMem a d).partJig key = s.partJig key := rfl
@[simp] theorem State.partJig_after_holdRead (s : State) (tier : Nat) (who : Requester) (tag a : Nat) (d : Data) (slot : Nat) (key : Nat) : (s.holdRead tier who tag a d slot).partJig key = s.partJig key := rfl
@[simp] theorem State.partJig_after_addAccess (s : State) (x : BenchAccess) (key : Nat) : (s.addAccess x).partJig key = s.partJig key := rfl
@[simp] theorem State.partJig_after_setMsixOf (s : State) (f : Nat) (m : MsixFn) (key : Nat) : (s.setMsixOf f m).partJig key = s.partJig key := rfl
@[simp] theorem State.partJig_after_setQueue (s : State) (q : Nat) (v : Queue) (key : Nat) : (s.setQueue q v).partJig key = s.partJig key := rfl
@[simp] theorem State.partJig_after_setMover (s : State) (k : Nat) (v : Mover) (key : Nat) : (s.setMover k v).partJig key = s.partJig key := rfl
@[simp] theorem State.partJig_after_setCluster (s : State) (c : Nat) (v : Cluster) (key : Nat) : (s.setCluster c v).partJig key = s.partJig key := rfl
@[simp] theorem State.partJig_after_setArray (s : State) (m : Nat) (v : ArrayUnit) (key : Nat) : (s.setArray m v).partJig key = s.partJig key := rfl
@[simp] theorem State.partJig_after_setLink (s : State) (k : Nat) (l : Link) (key : Nat) : (s.setLink k l).partJig key = s.partJig key := rfl
@[simp] theorem State.partJig_after_setEndpoint (s : State) (e : Nat) (x : EpState) (key : Nat) : (s.setEndpoint e x).partJig key = s.partJig key := rfl
@[simp] theorem State.partJig_after_setRail (s : State) (r : Nat) (v : Rail) (key : Nat) : (s.setRail r v).partJig key = s.partJig key := rfl
@[simp] theorem State.partJig_after_setDie (s : State) (n : Nat) (d : DieGov) (key : Nat) : (s.setDie n d).partJig key = s.partJig key := rfl
@[simp] theorem State.partJig_after_setDieClock (s : State) (n : Nat) (d : DieClock) (key : Nat) : (s.setDieClock n d).partJig key = s.partJig key := rfl
@[simp] theorem State.partJig_after_setClassSlot (s : State) (c : Nat) (x : ClassSlot) (key : Nat) : (s.setClassSlot c x).partJig key = s.partJig key := rfl
@[simp] theorem State.partJig_after_setSlot (s : State) (k : Nat) (v : MailSlot) (key : Nat) : (s.setSlot k v).partJig key = s.partJig key := rfl
@[simp] theorem State.array_after_upTo (s : State) (t : Nat) (key : Nat) : (s.upTo t).array key = s.array key := rfl
@[simp] theorem State.array_after_raiseMsg (s : State) (src : Source) (m : FaultMsg) (key : Nat) : (s.raiseMsg src m).array key = s.array key := rfl
@[simp] theorem State.array_after_raise (s : State) (src : Source) (c u d : Nat) (key : Nat) : (s.raise src c u d).array key = s.array key := rfl
@[simp] theorem State.array_after_raiseCond (s : State) (src : Source) (c u d : Nat) (key : Nat) : (s.raiseCond src c u d).array key = s.array key := rfl
@[simp] theorem State.array_after_raiseFor (s : State) (src : Source) (c u : Nat) (p : Option Nat) (key : Nat) : (s.raiseFor src c u p).array key = s.array key := rfl
@[simp] theorem State.array_after_raiseVf (s : State) (c p : Nat) (key : Nat) : (s.raiseVf c p).array key = s.array key := rfl
@[simp] theorem State.array_after_bump (s : State) (i n : Nat) (key : Nat) : (s.bump i n).array key = s.array key := rfl
@[simp] theorem State.array_after_level (s : State) (i : Nat) (v : Int) (key : Nat) : (s.level i v).array key = s.array key := rfl
@[simp] theorem State.array_after_setVf (s : State) (p : Nat) (v : Vf) (key : Nat) : (s.setVf p v).array key = s.array key := rfl
@[simp] theorem State.array_after_writeMem (s : State) (a : Nat) (d : Data) (key : Nat) : (s.writeMem a d).array key = s.array key := rfl
@[simp] theorem State.array_after_holdRead (s : State) (tier : Nat) (who : Requester) (tag a : Nat) (d : Data) (slot : Nat) (key : Nat) : (s.holdRead tier who tag a d slot).array key = s.array key := rfl
@[simp] theorem State.array_after_addAccess (s : State) (x : BenchAccess) (key : Nat) : (s.addAccess x).array key = s.array key := rfl
@[simp] theorem State.array_after_setMsixOf (s : State) (f : Nat) (m : MsixFn) (key : Nat) : (s.setMsixOf f m).array key = s.array key := rfl
@[simp] theorem State.array_after_setQueue (s : State) (q : Nat) (v : Queue) (key : Nat) : (s.setQueue q v).array key = s.array key := rfl
@[simp] theorem State.array_after_setMover (s : State) (k : Nat) (v : Mover) (key : Nat) : (s.setMover k v).array key = s.array key := rfl
@[simp] theorem State.array_after_setPartJig (s : State) (p : Nat) (j : Option PartJig) (key : Nat) : (s.setPartJig p j).array key = s.array key := rfl
@[simp] theorem State.array_after_setCluster (s : State) (c : Nat) (v : Cluster) (key : Nat) : (s.setCluster c v).array key = s.array key := rfl
@[simp] theorem State.array_after_setLink (s : State) (k : Nat) (l : Link) (key : Nat) : (s.setLink k l).array key = s.array key := rfl
@[simp] theorem State.array_after_setEndpoint (s : State) (e : Nat) (x : EpState) (key : Nat) : (s.setEndpoint e x).array key = s.array key := rfl
@[simp] theorem State.array_after_setRail (s : State) (r : Nat) (v : Rail) (key : Nat) : (s.setRail r v).array key = s.array key := rfl
@[simp] theorem State.array_after_setDie (s : State) (n : Nat) (d : DieGov) (key : Nat) : (s.setDie n d).array key = s.array key := rfl
@[simp] theorem State.array_after_setDieClock (s : State) (n : Nat) (d : DieClock) (key : Nat) : (s.setDieClock n d).array key = s.array key := rfl
@[simp] theorem State.array_after_setClassSlot (s : State) (c : Nat) (x : ClassSlot) (key : Nat) : (s.setClassSlot c x).array key = s.array key := rfl
@[simp] theorem State.array_after_setSlot (s : State) (k : Nat) (v : MailSlot) (key : Nat) : (s.setSlot k v).array key = s.array key := rfl
@[simp] theorem State.link_after_upTo (s : State) (t : Nat) (key : Nat) : (s.upTo t).link key = s.link key := rfl
@[simp] theorem State.link_after_raiseMsg (s : State) (src : Source) (m : FaultMsg) (key : Nat) : (s.raiseMsg src m).link key = s.link key := rfl
@[simp] theorem State.link_after_raise (s : State) (src : Source) (c u d : Nat) (key : Nat) : (s.raise src c u d).link key = s.link key := rfl
@[simp] theorem State.link_after_raiseCond (s : State) (src : Source) (c u d : Nat) (key : Nat) : (s.raiseCond src c u d).link key = s.link key := rfl
@[simp] theorem State.link_after_raiseFor (s : State) (src : Source) (c u : Nat) (p : Option Nat) (key : Nat) : (s.raiseFor src c u p).link key = s.link key := rfl
@[simp] theorem State.link_after_raiseVf (s : State) (c p : Nat) (key : Nat) : (s.raiseVf c p).link key = s.link key := rfl
@[simp] theorem State.link_after_bump (s : State) (i n : Nat) (key : Nat) : (s.bump i n).link key = s.link key := rfl
@[simp] theorem State.link_after_level (s : State) (i : Nat) (v : Int) (key : Nat) : (s.level i v).link key = s.link key := rfl
@[simp] theorem State.link_after_setVf (s : State) (p : Nat) (v : Vf) (key : Nat) : (s.setVf p v).link key = s.link key := rfl
@[simp] theorem State.link_after_writeMem (s : State) (a : Nat) (d : Data) (key : Nat) : (s.writeMem a d).link key = s.link key := rfl
@[simp] theorem State.link_after_holdRead (s : State) (tier : Nat) (who : Requester) (tag a : Nat) (d : Data) (slot : Nat) (key : Nat) : (s.holdRead tier who tag a d slot).link key = s.link key := rfl
@[simp] theorem State.link_after_addAccess (s : State) (x : BenchAccess) (key : Nat) : (s.addAccess x).link key = s.link key := rfl
@[simp] theorem State.link_after_setMsixOf (s : State) (f : Nat) (m : MsixFn) (key : Nat) : (s.setMsixOf f m).link key = s.link key := rfl
@[simp] theorem State.link_after_setQueue (s : State) (q : Nat) (v : Queue) (key : Nat) : (s.setQueue q v).link key = s.link key := rfl
@[simp] theorem State.link_after_setMover (s : State) (k : Nat) (v : Mover) (key : Nat) : (s.setMover k v).link key = s.link key := rfl
@[simp] theorem State.link_after_setPartJig (s : State) (p : Nat) (j : Option PartJig) (key : Nat) : (s.setPartJig p j).link key = s.link key := rfl
@[simp] theorem State.link_after_setCluster (s : State) (c : Nat) (v : Cluster) (key : Nat) : (s.setCluster c v).link key = s.link key := rfl
@[simp] theorem State.link_after_setArray (s : State) (m : Nat) (v : ArrayUnit) (key : Nat) : (s.setArray m v).link key = s.link key := rfl
@[simp] theorem State.link_after_setRail (s : State) (r : Nat) (v : Rail) (key : Nat) : (s.setRail r v).link key = s.link key := rfl
@[simp] theorem State.link_after_setDie (s : State) (n : Nat) (d : DieGov) (key : Nat) : (s.setDie n d).link key = s.link key := rfl
@[simp] theorem State.link_after_setDieClock (s : State) (n : Nat) (d : DieClock) (key : Nat) : (s.setDieClock n d).link key = s.link key := rfl
@[simp] theorem State.link_after_setClassSlot (s : State) (c : Nat) (x : ClassSlot) (key : Nat) : (s.setClassSlot c x).link key = s.link key := rfl
@[simp] theorem State.link_after_setSlot (s : State) (k : Nat) (v : MailSlot) (key : Nat) : (s.setSlot k v).link key = s.link key := rfl
@[simp] theorem State.endpoint_after_upTo (s : State) (t : Nat) (key : Nat) : (s.upTo t).endpoint key = s.endpoint key := rfl
@[simp] theorem State.endpoint_after_raiseMsg (s : State) (src : Source) (m : FaultMsg) (key : Nat) : (s.raiseMsg src m).endpoint key = s.endpoint key := rfl
@[simp] theorem State.endpoint_after_raise (s : State) (src : Source) (c u d : Nat) (key : Nat) : (s.raise src c u d).endpoint key = s.endpoint key := rfl
@[simp] theorem State.endpoint_after_raiseCond (s : State) (src : Source) (c u d : Nat) (key : Nat) : (s.raiseCond src c u d).endpoint key = s.endpoint key := rfl
@[simp] theorem State.endpoint_after_raiseFor (s : State) (src : Source) (c u : Nat) (p : Option Nat) (key : Nat) : (s.raiseFor src c u p).endpoint key = s.endpoint key := rfl
@[simp] theorem State.endpoint_after_raiseVf (s : State) (c p : Nat) (key : Nat) : (s.raiseVf c p).endpoint key = s.endpoint key := rfl
@[simp] theorem State.endpoint_after_bump (s : State) (i n : Nat) (key : Nat) : (s.bump i n).endpoint key = s.endpoint key := rfl
@[simp] theorem State.endpoint_after_level (s : State) (i : Nat) (v : Int) (key : Nat) : (s.level i v).endpoint key = s.endpoint key := rfl
@[simp] theorem State.endpoint_after_setVf (s : State) (p : Nat) (v : Vf) (key : Nat) : (s.setVf p v).endpoint key = s.endpoint key := rfl
@[simp] theorem State.endpoint_after_writeMem (s : State) (a : Nat) (d : Data) (key : Nat) : (s.writeMem a d).endpoint key = s.endpoint key := rfl
@[simp] theorem State.endpoint_after_holdRead (s : State) (tier : Nat) (who : Requester) (tag a : Nat) (d : Data) (slot : Nat) (key : Nat) : (s.holdRead tier who tag a d slot).endpoint key = s.endpoint key := rfl
@[simp] theorem State.endpoint_after_addAccess (s : State) (x : BenchAccess) (key : Nat) : (s.addAccess x).endpoint key = s.endpoint key := rfl
@[simp] theorem State.endpoint_after_setMsixOf (s : State) (f : Nat) (m : MsixFn) (key : Nat) : (s.setMsixOf f m).endpoint key = s.endpoint key := rfl
@[simp] theorem State.endpoint_after_setQueue (s : State) (q : Nat) (v : Queue) (key : Nat) : (s.setQueue q v).endpoint key = s.endpoint key := rfl
@[simp] theorem State.endpoint_after_setMover (s : State) (k : Nat) (v : Mover) (key : Nat) : (s.setMover k v).endpoint key = s.endpoint key := rfl
@[simp] theorem State.endpoint_after_setPartJig (s : State) (p : Nat) (j : Option PartJig) (key : Nat) : (s.setPartJig p j).endpoint key = s.endpoint key := rfl
@[simp] theorem State.endpoint_after_setCluster (s : State) (c : Nat) (v : Cluster) (key : Nat) : (s.setCluster c v).endpoint key = s.endpoint key := rfl
@[simp] theorem State.endpoint_after_setArray (s : State) (m : Nat) (v : ArrayUnit) (key : Nat) : (s.setArray m v).endpoint key = s.endpoint key := rfl
@[simp] theorem State.endpoint_after_setRail (s : State) (r : Nat) (v : Rail) (key : Nat) : (s.setRail r v).endpoint key = s.endpoint key := rfl
@[simp] theorem State.endpoint_after_setDie (s : State) (n : Nat) (d : DieGov) (key : Nat) : (s.setDie n d).endpoint key = s.endpoint key := rfl
@[simp] theorem State.endpoint_after_setDieClock (s : State) (n : Nat) (d : DieClock) (key : Nat) : (s.setDieClock n d).endpoint key = s.endpoint key := rfl
@[simp] theorem State.endpoint_after_setClassSlot (s : State) (c : Nat) (x : ClassSlot) (key : Nat) : (s.setClassSlot c x).endpoint key = s.endpoint key := rfl
@[simp] theorem State.endpoint_after_setSlot (s : State) (k : Nat) (v : MailSlot) (key : Nat) : (s.setSlot k v).endpoint key = s.endpoint key := rfl
@[simp] theorem State.rail_after_upTo (s : State) (t : Nat) (key : Nat) : (s.upTo t).rail key = s.rail key := rfl
@[simp] theorem State.rail_after_raiseMsg (s : State) (src : Source) (m : FaultMsg) (key : Nat) : (s.raiseMsg src m).rail key = s.rail key := rfl
@[simp] theorem State.rail_after_raise (s : State) (src : Source) (c u d : Nat) (key : Nat) : (s.raise src c u d).rail key = s.rail key := rfl
@[simp] theorem State.rail_after_raiseCond (s : State) (src : Source) (c u d : Nat) (key : Nat) : (s.raiseCond src c u d).rail key = s.rail key := rfl
@[simp] theorem State.rail_after_raiseFor (s : State) (src : Source) (c u : Nat) (p : Option Nat) (key : Nat) : (s.raiseFor src c u p).rail key = s.rail key := rfl
@[simp] theorem State.rail_after_raiseVf (s : State) (c p : Nat) (key : Nat) : (s.raiseVf c p).rail key = s.rail key := rfl
@[simp] theorem State.rail_after_bump (s : State) (i n : Nat) (key : Nat) : (s.bump i n).rail key = s.rail key := rfl
@[simp] theorem State.rail_after_level (s : State) (i : Nat) (v : Int) (key : Nat) : (s.level i v).rail key = s.rail key := rfl
@[simp] theorem State.rail_after_setVf (s : State) (p : Nat) (v : Vf) (key : Nat) : (s.setVf p v).rail key = s.rail key := rfl
@[simp] theorem State.rail_after_writeMem (s : State) (a : Nat) (d : Data) (key : Nat) : (s.writeMem a d).rail key = s.rail key := rfl
@[simp] theorem State.rail_after_holdRead (s : State) (tier : Nat) (who : Requester) (tag a : Nat) (d : Data) (slot : Nat) (key : Nat) : (s.holdRead tier who tag a d slot).rail key = s.rail key := rfl
@[simp] theorem State.rail_after_addAccess (s : State) (x : BenchAccess) (key : Nat) : (s.addAccess x).rail key = s.rail key := rfl
@[simp] theorem State.rail_after_setMsixOf (s : State) (f : Nat) (m : MsixFn) (key : Nat) : (s.setMsixOf f m).rail key = s.rail key := rfl
@[simp] theorem State.rail_after_setQueue (s : State) (q : Nat) (v : Queue) (key : Nat) : (s.setQueue q v).rail key = s.rail key := rfl
@[simp] theorem State.rail_after_setMover (s : State) (k : Nat) (v : Mover) (key : Nat) : (s.setMover k v).rail key = s.rail key := rfl
@[simp] theorem State.rail_after_setPartJig (s : State) (p : Nat) (j : Option PartJig) (key : Nat) : (s.setPartJig p j).rail key = s.rail key := rfl
@[simp] theorem State.rail_after_setCluster (s : State) (c : Nat) (v : Cluster) (key : Nat) : (s.setCluster c v).rail key = s.rail key := rfl
@[simp] theorem State.rail_after_setArray (s : State) (m : Nat) (v : ArrayUnit) (key : Nat) : (s.setArray m v).rail key = s.rail key := rfl
@[simp] theorem State.rail_after_setLink (s : State) (k : Nat) (l : Link) (key : Nat) : (s.setLink k l).rail key = s.rail key := rfl
@[simp] theorem State.rail_after_setEndpoint (s : State) (e : Nat) (x : EpState) (key : Nat) : (s.setEndpoint e x).rail key = s.rail key := rfl
@[simp] theorem State.rail_after_setDie (s : State) (n : Nat) (d : DieGov) (key : Nat) : (s.setDie n d).rail key = s.rail key := rfl
@[simp] theorem State.rail_after_setDieClock (s : State) (n : Nat) (d : DieClock) (key : Nat) : (s.setDieClock n d).rail key = s.rail key := rfl
@[simp] theorem State.rail_after_setClassSlot (s : State) (c : Nat) (x : ClassSlot) (key : Nat) : (s.setClassSlot c x).rail key = s.rail key := rfl
@[simp] theorem State.rail_after_setSlot (s : State) (k : Nat) (v : MailSlot) (key : Nat) : (s.setSlot k v).rail key = s.rail key := rfl
@[simp] theorem State.slot_after_upTo (s : State) (t : Nat) (key : Nat) : (s.upTo t).slot key = s.slot key := rfl
@[simp] theorem State.slot_after_raiseMsg (s : State) (src : Source) (m : FaultMsg) (key : Nat) : (s.raiseMsg src m).slot key = s.slot key := rfl
@[simp] theorem State.slot_after_raise (s : State) (src : Source) (c u d : Nat) (key : Nat) : (s.raise src c u d).slot key = s.slot key := rfl
@[simp] theorem State.slot_after_raiseCond (s : State) (src : Source) (c u d : Nat) (key : Nat) : (s.raiseCond src c u d).slot key = s.slot key := rfl
@[simp] theorem State.slot_after_raiseFor (s : State) (src : Source) (c u : Nat) (p : Option Nat) (key : Nat) : (s.raiseFor src c u p).slot key = s.slot key := rfl
@[simp] theorem State.slot_after_raiseVf (s : State) (c p : Nat) (key : Nat) : (s.raiseVf c p).slot key = s.slot key := rfl
@[simp] theorem State.slot_after_bump (s : State) (i n : Nat) (key : Nat) : (s.bump i n).slot key = s.slot key := rfl
@[simp] theorem State.slot_after_level (s : State) (i : Nat) (v : Int) (key : Nat) : (s.level i v).slot key = s.slot key := rfl
@[simp] theorem State.slot_after_setVf (s : State) (p : Nat) (v : Vf) (key : Nat) : (s.setVf p v).slot key = s.slot key := rfl
@[simp] theorem State.slot_after_writeMem (s : State) (a : Nat) (d : Data) (key : Nat) : (s.writeMem a d).slot key = s.slot key := rfl
@[simp] theorem State.slot_after_holdRead (s : State) (tier : Nat) (who : Requester) (tag a : Nat) (d : Data) (slot : Nat) (key : Nat) : (s.holdRead tier who tag a d slot).slot key = s.slot key := rfl
@[simp] theorem State.slot_after_addAccess (s : State) (x : BenchAccess) (key : Nat) : (s.addAccess x).slot key = s.slot key := rfl
@[simp] theorem State.slot_after_setMsixOf (s : State) (f : Nat) (m : MsixFn) (key : Nat) : (s.setMsixOf f m).slot key = s.slot key := rfl
@[simp] theorem State.slot_after_setQueue (s : State) (q : Nat) (v : Queue) (key : Nat) : (s.setQueue q v).slot key = s.slot key := rfl
@[simp] theorem State.slot_after_setMover (s : State) (k : Nat) (v : Mover) (key : Nat) : (s.setMover k v).slot key = s.slot key := rfl
@[simp] theorem State.slot_after_setPartJig (s : State) (p : Nat) (j : Option PartJig) (key : Nat) : (s.setPartJig p j).slot key = s.slot key := rfl
@[simp] theorem State.slot_after_setCluster (s : State) (c : Nat) (v : Cluster) (key : Nat) : (s.setCluster c v).slot key = s.slot key := rfl
@[simp] theorem State.slot_after_setArray (s : State) (m : Nat) (v : ArrayUnit) (key : Nat) : (s.setArray m v).slot key = s.slot key := rfl
@[simp] theorem State.slot_after_setLink (s : State) (k : Nat) (l : Link) (key : Nat) : (s.setLink k l).slot key = s.slot key := rfl
@[simp] theorem State.slot_after_setEndpoint (s : State) (e : Nat) (x : EpState) (key : Nat) : (s.setEndpoint e x).slot key = s.slot key := rfl
@[simp] theorem State.slot_after_setRail (s : State) (r : Nat) (v : Rail) (key : Nat) : (s.setRail r v).slot key = s.slot key := rfl
@[simp] theorem State.slot_after_setDie (s : State) (n : Nat) (d : DieGov) (key : Nat) : (s.setDie n d).slot key = s.slot key := rfl
@[simp] theorem State.slot_after_setDieClock (s : State) (n : Nat) (d : DieClock) (key : Nat) : (s.setDieClock n d).slot key = s.slot key := rfl
@[simp] theorem State.slot_after_setClassSlot (s : State) (c : Nat) (x : ClassSlot) (key : Nat) : (s.setClassSlot c x).slot key = s.slot key := rfl
@[simp] theorem State.classSlot_after_upTo (s : State) (t : Nat) (key : Nat) : (s.upTo t).classSlot key = s.classSlot key := rfl
@[simp] theorem State.classSlot_after_bump (s : State) (i n : Nat) (key : Nat) : (s.bump i n).classSlot key = s.classSlot key := rfl
@[simp] theorem State.classSlot_after_level (s : State) (i : Nat) (v : Int) (key : Nat) : (s.level i v).classSlot key = s.classSlot key := rfl
@[simp] theorem State.classSlot_after_setVf (s : State) (p : Nat) (v : Vf) (key : Nat) : (s.setVf p v).classSlot key = s.classSlot key := rfl
@[simp] theorem State.classSlot_after_writeMem (s : State) (a : Nat) (d : Data) (key : Nat) : (s.writeMem a d).classSlot key = s.classSlot key := rfl
@[simp] theorem State.classSlot_after_holdRead (s : State) (tier : Nat) (who : Requester) (tag a : Nat) (d : Data) (slot : Nat) (key : Nat) : (s.holdRead tier who tag a d slot).classSlot key = s.classSlot key := rfl
@[simp] theorem State.classSlot_after_addAccess (s : State) (x : BenchAccess) (key : Nat) : (s.addAccess x).classSlot key = s.classSlot key := rfl
@[simp] theorem State.classSlot_after_setMsixOf (s : State) (f : Nat) (m : MsixFn) (key : Nat) : (s.setMsixOf f m).classSlot key = s.classSlot key := rfl
@[simp] theorem State.classSlot_after_setQueue (s : State) (q : Nat) (v : Queue) (key : Nat) : (s.setQueue q v).classSlot key = s.classSlot key := rfl
@[simp] theorem State.classSlot_after_setMover (s : State) (k : Nat) (v : Mover) (key : Nat) : (s.setMover k v).classSlot key = s.classSlot key := rfl
@[simp] theorem State.classSlot_after_setPartJig (s : State) (p : Nat) (j : Option PartJig) (key : Nat) : (s.setPartJig p j).classSlot key = s.classSlot key := rfl
@[simp] theorem State.classSlot_after_setCluster (s : State) (c : Nat) (v : Cluster) (key : Nat) : (s.setCluster c v).classSlot key = s.classSlot key := rfl
@[simp] theorem State.classSlot_after_setArray (s : State) (m : Nat) (v : ArrayUnit) (key : Nat) : (s.setArray m v).classSlot key = s.classSlot key := rfl
@[simp] theorem State.classSlot_after_setLink (s : State) (k : Nat) (l : Link) (key : Nat) : (s.setLink k l).classSlot key = s.classSlot key := rfl
@[simp] theorem State.classSlot_after_setEndpoint (s : State) (e : Nat) (x : EpState) (key : Nat) : (s.setEndpoint e x).classSlot key = s.classSlot key := rfl
@[simp] theorem State.classSlot_after_setRail (s : State) (r : Nat) (v : Rail) (key : Nat) : (s.setRail r v).classSlot key = s.classSlot key := rfl
@[simp] theorem State.classSlot_after_setDie (s : State) (n : Nat) (d : DieGov) (key : Nat) : (s.setDie n d).classSlot key = s.classSlot key := rfl
@[simp] theorem State.classSlot_after_setDieClock (s : State) (n : Nat) (d : DieClock) (key : Nat) : (s.setDieClock n d).classSlot key = s.classSlot key := rfl
@[simp] theorem State.classSlot_after_setSlot (s : State) (k : Nat) (v : MailSlot) (key : Nat) : (s.setSlot k v).classSlot key = s.classSlot key := rfl
@[simp] theorem State.cluster_after_upTo (s : State) (t : Nat) (key : Nat) : (s.upTo t).cluster key = s.cluster key := rfl
@[simp] theorem State.cluster_after_raiseMsg (s : State) (src : Source) (m : FaultMsg) (key : Nat) : (s.raiseMsg src m).cluster key = s.cluster key := rfl
@[simp] theorem State.cluster_after_raise (s : State) (src : Source) (c u d : Nat) (key : Nat) : (s.raise src c u d).cluster key = s.cluster key := rfl
@[simp] theorem State.cluster_after_raiseCond (s : State) (src : Source) (c u d : Nat) (key : Nat) : (s.raiseCond src c u d).cluster key = s.cluster key := rfl
@[simp] theorem State.cluster_after_raiseFor (s : State) (src : Source) (c u : Nat) (p : Option Nat) (key : Nat) : (s.raiseFor src c u p).cluster key = s.cluster key := rfl
@[simp] theorem State.cluster_after_raiseVf (s : State) (c p : Nat) (key : Nat) : (s.raiseVf c p).cluster key = s.cluster key := rfl
@[simp] theorem State.cluster_after_bump (s : State) (i n : Nat) (key : Nat) : (s.bump i n).cluster key = s.cluster key := rfl
@[simp] theorem State.cluster_after_level (s : State) (i : Nat) (v : Int) (key : Nat) : (s.level i v).cluster key = s.cluster key := rfl
@[simp] theorem State.cluster_after_setVf (s : State) (p : Nat) (v : Vf) (key : Nat) : (s.setVf p v).cluster key = s.cluster key := rfl
@[simp] theorem State.cluster_after_writeMem (s : State) (a : Nat) (d : Data) (key : Nat) : (s.writeMem a d).cluster key = s.cluster key := rfl
@[simp] theorem State.cluster_after_holdRead (s : State) (tier : Nat) (who : Requester) (tag a : Nat) (d : Data) (slot : Nat) (key : Nat) : (s.holdRead tier who tag a d slot).cluster key = s.cluster key := rfl
@[simp] theorem State.cluster_after_addAccess (s : State) (x : BenchAccess) (key : Nat) : (s.addAccess x).cluster key = s.cluster key := rfl
@[simp] theorem State.cluster_after_setMsixOf (s : State) (f : Nat) (m : MsixFn) (key : Nat) : (s.setMsixOf f m).cluster key = s.cluster key := rfl
@[simp] theorem State.cluster_after_setQueue (s : State) (q : Nat) (v : Queue) (key : Nat) : (s.setQueue q v).cluster key = s.cluster key := rfl
@[simp] theorem State.cluster_after_setMover (s : State) (k : Nat) (v : Mover) (key : Nat) : (s.setMover k v).cluster key = s.cluster key := rfl
@[simp] theorem State.cluster_after_setPartJig (s : State) (p : Nat) (j : Option PartJig) (key : Nat) : (s.setPartJig p j).cluster key = s.cluster key := rfl
@[simp] theorem State.cluster_after_setArray (s : State) (m : Nat) (v : ArrayUnit) (key : Nat) : (s.setArray m v).cluster key = s.cluster key := rfl
@[simp] theorem State.cluster_after_setLink (s : State) (k : Nat) (l : Link) (key : Nat) : (s.setLink k l).cluster key = s.cluster key := rfl
@[simp] theorem State.cluster_after_setEndpoint (s : State) (e : Nat) (x : EpState) (key : Nat) : (s.setEndpoint e x).cluster key = s.cluster key := rfl
@[simp] theorem State.cluster_after_setRail (s : State) (r : Nat) (v : Rail) (key : Nat) : (s.setRail r v).cluster key = s.cluster key := rfl
@[simp] theorem State.cluster_after_setDie (s : State) (n : Nat) (d : DieGov) (key : Nat) : (s.setDie n d).cluster key = s.cluster key := rfl
@[simp] theorem State.cluster_after_setDieClock (s : State) (n : Nat) (d : DieClock) (key : Nat) : (s.setDieClock n d).cluster key = s.cluster key := rfl
@[simp] theorem State.cluster_after_setClassSlot (s : State) (c : Nat) (x : ClassSlot) (key : Nat) : (s.setClassSlot c x).cluster key = s.cluster key := rfl
@[simp] theorem State.cluster_after_setSlot (s : State) (k : Nat) (v : MailSlot) (key : Nat) : (s.setSlot k v).cluster key = s.cluster key := rfl
@[simp] theorem State.diesIssue_after_upTo (s : State) (t : Nat) : (s.upTo t).diesIssue = s.diesIssue := rfl
@[simp] theorem State.diesIssue_after_raiseMsg (s : State) (src : Source) (m : FaultMsg) : (s.raiseMsg src m).diesIssue = s.diesIssue := rfl
@[simp] theorem State.diesIssue_after_raise (s : State) (src : Source) (c u d : Nat) : (s.raise src c u d).diesIssue = s.diesIssue := rfl
@[simp] theorem State.diesIssue_after_raiseCond (s : State) (src : Source) (c u d : Nat) : (s.raiseCond src c u d).diesIssue = s.diesIssue := rfl
@[simp] theorem State.diesIssue_after_raiseFor (s : State) (src : Source) (c u : Nat) (p : Option Nat) : (s.raiseFor src c u p).diesIssue = s.diesIssue := rfl
@[simp] theorem State.diesIssue_after_raiseVf (s : State) (c p : Nat) : (s.raiseVf c p).diesIssue = s.diesIssue := rfl
@[simp] theorem State.diesIssue_after_bump (s : State) (i n : Nat) : (s.bump i n).diesIssue = s.diesIssue := rfl
@[simp] theorem State.diesIssue_after_level (s : State) (i : Nat) (v : Int) : (s.level i v).diesIssue = s.diesIssue := rfl
@[simp] theorem State.diesIssue_after_setVf (s : State) (p : Nat) (v : Vf) : (s.setVf p v).diesIssue = s.diesIssue := rfl
@[simp] theorem State.diesIssue_after_writeMem (s : State) (a : Nat) (d : Data) : (s.writeMem a d).diesIssue = s.diesIssue := rfl
@[simp] theorem State.diesIssue_after_holdRead (s : State) (tier : Nat) (who : Requester) (tag a : Nat) (d : Data) (slot : Nat) : (s.holdRead tier who tag a d slot).diesIssue = s.diesIssue := rfl
@[simp] theorem State.diesIssue_after_addAccess (s : State) (x : BenchAccess) : (s.addAccess x).diesIssue = s.diesIssue := rfl
@[simp] theorem State.diesIssue_after_setMsixOf (s : State) (f : Nat) (m : MsixFn) : (s.setMsixOf f m).diesIssue = s.diesIssue := rfl
@[simp] theorem State.diesIssue_after_setQueue (s : State) (q : Nat) (v : Queue) : (s.setQueue q v).diesIssue = s.diesIssue := rfl
@[simp] theorem State.diesIssue_after_setMover (s : State) (k : Nat) (v : Mover) : (s.setMover k v).diesIssue = s.diesIssue := rfl
@[simp] theorem State.diesIssue_after_setPartJig (s : State) (p : Nat) (j : Option PartJig) : (s.setPartJig p j).diesIssue = s.diesIssue := rfl
@[simp] theorem State.diesIssue_after_setCluster (s : State) (c : Nat) (v : Cluster) : (s.setCluster c v).diesIssue = s.diesIssue := rfl
@[simp] theorem State.diesIssue_after_setArray (s : State) (m : Nat) (v : ArrayUnit) : (s.setArray m v).diesIssue = s.diesIssue := rfl
@[simp] theorem State.diesIssue_after_setLink (s : State) (k : Nat) (l : Link) : (s.setLink k l).diesIssue = s.diesIssue := rfl
@[simp] theorem State.diesIssue_after_setEndpoint (s : State) (e : Nat) (x : EpState) : (s.setEndpoint e x).diesIssue = s.diesIssue := rfl
@[simp] theorem State.diesIssue_after_setRail (s : State) (r : Nat) (v : Rail) : (s.setRail r v).diesIssue = s.diesIssue := rfl
@[simp] theorem State.diesIssue_after_setDieClock (s : State) (n : Nat) (d : DieClock) : (s.setDieClock n d).diesIssue = s.diesIssue := rfl
@[simp] theorem State.diesIssue_after_setClassSlot (s : State) (c : Nat) (x : ClassSlot) : (s.setClassSlot c x).diesIssue = s.diesIssue := rfl
@[simp] theorem State.diesIssue_after_setSlot (s : State) (k : Nat) (v : MailSlot) : (s.setSlot k v).diesIssue = s.diesIssue := rfl
@[simp] theorem State.diesClocked_after_upTo (s : State) (t : Nat) : (s.upTo t).diesClocked = s.diesClocked := rfl
@[simp] theorem State.diesClocked_after_raiseMsg (s : State) (src : Source) (m : FaultMsg) : (s.raiseMsg src m).diesClocked = s.diesClocked := rfl
@[simp] theorem State.diesClocked_after_raise (s : State) (src : Source) (c u d : Nat) : (s.raise src c u d).diesClocked = s.diesClocked := rfl
@[simp] theorem State.diesClocked_after_raiseCond (s : State) (src : Source) (c u d : Nat) : (s.raiseCond src c u d).diesClocked = s.diesClocked := rfl
@[simp] theorem State.diesClocked_after_raiseFor (s : State) (src : Source) (c u : Nat) (p : Option Nat) : (s.raiseFor src c u p).diesClocked = s.diesClocked := rfl
@[simp] theorem State.diesClocked_after_raiseVf (s : State) (c p : Nat) : (s.raiseVf c p).diesClocked = s.diesClocked := rfl
@[simp] theorem State.diesClocked_after_bump (s : State) (i n : Nat) : (s.bump i n).diesClocked = s.diesClocked := rfl
@[simp] theorem State.diesClocked_after_level (s : State) (i : Nat) (v : Int) : (s.level i v).diesClocked = s.diesClocked := rfl
@[simp] theorem State.diesClocked_after_setVf (s : State) (p : Nat) (v : Vf) : (s.setVf p v).diesClocked = s.diesClocked := rfl
@[simp] theorem State.diesClocked_after_writeMem (s : State) (a : Nat) (d : Data) : (s.writeMem a d).diesClocked = s.diesClocked := rfl
@[simp] theorem State.diesClocked_after_holdRead (s : State) (tier : Nat) (who : Requester) (tag a : Nat) (d : Data) (slot : Nat) : (s.holdRead tier who tag a d slot).diesClocked = s.diesClocked := rfl
@[simp] theorem State.diesClocked_after_addAccess (s : State) (x : BenchAccess) : (s.addAccess x).diesClocked = s.diesClocked := rfl
@[simp] theorem State.diesClocked_after_setMsixOf (s : State) (f : Nat) (m : MsixFn) : (s.setMsixOf f m).diesClocked = s.diesClocked := rfl
@[simp] theorem State.diesClocked_after_setQueue (s : State) (q : Nat) (v : Queue) : (s.setQueue q v).diesClocked = s.diesClocked := rfl
@[simp] theorem State.diesClocked_after_setMover (s : State) (k : Nat) (v : Mover) : (s.setMover k v).diesClocked = s.diesClocked := rfl
@[simp] theorem State.diesClocked_after_setPartJig (s : State) (p : Nat) (j : Option PartJig) : (s.setPartJig p j).diesClocked = s.diesClocked := rfl
@[simp] theorem State.diesClocked_after_setCluster (s : State) (c : Nat) (v : Cluster) : (s.setCluster c v).diesClocked = s.diesClocked := rfl
@[simp] theorem State.diesClocked_after_setArray (s : State) (m : Nat) (v : ArrayUnit) : (s.setArray m v).diesClocked = s.diesClocked := rfl
@[simp] theorem State.diesClocked_after_setLink (s : State) (k : Nat) (l : Link) : (s.setLink k l).diesClocked = s.diesClocked := rfl
@[simp] theorem State.diesClocked_after_setEndpoint (s : State) (e : Nat) (x : EpState) : (s.setEndpoint e x).diesClocked = s.diesClocked := rfl
@[simp] theorem State.diesClocked_after_setRail (s : State) (r : Nat) (v : Rail) : (s.setRail r v).diesClocked = s.diesClocked := rfl
@[simp] theorem State.diesClocked_after_setDieClock (s : State) (n : Nat) (d : DieClock) : (s.setDieClock n d).diesClocked = s.diesClocked := rfl
@[simp] theorem State.diesClocked_after_setClassSlot (s : State) (c : Nat) (x : ClassSlot) : (s.setClassSlot c x).diesClocked = s.diesClocked := rfl
@[simp] theorem State.diesClocked_after_setSlot (s : State) (k : Nat) (v : MailSlot) : (s.setSlot k v).diesClocked = s.diesClocked := rfl
@[simp] theorem State.jobRuns_after_upTo (s : State) (t : Nat) (key : Nat) : (s.upTo t).jobRuns key = s.jobRuns key := rfl
@[simp] theorem State.jobRuns_after_raiseMsg (s : State) (src : Source) (m : FaultMsg) (key : Nat) : (s.raiseMsg src m).jobRuns key = s.jobRuns key := rfl
@[simp] theorem State.jobRuns_after_raise (s : State) (src : Source) (c u d : Nat) (key : Nat) : (s.raise src c u d).jobRuns key = s.jobRuns key := rfl
@[simp] theorem State.jobRuns_after_raiseCond (s : State) (src : Source) (c u d : Nat) (key : Nat) : (s.raiseCond src c u d).jobRuns key = s.jobRuns key := rfl
@[simp] theorem State.jobRuns_after_raiseFor (s : State) (src : Source) (c u : Nat) (p : Option Nat) (key : Nat) : (s.raiseFor src c u p).jobRuns key = s.jobRuns key := rfl
@[simp] theorem State.jobRuns_after_raiseVf (s : State) (c p : Nat) (key : Nat) : (s.raiseVf c p).jobRuns key = s.jobRuns key := rfl
@[simp] theorem State.jobRuns_after_bump (s : State) (i n : Nat) (key : Nat) : (s.bump i n).jobRuns key = s.jobRuns key := rfl
@[simp] theorem State.jobRuns_after_level (s : State) (i : Nat) (v : Int) (key : Nat) : (s.level i v).jobRuns key = s.jobRuns key := rfl
@[simp] theorem State.jobRuns_after_setVf (s : State) (p : Nat) (v : Vf) (key : Nat) : (s.setVf p v).jobRuns key = s.jobRuns key := rfl
@[simp] theorem State.jobRuns_after_writeMem (s : State) (a : Nat) (d : Data) (key : Nat) : (s.writeMem a d).jobRuns key = s.jobRuns key := rfl
@[simp] theorem State.jobRuns_after_holdRead (s : State) (tier : Nat) (who : Requester) (tag a : Nat) (d : Data) (slot : Nat) (key : Nat) : (s.holdRead tier who tag a d slot).jobRuns key = s.jobRuns key := rfl
@[simp] theorem State.jobRuns_after_addAccess (s : State) (x : BenchAccess) (key : Nat) : (s.addAccess x).jobRuns key = s.jobRuns key := rfl
@[simp] theorem State.jobRuns_after_setMsixOf (s : State) (f : Nat) (m : MsixFn) (key : Nat) : (s.setMsixOf f m).jobRuns key = s.jobRuns key := rfl
@[simp] theorem State.jobRuns_after_setQueue (s : State) (q : Nat) (v : Queue) (key : Nat) : (s.setQueue q v).jobRuns key = s.jobRuns key := rfl
@[simp] theorem State.jobRuns_after_setMover (s : State) (k : Nat) (v : Mover) (key : Nat) : (s.setMover k v).jobRuns key = s.jobRuns key := rfl
@[simp] theorem State.jobRuns_after_setCluster (s : State) (c : Nat) (v : Cluster) (key : Nat) : (s.setCluster c v).jobRuns key = s.jobRuns key := rfl
@[simp] theorem State.jobRuns_after_setArray (s : State) (m : Nat) (v : ArrayUnit) (key : Nat) : (s.setArray m v).jobRuns key = s.jobRuns key := rfl
@[simp] theorem State.jobRuns_after_setLink (s : State) (k : Nat) (l : Link) (key : Nat) : (s.setLink k l).jobRuns key = s.jobRuns key := rfl
@[simp] theorem State.jobRuns_after_setEndpoint (s : State) (e : Nat) (x : EpState) (key : Nat) : (s.setEndpoint e x).jobRuns key = s.jobRuns key := rfl
@[simp] theorem State.jobRuns_after_setRail (s : State) (r : Nat) (v : Rail) (key : Nat) : (s.setRail r v).jobRuns key = s.jobRuns key := rfl
@[simp] theorem State.jobRuns_after_setDie (s : State) (n : Nat) (d : DieGov) (key : Nat) : (s.setDie n d).jobRuns key = s.jobRuns key := rfl
@[simp] theorem State.jobRuns_after_setDieClock (s : State) (n : Nat) (d : DieClock) (key : Nat) : (s.setDieClock n d).jobRuns key = s.jobRuns key := rfl
@[simp] theorem State.jobRuns_after_setClassSlot (s : State) (c : Nat) (x : ClassSlot) (key : Nat) : (s.setClassSlot c x).jobRuns key = s.jobRuns key := rfl
@[simp] theorem State.jobRuns_after_setSlot (s : State) (k : Nat) (v : MailSlot) (key : Nat) : (s.setSlot k v).jobRuns key = s.jobRuns key := rfl

end Sys2Proof.Machine
end

