-- ==== Sys2Proof/WellFormed.lean ====
section
/-! DEFINITION. Which operands a sender can form: a check for every operand whose type is wider than what the manual lets through.
`exec` answers for ill-formed operands too; no meaning relies on these checks. -/

namespace Sys2Proof
open Sys2Proof.Machine

/-- The opcode is that of the row, and each field lies in its range (R158, R159). -/
def Machine.ArrayDesc.wf (x : ArrayDesc) (code : Nat) : Bool :=
  x.opcode == code && decide (x.rmode < 4 ∧ -320 ≤ x.window ∧ x.window ≤ 320 ∧ x.rows ≤ 1024 ∧ x.kUsed ≤ 2048 ∧ 1 ≤ x.cols ∧ x.cols ≤ 512 ∧
    x.footBase + x.rows ≤ 1024 ∧ x.dataTensor < 2 ^ 32 ∧ x.scaleTensor < 2 ^ 32 ∧ x.first < 2 ^ 48 ∧ x.stride < 2 ^ 32 ∧
    x.waitQueue < 2 ^ 16 ∧ x.signalQueue < 2 ^ 16 ∧ x.flagTensor < 2 ^ 32 ∧ x.flagOffset < 2 ^ 32)

/-- The opcode is that of the row, and each field lies in its range (R277). -/
def Machine.MvDesc.wf (x : MvDesc) (code : Nat) : Bool :=
  x.opcode == code && decide (x.waitQueue < 2 ^ 16 ∧ x.signalQueue < 2 ^ 16 ∧ x.dataQueue < 2 ^ 16 ∧ x.srcTensor < 2 ^ 32 ∧ x.dstTensor < 2 ^ 32 ∧
    x.srcOffset < 2 ^ 48 ∧ x.dstOffset < 2 ^ 48 ∧ 64 ≤ x.rowBytes ∧ x.rowBytes ≤ 16777216 ∧ 1 ≤ x.rows ∧ x.rows ≤ 16777216 ∧
    x.srcStride < 2 ^ 32 ∧ x.dstStride < 2 ^ 32 ∧ x.fillValue < 2 ^ 32)

/-- A token of the given kind with its fields in range (R319). -/
def Machine.Dowel.wf (x : Dowel) (kind : Nat) : Bool :=
  x.kind == kind && decide (1 ≤ x.kind ∧ x.kind ≤ 5 ∧ x.member < 2 ^ 16 ∧ x.domainId < 2 ^ 32 ∧ x.frame < 2 ^ 48 ∧ x.startRt < 2 ^ 64 ∧
    x.jobId < 2 ^ 32)

/-- What a record can hold (R535): a module or partition scope, and fields in range. -/
def Machine.FaultMsg.wf (x : FaultMsg) : Bool :=
  decide (x.code < 2 ^ 16 ∧ x.unit < 2 ^ 16 ∧ (x.scope < 16 ∨ x.scope = 0xFF) ∧ x.detail < 2 ^ 32)

/-- Eight voltages and four thermistors from each of six slices (R402). -/
def Machine.ScanInput.wf (x : ScanInput) : Bool :=
  x.scan.volts.length == 48 && x.scan.therms.length == 24 && x.scan.dies.length == 6

/-- With `RMODE` 0 the key fields are zero (R215). -/
def LaneRound.wf (x : LaneRound) : Bool :=
  x.stochastic || (x.vb == 0 && x.vc == 0 && x.high == 0)

/-- Targets and prefixes that fit their fields (R589). -/
def Icmp6.wf : Icmp6 → Bool
  | .echo _ => true
  | .solicit a => decide (a < 2 ^ 128)
  | .routerAdvert p => decide (p < 2 ^ 64)

/-- A UDP datagram over IPv6 (R590). -/
def datagramOk (src srcPort dstPort : Nat) (data : Bytes) : Bool :=
  decide (src < 2 ^ 128 ∧ srcPort < 2 ^ 16 ∧ dstPort < 2 ^ 16 ∧ data.length ≤ 65527)

/-- A PCIe memory request of at least one byte stays within one 4 KB page. -/
def inPage (offset length : Nat) : Bool :=
  decide (1 ≤ length ∧ offset % 4096 + length ≤ 4096)

/-- The signed window exponent of `SLSET` (R221). -/
def windowOk (w : Int) : Bool := decide (-320 ≤ w ∧ w ≤ 320)

/-- `FMT` of `MXEXP` and `MXDIV`: 0x07 to 0x0C (R211). -/
def mxFormat : Machine.Format → Bool
  | .mxfp8E4m3 | .mxfp8E5m2 | .mxfp6E3m2 | .mxfp6E2m3 | .mxfp4E2m1 | .mxint8 => true
  | .int8 | .int32 | .fp32 | .bf16 | .fp8E4m3 | .fp8E5m2 | .t2 | .e8m0 | .wa64 | .raw => false

/-- `FMT` of `PACK`: 0x01 and 0x05 to 0x0C (R211). -/
def packFormat (f : Machine.Format) : Bool := mxFormat f || f = .int8 || f = .fp8E4m3 || f = .fp8E5m2

/-- `FMT` of `UNPK`: 0x01 and 0x05 to 0x0E (R211). -/
def unpkFormat (f : Machine.Format) : Bool := packFormat f || f = .t2 || f = .e8m0

/-- `FMT` of `SLCVT`: 0x01 to 0x06 or 0x0F (R222). -/
def slotFormat (f : Machine.Format) : Bool :=
  f = .int8 || f = .int32 || f = .fp32 || f = .bf16 || f = .fp8E4m3 || f = .fp8E5m2 || f = .wa64

/-- The command's operands are ones that a sender can form. -/
def Instr.wf (i : Instr) : Bool :=
  match i with
  | .mailboxRequestPcie _ _ _ => true
  | .mailboxDatagram _ src srcPort dstPort data _ => datagramOk src srcPort dstPort data
  | .i3cPrivateWrite _ _ => true
  | .i3cPrivateRead _ => true
  | .i3cSclStuck _ => true
  | .mpGetStatus _ _ => true
  | .mpStageImage _ _ => true
  | .mpRestartStandby _ _ => true
  | .mpHandover _ _ => true
  | .mpSetSwitchback _ _ => true
  | .mpSetMgmt _ _ => true
  | .modSetState _ _ => true
  | .modGetState _ _ => true
  | .shimGetStatus _ _ => true
  | .shimSetPolicy _ _ => true
  | .shimGrantLease _ _ => true
  | .shimSetLimits _ _ => true
  | .cellGetStatus _ _ => true
  | .cellGetCells _ _ => true
  | .cellGrantRest _ _ => true
  | .cellSaveState _ _ => true
  | .cellRestoreState _ _ => true
  | .regGetTelemetry _ _ => true
  | .regSetCompensator _ _ => true
  | .regSetTrim _ _ => true
  | .gvGetStatus _ _ => true
  | .gvSetClamp _ _ => true
  | .gvSetQuota _ _ => true
  | .gvSetLimits _ _ => true
  | .gvGetThrottle _ _ => true
  | .gvGetEnergy _ _ => true
  | .gvGetThermal _ _ => true
  | .fcGetSummary _ _ => true
  | .fcGetLog _ _ => true
  | .fcAckFaults _ _ => true
  | .fcSetLevel _ _ => true
  | .fcInjectFault _ _ => true
  | .idGetIdentity _ _ => true
  | .fuseReadGroup _ _ => true
  | .obReadCounters _ _ => true
  | .obArmSnapshot _ _ => true
  | .obReadSnapshot _ _ => true
  | .obSetGrant _ _ => true
  | .ftJoinDomain _ _ => true
  | .ftLeaveDomain _ _ => true
  | .ftSetDomain _ _ => true
  | .ftGetFrameStatus _ _ => true
  | .ofGetLinkStatus _ _ => true
  | .ofSetLinks _ _ => true
  | .ofSetRoutes _ _ => true
  | .ofBindEndpoint _ _ => true
  | .jigDoorbell _ _ _ => true
  | .partCtrlEnable _ _ => true
  | .partCtrlDisable _ _ => true
  | .registerWrite _ _ data _ => !data.isEmpty
  | .hqSendEntry _ _ off data _ => !data.isEmpty && decide (off.val + data.length ≤ 512)
  | .apertureWrite _ offset data enables _ => enables.length == data.length && inPage offset data.length
  | .apertureRead _ offset length _ => inPage offset length
  | .hostSlotAccess _ _ _ _ => true
  | .sectorIncomplete _ _ => true
  | .resultRecordWrite _ _ => true
  | .hqToHostWrite _ _ _ => true
  | .linkReset _ _ => true
  | .vfFlr _ _ _ => true
  | .pfFlr _ => true
  | .pcieUncorrectable _ _ => true
  | .pcieLinkTrainingStart _ => true
  | .kerfStrobe _ _ => true
  | .freqStateSwitch _ => true
  | .freqSwitchDeferred _ => true
  | .moverStart _ => true
  | .clusterGroupStart _ _ => true
  | .arrayStart _ _ => true
  | .clampLoad _ => true
  | .kerfEnd _ _ => true
  | .kerfLate _ => true
  | .frameMark _ _ _ _ => true
  | .markMissing _ => true
  | .referenceLost _ _ => true
  | .holdoverExpiry _ => true
  | .localDone _ => true
  | .barrierWatchdog _ => true
  | .dowelDone _ tok _ => tok.wf 1
  | .dowelGo _ tok _ => tok.wf 2
  | .dowelHalt _ tok _ => tok.wf 3
  | .dowelLeave _ tok _ => tok.wf 4
  | .relayNotice _ tok _ => tok.wf tok.kind
  | .loaderTakeJig _ => true
  | .planRecord _ => true
  | .planAck _ => true
  | .arrayLoad _ x _ _ => x.wf 1
  | .arrayPass _ x _ _ => x.wf 2
  | .arrayFootLoad _ x _ _ => x.wf 3
  | .arrayDrain _ x _ _ => x.wf 4
  | .arrayEnd _ _ _ => true
  | .arrayDescriptorComplete _ _ => true
  | .deferredSignalSend _ _ => true
  | .laneNop _ => true
  | .laneEnd _ => true
  | .laneBr _ _ _ _ _ => true
  | .laneJmp _ _ => true
  | .laneLoop _ _ _ _ _ => true
  | .laneLoopend _ _ => true
  | .laneIadd _ _ _ _ => true
  | .laneIsub _ _ _ _ => true
  | .laneImul _ _ _ _ => true
  | .laneImulh _ _ _ _ => true
  | .laneImulhu _ _ _ _ => true
  | .laneImin _ _ _ _ => true
  | .laneImax _ _ _ _ => true
  | .laneUmin _ _ _ _ => true
  | .laneUmax _ _ _ _ => true
  | .laneAnd _ _ _ _ => true
  | .laneOr _ _ _ _ => true
  | .laneXor _ _ _ _ => true
  | .laneShl _ _ _ _ => true
  | .laneShr _ _ _ _ => true
  | .laneSar _ _ _ _ => true
  | .laneSel _ _ _ _ _ => true
  | .laneFadd _ _ _ _ => true
  | .laneFsub _ _ _ _ => true
  | .laneFmul _ _ _ _ => true
  | .laneFfma _ _ _ _ _ => true
  | .laneFfms _ _ _ _ _ => true
  | .laneFmin _ _ _ _ => true
  | .laneFmax _ _ _ _ => true
  | .laneFabs _ _ _ => true
  | .laneFneg _ _ _ => true
  | .laneMovi _ _ _ => true
  | .laneIaddi _ _ _ _ => true
  | .laneAndi _ _ _ _ => true
  | .laneOri _ _ _ _ => true
  | .laneXori _ _ _ _ => true
  | .laneShli _ _ _ _ => true
  | .laneShri _ _ _ _ => true
  | .laneSari _ _ _ _ => true
  | .laneFaddi _ _ _ _ => true
  | .laneFmuli _ _ _ _ => true
  | .laneMov _ _ _ => true
  | .laneSpr _ _ _ => true
  | .laneWadd _ _ _ _ => true
  | .laneWshift _ _ _ _ => true
  | .laneFcmp _ _ _ _ _ => true
  | .laneIcmp _ _ _ _ _ => true
  | .laneFclass _ _ _ _ => true
  | .lanePlog _ _ _ _ _ => true
  | .lanePset _ _ _ => true
  | .laneCvtfi _ _ _ rnd => rnd.wf
  | .laneCvtif _ _ _ rnd => rnd.wf
  | .laneCvtfb _ _ _ rnd => rnd.wf
  | .laneUnpk _ _ _ fmt _ _ => unpkFormat fmt
  | .laneMxexp _ _ _ fmt => mxFormat fmt
  | .laneMxdiv _ _ _ _ fmt => mxFormat fmt
  | .lanePack _ _ _ fmt _ rnd => packFormat fmt && rnd.wf
  | .laneXred _ _ _ _ _ => true
  | .laneXrot _ _ _ _ _ => true
  | .laneXbcast _ _ _ _ _ => true
  | .laneXzip _ _ _ => true
  | .laneXunzip _ _ _ _ => true
  | .lanePballot _ _ _ => true
  | .lanePcount _ _ _ => true
  | .laneFrcp _ _ _ => true
  | .laneFrsqrt _ _ _ => true
  | .laneFsqrt _ _ _ => true
  | .laneFexp2 _ _ _ => true
  | .laneFlog2 _ _ _ => true
  | .laneFexp _ _ _ => true
  | .laneFlog _ _ _ => true
  | .laneFsinpi _ _ _ => true
  | .laneFcospi _ _ _ => true
  | .laneFtanh _ _ _ => true
  | .laneFsigm _ _ _ => true
  | .laneLdr _ _ _ _ => true
  | .laneStr _ _ _ _ => true
  | .laneLdb _ _ _ _ => true
  | .laneLdp _ _ _ _ _ => true
  | .laneStp _ _ _ _ _ => true
  | .laneQsend _ _ _ => true
  | .laneQsig _ _ => true
  | .laneQrecv _ _ _ => true
  | .laneQwait _ _ => true
  | .laneSlset _ _ window => windowOk window
  | .laneRed _ _ _ _ => true
  | .laneSlfm _ _ _ => true
  | .laneSlst _ _ _ _ _ => true
  | .laneSlcvt _ _ _ fmt rnd => slotFormat fmt && rnd.wf
  | .moverCopy _ x _ _ => x.wf 1
  | .moverPush _ x _ _ => x.wf 2
  | .moverPull _ x _ _ => x.wf 3
  | .moverFill _ x _ _ => x.wf 4
  | .moverEnd _ _ _ => true
  | .moverSourceAccess _ _ _ => true
  | .moverDestAccess _ _ _ _ _ => true
  | .moverComplete _ _ => true
  | .queueEntryVisible _ _ _ _ _ _ => true
  | .queueCreditVisible _ _ _ => true
  | .t1ReadDeliver _ _ => true
  | .t1RefreshWindow _ _ _ => true
  | .t1TempRead _ _ => true
  | .t2ReadDeliver _ => true
  | .t3ReadRelease _ _ => true
  | .t3Reclamation _ _ => true
  | .memoryScrub _ _ => true
  | .portTrainingComplete _ neighbour serial _ _ _ => serial.length == 8 && decide (neighbour < 8192 ∨ neighbour = 0xFFFF)
  | .trainFail _ _ => true
  | .flitReceive _ _ raw _ _ _ => raw.length == 256
  | .pathDown _ _ _ => true
  | .transactionForward _ _ => true
  | .transactionRelease _ => true
  | .putForm _ _ => true
  | .creditSend _ _ => true
  | .getForm _ _ => true
  | .responseForm _ _ => true
  | .reduceCombine _ _ => true
  | .reduceResultForward _ _ => true
  | .shimTargetStep _ _ => true
  | .feedForwardStep _ => true
  | .shortImportExhausted _ => true
  | .leaseExpiry _ => true
  | .busLoss _ => true
  | .busOvervoltage _ => true
  | .busPresent _ _ => true
  | .prechargeStart _ => true
  | .prechargeComplete _ _ => true
  | .prechargeFail _ => true
  | .inputOvercurrent _ => true
  | .storageOvercurrent _ => true
  | .ibusOvervoltage _ => true
  | .inputRestartAfterOv _ => true
  | .ibusUndervoltage _ => true
  | .converterHot _ _ => true
  | .converterOvertemp _ _ => true
  | .storageFinalStop _ => true
  | .cellScan _ inp => inp.wf
  | .restTimeout _ => true
  | .captureArm _ _ => true
  | .captureRead _ ring => ring.all (fun x => x.volts.length == 48)
  | .captureCancel _ => true
  | .sliceCommandTimeout _ _ => true
  | .chainEnumeration _ r => r.first.wf
  | .chargeCountTick _ _ => true
  | .voltageSample _ _ _ => true
  | .pwmPeriodStart _ _ _ _ _ _ _ _ => true
  | .overshootTrip _ _ _ => true
  | .overshootClear _ _ _ => true
  | .undershootTrip _ _ _ _ _ _ => true
  | .phaseFail _ _ _ => true
  | .phaseLimiting _ _ _ => true
  | .stageHot _ _ _ => true
  | .railOvercurrent _ _ _ => true
  | .railUndervoltage _ _ _ => true
  | .railOvervoltage _ _ _ => true
  | .railOvFrStop _ _ _ => true
  | .currentImbalance _ _ _ => true
  | .frOvercurrent _ => true
  | .frUndervoltage _ => true
  | .rippleBlockCheck _ _ _ => true
  | .telemetryBlock _ _ _ _ _ _ => true
  | .stagedStartEvent _ _ _ _ => true
  | .railStopStep _ => true
  | .vrAlertNAssert _ => true
  | .vrAlertNRelease _ => true
  | .pacingUpdate _ _ _ _ => true
  | .f0TimeExhausted _ => true
  | .droopCrossing _ _ _ => true
  | .stretchEnd _ _ _ => true
  | .diodeSample _ _ _ => true
  | .thermalModelUpdate hubHeat _ => hubHeat.length == 64
  | .orderlyStopClocks _ => true
  | .orderlyStopRails _ => true
  | .flowLoss _ => true
  | .flowRestored _ => true
  | .dieRestart _ => true
  | .stackTempRead _ _ _ => true
  | .coolantRead _ _ => true
  | .quotaMeanUpdate _ => true
  | .energyAttribution _ dieNj _ _ _ => dieNj.length == 4
  | .faultArrival _ msg _ _ => msg.wf
  | .reactionHaltDowels _ => true
  | .faultEvent _ => true
  | .faultOutTimer _ => true
  | .faultConditionClear _ _ _ _ => true
  | .watchdogKick _ _ => true
  | .watchdogExpiry _ _ => true
  | .mpFailureDeclared _ _ => true
  | .standbyWatchdogExpiry _ => true
  | .takeoverComplete _ _ _ _ _ _ => true
  | .coastTimeout _ => true
  | .mpNoneTimeout _ => true
  | .imageCopyStart _ => true
  | .imageCopyComplete _ _ => true
  | .standbySelfTest _ _ _ => true
  | .processorRestart _ _ => true
  | .mpBootComplete _ _ _ => true
  | .ptpMessage _ timeNs _ => decide (timeNs < 2 ^ 80)
  | .mgmtLinkDown _ _ => true
  | .alwaysOnPowerUp _ _ _ _ _ => true
  | .presentNMate _ => true
  | .presentNBreak _ => true
  | .holdOffExpiry _ => true
  | .trayStartChange _ _ => true
  | .emergencyStop _ _ => true
  | .slotIdSample _ _ => true
  | .slotIdMismatch _ => true
  | .standbyPllLock _ _ => true
  | .pllLockLost _ _ => true
  | .pwcPllChangeover _ => true
  | .oscillatorCalibration _ _ _ => true
  | .counterFold _ => true
  | .mgmtLinkUp _ _ => true
  | .pcieLinkUp _ _ => true
  | .wakeNTimeout _ => true
  | .i3cAddressAssignment _ _ _ => true
  | .icmpv6Message _ src msg _ => decide (src < 2 ^ 128) && msg.wf

end Sys2Proof
end

