-- ==== Sys2Proof/Tests/Slice0.lean ====
section
/-! SUPPORT. Tests of the model's own: small states, what ill-formed operands are refused, single steps on fixed values, and for every
statement that has hypotheses a state and operands that meet them. -/

namespace Sys2Proof.Tests
open Sys2Proof Sys2Proof.Machine

set_option Elab.async false

/-! ### Small states -/

/-- A partition record that grants every unit, the whole bench, Tier 1, Tier 2 and Tier 3 (R335). -/
def allRecord : Bytes :=
  leBytes 2 0xFFFF ++ zeros 6 ++ List.replicate 16 0xFF ++ zeros 8 ++ List.replicate 64 0xFF ++ (List.replicate 4 [(0 : Byte), 192]).flatten ++
  zeros 16 ++ (List.replicate 4 (leBytes 2 1024)).flatten ++ (List.replicate 4 (leBytes 2 8192)).flatten ++ leBytes 2 4096 ++ zeros 6 ++
  (List.replicate 16 [(0 : Byte), 192]).flatten ++ zeros 64 ++ leBytes 8 0x0800000006000000 ++ zeros 8 ++ leBytes 16 1 ++ leBytes 16 1 ++
  leBytes 4 0x100001 ++ leBytes 4 0x100001 ++ zeros 24

/-- A module in ACTIVE 1 s after its start: memory written throughout with zero, partition 0 owning everything, the dies at F5 with their
roots counting from now, MP-A serving. -/
def running : State :=
  { State.reset with
    now := 7200000000,
    frame := { FrameState.reset with number := 100, anyKerf := true, rtLocked := true },
    mem := { MemState.reset with lost := [] },
    host := { HostState.reset with enabled := [0], active := [(0, allRecord)], records := [(0, allRecord)], linkUp := true,
                                   vfs := [(0, { Vf.reset with present := true, busMaster := true })] },
    gov := { GovState.reset with diesOn := true, stop := .running },
    mp := { MgmtState.reset with mpA := { Processor.off with role := .active, fwMajor := 3, fwMinor := 4, capLevel := 2, format := 1, formatMin := 1,
                                                             lastKick := 7200000000 },
                                 mpB := { Processor.off with role := .ready, fwMajor := 3, fwMinor := 4, capLevel := 2, format := 1, formatMin := 1,
                                                             lastKick := 7200000000 },
                                 owner := some 0 },
    mod := { ModuleState.reset with mode := .active, phase := 4, powered := true, fuseOk := true, restored := true, railsDone := true,
                                    processorsUp := true },
    pins := { Pins.reset with presentMated := true, flowOk := true, emergencyStopN := true, perstN := true },
    clocks := { ClockState.reset with
                pwcOnReference := true, dies := List.replicate 4 { DieClock.start with root := rootStart (tick * 7200000000) 220 } } }

/-! ### Jigs at work -/

/-- A jig with frame class 5 and three tensors in the bench of die 0. -/
def jig5 : Jig :=
  { capLevel := 1, cadence := 0, clampMode := 0, fixedState := 0, frameLengthUs := 1000, jobId := 9, startField := 0, classBase := 5,
    classCount := 1, idleW := 50,
    classes := [{ id := 5, planIndex := 0, lengthUs := 1000, bodyTime := [90000, 90000, 90000, 90000, 90000, 90000], hintPackageW := 0,
                  hintFlags := 0 }],
    sequence := [.run 5 1, .stop],
    plans := [{ segments := [{ endPermyriad := 10000, powerW := [100, 100, 100, 100, 100, 100] }], perState := false }],
    queues := [],
    placements := [{ tensor := 1, tier := 0, format := 1, readOnly := false, preloaded := false, address := 0, size := 65536 },
                   { tensor := 2, tier := 0, format := 15, readOnly := false, preloaded := false, address := 65536, size := 65536 },
                   { tensor := 3, tier := 0, format := 16, readOnly := false, preloaded := false, address := 131072, size := 64 }],
    programs := [], slots := [] }

def held5 (phase : JigPhase) : PartJig :=
  { jig := jig5, phase := phase, startFrame := some 99, pos := { entry := 0, left := 0, passes := [] }, work := .run 5, halting := false }

/-- That jig with one unit's program for class 5, and a slot table of one resource that grants every port named every slot. -/
def jigWith (unit : Nat) (body : Bytes) (resource : Nat) (ports : List Nat) : Jig :=
  { jig5 with
    programs := [{ unit := unit, entries := [{ cls := 5, offset := 0, length := body.length }], body := body }],
    slots := [{ resource := resource, periodQc := 10,
                entries := ports.map (fun p => { port := p, bytes := 0, first := 0, run := 10000, count := 1, stride := 0 }) }] }

/-- Partition 0 runs it. -/
def jigged (unit : Nat) (body : Bytes) (resource : Nat) (ports : List Nat) : State :=
  { running with jigs := { JigState.reset with parts := [(0, some { held5 .running with jig := jigWith unit body resource ports })] } }

/-- Lane cluster 3 stands as `cl`, and its rows come to `word` next; its bench port is granted to it or not. -/
def issuing (word : Nat) (granted : Bool) (qf : QueueState) (cl : Cluster) : State :=
  { jigged 0x1003 (zeros 8 ++ leBytes 8 word) 0 (if granted then [19] else []) with
    qf := qf, lanes := { LaneState.reset with clusters := [(3, cl)] } }

/-- A cluster that runs two rows of class 5. -/
def rows2 : Cluster := { Cluster.reset with entry := some 5, rowCount := 2 }

/-- Row 1 of cluster 3, in the second lc, which is its turn: unguarded, without a storage error. -/
def lane1 : LaneAt := { cluster := 3, row := 1, t := 7200000006, guard := 0, invert := false, upset := LaneUpset.none }
def row1 : RowAt := { cluster := 3, row := 1, t := 7200000006, upset := LaneUpset.none }
def round1 : LaneRound := { stochastic := true, vb := 15, vc := 14, high := 65535 }

/-! ### Lanes -/

/-- Integer and binary32 instructions, operands at the ends of their ranges. -/
def laneForms1 : List Instr :=
  [.laneIadd lane1 15 0 15, .laneIsub lane1 15 0 15, .laneImul lane1 15 0 15, .laneImulh lane1 15 0 15, .laneImulhu lane1 15 0 15,
   .laneImin lane1 15 0 15, .laneImax lane1 15 0 15, .laneUmin lane1 15 0 15, .laneUmax lane1 15 0 15, .laneAnd lane1 15 0 15,
   .laneOr lane1 15 0 15, .laneXor lane1 15 0 15, .laneShl lane1 15 0 15, .laneShr lane1 15 0 15, .laneSar lane1 15 0 15,
   .laneSel lane1 15 0 15 7, .laneFadd lane1 15 0 15, .laneFsub lane1 15 0 15, .laneFmul lane1 15 0 15, .laneFfma lane1 15 0 15 14,
   .laneFfms lane1 15 0 15 14, .laneFmin lane1 15 0 15, .laneFmax lane1 15 0 15, .laneFabs lane1 15 0, .laneFneg lane1 15 0]

/-- Immediates and pairs. -/
def laneForms2 : List Instr :=
  [.laneMovi lane1 15 0xFFFFFFFF#32, .laneIaddi lane1 15 0 0xFFFFFFFF#32, .laneAndi lane1 15 0 1, .laneOri lane1 15 0 1, .laneXori lane1 15 0 1,
   .laneShli lane1 15 0 31, .laneShri lane1 15 0 32, .laneSari lane1 15 0 31, .laneFaddi lane1 15 0 1, .laneFmuli lane1 15 0 1,
   .laneMov lane1 15 0, .laneSpr lane1 15 8, .laneWadd lane1 7 0 7, .laneWshift lane1 7 0 0xFFFFFFFF#32]

/-- Predicates and conversions. -/
def laneForms3 : List Instr :=
  [.laneFcmp lane1 7 0 15 7, .laneIcmp lane1 7 0 15 9, .laneFclass lane1 0 15 511, .lanePlog lane1 7 0 7 3, .lanePset lane1 7 15,
   .laneCvtfi lane1 15 0 round1, .laneCvtif lane1 15 0 round1, .laneCvtfb lane1 15 0 round1, .laneUnpk lane1 15 7 .mxfp4E2m1 63 4,
   .laneMxexp lane1 15 0 .mxfp8E4m3, .laneMxdiv lane1 15 0 15 .mxfp4E2m1, .lanePack lane1 7 15 .t2 63 round1]

/-- Crossings of lanes and transcendental functions. -/
def laneForms4 : List Instr :=
  [.laneXred lane1 15 0 11 7, .laneXrot lane1 15 0 7 127, .laneXbcast lane1 15 0 7 127, .laneXzip lane1 7 0, .laneXunzip lane1 7 15 0,
   .lanePballot lane1 15 7, .lanePcount lane1 15 7, .laneFrcp lane1 15 0, .laneFrsqrt lane1 15 0, .laneFsqrt lane1 15 0, .laneFexp2 lane1 15 0,
   .laneFlog2 lane1 15 0, .laneFexp lane1 15 0, .laneFlog lane1 15 0, .laneFsinpi lane1 15 0, .laneFcospi lane1 15 0, .laneFtanh lane1 15 0,
   .laneFsigm lane1 15 0]

/-- Bench, queue, slot and control instructions. -/
def laneForms5 : List Instr :=
  [.laneLdr lane1 15 0 1, .laneStr lane1 15 0 1, .laneLdb lane1 15 0 1, .laneLdp lane1 15 0 1 15, .laneStp lane1 15 0 1 15,
   .laneQsend row1 15 65535, .laneQsig row1 65535, .laneQrecv lane1 15 65535, .laneQwait row1 65535, .laneSlset row1 63 (-512),
   .laneRed lane1 63 15 3, .laneSlfm row1 63 15, .laneSlst row1 63 15 0 true, .laneSlcvt lane1 63 15 .bf16 round1,
   .laneSlcvt lane1 63 14 .wa64 round1, .laneNop row1, .laneEnd row1, .laneBr row1 true 7 true 1023, .laneJmp row1 1023,
   .laneLoop row1 (some 15) 0 65535 1023, .laneLoop row1 none 65535 1 1023, .laneLoopend row1 7]

/-- Every lane instruction once. -/
def laneForms : List Instr := [laneForms1, laneForms2, laneForms3, laneForms4, laneForms5].flatten

/-- A command stands for an issue in that turn, its word 64 bits long. -/
def atTurn (i : Instr) : Bool :=
  match laneIssueOf i with
  | some x => decide ((x.cluster, x.row, x.t, x.upset) = (3, 1, 7200000006, LaneUpset.none)) && decide (x.word < 2 ^ 64)
  | none => false

theorem word_reads_back (v : Nat) (h : v < 2 ^ 64) : rd (zeros 8 ++ leBytes 8 v) 8 8 = v := by
  simp only [rd, zeros, List.replicate, leBytes, List.cons_append, List.nil_append, List.drop, List.take, leNat, BitVec.toNat_ofNat]
  omega

theorem bench_empty (s : State) (n : Nat) (h : s.mem.bench = []) : s.benchTo n = s := by simp [State.benchTo, h]

theorem no_lane_upset (s : State) (c j : Nat) : s.laneUpset c j LaneUpset.none = s := by
  simp [State.laneUpset, LaneUpset.none]

/-- The cluster runs row 1 of two at the first word of class 5, and no turn has been taken. -/
def Fit (cl : Cluster) : Prop :=
  cl.entry = some 5 ∧ cl.origin = 0 ∧ cl.turn = -1 ∧ cl.rowCount = 2 ∧ cl.stopped = false ∧ (cl.row 1).pc = 1 ∧ (cl.row 1).done = false

/-- The state in which the row has its turn. -/
def turned (word : Nat) (granted : Bool) (qf : QueueState) (cl : Cluster) : State := (issuing word granted qf cl).upTo 7200000006

theorem turned_cluster (w : Nat) (g : Bool) (qf : QueueState) (cl : Cluster) : (turned w g qf cl).cluster 3 = cl := by
  simp only [State.cluster, turned, issuing, State.lanes_upTo, SMap.get, if_true]

theorem running_parts : (running.upTo 7200000006).lcOf 0 = 1 ∧ running.diesIssue = true ∧ running.ownerOfUnit 0x1003 = some 0 ∧
    running.mem.bench = [] := by decide +kernel

theorem turned_turn (w : Nat) (g : Bool) (qf : QueueState) (cl : Cluster) (h : Fit cl) : (turned w g qf cl).rowTurn 3 1 = true := by
  have hl : (turned w g qf cl).lcOf (dieOfCluster 3) = 1 := by
    rw [← running_parts.1]
    simp only [dieOfCluster, State.lcOf, State.rc, State.dieClock, turned, issuing, jigged, State.clocks_upTo, State.now_upTo]
  have hd : (turned w g qf cl).diesIssue = true := by
    rw [← running_parts.2.1]
    simp only [State.diesIssue, turned, issuing, jigged, State.gov_upTo]
  obtain ⟨he, ho, ht, hr, hs, -, -⟩ := h
  rw [State.rowTurn, hl, hd, turned_cluster]
  simp [Cluster.turnOf, he, ho, ht, hr, hs]

theorem turned_next (w : Nat) (g : Bool) (qf : QueueState) (cl : Cluster) (h : Fit cl) (hw : w < 2 ^ 64) : (turned w g qf cl).laneWord 3 1 = w := by
  have ho : (turned w g qf cl).ownerOfUnit 0x1003 = some 0 := by
    rw [← running_parts.2.2.1]
    simp only [State.ownerOfUnit, State.ownerOfCluster, State.ownerBit, State.record, turned, issuing, jigged, State.host_upTo]
  have hj : (turned w g qf cl).partJig 0 =
      some { held5 .running with jig := jigWith 0x1003 (zeros 8 ++ leBytes 8 w) 0 (if g then [19] else []) } := by
    simp only [State.partJig, turned, issuing, jigged, State.jigs_upTo, SMap.get, if_true]
  have hp : (jigWith 0x1003 (zeros 8 ++ leBytes 8 w) 0 (if g then [19] else [])).programOf 0x1003 5 = some (zeros 8 ++ leBytes 8 w) := by
    simp [Jig.programOf, jigWith, slice]
  obtain ⟨he, -, -, -, -, hpc, -⟩ := h
  simp only [State.laneWord, turned_cluster, State.programOf, ho, hj, hp, he, hpc, Option.getD_some, wordAt]
  exact word_reads_back w hw

/-- The state in which the word takes effect. -/
def taken (word : Nat) (granted : Bool) (qf : QueueState) (cl : Cluster) : State := (turned word granted qf cl).takeTurn 3

theorem taken_cluster (w : Nat) (g : Bool) (qf : QueueState) (cl : Cluster) :
    (taken w g qf cl).cluster 3 = { cl with turn := (turned w g qf cl).lcOf (dieOfCluster 3) } := by
  simp only [taken, State.takeTurn, State.cluster_setCluster, if_true, turned_cluster]

/-- Every instruction of `atTurn` issues, whatever the queues and the rest of its cluster hold. -/
theorem issues_of {i : Instr} (h : atTurn i = true) (g : Bool) (qf : QueueState) (cl : Cluster) (hc : Fit cl) :
    ∃ w x, Issues i (issuing w g qf cl) (taken w g qf cl) x := by
  unfold atTurn at h
  split at h
  · rename_i x e
    obtain ⟨c, j, t, y, w⟩ := x
    simp only [Bool.and_eq_true, decide_eq_true_eq, Prod.mk.injEq] at h
    obtain ⟨⟨rfl, rfl, rfl, rfl⟩, hw⟩ := h
    have hat : LaneIssue.at_ ⟨3, 1, 7200000006, LaneUpset.none, w⟩ (issuing w g qf cl) = turned w g qf cl := by
      refine bench_empty _ _ ?_
      simp only [State.mem_upTo, issuing, jigged, running_parts]
    refine ⟨w, _, e, by rw [hat]; exact turned_turn w g qf cl hc, ?_, by rw [hat]; exact turned_next w g qf cl hc hw, ?_, ?_⟩
    · rw [hat]
      have : (turned w g qf cl).cluster 3 = cl := turned_cluster w g qf cl
      exact (congrArg (fun z => (Cluster.row z 1).done) this).trans hc.2.2.2.2.2.2
    · rw [hat, no_lane_upset]; rfl
    · exact (congrArg Cluster.stopped (taken_cluster w g qf cl)).trans hc.2.2.2.2.1
  · cases h

set_option maxRecDepth 100000 in
/-- Every lane instruction can issue. -/
theorem lane_forms_issue : ∀ i ∈ laneForms, atTurn i = true :=
  List.all_eq_true.mp (show laneForms.all atTurn = true by decide +kernel)

/-! ### The whole machine, memory -/

set_option maxRecDepth 100000 in
/-- For EveryStepKeepsTheInvariant, StepRunsTheFrontCommand and CommandsCompleteWithinTheirParts: a step that answers, from a state that has the
invariant. -/
theorem witness_step : Machine.Inv running ∧ running.pending = [] ∧ step running = .next running ∧
    (∃ t, exec (.clampLoad 0) running = .next t) := by
  refine ⟨?_, rfl, by unfold step; rfl, ?_⟩
  · unfold Machine.Inv; decide +kernel
  · exact ⟨_, rfl⟩

/-- For MemoryHoldsWhatWasStored: the last byte of a poisoned unit, not yet found; a
write of the whole unit and of its last byte. -/
theorem witness_memory :
    (let m : MemState := { MemState.reset with lost := [] }
     Memory.wf m = true ∧ SMap.wf m.poison false = true ∧ SMap.wf m.latent false = true) ∧
    (let m : MemState := { MemState.reset with lost := [], poison := [(0x20000000000, true)] }
     m.unitPoisoned 0x20000000000 64 = true ∧ poisonUnit 0x2000000003F = (0x20000000000, 64) ∧ m.readByte 0x2000000003F = none ∧
     m.readByte 0x20000000040 ≠ none) ∧
    ((0x20000000000 ≤ (poisonUnit 0x20000000000).1 ∧ 0x20000000000 + 64 ≤ 0x20000000000 + (List.replicate 64 (some (0 : Byte))).length) ∧
     ¬ 0x2000000003F ≤ (poisonUnit 0x2000000003F).1 ∧ ([some 1] : Data).getD 0 none ≠ none ∧ ([none] : Data).getD 0 none = none ∧
     0 < ([some 1] : Data).length) := by decide +kernel

/-- For SumsAreOrderFree. -/
theorem witness_order_free : [(true, 1, 0), (false, 2, 3)].Perm [(false, 2, 3), (true, 1, 0)] := by decide

/-! ### Lanes -/

/-- For LaneIntegerResults, LaneFloatResults and LanePairPredicateAndCrossResults: each instruction issues. -/
theorem witness_lane_forms : ∀ i ∈ laneForms, ∃ s u x, Issues i s u x := fun i hi =>
  have ⟨_, x, h⟩ := issues_of (lane_forms_issue i hi) true QueueState.reset rows2 (by unfold Fit; decide)
  ⟨_, _, x, h⟩

/-- For LaneTurnsAndGuards and the words of LaneFloatResults: the least NaN, infinity, the greatest finite word. -/
theorem witness_lane_guards : (List.replicate 128 true).length = 128 ∧ (zeroLanes.map (fun x => (x, 0))).length = 128 ∧
    zeroLanes.length = 128 ∧
    (let nan : W32 → Prop := fun x => x.toNat / 2 ^ 23 % 256 = 255 ∧ x.toNat % 2 ^ 23 ≠ 0
     nan 0x7F800001#32 ∧ nan 0xFFFFFFFF#32 ∧ ¬ nan 0x7F800000#32 ∧ ¬ nan 0x7F7FFFFF#32) := by
  refine ⟨?_, ?_, ?_, ?_⟩ <;> decide +kernel

def ended : Cluster := rows2.setRow 1 { RowCtl.start with done := true }

/-- For LaneTurnsAndGuards: a turn and its row, a row that has ended, a row beyond `ROW_COUNT`, a word that is not the next. -/
theorem witness_turns :
    (turned 0 true QueueState.reset rows2).rowTurn 3 1 = true ∧
    (turned 0 true QueueState.reset ended).rowTurn 3 1 = true ∧ (((turned 0 true QueueState.reset ended).cluster 3).row 1).done = true ∧
    (turned 0 true QueueState.reset rows2).rowTurn 3 2 = false ∧ (turned 0 true QueueState.reset rows2).rowTurn 3 0 = false ∧
    laneIssueOf (.laneNop row1) = some ⟨3, 1, 7200000006, LaneUpset.none, 0⟩ ∧
    (((turned 0 true QueueState.reset rows2).cluster 3).row 1).done = false ∧
    (turned 1 true QueueState.reset rows2).laneWord 3 1 ≠ 0 := by
  refine ⟨turned_turn _ _ _ _ (by unfold Fit; decide), by decide +kernel, by decide +kernel, by decide +kernel, by decide +kernel, rfl,
    by decide +kernel, ?_⟩
  rw [turned_next 1 true QueueState.reset rows2 (by unfold Fit; decide) (by decide)]
  decide

/-- For LaneTurnsAndGuards: the word of a row fails its parity check at its turn. -/
theorem witness_lane_parity :
    laneIssueOf (.laneNop { row1 with upset := { LaneUpset.none with parity := true } }) =
      some ⟨3, 1, 7200000006, { LaneUpset.none with parity := true }, 0⟩ ∧
    (turned 0 true QueueState.reset rows2).rowTurn 3 1 = true ∧ (turned 0 true QueueState.reset rows2).laneWord 3 1 = 0 :=
  ⟨rfl, turned_turn _ _ _ _ (by unfold Fit; decide), turned_next 0 true QueueState.reset rows2 (by unfold Fit; decide) (by decide)⟩

/-- For LaneLoadsAndStores: a load whose cluster's port is granted the qc, and one whose is not. -/
theorem witness_lane_bench (g : Bool) : ∃ s u x, Issues (.laneLdr lane1 15 0 1) s u x ∧
    u.benchGrant (u.ownerOfCluster 3) 0 (16 + 3 % 64) (u.lcOf 0 / 2) = g := by
  have hf : Fit rows2 := by unfold Fit; decide
  obtain ⟨w, x, h⟩ := issues_of (i := .laneLdr lane1 15 0 1) (lane_forms_issue _ (by decide +kernel)) g QueueState.reset rows2 hf
  refine ⟨_, _, x, h, ?_⟩
  have ho : (taken w g QueueState.reset rows2).ownerOfCluster 3 = some 0 := by
    rw [← running_parts.2.2.1]
    simp only [State.ownerOfUnit, State.ownerOfCluster, State.ownerBit, State.record, taken, State.takeTurn, State.host_setCluster, turned,
      issuing, jigged, State.host_upTo]
  have hj : (taken w g QueueState.reset rows2).partJig 0 =
      some { held5 .running with jig := jigWith 0x1003 (zeros 8 ++ leBytes 8 w) 0 (if g then [19] else []) } := by
    simp only [State.partJig, taken, State.takeTurn, State.jigs_setCluster, turned, issuing, jigged, State.jigs_upTo, SMap.get, if_true]
  cases g <;> simp [State.benchGrant, ho, State.slotTable, hj, held5, jigWith, SlotSection.grants, SlotEntry.covers]
  omega

def access (act : BenchAct) : BenchAccess := { die := 0, due := 9, nominal := 9, write := false, port := 19, act := act }

/-- For LaneLoadsAndStores: accesses in order; the last word of a bench, and one past it; a granule of
another partition; the same word stored by two lanes. -/
theorem witness_lane_memory :
    [access (.laneLoad 3 1 15 []), { access (.laneStore 3 []) with due := 10 }].Pairwise (fun y z => z.before y = false) ∧
    running.ownerOfCluster 3 = some 0 ∧ running.owns 0 (201326592 - 4) 4 = true ∧ running.benchOk 3 (201326592 - 4) 4 = true ∧
    running.benchOk 3 201326592 4 = false ∧ [(true, 7)][0]? = some (true, 7) ∧ [(false, 7)][0]? = some (false, 7) ∧
    running.benchOk 3 (7 / 4 * 4) 4 = true ∧ 7 / 4 ≠ 8 / 4 ∧ running.benchOk 3 201326591 1 = true ∧ running.mem.readData 201326591 1 = [some 0] := by
  decide +kernel

/-- A queue of depth 4. -/
def queueOf (credits : Nat) (visible : List QEntry) : Queue :=
  { Queue.none with declared := true, depth := 4, credits := credits, visible := visible }

/-- Queue 65535 with a credit or an entry, with its last credit and its last entry, and with neither. -/
def lastQueue (credits : Nat) (visible : List QEntry) : QueueState := { QueueState.reset with queues := [(65535, queueOf credits visible)] }

/-- For LaneQueuesAndSlots. -/
theorem witness_lane_queues (credits : Nat) (visible : List QEntry) :
    (∀ i ∈ [Instr.laneQsend row1 15 65535, .laneQsig row1 65535, .laneQrecv lane1 15 65535, .laneQwait row1 65535],
      ∃ s u x, Issues i s u x ∧ u.queue 65535 = queueOf credits visible) ∧
    (queueOf 1 []).canSend = true ∧ (queueOf 0 []).canSend = false ∧ (queueOf 0 [{ data := none }]).canReceive = true ∧
    (queueOf 4 []).canReceive = false := by
  refine ⟨fun i hi => ?_, by decide +kernel, by decide +kernel, by decide +kernel, by decide +kernel⟩
  have h5 : ∀ i ∈ [Instr.laneQsend row1 15 65535, .laneQsig row1 65535, .laneQrecv lane1 15 65535, .laneQwait row1 65535], i ∈ laneForms := by
    decide +kernel
  obtain ⟨w, x, h⟩ := issues_of (lane_forms_issue i (h5 i hi)) true (lastQueue credits visible) rows2 (by unfold Fit; decide)
  refine ⟨_, _, x, h, ?_⟩
  simp only [State.queue, taken, State.takeTurn, State.qf_setCluster, turned, issuing, State.qf_upTo, lastQueue, SMap.get, if_true]

/-- For LaneQueuesAndSlots and LaneControlFlow: slots that are not WA64; a loop in its last pass. -/
theorem witness_lane_loops :
    Format.bf16 ≠ .wa64 ∧
    (∃ s u x, Issues (.laneLoopend row1 7) s u x ∧ ((u.cluster 3).row 1).stack = [{ left := 1, start := 4, stop := 9 }]) := by
  refine ⟨by decide, ?_⟩
  obtain ⟨w, x, h⟩ := issues_of (lane_forms_issue (.laneLoopend row1 7) (by decide +kernel)) true QueueState.reset
    (rows2.setRow 1 { RowCtl.start with stack := [{ left := 1, start := 4, stop := 9 }] }) (by unfold Fit; decide)
  refine ⟨_, _, x, h, ?_⟩
  rw [taken_cluster]
  show ((rows2.setRow 1 { RowCtl.start with stack := [{ left := 1, start := 4, stop := 9 }] }).row 1).stack = _
  decide

/-! ### Arrays -/

/-- A descriptor's bytes (R158). -/
def arrayBytes (x : ArrayDesc) : Bytes :=
  leBytes 1 x.opcode ++ leBytes 1 x.plane.val ++ leBytes 1 (b2n x.acc + 4 * x.rmode) ++ zeros 1 ++ leInt 2 x.window ++ leBytes 2 x.rows ++
  leBytes 2 x.kUsed ++ leBytes 2 x.cols ++ leBytes 2 x.footBase ++ zeros 2 ++ leBytes 4 x.dataTensor ++ leBytes 4 x.scaleTensor ++
  leBytes 6 x.first ++ zeros 2 ++ leBytes 4 x.stride ++ leBytes 2 x.waitQueue ++ leBytes 2 x.signalQueue ++ leBytes 4 x.flagTensor ++
  leBytes 4 x.flagOffset ++ zeros 80

/-- Every column, the last two foot rows. -/
def arrayDesc (opcode tensor : Nat) : ArrayDesc :=
  { opcode := opcode, plane := 1, acc := false, rmode := 0, window := 0, rows := 2, kUsed := 512, cols := 512, footBase := 1022,
    dataTensor := tensor, scaleTensor := 0, first := 0, stride := 0, waitQueue := 0xFFFF, signalQueue := 7, flagTensor := 3,
    flagOffset := 5 }

/-- Array 2 stands as `u`, under an entry of class 5 whose first descriptor is `x`, every bench slot its own. -/
def arrayed (x : ArrayDesc) (u : ArrayUnit) : State :=
  { jigged 2 (arrayBytes x) 0 [8, 9, 10, 11] with arrays := { ArrayState.reset with units := [(2, u)] } }

/-- An array at its entry's start. -/
def begun : ArrayUnit := { ArrayUnit.reset with entry := some 5, done := false }
def planeOf (format : Nat) : Plane := { Plane.empty with loaded := true, format := format, kUsed := 512, cols := 512 }

/-- What `ArrayTurn` asks. -/
def arrayTurns (x : ArrayDesc) (op : Nat) (u : ArrayUnit) (ok : ArrayUnit → Nat → Bool) (f : Format) (base : Nat) : Bool :=
  let b := (arrayed x u).atDie 0 0
  let ac := b.acOf 0
  b.arrayNext 2 x op ac && ok (b.array 2) ac && b.waitOk x.waitQueue &&
    decide (((b.arrayUpset 2 ArrayUpset.none).array 2).stopped = false) &&
    decide ((b.arrayUpset 2 ArrayUpset.none).tensorAt 2 x.dataTensor = some (f, base))

theorem array_turn_of {x : ArrayDesc} {op : Nat} {u : ArrayUnit} {ok : ArrayUnit → Nat → Prop} {okb : ArrayUnit → Nat → Bool} {f : Format}
    {base : Nat} (h : arrayTurns x op u okb f base = true) (hk : ∀ a ac, okb a ac = true → ok a ac) :
    ArrayTurn (arrayed x u) (((arrayed x u).atDie 0 0).arrayUpset 2 ArrayUpset.none) 2 x op 0 ArrayUpset.none ok
      (((arrayed x u).atDie 0 0).acOf 0) f base := by
  simp only [arrayTurns, Bool.and_eq_true, decide_eq_true_eq] at h
  exact ⟨rfl, h.1.1.1.1, hk _ _ h.1.1.1.2, h.1.1.2, rfl, h.1.2, h.2⟩

set_option maxRecDepth 100000 in
/-- For ArrayMovesItsOperands and ArrayPassAccumulates: each descriptor in its turn; a `PASS` with a good
pair, with a plane never loaded, with a bad pair; a descriptor that is not the next, and one that fails its parity check. -/
theorem witness_array_turns :
    (∃ s u ac, ArrayTurn s u 2 (arrayDesc 1 1) 1 0 ArrayUpset.none
      (fun a ac => a.loadFree ≤ ac ∧ nth a.loadAfter (arrayDesc 1 1).plane 0 ≤ ac) ac .int8 0) ∧
    (∀ u ∈ [{ begun with plane1 := planeOf 1 }, begun, { begun with plane1 := planeOf 5 }],
      ∃ s v ac, ArrayTurn s v 2 (arrayDesc 2 1) 2 0 ArrayUpset.none
        (fun a ac => a.passFree ≤ ac ∧ nth a.passAfter (arrayDesc 2 1).plane 0 ≤ ac ∧ a.footClear (arrayDesc 2 1) ac = true) ac .int8 0 ∧
        (s.array 2).plane 1 = u.plane 1) ∧
    (∃ s u ac, ArrayTurn s u 2 (arrayDesc 3 2) 3 0 ArrayUpset.none
      (fun a ac => a.footFree ≤ ac ∧ a.footClear (arrayDesc 3 2) ac = true) ac .wa64 65536) ∧
    (∃ s u ac, ArrayTurn s u 2 (arrayDesc 4 1) 4 0 ArrayUpset.none
      (fun a ac => a.footFree ≤ ac ∧ a.footClear (arrayDesc 4 1) ac = true) ac .int8 0) := by
  refine ⟨⟨_, _, _, array_turn_of (okb := fun a ac => decide (a.loadFree ≤ ac ∧ nth a.loadAfter (arrayDesc 1 1).plane 0 ≤ ac)) (u := begun)
      (by decide +kernel) (fun _ _ h => by simpa using h)⟩, fun u hu => ?_,
    ⟨_, _, _, array_turn_of (okb := fun a ac => decide (a.footFree ≤ ac ∧ a.footClear (arrayDesc 3 2) ac = true)) (u := begun)
      (by decide +kernel) (fun _ _ h => by simpa using h)⟩,
    ⟨_, _, _, array_turn_of (okb := fun a ac => decide (a.footFree ≤ ac ∧ a.footClear (arrayDesc 4 1) ac = true)) (u := begun)
      (by decide +kernel) (fun _ _ h => by simpa using h)⟩⟩
  have h : [{ begun with plane1 := planeOf 1 }, begun, { begun with plane1 := planeOf 5 }].all (fun u =>
      arrayTurns (arrayDesc 2 1) 2 u (fun a ac =>
        decide (a.passFree ≤ ac ∧ nth a.passAfter (arrayDesc 2 1).plane 0 ≤ ac ∧ a.footClear (arrayDesc 2 1) ac = true)) .int8 0 &&
      decide (((arrayed (arrayDesc 2 1) u).array 2).plane 1 = u.plane 1)) = true := by decide +kernel
  have h := List.all_eq_true.mp h u hu
  simp only [Bool.and_eq_true, decide_eq_true_eq] at h
  exact ⟨_, _, _, array_turn_of h.1 (fun _ _ h => by simpa using h), h.2⟩

set_option maxRecDepth 100000 in
/-- The same statements: pairs, and a descriptor that is not the next. -/
theorem witness_array_pairs :
    Format.ofCode (planeOf 1).format = some .int8 ∧ pairOk .int8 .int8 = true ∧ (begun.plane 1).loaded = false ∧
    Format.ofCode (planeOf 5).format = some .fp8E4m3 ∧ pairOk .fp8E4m3 .int8 = false ∧
    ((arrayed (arrayDesc 1 1) begun).atDie 0 0).arrayNext 2 (arrayDesc 3 2) 3 0 = false ∧
    ({ ArrayUpset.none with parity := true } : ArrayUpset).parity = true := by decide +kernel

/-- A table that grants port 9 every other qc. -/
def sparse : State :=
  { running with jigs := { JigState.reset with parts := [(0, some { held5 .running with jig := { jig5 with
      slots := [{ resource := 0, periodQc := 2, entries := [{ port := 9, bytes := 0, first := 1, run := 1, count := 1, stride := 0 }] }] } })] } }

set_option maxRecDepth 100000 in
/-- For ArrayMovesItsOperands: with every slot granted nothing is withheld; with every other one some cycles come later. -/
theorem witness_array_cycles :
    (let u := arrayed (arrayDesc 1 1) begun
     let x := { arrayDesc 1 1 with cols := 3 }
     u.cyclesOf 2 x .int8 0 = [(0, 0), (1, 1), (2, 2)] ∧ 0 < x.cols ∧ (u.slotTable (u.ownerOfArray 2) 0).isSome = true) ∧
    (let x := { arrayDesc 1 1 with cols := 3 }
     sparse.cyclesOf 2 x .int8 0 = [(0, 2), (3, 5), (6, 8)] ∧ (sparse.slotTable (sparse.ownerOfArray 2) 0).isSome = true ∧ 2 < neverAc) := by
  decide +kernel

/-- A descriptor under way. -/
def underWay (x : ArrayDesc) : ArrayIssue :=
  { desc := x, index := 0, issued := 0, completes := 8, rowsRead := [([], [])], badColumns := [], badPair := false, drainFlags := 1 }

/-- Array 2 with a descriptor outstanding. -/
def outstanding (x : ArrayDesc) : State :=
  arrayed x { begun with nextDesc := 1, outstanding := [underWay x], plane1 := planeOf 1 }

/-- For ArrayMovesItsOperands and ArrayPassAccumulates: a descriptor of each opcode and its tensor, one whose pair is bad; the
last foot row; a tensor of scales. -/
theorem witness_array_work :
    (∀ x ∈ [arrayDesc 1 1, arrayDesc 2 1, arrayDesc 4 1], ((outstanding x).array 2).issueOf 0 = some (underWay x) ∧
      (outstanding x).tensorAt 2 x.dataTensor = some (.int8, 0)) ∧
    ((outstanding (arrayDesc 3 2)).array 2).issueOf 0 = some (underWay (arrayDesc 3 2)) ∧
    (outstanding (arrayDesc 3 2)).tensorAt 2 2 = some (.wa64, 65536) ∧ (arrayDesc 1 1).kUsed ≤ 2048 ∧ (arrayDesc 3 2).cols ≤ 512 ∧
    { underWay (arrayDesc 2 1) with badPair := true }.badPair = true ∧ (underWay (arrayDesc 2 1)).badPair = false ∧
    Format.ofCode (((outstanding (arrayDesc 2 1)).array 2).plane 1).format = some .int8 := by decide +kernel

/-- For ArrayDescriptorsComplete: a `DRAIN` in the ac in which it completes, the ac before, `END` with nothing outstanding, signals that
wait for a credit. -/
theorem witness_array_complete :
    (let s := outstanding (arrayDesc 4 1)
     let b := s.atDie (7200000000 + 64) 0
     b.diesClocked = true ∧ b.acOf 0 = 8 ∧ (b.array 2).outstanding.find? (fun z => decide (z.completes ≤ b.acOf 0)) = some (underWay (arrayDesc 4 1)) ∧
     ((s.atDie 7200000063 0).array 2).outstanding.find? (fun z => decide (z.completes ≤ (s.atDie 7200000063 0).acOf 0)) = none) ∧
    (let x := { arrayDesc 1 1 with opcode := 15 }
     ((arrayed x begun).atDie 0 0).arrayEndOk 2 0 = true) ∧
    ((outstanding (arrayDesc 4 1)).atDie 0 0 |>.array 2).outstanding ≠ [] ∧
    (let s := arrayed (arrayDesc 1 1) { begun with deferred := [7] }
     (s.array 2).deferred.contains 7 = true ∧ ((s.setQueue 7 (queueOf 1 [])).queue 7).canSend = true ∧ (s.queue 7).canSend = false) := by
  decide +kernel

/-! ### Movers, queues and tiers -/

/-- A descriptor's bytes (R277). -/
def mvBytes (x : MvDesc) : Bytes :=
  leBytes 1 x.opcode ++ leBytes 1 (b2n x.fence) ++ leBytes 2 x.waitQueue ++ leBytes 2 x.signalQueue ++ leBytes 2 x.dataQueue ++
  leBytes 4 x.srcTensor ++ leBytes 4 x.dstTensor ++ leBytes 8 x.srcOffset ++ leBytes 8 x.dstOffset ++ leBytes 4 x.rowBytes ++
  leBytes 4 x.rows ++ leBytes 4 x.srcStride ++ leBytes 4 x.dstStride ++ leBytes 4 x.fillValue ++ zeros 12

def mvDesc (opcode : Nat) : MvDesc :=
  { opcode := opcode, fence := true, waitQueue := 0xFFFF, signalQueue := 7, dataQueue := 8, srcTensor := 1, dstTensor := 2, srcOffset := 0,
    dstOffset := 0, rowBytes := 512, rows := 1, srcStride := 0, dstStride := 0, fillValue := 0 }

/-- Mover 4 stands as `v`, under an entry of class 5 whose first descriptor is `x`; every slot of one resource is its own. -/
def movingOn (resource : Nat) (x : MvDesc) (v : Mover) : State :=
  { jigged 0x2004 (mvBytes x) resource [84, 4] with qf := { QueueState.reset with movers := [(4, v)] } }

def startedMover : Mover := { Mover.reset with entry := some 5, done := false }

set_option maxRecDepth 100000 in
/-- For MoverDescriptorsIssueAndComplete: each opcode in its turn, `END`, and a descriptor that is not the next. -/
theorem witness_mover_issue :
    (∀ op ∈ [1, 2, 3, 4], ((movingOn 0 (mvDesc op) startedMover).atDie 0 0).moverOk 4 (mvDesc op) op 0 = true) ∧
    (let u := (movingOn 0 (mvDesc 15) startedMover).atDie 0 0
     u.moverRuns 4 = true ∧ (u.nextMvDesc 4).opcode = 15 ∧ (u.mover 4).active = [] ∧ (u.mover 4).deferred = [] ∧ (u.mover 4).issueQc ≤ 0) ∧
    ((movingOn 0 (mvDesc 1) startedMover).atDie 0 0).moverOk 4 (mvDesc 2) 2 0 = false ∧
    (mvDesc 1).fence = true := by decide +kernel

def mvIssue (opcode src dst srcPos dstPos : Nat) (buffer : Data) (arrived : List (Nat × Nat)) : MvIssue :=
  { desc := mvDesc opcode, tag := 0, orphan := false, srcBase := src, dstBase := dst, srcPos := srcPos, buffer := buffer, dstPos := dstPos,
    arrived := arrived }

/-- Mover 4 with one descriptor under way. -/
def moving (resource : Nat) (i : MvIssue) : State :=
  movingOn resource i.desc { startedMover with nextDesc := 1, issued := 1, active := [i] }

/-- Bench at 0, another die's bench, and the starts of the tiers. -/
def homes : List Nat := [0, 0x10000000, 0x10000000000, 0x20000000000, 0x40000000000]

set_option maxRecDepth 100000 in
/-- For MoversMoveBytes: a copy at its first byte from a bench and from each tier, in a slot of its port; without a slot; with no room
in the buffer; where its destination can take the slot; outside the partition's memory; a `PULL` with an entry. -/
theorem witness_mover_source :
    (∀ y ∈ ([(0, 0), (0x10, 0x10000000000), (0x20, 0x20000000000), (0x21, 0x40000000000)] : List (Nat × Nat)),
      let i := mvIssue 1 y.2 65536 0 0 [] []
      let u := (moving y.1 i).atDie 0 0
      (u.mover 4).active.find? (fun j => decide (j.srcPos < j.desc.total)) = some i ∧ u.diesClocked = true ∧
      (u.moverSlot 4 i y.2 false).isSome = true ∧ u.destSlot 4 = none ∧ (u.mover 4).used + 512 ≤ 65536 ∧ u.moverMay 4 y.2 512 = true) ∧
    (let i := mvIssue 1 0 65536 0 0 [] []
     ((moving 1 i).atDie 0 0).moverSlot 4 i 0 false = none) ∧
    ({ startedMover with active := [{ mvIssue 1 0 0 0 0 [] [] with desc := { mvDesc 1 with rows := 129 }, srcPos := 65536 }] } : Mover).used = 65536 ∧
    (let i := mvIssue 1 0 65536 0 0 (List.replicate 512 none) [(512, 0)]
     let j := { mvIssue 1 0 0 0 0 [] [] with tag := 1 }
     let u := (movingOn 0 (mvDesc 1) { startedMover with issued := 2, active := [{ i with srcPos := 512 }, j] }).atDie 7200000024 0
     (u.mover 4).active.find? (fun j => decide (j.srcPos < j.desc.total)) = some j ∧ (u.destSlot 4).isSome = true ∧
     u.moverSlot 4 j 0 false = u.destSlot 4) ∧
    ((moving 0 (mvIssue 1 0 0 0 0 [] [])).moverMay 4 0x10000000 512 = false) ∧
    (let s := (moving 0 (mvIssue 3 0 65536 0 0 [] [])).setQueue 8 (queueOf 3 [{ data := none }])
     ((s.atDie 0 0).queue 8).canReceive = true ∧ (mvIssue 3 0 65536 0 0 [] []).desc.opcode = 3) := by decide +kernel

set_option maxRecDepth 100000 in
/-- For MoversMoveBytes: the last bytes of a copy into a bench and into each tier, early enough; too early; a `PUSH` with a credit; a
`FILL`; outside the partition's memory; Tier 3 at its limits. -/
theorem witness_mover_destination :
    (∀ y ∈ ([(0, 0), (0x10, 0x10000000000), (0x20, 0x20000000000), (0x21, 0x40000000000)] : List (Nat × Nat)),
      let i := mvIssue 1 0 y.2 512 0 (List.replicate 512 none) [(512, 0)]
      let u := (moving y.1 i).atDie (7200000000 + 128 * 72) 0
      (u.mover 4).active.find? (fun j => decide (j.dstPos < j.desc.total)) = some i ∧ (u.destSlot 4).isSome = true ∧
      512 ≤ i.buffer.length ∧ u.moverMay 4 y.2 512 = true) ∧
    (let i := mvIssue 1 0 0 512 0 (List.replicate 512 none) [(512, 3)]
     ((moving 0 i).atDie 0 0).destSlot 4 = none) ∧
    (let i := mvIssue 2 0 0 512 0 (List.replicate 512 none) [(512, 0)]
     let u := ((moving 0 i).setQueue 8 (queueOf 1 [])).atDie 7200000024 0
     (u.queue 8).canSend = true ∧ i.arrival (i.dstPos + 511) = some 0 ∧ 0 < u.qcOf 0 ∧ i.desc.opcode = 2) ∧
    (let i := mvIssue 4 0 0 512 0 [] [(512, 0)]
     (((moving 0 i).atDie 7200000024 0).destSlot 4).isSome = true) ∧
    (moving 0 (mvIssue 1 0 0 0 0 [] [])).moverMay 4 0x10000000 512 = false ∧ running.mem.t3Refusing = false ∧
    running.mem.t3Programmed / 10 ^ 13 < 1100 ∧ 1100 ≤ 11000000000000000 / 10 ^ 13 := by decide +kernel

set_option maxRecDepth 100000 in
/-- For MoverDescriptorsIssueAndComplete: the last byte gone, and one byte left; a signal that can go, and one that waits. -/
theorem witness_mover_complete :
    (let i := mvIssue 1 0 0 512 512 [] []
     let u := (moving 0 i).atDie 0 0
     (u.mover 4).active = i :: [] ∧ i.desc.total ≤ i.dstPos ∧ u.diesClocked = true ∧ i.desc.signalQueue ≠ noQueue ∧
     (u.queue 7).declared = false) ∧
    (mvIssue 1 0 0 512 511 [] []).dstPos < (mvDesc 1).total ∧
    [(0, 7)].find? (fun z => z.2 == 7) = some (0, 7) ∧ (queueOf 1 []).canSend = true ∧ (queueOf 0 []).canSend = false ∧
    (queueOf 0 []).declared = true := by decide +kernel

def heldAt (tier address : Nat) : HeldRead :=
  { tier := tier, who := .mover 4, tag := 0, address := address, data := [some 1], slot := 7200000000 }

/-- For QueuesAndTiersDeliver: the last entry of a full queue in transit, its last credit; the oldest read
of each tier, one with poison. -/
theorem witness_deliveries :
    (let x : Queue := { Queue.none with declared := true, depth := 2, transit := [{ data := none }], visible := [{ data := none }] }
     x.balanced ∧ x.transit = { data := none } :: []) ∧
    (let x : Queue := { Queue.none with declared := true, depth := 1, creditsTransit := 1, producer := 4096 * 4 }
     x.balanced ∧ 0 < x.creditsTransit ∧ x.producer / 4096 = 4 ∧ x.transit = [] ∧ x.declared = true) ∧
    (queueOf 4 []).balanced ∧ (queueOf 4 []).canSend = true ∧
    [heldAt 1 0x10000000000].find? (fun x => x.tier == 1 && (regionOf x.address).1 == .tier1 0) = some (heldAt 1 0x10000000000) ∧
    [heldAt 2 0x20000000000].find? (fun x => x.tier == 2) = some (heldAt 2 0x20000000000) ∧
    [heldAt 3 0x40000000000].find? (fun x => x.tier == 3) = some (heldAt 3 0x40000000000) ∧
    running.heldFor (heldAt 3 0x40000000000) = some 0 ∧ none ∈ ({ heldAt 3 0x40000000000 with data := [none] } : HeldRead).data := by
  refine ⟨?_, ?_, ?_⟩ <;> (try unfold Queue.balanced) <;> decide +kernel

/-- For QueuesAndTiersDeliver: the first and the last moment of a stack's window, the moment after it; STANDBY. -/
theorem witness_tier_events :
    (regionOf 0x10000000000).1 = .tier1 0 ∧
    (let s : State := { running with now := 7200000000 + 95 * 72 }
     s.rt % 195 = 0 ∧ s.rt % 195 / 10 = 0 ∧ s.inRefresh 0x10000000000 = true ∧ s.mod.mode ≠ .standby) ∧
    ({ running with now := 7200000000 + 105 * 72 - 1 } : State).inRefresh 0x10000000000 = true ∧
    ({ running with now := 7200000000 + 105 * 72 } : State).inRefresh 0x10000000000 = false ∧
    ({ running with mod := { running.mod with mode := .standby } } : State).mod.mode = .standby := by decide +kernel

/-! ### Frames and kerfs -/

/-- The module 1 ms after its last kerf. -/
def framed : State :=
  let kerf := { running.frame.kerf with strobe := 7192800000, rt := 99900000 }
  { running with frame := { running.frame with kerf := kerf, anchor := some (100, 99900000) } }

set_option maxRecDepth 100000 in
/-- For KerfStrobeBeginsAFrame: a schedule with a change of state that is still a frame away; an enable accepted in the pc before the
strobe's, and one in it. -/
theorem witness_strobe :
    framed.frame.frozen = false ∧ ({ framed.frame with frozen := true } : FrameState).frozen = true ∧
    (∃ k, framed.nextKerf = some k ∧ k.1 % 2 ^ 48 < 102 ∧
      framed.host.ctrlPc < (framed.onEdge (framed.frame.timeOfRt (framed.kerfEdge k.2)) 3).now / 30 ∧
      (framed.onEdge (framed.frame.timeOfRt (framed.kerfEdge k.2)) 3).now / 30 ≤ 240000000) ∧ framed.frame.anyKerf = true := by
  refine ⟨by decide +kernel, rfl, ⟨(framed.nextKerf).getD (0, 0), ?_⟩, by decide +kernel⟩
  decide +kernel

/-- The module in a kerf, `ago` root cycles after its strobe, F3 sampled. -/
def inKerf (ago : Nat) (switchDue : Bool) : State :=
  { running with frame := { running.frame with kerf := { running.frame.kerf with active := true, strobe := 7200000000 - ago, sampled := 3,
                                                                                 switchDue := switchDue } } }

/-- A die that stretches. -/
def stretching (s : State) : State := s.setDie 2 { s.die 2 with stretching := some 0 }

/-- For KerfSettlesTheFrequencyState: the switch in its first and its last moment, its deferral, and the ends of the kerf. -/
theorem witness_settling :
    (let u := inKerf 360 true
     u.frame.kerf.active = true ∧ u.frame.kerf.switchDue = true ∧ u.diesClocked = true ∧ u.frame.kerf.strobe + 360 = u.now ∧
     u.stretchBusy = false) ∧
    (let u := inKerf (360 + 256 * 72 / stateMult 5) true
     u.now = u.frame.kerf.strobe + 360 + 256 * 72 / stateMult u.gov.running) ∧
    (let u := stretching (inKerf (360 + 256 * 72 / stateMult 5) true)
     u.gov.running = 5 ∧ u.diesClocked = true ∧ u.frame.kerf.strobe + 360 + 256 * 72 / stateMult 5 = u.now ∧ u.stretchBusy = true ∧
     u.clocks.dies.any (·.reserve) = false) ∧
    (running.clocks.dies.map (fun d => { d with reserve := true })).any (·.reserve) = true ∧
    ((inKerf 24480 false).frame.kerf.strobe + 24480 = 7200000000 ∧ (inKerf 24480 false).frame.kerf.clampLoaded = false ∧
     (inKerf 24480 false).frame.kerf.active = true) ∧
    ((inKerf 28800 false).frame.kerf.active = true ∧ (running.gov.dies[3]?).isSome = true) ∧
    (let u := inKerf (28800 + 256 * 72 / stateMult 5) false
     u.frame.anyKerf = true ∧ u.frame.kerf.complete = false ∧ u.frame.kerf.late = false) := by decide +kernel

/-- Programs of mover 4, array 2 and cluster 3 for frame class 5. -/
def programmed (s : State) : State :=
  let program : Nat → Program := fun u => { unit := u, entries := [{ cls := 5, offset := 0, length := 4 }], body := [0x82, 0, 0, 0] }
  { s with jigs := { JigState.reset with parts :=
    [(0, some { held5 .running with jig := { jig5 with programs := [program 0x2004, program 0x1003, program 2] } })] } }

/-- Array 2 and what follows 1/4 of an ac behind. -/
def busyUnits (s : State) : State :=
  { s with arrays := { ArrayState.reset with units := [(2, begun)] } }

set_option maxRecDepth 100000 in
/-- For UnitsStartInTheKerf: each at its time, with its entry, idle; and an array that is still busy. -/
theorem witness_starts :
    (let u := (programmed (inKerf 576 false)).onEdge 7200000000 5
     u.frame.kerf.moversStarted = false ∧ u.unitEntry 0x2004 = some (5, [0x82, 0, 0, 0]) ∧ u.frame.kerf.strobe + 576 ≤ u.now ∧
     u.frame.kerf.active = true ∧ (List.range 128).all (fun m => ((u.mover m).entry.isNone || (u.mover m).done)) = true) ∧
    (let u := (programmed (inKerf 720 false)).onEdge 7200000000 5
     u.frame.kerf.groupsDone.contains 0 = false ∧ u.unitEntry 0x1003 = some (5, [0x82, 0, 0, 0]) ∧
     (List.range 16).all (fun i => !(u.cluster i).busy) = true ∧ u.frame.kerf.strobe + 720 ≤ u.now) ∧
    (let u := (programmed (inKerf (1440 + 1440 * 8) false)).onEdge 7200000000 5
     u.frame.kerf.arraysDone.contains 8 = false ∧ 4 * (8 % 4) + 8 / 4 = 2 ∧ u.unitEntry 2 = some (5, [0x82, 0, 0, 0]) ∧
     u.frame.kerf.strobe + 1440 + 1440 * 8 ≤ u.now ∧ (u.array 2).entry = none) ∧
    (let u := (busyUnits (programmed (inKerf (1440 + 1440 * 8) false))).onEdge 7200000000 5
     (u.array 2).entry.isSome = true ∧ (u.array 2).done = false ∧ u.ownerOfUnit 2 = some 0 ∧ (u.partJig 0).isSome = true ∧
     (u.unitEntry 2).isSome = true) := by
  decide +kernel

/-- The module unlocked, having seen mark `last`. -/
def unlocked (last : Option Nat) : State := { running with frame := { running.frame with rtLocked := false, lastMark := last } }

/-- The word of mark `n`. -/
def markWord (n : Nat) : BitVec 64 := BitVec.ofNat 64 (0xB1 + 2 ^ 8 * n + 2 ^ 48 * ((crc32c (leBytes 5 n)).toNat % 65536))

/-- For ReferenceTimeIsKept: the second of two marks, a mark that agrees, one that disagrees and a second; a
bad word; the active reference and the other; one lost that returns; marks missing and a holdover at its end. -/
theorem witness_reference :
    markValid 0 = false ∧ markValid (markWord 1000) = true ∧ markNumber (markWord 1000) = 1000 ∧ running.frame.activeRef = some (b2n false) ∧
    running.frame.refALost = false ∧ running.frame.rtLocked = true ∧
    (unlocked (some 999)).frame.lastMark = some (1000 - 1) ∧ (unlocked (some 998)).frame.lastMark.map (· + 1) ≠ some 1000 ∧
    (unlocked none).frame.rtLocked = false ∧ running.rt = 1000 * 100000 ∧ running.rt ≠ 1001 * 100000 ∧
    ({ running.frame with lastDisagreeing := some 1000 } : FrameState).lastDisagreeing.map (· + 1) = some 1001 ∧
    running.frame.lastDisagreeing.map (· + 1) ≠ some 1001 ∧
    running.frame.lastMarkAt + 21600000 ≤ running.now ∧ running.frame.markMissing = false ∧
    ({ running.frame with activeRef := none, refBLost := true, holdoverSince := some 7056000000 } : FrameState).activeRef ≠ some (b2n true) ∧
    7056000000 + 144000000 ≤ running.now := by decide +kernel

def domainOf (parent : Option Nat) (children : List Nat) : Domain :=
  { id := 77, level := 1, memberIndex := 4, memberCount := 9, parent := parent, children := children, watchdogFactor := 32,
    releaseMarginNs := 100 }

/-- A member of a BARRIER domain at frame 100, whose strobe was 2 s ago. -/
def member (parent : Option Nat) (children done : List Nat) : State :=
  { running with
    now := 144000000000,
    frame := { running.frame with modes := { Modes.initial with cadence := .barrier }, domain := some (domainOf parent children),
                                  childrenDone := done, kerf := { running.frame.kerf with strobe := 28800000000 } } }

/-- A module that is about to join a domain in frame 101. -/
def joining (parent : Option Nat) : State :=
  { running with frame := { running.frame with
      pendingJoin := some { dom := domainOf parent [5], modes := { Modes.initial with cadence := .barrier }, joinFrame := 101, joinTime := 0 } } }

/-- For BarrierDoneAndWatchdog: the last child is done, at the root and below it; a joining root; the watchdog at its time, of an idle module,
and with a job not done. -/
theorem witness_barrier :
    (member none [5] [5]).localDone = true ∧ (member none [5] [5]).frame.ownDone = false ∧ (member none [5] [5]).frame.anyKerf = true ∧
    (member none [5] [5]).frame.opens = none ∧ (member none [5] [5]).frame.donePassed = false ∧
    (member none [5] [5]).countedChildren.all (fun c => [5].contains c) = true ∧
    (member (some 2) [5] []).countedChildren.all (fun c => [].contains c) = false ∧ running.frame.domain = none ∧
    (joining none).frame.opens.isSome = true ∧ (joining none).frame.donePassed = false ∧
    running.frame.modes.cadence = .fixed ∧
    (let u := member (some 2) [] []
     u.frame.kerf.strobe + u.longestClass.getD 8000000 * 7200 * u.frame.domain.elim 32 (·.watchdogFactor) / 16 = u.now ∧
     u.frame.watchdogFired = false ∧ u.frame.anyKerf = true) ∧
    (arrayed (arrayDesc 1 1) begun).partitionDone 0 = false ∧ (arrayed (arrayDesc 1 1) begun).jobRuns 0 = true := by decide +kernel

def dowelOf (kind frame job : Nat) : Dowel :=
  { kind := kind, relay := false, member := 5, domainId := 77, frame := frame, startRt := 1, jobId := job }

/-- For DowelsAreHandled: tokens of another domain, from a child and from the parent; a GO in time and one that is late; a halt of a running
job; a relayed token. -/
theorem witness_dowels :
    (let u := (member (some 2) [5] []).takeDowel (.member 5) (dowelOf 1 100 0)
     u.dowelKnown (dowelOf 1 100 0) = true ∧ u.dowelKnown { dowelOf 1 100 0 with domainId := 78 } = false ∧
     u.dowelRole (.member 5) (dowelOf 1 100 0) = .fromChild 5 ∧ u.frame.childrenDone.contains 5 = false ∧
     (dowelOf 1 100 0).frame = u.frame.number ∧ (dowelOf 1 99 0).frame ≠ u.frame.number ∧
     u.dowelRole .parent (dowelOf 2 101 0) = .fromParent ∧ u.frame.number < (dowelOf 2 101 0).frame ∧
     u.frame.timeOfRt (dowelOf 2 101 0).startRt < u.now ∧ ¬ u.frame.timeOfRt (2 ^ 40) < u.now ∧ u.frame.domain.isSome = true) ∧
    (let u := (joining (some 2)).takeDowel .parent (dowelOf 2 101 0)
     u.dowelKnown (dowelOf 2 101 0) = true ∧ u.dowelRole .parent (dowelOf 2 101 0) = .fromParent ∧ u.frame.domain = none ∧
     u.frame.pendingJoin.isSome = true) ∧
    (let u : State := { member (some 2) [5] [] with fabric := { running.fabric with standingFor := [7] } }
     let d := { dowelOf 1 100 0 with relay := true, member := 7 }
     (u.takeDowel (.member 7) d).dowelKnown d = true ∧ (u.takeDowel (.member 7) d).dowelRole (.member 7) d = .passUp) ∧
    (jigged 2 [] 0 []).haltsSomething 9 = true ∧ ((jigged 2 [] 0 []).partJig 0).map (·.jig.jobId) = some 9 ∧
    (member (some 2) [5] []).dowelRole (.member 6) { dowelOf 1 100 0 with relay := true, member := 5 } = .fromChild 5 := by decide +kernel

/-! ### Jigs, the host interface and the fabric -/

/-- A jig image with one class, the sequence RUN, END, one plan, one tensor and a mover that executes `END` (R80 to R99). -/
def testImage : Bytes :=
  let pad : Nat → Bytes → Bytes := fun n b => b ++ zeros (n - b.length)
  let cls := leBytes 2 5 ++ leBytes 2 0 ++ leBytes 4 1000 ++ (List.replicate 6 (leBytes 4 90000)).flatten ++ zeros 16
  let seq := leBytes 2 0 ++ leBytes 2 5 ++ leBytes 4 1 ++ leBytes 8 3
  let plan := leBytes 2 0 ++ leBytes 2 1 ++ zeros 4 ++ leBytes 2 10000 ++ zeros 2 ++ leBytes 2 100 ++ zeros 250
  let place := leBytes 4 1 ++ leBytes 2 0x100 ++ zeros 10 ++ leBytes 8 64 ++ zeros 8
  let mover := leBytes 2 0x2004 ++ leBytes 2 1 ++ leBytes 4 64 ++ leBytes 4 64 ++ zeros 4 ++ leBytes 2 5 ++ zeros 6 ++ leBytes 4 64 ++
    zeros 4 ++ zeros 32 ++ leBytes 64 0x0F
  let entry : Nat → Nat → Nat → Nat → Bytes → Bytes := fun kind unit off items b =>
    leBytes 2 kind ++ leBytes 2 unit ++ leBytes 4 off ++ leBytes 4 b.length ++ leBytes 4 items ++ leBytes 4 (crc32c b).toNat ++ zeros 4
  let head := leBytes 4 0x47494A ++ leBytes 2 64 ++ [1, 0, 0, 0, 0, 0] ++ leBytes 4 9 ++ zeros 8 ++ leBytes 4 4096 ++ leBytes 4 1000 ++
    leBytes 2 5 ++ leBytes 2 1 ++ leBytes 2 1 ++ leBytes 2 5 ++ leBytes 4 64 ++ leBytes 2 50 ++ zeros 14
  pad 4096 (head ++ leBytes 4 (crc32c head).toNat ++
    pad 128 (entry 1 0xFFFF 192 1 cls ++ entry 2 0xFFFF 256 2 seq ++ entry 3 0xFFFF 320 1 plan ++ entry 5 0xFFFF 640 1 place ++
      entry 0x12 0x2004 704 1 mover) ++ pad 64 cls ++ pad 64 seq ++ pad 320 plan ++ pad 64 place ++ pad 128 mover)

/-- The module with the header of that image at the start of Tier 2 and its doorbell waiting. -/
def rung : State :=
  { running with mem := running.mem.store 0x20000000000 (goodData (testImage.take 64)),
                 jigs := { JigState.reset with doorbells := [{ partition := 0, address := 0x20000000000, after := 0 }] } }

theorem reads_clean (m : MemState) (a : Nat) (h : m.poison = [] ∧ m.latent = [] ∧ m.lost = []) : (m.readByte a).isSome = true := by
  simp [MemState.readByte, MemState.unitPoisoned, MemState.unitLost, h, SMap.get]

set_option maxRecDepth 100000 in
theorem rung_clean : rung.mem.poison = [] ∧ rung.mem.latent = [] ∧ rung.mem.lost = [] := by decide +kernel

set_option maxRecDepth 100000 in
/-- For LoaderTakesUpAJig: the doorbell of an image whose header says 4,096 bytes, none of them poisoned. -/
theorem witness_loader :
    testImage.length = 4096 ∧ rung.loaderFree = true ∧ (rung.nextDoorbell).isSome = true ∧ rung.owns 0 0x20000000000 64 = true ∧
    (regionOf 0x20000000000).1 = .tier2 ∧ leNat ((List.range 4).map (fun i => rung.mem.byteAt (0x20000000000 + (24 + i)))) = 4096 ∧
    ∀ i, (rung.mem.readByte (0x20000000000 + i)).isSome = true := by
  refine ⟨by decide +kernel, by decide +kernel, by decide +kernel, by decide +kernel, by decide +kernel, by decide +kernel,
    fun i => reads_clean _ _ rung_clean⟩

set_option maxRecDepth 100000 in
/-- Every check passes. -/
theorem test_loader_accepts :
    (match headerCheck testImage with | .ok _ => true | .error _ => false) = true ∧
    (match running.locationCheck 0 0x20000000000 4096 with | .ok _ => true | .error _ => false) = true ∧
    (match running.admissionCheck 0 testImage with | .ok _ => true | .error _ => false) = true ∧
    (match directoryCheck testImage with
      | .error e => 2000 + e.error.code
      | .ok l => match running.imageCheck { bytes := testImage, address := 0x20000000000, partition := 0, record := running.record 0 } l with
        | .ok _ => (jigOf testImage l).jobId
        | .error e => 1000 + e.error.code) = 9 := by decide +kernel

/-- The jig in the loader's hand, one plan to send or all received. -/
def inLoader (plans : List Nat) : State :=
  { running with jigs := { JigState.reset with parts := [(0, some { held5 .loading with startFrame := none })], inHand := some 0,
                                               plansToSend := plans, ackDue := plans.isEmpty } }

/-- For LoaderTakesUpAJig: the last plan, and the acknowledgement, with a processor in control and without. -/
theorem witness_plans :
    (inLoader [5]).jigs.inHand = some 0 ∧ ((inLoader [5]).partJig 0).isSome = true ∧ (inLoader [5]).jigs.plansToSend = 5 :: [] ∧
    (inLoader []).jigs.ackDue = true ∧ (inLoader []).mpServes = true ∧
    ({ inLoader [] with mp := MgmtState.reset } : State).mpServes = false := by decide +kernel

def bell (a : Nat) : Doorbell := { partition := 0, address := a, after := 0 }

/-- For PartitionsAreControlledAndReset: the fourth doorbell and the fifth; an enable that passes, one out of range, one while another is
pending. -/
theorem witness_partitions :
    (let u : State := { running with jigs := { JigState.reset with doorbells := List.replicate 3 (bell 0) } }.onEdge 0 7
     u.host.enabled.contains 0 = true ∧ (u.vf 0).quiescing = false ∧ (u.jigs.doorbells.filter (fun d => d.partition == 0)).length < 4) ∧
    ¬ ((List.replicate 4 (bell 0)).filter (fun d => d.partition == 0)).length < 4 ∧
    running.host.ctrlPending = false ∧ ({ running.host with ctrlPending := true } : HostState).ctrlPending = true ∧
    ({ running with host := { running.host with enabled := [], records := [(3, allRecord)] } } : State).enableResult 3 = 0 ∧
    ({ running with host := { running.host with enabled := [] } } : State).enableResult 1 ≠ 0 := by decide +kernel

/-- For RegisterWrites: the last word of a record, the last queue and vector; sizes and offsets of other writes. -/
theorem witness_registers :
    (zeros 8).length = 8 ∧ 312 % 8 = 0 ∧ 312 < 320 ∧ ((running.vf 0).hqs[3]?).isSome = true ∧ (zeros 4).length ≠ 8 ∧ 0xFF8 < 0x1000 ∧
    2 < 3 ∧ 6 < 7 ∧ 0xFFF % 8 ≠ 0 := by decide +kernel

/-- The module with host queues 7 (from the host) and 8 (to the host) of endpoint 2, and a ring that the host has enabled. -/
def hosting (from_ to_ : Queue) : State :=
  let decl : Nat → Nat → Nat → QueueDecl := fun id p c =>
    { id := id, producer := p, consumer := c, depth := 4, frameLocal := false, fabric := false }
  let s : State :=
    { running with
      jigs := { JigState.reset with
                parts := [(0, some { held5 .running with jig := { jig5 with queues := [decl 7 0x4002 0x2004, decl 8 0x2004 0x4002] } })],
                results := [plainResult 0 0 9 100] },
      host := { running.host with vfs := [(0, { Vf.reset with
        present := true, busMaster := true, ringEnabled := true,
        hqs := List.replicate 4 { HostQueue.reset with enabled := true, head := 15 } })] } }
  (s.setQueue 7 from_).setQueue 8 to_

/-- For HostRings: a credit and none; a partition that is disabled; the last byte of a send position; the last free place of a ring. -/
theorem witness_rings :
    (let u := hosting (queueOf 1 []) (queueOf 0 [{ data := none }])
     (((u.vf 0).hqs[2]?).map (·.enabled)) = some true ∧ u.hostQueue 2 true = some 7 ∧ (u.queue 7).canSend = true ∧
     u.hostQueue 2 false = some 8 ∧ (u.queue 8).canReceive = true ∧ ringFill 15 0 < ringSize 4 ∧ ¬ ringFill 16 0 < ringSize 4 ∧
     u.jigs.results.find? (fun r => r.partition == 0) = some (plainResult 0 0 9 100) ∧ (u.vf 0).ringEnabled = true ∧
     (u.vf 0).busMaster = true ∧ ringFill (u.vf 0).resultHead (u.vf 0).resultTail < ringSize (u.vf 0).ringSizeLog2 ∧
     u.host.enabled.contains 0 = true ∧ u.host.enabled.contains 15 = false ∧ 511 + [(0 : Byte)].length = 512 ∧ 510 + [(0 : Byte)].length < 512) ∧
    ((hosting (queueOf 0 []) (queueOf 0 [])).queue 7).canSend = false ∧ running.hostQueue 2 true = none := by decide +kernel

def tlp (address : Nat) (kind : TlpKind) : ApertureTlp := { seq := 0, address := address, kind := kind }

/-- The VF of partition 0 with an access waiting, and a sector whose first write came 1 ms ago. -/
def aperture (x : ApertureTlp) : State :=
  running.setVf 0 { Vf.reset with present := true, accesses := [x],
                                  sectors := [{ seq := 0, address := 0x40000000000, bytes := [], firstAt := 7192800000 }] }

/-- For ApertureAccesses: the first and last offsets of both maps, and one past each; granules owned and not; the last byte of room, the
last sector buffer; TLPs held back. -/
theorem witness_aperture :
    (0x17FFFFFFFFF < 0x18000000000 ∧ 0x3FFFFFFFFFF < 0x40000000000 ∧ ¬ (0x18000000000 < 0x18000000000 ∨ 0x20000000000 ≤ 0x18000000000)) ∧
    running.mod.mode ≠ .standby ∧ (zeros 512).length ≤ 512 ∧ running.owns 0 (0x20000000000 + 0x17FFFFFFFFF) 1 = true ∧
    running.owns 0 0x20000000000 0 = true ∧ running.owns 1 0x20000000000 1 = false ∧ (running.vf 0).stalled = [] ∧
    (running.vf 0).postedBytes + 262144 ≤ 262144 ∧ ¬ (running.vf 0).postedBytes + 262145 ≤ 262144 ∧ (running.vf 0).sectorsUsed < 32 ∧
    32 ≤ ({ Vf.reset with accesses := List.replicate 32 (tlp 0x40000000000 (.write [] [])) } : Vf).sectorsUsed ∧
    ({ Vf.reset with accesses := List.replicate 32 (tlp 0x40000000000 (.write [] [])) } : Vf).canTake (tlp 0x40000000000 (.write [] [])) = false ∧
    ({ running with mod := { running.mod with mode := .standby } } : State).mod.mode = .standby ∧
    (((aperture (tlp 0 (.read 0 8))).vf 0).sectors.find? (fun y => decide (y.firstAt + 7200000 ≤ running.now))).isSome = true := by
  decide +kernel

/-- For ApertureAccesses: a slot of either tier that the record keeps for the host and nothing has used; one kept for nobody; reads and
writes; Tier 3 that takes writes. -/
theorem witness_host_slots :
    (∀ a ∈ [0x20000000000, 0x40000000000],
      let u := (aperture (tlp a (.read 0 8))).upTo 0
      slotBatch (u.vf 0).accesses = ([tlp a (.read 0 8)], []) ∧ (u.vf 0).stalled = [] ∧ (u.tierSlot a false).isSome = true ∧
      (u.tierSlot a false).all (fun y => u.hostGrant 0 y && u.slotUnused y) = true) ∧
    (let u := (aperture (tlp 0x40000000000 (.write (zeros 4096) []))).upTo 0
     (u.tierSlot 0x40000000000 true).all (fun y => u.hostGrant 0 y && u.slotUnused y) = true ∧ (u.tierSlot 0x40000000000 true).isSome = true ∧
     u.mem.t3Refusing = false ∧ u.mem.t3Programmed < 1100 * 10 ^ 13 ∧ tierOf 0x40000000000 = 3) ∧
    (let u := (aperture (tlp 0x20000000000 (.write [1] [true]))).upTo 0
     slotBatch (u.vf 0).accesses = (tlp 0x20000000000 (.write [1] [true]) :: [], []) ∧ tierOf 0x20000000000 ≠ 3) ∧
    (aperture (tlp 0x20000000000 (.read 0 8))).tierSlot (0x20000000000) false ≠ none ∧
    running.hostGrant 1 { resource := 0x20, slot := 0, instant := 0, schedule := 16 } = false := by decide +kernel

/-- Link 3 with both paths in the given states. -/
def linked (a b : PathState) : State :=
  running.setLink 3 { Link.cold with pathA := { Path.cold with state := a, trainAt := 3600000000 }, pathB := { Path.cold with state := b },
                                     level := [1, 1], announced := [1, 1] }

/-- An idle flit that the receiver waits for. -/
def flit0 : Bytes := { channel := 3, head := false, tail := false, nak := false, creditVc := 0, creditCount := 0, seq := 0, ack := 0, lseq := 0,
                       payload := zeros 240 : Flit }.bytes

set_option maxRecDepth 100000 in
/-- For FabricPortsTrainAndFail: a port at the last moment of its training, one that is up; what takes a path down; good flits and bad. -/
theorem witness_ports :
    (let u := linked .training .up
     ((u.link 3).path 0).state = .training ∧ u.now = ((u.link 3).path 0).trainAt + 3600000000 ∧ ((u.link 3).path 1).live = true ∧
     (u.link 3).split = false ∧ ((u.link 3).path 1).state ≠ .training) ∧
    (((linked .down .down).link 3).path 0).live = false ∧
    8 ≤ ({ Path.cold with failedReplays := 8 } : Path).failedReplays ∧ ¬ 8 ≤ Path.cold.failedReplays ∧ Path.cold.unacked = [] ∧
    flit0.length = 256 ∧ crcGood flit0 0 252 = true ∧ (Flit.ofBytes flit0).channel = 3 ∧ crcGood (zeros 256) 0 252 = false := by
  decide +kernel

def txOf (kind hops dest job : Nat) : Transaction :=
  { kind := kind, hops := hops, destNode := dest, srcNode := 1, destEndpoint := 6, srcEndpoint := 2, sendRt := 0, delayClass := 0,
    windowMismatch := false, count := 1, bindSeq := 0, window := 0, waFlags := 0, level := 1, jobId := job, data := [], crcGood := true }

def heldTx (x : Transaction) (late : Bool) : HeldTx :=
  { tx := x, link := 3, half := 0, flitsA := 1, flitsB := 0, arrivedRt := 0, late := late }

/-- The running job with endpoint 6 bound, its queues, a route to node 40 over link 3, and transactions held. -/
def fabricOf (mode : Nat) (forward release : List HeldTx) (ep : EpState) (parent : Option Nat) : State :=
  let decl : Nat → Nat → Nat → QueueDecl := fun id p c =>
    { id := id, producer := p, consumer := c, depth := 4, frameLocal := false, fabric := true }
  let s := linked .up .up
  let s : State :=
    { s with
      jigs := { JigState.reset with
                parts := [(0, some { held5 .running with jig := { jig5 with queues := [decl 7 0x3006 0x2004, decl 0x1006 0x2004 0x3006] } })] },
      fabric := { s.fabric with routes := [(40, 0x83)], toForward := forward, toRelease := release, endpoints := [(6, ep)],
                                bindings := [(6, { Binding.unbound with mode := mode, batch := 1, remoteNode := parent, children := [] })] } }
  (s.setQueue 7 (queueOf 4 [])).setQueue 0x1006 (queueOf 0 [{ data := none }, { data := none }])

set_option maxRecDepth 100000 in
/-- For FabricTransactionsArrive: seven hops and eight, a route and none, this job's and another's, in time and late, room in the queue. -/
theorem witness_transactions :
    (let u := fabricOf 2 [heldTx (txOf 1 7 40 9) false] [heldTx (txOf 1 0 5 9) false] EpState.start none
     u.fabric.toForward = heldTx (txOf 1 7 40 9) false :: [] ∧ u.route 40 = some (3, 0, 0) ∧ u.route 41 = none ∧
     (txOf 1 7 40 9).hops < 8 ∧ 8 ≤ (txOf 1 8 40 9).hops ∧ (txOf 1 7 40 9).level ≤ (u.link 3).levelOf 0 ∧
     u.nextRelease = some (heldTx (txOf 1 0 5 9) false) ∧ u.jobOfEndpoint 6 = some 9 ∧ u.jobOfEndpoint 6 ≠ some 8 ∧
     (u.producedQueue 6).map (·.id) = some 7 ∧ (u.queue 7).declared = true ∧ (u.queue 7).failed = false ∧ 1 ≤ (u.queue 7).credits ∧
     (u.binding 6).mode = 2 ∧ (txOf 1 0 5 9).crcGood = true) ∧
    (∀ y ∈ [(4, 3), (1, 4), (3, 2), (5, 6)],
      (fabricOf y.1 [] [heldTx (txOf y.2 0 5 9) false] EpState.start none).nextRelease = some (heldTx (txOf y.2 0 5 9) false)) ∧
    (let u := fabricOf 5 [] [heldTx (txOf 5 0 5 9) false] EpState.start none
     let u : State := { u with fabric := { u.fabric with bindings := [(6, { Binding.unbound with mode := 5, children := [(1, 2)] })] } }
     u.nextRelease = some (heldTx (txOf 5 0 5 9) false) ∧ (u.binding 6).mode = 5 ∧
     (u.binding 6).children.findIdx? (fun c => c.1 == (txOf 5 0 5 9).srcNode && c.2 == (txOf 5 0 5 9).srcEndpoint) = some 0) ∧
    (fabricOf 2 [] [heldTx (txOf 1 0 5 9) true] EpState.start none).nextRelease = some (heldTx (txOf 1 0 5 9) true) := by decide +kernel

set_option maxRecDepth 100000 in
/-- For FabricEndpointsForm: each mode with just what it needs. -/
theorem witness_forms :
    (let u := fabricOf 1 [] [] { EpState.start with remoteCredits := 1, requests := 1 } (some 40)
     u.epRuns 6 = true ∧ 0 < (u.binding 6).batch ∧ (u.binding 6).batch ≤ u.epVisible 6 ∧ (u.binding 6).batch ≤ (u.endpoint 6).remoteCredits ∧
     (u.binding 6).batch ≤ u.epCredits 6 ∧ 0 < (u.endpoint 6).requests ∧ (u.binding 6).mode = 1) ∧
    (∀ m ∈ [2, 3, 4], ((fabricOf m [] [] EpState.start (some 40)).binding 6).mode = m) ∧
    (let u := fabricOf 5 [] [] { EpState.start with mayAt := some 0, seen := [0, 0] } none
     u.reduceReady 6 = true ∧ u.combineEdge 6 ≤ u.rt ∧ (u.binding 6).remoteNode = none) ∧
    (let r : RedResult := { op := 0, values := [], flags := 0, mismatch := false, rt := 998 }
     r.rt + 2 ≤ (fabricOf 5 [] [] { EpState.start with toForward := [r] } none).rt) ∧
    [1, 2].Perm [2, 1] := by decide +kernel

/-- For FabricFormatsAreReadBack: fields at the ends of their ranges. -/
theorem witness_formats :
    (2 ^ 64 - 1 < 2 ^ 64 ∧ 8191 < 8192 ∧ (-512 : Int) ≤ -512 ∧ (511 : Int) < 512) ∧ (zeros 240).length = 240 ∧
    ([] : Bytes).length = txDataLen 4 65535 := by decide +kernel

/-! ### Management processors and the mailbox -/

/-- The module with other management processors. -/
def managed (a b : Processor) (owner coast : Option Nat) : State :=
  { running with mp := { running.mp with mpA := a, mpB := b, owner := owner, coastSince := coast } }

def proc (role : MpRole) (kick : Nat) (failures : List Nat) : Processor :=
  { running.mp.mpA with role := role, lastKick := kick, failures := failures }

/-- For ManagementProcessorsFailAndBoot: each time limit in its first moment, and the moment before; the third failure within an hour. -/
theorem witness_processors :
    (running.proc 0).role = .active ∧ running.mp.owner = some 0 ∧ 7178400000 + 21600000 ≤ running.now ∧ running.now < 7178400001 + 21600000 ∧
    6840000000 + 360000000 ≤ running.now ∧ running.mp.coastRaised = false ∧ 0 + 7200000000 ≤ running.now ∧ running.mp.noneRaised = false ∧
    running.standby.role = .ready ∧ running.mp.owner.isSome = true ∧ 5040000000 + 2160000000 ≤ running.now ∧
    (let u := managed (proc .active 0 []) (proc .none 0 [3, 2, 1]) (some 0) none
     (u.proc 1).role = .none ∧ (u.proc 1).failures ≠ [] ∧ u.mod.processorsUp = true ∧ u.mod.mode ≠ .parked ∧ u.recoveryServes = false ∧
     3 ≤ ((u.proc 1).failures.filter (fun a => decide (u.now < a + 25920000000000))).length) ∧
    (let u := managed (proc .booting 0 []) (proc .selfTest 0 []) none none
     (u.proc 0).role = .booting ∧ u.mp.owner = none ∧ u.mp.coastSince = none ∧ u.mp.mpA.role ≠ .recovery ∧ u.rails.stopNext = none ∧
     (u.proc 0).bank < 2 ∧ (u.fwBank 0).valid = true ∧ (u.proc 1).role = .selfTest) ∧
    FwBank.empty.valid = false ∧ running.compatible running.standby = true ∧
    (let u := { running with mp := { running.mp with image0 := { ImageSlot.empty with good := true, format := 2 } } }
     State.compatible u (State.standby u) = false) := by decide +kernel

def image (good : Bool) (seq mark : Nat) : ImageSlot := { ImageSlot.empty with good := good, seq := seq, mark := mark, format := 1 }

def entry (seq : Nat) : JournalEntry :=
  { seq := seq, source := 0, complete := true, request := [], response := [], frame := 0, good := true }

/-- A coast with two images and a journal. -/
def coasting (x0 x1 : ImageSlot) : State :=
  let s := managed (proc .none 0 [1]) (proc .ready 0 []) none (some 7199000000)
  { s with mp := { s.mp with image0 := x0, image1 := x1, journal := [entry 5, entry 6], jseq := 6 } }

/-- For TakeoversReplayTheJournal: an image due, and under way; a takeover with both images, one and none; an entry that is bad. -/
theorem witness_takeovers :
    (let u := { running with mp := { running.mp with lastImageAt := 0 } }
     State.mpServes u = true ∧ u.mp.copying = none ∧ u.mp.lastImageAt + 7200000000 ≤ u.now) ∧
    (let u := coasting (image true 3 4) (image true 2 3)
     u.mp.coastSince.isSome = true ∧ (u.proc 1).role = .ready ∧ u.mp.image0.good = true ∧ (u.proc 1).reads u.mp.image0 = true ∧
     u.mod.restartDue = none ∧ (∀ e ∈ u.mp.journal, e.complete = true) ∧ (∃ e ∈ u.mp.journal, 4 < e.seq ∧ (some 6).elim False (fun n => n ≤ e.seq)) ∧
     (∀ e ∈ u.mp.journal, ¬ (4 < e.seq ∧ (none : Option Nat).elim False (fun n => n ≤ e.seq)))) ∧
    ((coasting ImageSlot.empty ImageSlot.empty).mp.image0.good = false) := by
  refine ⟨by decide +kernel, ⟨by decide +kernel, by decide +kernel, by decide +kernel, by decide +kernel, by decide +kernel, by decide +kernel,
    ⟨entry 6, by decide, by decide, show 6 ≤ 6 by decide⟩, fun e _ h => h.2⟩, by decide +kernel⟩

/-- A request: code, version, `SEQ` and payload (R586). -/
def request (code seq : Nat) (payload : Bytes) : Bytes :=
  leBytes 2 code ++ zeros 2 ++ leBytes 4 seq ++ leBytes 2 payload.length ++ zeros 22 ++ payload

/-- The same with its `MSG_CRC`. -/
def signed (code seq : Nat) (payload : Bytes) : Bytes :=
  let r := request code seq payload
  r.take 28 ++ leBytes 4 (crc32c (r.take 28 ++ r.drop 32)).toNat ++ r.drop 32

/-- The state with request `r` in progress in slot `k`, the first ready. -/
def asked (s : State) (k : Nat) (r : Bytes) : State :=
  { (s.setSlot k { MailSlot.empty with request := some r }) with
    mp := { (s.setSlot k { MailSlot.empty with request := some r }).mp with readyOrder := [(k, 0)] } }

set_option maxRecDepth 100000 in
/-- For MessagesReachTheirSlots: a window with `GO`, one without; good messages and bad; links and addresses. -/
theorem witness_messages :
    (running.slot 0).request = none ∧ rd (leBytes 8 0x1_0000) 2 2 % 4 = 1 ∧ rd (leBytes 8 0) 2 2 % 4 ≠ 1 ∧ rd (request 0x0101 1 []) 0 2 ∈ commandIndex ∧
    ((asked running 0 (request 0x0101 1 [])).slot 0).request.isSome = true ∧
    (let u := { running with mp := { running.mp with linkA := true, prefixes := [{ bytes := zeros 16, length := 128 }], i3cAddress := some 9 } }
     u.mod.processorsUp = true ∧ u.mp.linkA = true ∧ u.mp.udpPort = 52032 ∧ (signed 0x0101 1 []).length ≤ 4160 ∧
     (∃ x ∈ u.mp.prefixes, 0 / 2 ^ (128 - x.length) = leNat x.bytes.reverse / 2 ^ (128 - x.length)) ∧
     ¬ (∃ x ∈ u.mp.prefixes, 1 / 2 ^ (128 - x.length) = leNat x.bytes.reverse / 2 ^ (128 - x.length)) ∧
     u.mp.i3cAddress.isSome = true ∧ State.slot u 18 = MailSlot.empty ∧ u.mp.ptpEnabled = true) ∧
    (let d := signed 0x0101 1 []
     32 ≤ d.length ∧ d.length = 32 + rd d 8 2 ∧ rd d 28 4 = (crc32c (d.take 28 ++ d.drop 32)).toNat) ∧
    ¬ (rd (request 0x0101 1 []) 28 4 = (crc32c ((request 0x0101 1 []).take 28 ++ (request 0x0101 1 []).drop 32)).toNat) ∧
    (zeros 256).length ≤ 256 ∧ 256 < (zeros 257).length ∧ running.fc.inputOutOfRange.contains 11 = false := by decide +kernel

/-- What `State.Asks` asks of the module and the request, for a slot without an earlier command. -/
def asksOk (u : State) (k : Nat) (c : Cmd) (r : Bytes) : Bool :=
  u.mpServes && !u.recoveryServes && !u.strobeDue && decide (u.firstReady k c.code = some r) && headerStatus r == 0 && c.via.accepts k &&
    rd r 2 1 == 0 && c.lengthOk (r.drop 32) && (u.slot k).last.isNone && decide (journalUsed u.mp.keptJournal + r.length + 4191 ≤ journalSize)

theorem asks_of_ok {u : State} {k : Nat} {c : Cmd} {r : Bytes} (h : asksOk u k c r = true) : u.Asks k c r := by
  simp only [asksOk, Bool.and_eq_true, decide_eq_true_eq, beq_iff_eq, Bool.not_eq_true', Option.isNone_iff_eq_none] at h
  obtain ⟨⟨⟨⟨⟨⟨⟨⟨⟨h1, h2⟩, h0⟩, h3⟩, h4⟩, h5⟩, h6⟩, h7⟩, h8⟩, h9⟩ := h
  exact ⟨⟨h1, h2⟩, h0, h3, h4, h5, h6, h7, fun l hl => by rw [h8] at hl; exact absurd hl (by simp), h9⟩

/-- Command `c` with the payload, asked of module `s` in slot `k` when it serves. -/
def asksOf (s : State) (k : Nat) (c : Cmd) (payload : Bytes) : Bool :=
  asksOk ((asked s k (request c.code 1 payload)).onEdge 0 7) k c (request c.code 1 payload)
def asks (k : Nat) (c : Cmd) (payload : Bytes) : Bool := asksOf running k c payload

/-- For MailboxAnswersCommands: a status request, from the PF's slot; each way in which steps 1 to 7 turn one away. -/
theorem witness_mailbox :
    (let r := request 0x0101 1 []
     asks 0 mpGetStatus [] = true ∧ ((asked running 0 r).onEdge 0 7).mod.restartDue = none ∧ headerStatus r = 0 ∧
     mpGetStatus.via.accepts 0 = true ∧ mpGetStatus.lengthOk (r.drop 32) = true) ∧
    (running.onEdge 0 7).firstReady 0 0x0101 = none ∧ ({ framed with now := 7200000000 } : State).strobeDue = true ∧ (managed Processor.off Processor.off none none).mpServes = false ∧
    headerStatus (leBytes 3 0x0101 ++ leBytes 29 1) ≠ 0 ∧ mpStageImage.via.accepts 1 = false ∧
    rd (leBytes 2 0x0101 ++ leBytes 30 1) 2 1 ≠ 0 ∧ mpGetStatus.lengthOk (zeros 8) = false ∧
    mpSetSwitchback.changes 0 (zeros 8) = true ∧
    (match mpHandover.act running 0 (leBytes 16 (2 ^ 64)) with | .refused 5 => true | _ => false) = true ∧
    (match mpSetSwitchback.act running 0 (zeros 8) with | .done 0 v p => v.mod.restartDue.isNone && p.isEmpty | _ => false) = true ∧
    ({ MailSlot.empty with last := some (request 0x0105 1 (zeros 8), []) } : MailSlot).last = some (request 0x0105 1 (zeros 8), []) ∧
    comparable (request 0x0105 1 (zeros 8)) ≠ comparable (request 0x0105 1 (leBytes 8 1)) := by
  decide +kernel


/-! ### The mailbox commands -/

/-- For ReportsLeaveTheState: every report, with operands at the ends of their ranges, from the PF's slot or a VF's. -/
theorem witness_reports :
    [mpGetStatus, modGetState, shimGetStatus, cellGetStatus, cellGetCells, cellSaveState, gvGetStatus, fcGetSummary, idGetIdentity,
     ftGetFrameStatus].all (fun c => asks 0 c []) = true ∧
    asks 0 regGetTelemetry (leBytes 4 16) = true ∧ asks 3 regGetTelemetry (leBytes 4 0) = true ∧ asks 0 gvGetThrottle (leBytes 4 0) = true ∧
    asks 3 gvGetThrottle (leBytes 4 0x201) = true ∧ asks 3 gvGetThrottle (leBytes 4 0x301) = true ∧ asks 1 gvGetEnergy (leBytes 8 0) = true ∧
    asks 0 gvGetThermal (leBytes 4 4) = true ∧ asks 0 fcGetLog (leBytes 8 0x7E00000000) = true ∧ asks 0 fuseReadGroup (leBytes 4 0x2000200) = true ∧
    (0x200, 512) ∈ fuseGroups ∧ asks 0 obReadCounters (leBytes 8 0x1FA0A06) = true ∧ 0x0A06 + 506 ≤ 3072 ∧
    asks 0 obReadSnapshot (leBytes 8 0x1F90A070003) = true ∧ 0x0A07 + 505 ≤ 3072 ∧ asks 0 ofGetLinkStatus (leBytes 4 15) = true ∧
    slotMbp 0 = true ∧ slotMbk 3 = true ∧ running.cells.restorePending = false := by decide +kernel
def chunk (bank flags offset n : Nat) : Bytes := [BitVec.ofNat 8 bank, BitVec.ofNat 8 flags] ++ leBytes 2 n ++ leBytes 4 offset ++ zeros (8 + n)

/-- The module with bank 1 open from slot 0 and 64 bytes staged. -/
def staging : State := running.setBank 1 { FwBank.empty with staged := zeros 64, openFrom := some 0 }

/-- For ManagementCommands: the first, a middle and an only chunk; a bank in use, one open from another slot; restarts, hand-overs,
settings and changes of state with the earliest frames. -/
theorem witness_management :
    asks 0 mpStageImage (chunk 1 1 0 64) = true ∧ asksOf staging 0 mpStageImage (chunk 1 0 64 64) = true ∧
    asks 0 mpStageImage (chunk 1 3 0 4032) = true ∧ asks 0 mpStageImage (chunk 0 1 0 64) = true ∧ asksOf staging 17 mpStageImage (chunk 1 1 0 64) = true ∧
    running.bankInUse 1 = false ∧ running.bankInUse 0 = true ∧ (staging.fwBank 1).openFrom = some 0 ∧ (staging.fwBank 1).staged.length = 64 ∧
    asks 0 mpRestartStandby (zeros 8) = true ∧ (running.fwBank 0).valid = true ∧ (staging.fwBank 1).valid = false ∧
    asks 0 mpHandover (leBytes 16 102) = true ∧ running.frame.number + 2 = 102 ∧ running.standby.role = .ready ∧
    asks 0 mpHandover (leBytes 16 (2 ^ 64)) = true ∧ asks 0 mpSetSwitchback (leBytes 8 1) = true ∧
    asks 0 mpSetMgmt (leBytes 200 0x00FFC000) = true ∧ 49152 ≤ rd (leBytes 200 0x00FFC000) 0 2 ∧
    asks 0 modSetState (leBytes 16 (1 + 101 * 2 ^ 64)) = true ∧ asks 0 modSetState (leBytes 16 2) = true ∧ asks 0 modSetState (leBytes 16 6) = true ∧
    running.mayLeave = true ∧ (jigged 2 [] 0 []).mayLeave = false ∧ running.mod.mode = .active ∧
    (let s := { running with mp := { running.mp with mpA := proc .recovery 0 [], mpB := Processor.off, owner := none } }
     let r := request 0x0103 1 (zeros 8)
     State.recoveryServes s = true ∧ (asked s 0 r).firstReady 0 0x0103 = some r ∧ headerStatus r = 0 ∧ (State.fwBank s 0).valid = true) := by
  decide +kernel

def lease (allowed : Nat) : Lease := { id := 1, ramp := 40, allowed := allowed, floorPct := 0, exportW := 0, ceilingW := 2800, expires := 0 }

/-- The module with a lease, and its cells enumerated. -/
def shimmed (allowed : Nat) : State :=
  { running with shim := { running.shim with lease := some (lease allowed) },
                 cells := { running.cells with enumerated := true, ticket := some (1, 102) } }

/-- The module that waits for a restore. -/
def awaiting : State := { running with cells := { running.cells with restorePending := true, packSerial := zeros 16 } }

/-- A restore of nothing, and a blob of the pack whose age lies one millisecond before the limit of a second in the future. -/
def blobOf (serial : Bytes) (rtMs : Nat) : Bytes :=
  let head := leBytes 4 0x314C4543 ++ [1, 0] ++ leBytes 2 500 ++ serial ++ zeros 16 ++ leBytes 8 rtMs ++ zeros 204
  head ++ leBytes 4 (crc32c head).toNat

set_option maxRecDepth 100000 in
/-- For ShimAndCellCommands: a policy that a lease permits and one that none does, limits at the fuses and looser, tickets. -/
theorem witness_shim_commands :
    asksOf (shimmed 2) 0 shimSetPolicy (leBytes 16 (1 + 101 * 2 ^ 64)) = true ∧ bitAt 2 1 = true ∧
    asks 0 shimSetPolicy (leBytes 16 2) = true ∧ running.shim.lease = none ∧
    asks 0 shimGrantLease (leBytes 4 7 ++ leBytes 2 2000 ++ [9, 85] ++ leBytes 2 1500 ++ leBytes 2 2800 ++ leBytes 2 10000 ++ zeros 2) = true ∧
    bitAt 9 3 = true ∧ bitAt 9 0 = true ∧
    asks 0 shimSetLimits (leBytes 2 2800 ++ leBytes 2 1500 ++ leBytes 2 300 ++ [15, 90, 255] ++ zeros 7) = true ∧
    asks 0 shimSetLimits (leBytes 2 2801 ++ zeros 6 ++ [1] ++ zeros 7) = true ∧ asks 0 shimSetLimits (zeros 6 ++ [45, 55] ++ zeros 8) = true ∧
    running.shim.nextLimits.lowPct + 20 ≤ running.shim.nextLimits.highPct ∧
    asks 0 cellGrantRest (leBytes 8 1 ++ leBytes 8 102) = true ∧ running.cells.ticket = none ∧ running.shim.policy = .flatten := by
  decide +kernel

set_option maxRecDepth 100000 in
/-- For ShimAndCellCommands: a ticket that another replaces, and restores of nothing, of a blob and of one from the future. -/
theorem witness_restores :
    asksOf (shimmed 0) 0 cellGrantRest (leBytes 16 0x100000001) = true ∧ (shimmed 0).cells.ticket.isSome = true ∧
    asksOf awaiting 0 cellRestoreState ([1] ++ zeros 263) = true ∧ awaiting.cells.restorePending = true ∧
    asksOf awaiting 0 cellRestoreState (zeros 8 ++ blobOf (zeros 16) 1000) = true ∧ blobGood (blobOf (zeros 16) 1000) = true ∧
    running.frame.rtLocked = true ∧ running.rt / 100000 = 1000 ∧ awaiting.blobReason (blobOf (zeros 16) 2001) = 2 := by decide +kernel

def bankBytes (mv : Byte) : Bytes := zeros 32 ++ [mv, 10]

/-- For RailAndGovernorCommands: banks at and below the range of their thresholds, the lowest and a positive trim, clamps, quotas and
limits at the fuses and beyond. -/
theorem witness_rail_commands :
    asks 0 regSetCompensator ([15, 0] ++ bankBytes 10 ++ zeros 4 ++ leBytes 8 101) = true ∧ (Bank.ofBytes (bankBytes 10)).inRange = true ∧
    asks 0 regSetCompensator ([15, 1] ++ zeros 46) = true ∧ (Bank.ofBytes (bankBytes 9)).inRange = false ∧
    asks 0 regSetTrim ([3, 0] ++ List.replicate 6 0xCE ++ zeros 8) = true ∧ rdInt [0xCE] 0 1 = -50 ∧
    asks 0 regSetTrim ([3, 0, 1] ++ zeros 13) = true ∧
    asks 0 gvSetClamp (leBytes 2 4000 ++ zeros 2 ++ leBytes 2 900 ++ zeros 10 ++ leBytes 2 10 ++ leBytes 2 4000 ++ leBytes 2 0xFFFF ++ zeros 26) =
      true ∧
    asks 0 gvSetClamp (leBytes 48 4001) = true ∧ asks 0 gvSetQuota (leBytes 40 10) = true ∧ asks 0 gvSetLimits (zeros 16) = true ∧
    asks 0 gvSetLimits (zeros 4 ++ leBytes 12 1001) = true ∧ running.gov.rated.getD 0 1000 < 1001 := by decide +kernel

def recordOfCode (code level seq : Nat) : FaultRec :=
  { code := code, baseLevel := level, level := level, scope := 0xFF, escalated := false, injected := false, cond := false, unit := 0xFFFF,
    seq := seq, detail := 0, frame := 0, timePc := 0, src := .hd }

def slotOf (level : Nat) : ClassSlot := { recs := [recordOfCode 0x0A01 level 7], count := 1, ackPending := false }

/-- The module with a record in the slot of class 10. -/
def faulted (level : Nat) : State := { running with fc := { running.fc with slots := [(10, slotOf level)], nextSeq := 8 } }

def ackBytes (seq : Nat) : Bytes := leBytes 8 0x200 ++ zeros 36 ++ leBytes 4 seq ++ zeros 8

/-- For FaultAndCounterCommands: an empty slot, one named with its last record and with another, a FATAL one; levels; injection. -/
theorem witness_fault_commands :
    asks 0 fcAckFaults (ackBytes 0) = true ∧ (running.classSlot 10).recs = [] ∧ asksOf (faulted 2) 0 fcAckFaults (ackBytes 7) = true ∧
    ((faulted 2).classSlot 10).lastSeq = 7 ∧ ((faulted 2).classSlot 10).level = 2 ∧ ((faulted 2).classSlot 10).condPresent = false ∧
    asksOf (faulted 2) 0 fcAckFaults (ackBytes 6) = true ∧ ((faulted 5).classSlot 10).level = 5 ∧
    (let y := { slotOf 2 with recs := [{ recordOfCode 0x0A01 2 7 with cond := true }] }
     ClassSlot.condPresent y = true ∧ ClassSlot.lastSeq y = 7) ∧
    asks 0 fcSetLevel (leBytes 8 (0x0815 + 4 * 65536)) = true ∧ baseLevel 0x0815 = 3 ∧ asks 0 fcSetLevel (leBytes 8 (0x0815 + 2 * 65536)) = true ∧
    asks 0 fcInjectFault (leBytes 2 0x0810 ++ [2, 0xFF] ++ zeros 12) = true ∧ baseLevel 0x0810 = 2 ∧
    asks 0 fcInjectFault (leBytes 2 0x0815 ++ [0, 15] ++ zeros 12) = true ∧ running.levelOf 0x0815 = 3 ∧ SMap.wf running.ob.local32 0 = true ∧
    asks 0 obArmSnapshot (leBytes 16 (3 + 102 * 2 ^ 64)) = true ∧ asks 0 obArmSnapshot (leBytes 16 0x103) = true ∧
    asks 0 obSetGrant (leBytes 8 0x300) = true ∧ running.host.enabled.contains 0 = true ∧ asks 0 obSetGrant (leBytes 8 0x30F) = true ∧
    running.host.enabled.contains 15 = false := by decide +kernel

def joinBytes (id level cadence : Nat) (frame time : Nat) : Bytes :=
  leBytes 4 id ++ [BitVec.ofNat 8 level, BitVec.ofNat 8 cadence, 0, 0] ++ leBytes 8 frame ++ leBytes 8 time ++ leBytes 4 (if cadence = 0 then 1000 else 0) ++
    leBytes 2 0 ++ leBytes 2 1 ++ leBytes 2 0xFFFF ++ [0, 0] ++ leBytes 4 10 ++ List.replicate 62 0xFF ++ zeros 2

/-- The module as the only member of domain 77. -/
def alone : State := { running with frame := { running.frame with domain := some { domainOf none [] with memberIndex := 0, memberCount := 1 } } }

def bindBytes (mode : Nat) : Bytes :=
  [6, BitVec.ofNat 8 mode, 15, 0] ++ leBytes 2 8191 ++ zeros 134

/-- For FrameAndFabricCommands: a join at the module's level and above it, of its own domain, out of ACTIVE; leaves, changes, links, routes
and bindings at the ends of their ranges. That the module is not in factory test mode is a fuse of the module, which the manual leaves open. -/
theorem witness_frame_commands :
    asks 0 ftJoinDomain (joinBytes 78 2 0 103 100500000) = true ∧ joinInRange (joinBytes 78 2 0 103 100500000) = true ∧
    running.rt + 500000 = 100500000 ∧ running.moduleLevel = 2 ∧ joinInRange (joinBytes 78 3 1 103 0) = true ∧
    running.treeTrained (joinOf (joinBytes 78 2 0 103 100500000)).dom = true ∧
    asksOf alone 0 ftJoinDomain (joinBytes 77 1 0 103 100500000) = true ∧
    alone.keepsDomain { domainOf none [] with memberIndex := 0, memberCount := 1 } (joinOf (joinBytes 77 1 0 103 100500000)) = true ∧
    asksOf { running with mod := { running.mod with mode := .standby } } 0 ftJoinDomain (joinBytes 78 2 1 103 0) = true ∧
    asksOf alone 0 ftLeaveDomain (leBytes 16 102) = true ∧ alone.runningJobs = [] ∧ asksOf alone 0 ftLeaveDomain (leBytes 16 (102 + 2 ^ 64)) = true ∧
    asks 0 ftLeaveDomain (leBytes 16 0) = true ∧
    (let b := leBytes 8 102 ++ zeros 8 ++ zeros 5 ++ [0xFF, 0xFF, 0xFF, 255] ++ zeros 7
     asksOf alone 0 ftSetDomain b = true ∧ alone.changeInRange b = true ∧ asks 0 ftSetDomain b = true) ∧
    asks 0 ofSetLinks (leBytes 2 8191 ++ leBytes 2 0xFFFE ++ leBytes 2 0x8001 ++ zeros 26) = true ∧
    asksOf alone 0 ofSetLinks (leBytes 2 5 ++ zeros 30) = true ∧
    asks 0 ofSetRoutes (leBytes 2 8191 ++ leBytes 2 1 ++ [1] ++ zeros 3 ++ leBytes 8 102 ++ leBytes 4 0x10083) = true ∧ routeEntryOk 0x10083 = true ∧
    asks 1 ofBindEndpoint (bindBytes 1) = true ∧ bindingInRange (bindBytes 1) = true ∧ running.ownerOfEndpoint 6 = some 0 ∧
    running.endpointDeclared 6 = false ∧ (fabricOf 1 [] [] EpState.start (some 40)).endpointDeclared 6 = true ∧ asks 2 ofBindEndpoint (bindBytes 1) = true := by
  decide +kernel

/-! ### Bring-up, module states and clocks -/

/-- The module with `VHUB` good. -/
def hubbed : State := running.setRail 4 { Rail.reset with mode := .on, good := true }

/-- A module with power that waits for its token. -/
def waiting : State := { running with mod := { ModuleState.reset with powered := true, fuseOk := true, holdOff := some 0 } }

/-- For InputsAtTheConnector: before power-up; in, out of and after removal; the hold-off at its end; both edges of the inputs. -/
theorem witness_inputs :
    State.reset.mod.powered = false ∧ (∀ i, ¬ (i ∈ ([] : List (Fin 12)) ∧ i ∈ ([] : List (Fin 12)))) ∧
    (∃ i, i ∈ [(11 : Fin 12)] ∧ i ∈ [(11 : Fin 12)]) ∧
    (waiting.mod.powered = true ∧ waiting.mod.removed = false ∧ waiting.mod.prechargeStarted = false) ∧
    (let u := { waiting with pins := Pins.reset }
     u.mod.powered = true ∧ u.pins.presentMated = false ∧ u.mod.removed = false ∧ u.mod.prechargeStarted = false ∧ u.pins.slotId = none) ∧
    (let u := { waiting with pins := Pins.reset, mod := { waiting.mod with removed := true } }
     u.mod.powered = true ∧ u.pins.presentMated = false ∧ u.mod.removed = true) ∧
    (let u := { waiting with mod := { waiting.mod with prechargeStarted := true }, shim := { waiting.shim with busDead := false } }
     u.mod.powered = true ∧ u.mod.removed = false ∧ u.mod.prechargeStarted = true ∧ u.shim.busDead = false) ∧
    (waiting.mod.holdOff = some 0 ∧ 0 + 14400000000 ≤ (waiting.upTo 14400000000).now) ∧
    (0 + 72000000 ≤ (waiting.upTo 72000000).now ∧ waiting.pins.slotId = none) ∧
    waiting.mod.token = .waitLow ∧ running.pins.emergencyStopN = true ∧ running.mod.powered = true ∧
    (let u := { waiting with mod := { waiting.mod with token := .waitHigh, tokenLow := 7200000000 - 7200000 } }
     u.mod.tokenLow + 7200000 ≤ (u.onEdge 0 1).now ∧ ¬ (7200000000 - 7200000 + 1 + 7200000 ≤ (u.onEdge 0 1).now)) ∧
    (let u := { running with pins := { running.pins with slotId := some 0 } }
     u.pins.slotId.isSome = true ∧ u.fc.inputOutOfRange.contains 6 = false) ∧
    (hubbed.rail 4).good = true ∧ ({ hubbed with host := { hubbed.host with training := true } } : State).host.training = true ∧
    (let u := { running with mod := { running.mod with wakeSince := some 0 } }
     u.mod.wakeSince = some 0 ∧ 0 + 7200000000 ≤ u.now) := by
  refine ⟨by decide +kernel, by decide, ⟨11, by decide⟩, by decide +kernel, by decide +kernel, by decide +kernel, by decide +kernel,
    by decide +kernel, by decide +kernel, by decide +kernel, by decide +kernel, by decide +kernel, by decide +kernel, by decide +kernel,
    by decide +kernel, by decide +kernel, by decide +kernel⟩

/-- A change to `m` scheduled at the next frame of the module of `framed`. -/
def changing (m : ModState) : State := { framed with mod := { framed.mod with scheduled := some (m, 101) },
                                                      shim := { framed.shim with busDead := false } }

/-- For StatesAndClocksChange: a kerf whose change is to each of the three states. -/
theorem witness_changes :
    (∀ m ∈ [ModState.standby, .active, .parked], (changing m).frame.frozen = false ∧ (changing m).mod.scheduled = some (m, 101) ∧
      ((changing m).nextKerf.map (·.1)) = some 101 ∧ (changing m).rails.startAt = none ∧ (changing m).shim.busDead = false) ∧
    101 ≤ 101 % 2 ^ 48 := by decide +kernel

/-- A module whose standby PLLs are armed. -/
def armedStandby : State :=
  { hubbed with clocks := { hubbed.clocks with dies := hubbed.clocks.dies.map (fun d => { d with standbyArmed := true }) } }

/-- For StatesAndClocksChange: PLLs armed, standing by and running; the oscillator with RT on a reference and without, its entry new and not. -/
theorem witness_clocks :
    armedStandby.diesClocked = true ∧ (armedStandby.dieClock 3).standbyArmed = true ∧
    (armedStandby.dieClock 3).running = 0 ∧ (armedStandby.dieClock 3).reserve = false ∧ (armedStandby.dieClock 3).running ≠ 1 ∧
    (armedStandby.rail 4).good = true ∧ armedStandby.frame.rtLocked = true ∧ armedStandby.frame.holdoverSince = none ∧
    (armedStandby.clocks.oscEntry 15).updates = 0 ∧ waiting.frame.holdoverSince = none ∧ State.reset.frame.rtLocked = false ∧
    ({ armedStandby.clocks with osc := armedStandby.clocks.osc.set 15 { offset := -8, updates := 255 } }.oscEntry 15).updates ≠ 0 := by
  decide +kernel

/-! ### The shim stage and the cells -/

/-- The module that lends, 1 W short of its goal, with both converters running and the bus present. -/
def shimming : State :=
  { running with shim := { running.shim with policy := .lend, target := 100, goal := 101, busPresent := true, busDead := false,
                                              isolationOpen := false, input := { running.shim.input with running := true },
                                              storage := { running.shim.storage with running := true },
                                              meter := { running.shim.meter with stackMv := 110000, busMv := 760000 } },
                 cells := { running.cells with
                   dischargeInhibit := [], chargeInhibit := [], reported := 50, dischargeCeiling := 30000, chargeCeiling := 30000 } }

/-- What the shim stage measures: the load in W, the stack in mV, the bus at 760 V. -/
def inputsAt (load stackMv : Nat) : ShimInputs :=
  { load := load, busMv := 760000, stackMv := stackMv, stackMa := 0, ibusMv := 50000, error := 0 }

/-- A module whose partition 0 runs class 5 by a plan of two segments. -/
def planning : State :=
  { running with jigs := { JigState.reset with
    parts := [(0, some (held5 .running))],
    planStore := [(5, some { partition := 0, bodyTime := [90000, 90000, 90000, 90000, 90000, 90000], hintPackageW := 0, hintFlags := 0,
                             lengthUs := 1000, plan := { segments :=
                               [{ endPermyriad := 5000, powerW := [100, 100, 100, 100, 100, 100] },
                                { endPermyriad := 10000, powerW := [300, 300, 300, 300, 300, 300] }], perState := false } })] } }

/-- For TheTargetMovesWithinTheEnvelope: an excursion and none, storage just at the current limit and not; a moment of the plan that is due; a
lease at its last moment. -/
theorem witness_target :
    shimming.shim.policy ≠ .follow ∧ shimming.shim.excursionRaised = false ∧ shimming.shim.headroomRaised = false ∧
    shimming.shim.input.hot = false ∧ (∀ k, k ∈ [cvBus, cvStack] → shimming.pwcTrim k = 0) ∧
    (let u := shimming
     let f := u.powerFlow (inputsAt 3100 100000)
     f.acts = true ∧ f.busDraw ≠ 100 ∧ f.storageW = u.currentLimitW 100000 ∧ 0 < f.storageW ∧ f.storageW < 3000 ∧
     (u.powerFlow (inputsAt 3100 110000)).storageW = 3000 ∧ (u.powerFlow (inputsAt 500 110000)).acts = false) ∧
    (∃ b ∈ planning.planBoundaries, planning.planBoundaries[planning.shim.nextSegment]? = some b ∧
      (planning.kerfEndTime : Rat) + b * 7200 ≤ (planning.now : Rat)) ∧ planning.shim.noFeedForward = false ∧
    (let u := { running with shim := { running.shim with lease := some (lease 2) } }
     u.shim.lease = some (lease 2) ∧ (lease 2).expires ≤ u.now ∧ u.shim.pendingLease = none) := by decide +kernel

/-- For TheBusComesAndGoes: the bus lost, storage running and stopped; over-voltage without the bus; precharge due, begun and at its end. -/
theorem witness_bus :
    (let u := shimming
     u.shim.busPresent = true ∧ u.shim.storage.running = true ∧ u.cells.rest = none ∧ u.mod.powered = true ∧ u.mod.processorsUp = true) ∧
    (let u := { running with shim := { running.shim with busPresent := true } }
     u.mod.powered = true ∧ u.shim.busPresent = true ∧ u.shim.storage.running = false ∧ u.cells.rest = none) ∧
    (let u := { shimming with shim := { shimming.shim with busPresent := false } }
     u.shim.busPresent = false ∧ u.shim.busDead = false) ∧
    (let u := { waiting with mod := { waiting.mod with holdOffDone := true, token := .granted }, pins := { waiting.pins with trayStart := true } }
     u.shim.precharging = none ∧ u.shim.input.stoppedBy = none ∧ u.mod.powered = true ∧ u.mod.fuseOk = true ∧ u.mod.ended = false ∧
     u.mod.holdOffDone = true ∧ u.mod.token = .granted ∧ u.mod.prechargeStarted = false ∧ u.pins.emergencyStopN = true ∧
     u.pins.trayStart = true ∧ u.shim.input.running = false) ∧
    (let u := { shimming with mod := { shimming.mod with prechargeWanted := true }, pins := { shimming.pins with trayStart := true } }
     u.shim.precharging = none ∧ u.shim.input.stoppedBy = none ∧ u.mod.prechargeWanted = true ∧ u.shim.busReturned = false ∧
     u.shim.busPresent = true ∧ u.pins.trayStart = true) ∧
    waiting.shim.precharging = none ∧ waiting.mod.token = .waitLow ∧ waiting.mod.prechargeWanted = false ∧
    (let u := { waiting with now := 1440000000, shim := { waiting.shim with precharging := some 0 }, pins := { waiting.pins with trayStart := true } }
     u.shim.precharging = some 0 ∧ u.now = 0 + 1440000000 ∧ u.pins.trayStart = true ∧ u.mod.prechargeWanted = false ∧ u.mod.powered = true ∧
     u.mod.processorsUp = false) ∧
    (let u := { waiting with now := 0, shim := { waiting.shim with precharging := some 0 }, mod := { waiting.mod with prechargeWanted := true },
                             pins := { waiting.pins with trayStart := true } }
     u.shim.precharging = some 0 ∧ u.now ≤ 0 + 1440000000 ∧ u.pins.trayStart = true ∧ u.mod.prechargeWanted = true) := by decide +kernel

/-- For ProtectionsStopConverters: a bus that lives, one dead in ISLAND; converters running, stopped, cool; a restart that is due. -/
theorem witness_protections :
    shimming.shim.busDead = false ∧ shimming.shim.busIsland = false ∧ shimming.shim.input.running = true ∧ shimming.shim.input.hot = false ∧
    shimming.shim.storage.hot = false ∧ running.shim.input.running = false ∧ running.shim.storage.running = false ∧
    (let u := { shimming with fc := { shimming.fc with ibusOvSeen := true, ovRestartDue := true },
                              shim := { shimming.shim with islandCause := .protection,
                                                           input := { running := false, stoppedBy := some FC.ibusOvervoltage, hot := false } } }
     u.fc.ibusOvSeen = true ∧ u.fc.ovRestartDue = true ∧ u.shim.busPresent = true ∧ u.shim.islandCause = .protection ∧
     u.shim.input.stoppedBy = some FC.ibusOvervoltage) ∧
    (let u := { shimming with shim := { shimming.shim with policy := .island, islandCause := .busLoss, exhaustedAt := some 0 } }
     u.shim.exhaustedAt.isSome = true ∧ u.shim.busIsland = true ∧ u.shim.busDead = false) ∧
    (let u := { running with shim := { running.shim with policy := .island, islandCause := .busLoss, exhaustedAt := some 0 } }
     u.shim.exhaustedAt.isSome = true ∧ u.shim.busIsland = true ∧ u.shim.busDead = true ∧ u.shim.input.running = false ∧
     u.mod.powered = true) := by decide +kernel

/-- A scan that reads every cell at `v` (0.1 mV) and `therm` (0.1 degrees). -/
def scanOf (v : Nat) (therm : Int) : ScanInput :=
  { scan := { volts := List.replicate 48 v, currentMa := 0, therms := List.replicate 24 therm, dies := List.replicate 6 400 },
    unread := [], refs := List.replicate 6 (0, 0) }

/-- How many consecutive scans each threshold has held. -/
def heldFor (n : Nat) : SMap Nat :=
  [inhHigh, inhLimitHigh, inhLow, inhLimitLow, inhTemp55, inhTemp60, inhOvertemp, inhCold20, inhCold30, inhEndDischarge, inhEndCharge].foldl
    (fun m k => SMap.set m k n 0) []

/-- The module with its chain enumerated and each threshold held for `n` scans; cells 2.3 V, 25 degrees. -/
def celled (n : Nat) (chg dis : List Nat) : State :=
  { running with cells := { running.cells with
    enumerated := true, scan := (scanOf 23000 250).scan, scannedAt := 7128000000, persist := heldFor n, chargeInhibit := chg, dischargeInhibit := dis } }

/-- The state that a command which answers a next state leaves, if it passes `f`. -/
def leaves (c : Instr) (s : State) (f : State → Bool) : Bool :=
  match exec c s with
  | .next t => f t
  | _ => false

/-- The extreme cells of a state. -/
def extremes (t : State) : Option Nat × Option Nat × Option Int × Option Int :=
  ((t.cells.known.map t.cells.volt).max?, (t.cells.known.map t.cells.volt).min?, (t.cells.known.map t.cells.tempOf).max?,
    (t.cells.known.map t.cells.tempOf).min?)

/-- For ScansWatchTheCells: every threshold of its table met in its last scan, at the value itself; one scan short of it; an inhibit at and
past the end of its condition; the two ends of charge; a slice unread for the fifth time; dies hot and warm. -/
theorem witness_scans :
    (let u := celled 9 [] []
     u.cells.enumerated = true ∧ u.cells.asleep = false ∧ u.mod.mode ≠ .standby ∧ u.cells.scannedAt + 72000000 ≤ u.now) ∧
    (∀ i : Fin 6, (celled 9 [] []).cells.refsAgree i (scanOf 23000 250) = true) ∧ running.cells.enumerated = false ∧
    ([(28000, (250 : Int)), (28500, 250), (19000, 250), (18000, 250), (23000, 550), (23000, 600), (23000, 650), (23000, -200), (23000, -300),
      (27499, 499), (20500, -149)].all (fun x => leaves (.cellScan 0 (scanOf x.1 x.2)) (celled 9 [] [])
        (fun t => extremes t == (some x.1, some x.1, some x.2, some x.2)))) = true ∧
    ([inhHigh, inhLimitHigh, inhLow, inhLimitLow, inhTemp55, inhTemp60, inhOvertemp, inhCold20, inhCold30].all
      (fun i => !(celled 9 [] []).cells.inhibited i && (celled 9 [] []).cells.held i == 9 && (celled 9 [i] []).cells.inhibited i)) = true ∧
    (celled 199 [] []).cells.held inhEndDischarge = 199 ∧ (celled 5999 [] []).cells.held inhEndCharge = 5999 ∧
    (celled 5999 [] []).cells.inhibited inhEndCharge = false ∧ (celled 9 [] []).mpServes = true ∧ (celled 9 [] []).cells.rest = none ∧
    (let u := { celled 0 [] [] with cells := { (celled 0 [] []).cells with slices := List.replicate 6 { Slice.reset with unread := 4 } } }
     u.cells.slices.length = 6 ∧ (u.cells.slices.getD 5 Slice.reset).lost = false ∧ 4 ≤ (u.cells.slices.getD 5 Slice.reset).unread ∧
     (5 : Fin 6) ∈ ({ scanOf 23000 250 with unread := [5] } : ScanInput).unread) ∧
    (celled 0 [] []).classQuiet 4 = true ∧ (faulted 2).mpServes = true ∧ State.mpServes { running with mp := { running.mp with owner := none } } = false := by
  decide +kernel

/-- A reading of the chain without faults, at pack-identity `good`. -/
def chain (south north : Bool) (bad : List (Fin 6)) (crc : Bool) (unread : List (Fin 6)) : ChainRead :=
  { southOk := south, northOk := north, wireBad := bad, recordFlips := [],
    pack := { crcOk := crc, chemistryOk := true, cellCount := 48, sliceCount := 6, ratedMah := 2500, bolMah := 3125, serial := zeros 16,
              ocv := [], r1 := [] },
    first := { scanOf 23000 250 with unread := unread } }

/-- The ring of a capture whose strobe came at `z`: 1 A before it and 7 A after. -/
def ringAt (z : Nat) : List CaptureTick :=
  (List.range 20).map (fun i => { start := z - 3600000 + 720000 * i, volts := List.replicate 48 (if i < 5 then 23000 else 22900),
                                  currentMa := if i < 5 then 1000 else 7000 })

/-- For RestsCapturesAndTheChain: a rest at its limit, a capture armed, struck, ended and cancelled, at each of its times; both ports, one
and none. -/
theorem witness_rests :
    (let y : Rest := { ticket := 1, began := 0, quietSince := none, complete := false }
     let u := { running with now := 1080000000000, cells := { running.cells with rest := some y } }
     u.cells.rest = some y ∧ y.complete = false ∧ y.began + 1080000000000 ≤ u.now) ∧
    running.cells.rest = none ∧
    (let u := { celled 0 [] [] with frame := { running.frame with modes := { running.frame.modes with cadence := .barrier }, ownDone := true } }
     u.frame.modes.cadence = .barrier ∧ u.frame.ownDone = true ∧ u.cells.enumerated = true ∧ u.cells.asleep = false ∧ u.cells.rest = none ∧
     u.cells.capture = none ∧ u.cells.restorePending = false ∧ u.mod.mode ≠ .parked ∧ (∀ d ∈ u.cells.scan.dies, d < 900) ∧
     u.cells.lastCapture = none) ∧
    (captureMeasure (ringAt 7191360000) 7100000000 7191360000).isSome = true ∧
    (let x : Capture := { armedAt := 7100000000, strobe := some 7191360000, acted := false }
     let u := { celled 0 [] [] with cells := { (celled 0 [] []).cells with capture := some x } }
     u.cells.capture = some x ∧ 7191360000 + 8640000 ≤ u.now) ∧ captureMeasure [] 0 0 = none ∧
    (let x : Capture := { armedAt := 7056000000, strobe := none, acted := false }
     let u := { running with frame := { running.frame with modes := { running.frame.modes with cadence := .barrier } },
                             cells := { running.cells with capture := some x } }
     u.cells.capture = some x ∧ x.strobe = none ∧ x.armedAt + 144000000 ≤ u.now ∧ u.frame.modes.cadence = .barrier) ∧
    (running.cells.slices.getD 5 Slice.reset).lastCommand + 180000000 ≤ running.now ∧ running.cells.slices.length = 6 ∧
    running.cells.enumerated = false ∧ running.cells.enumFailed = false ∧ running.mod.processorsUp = true ∧
    (let c := running.cells
     let whole := fun r => (List.range 6).all (fun i => !c.selfTestFails r i)
     whole (chain false true [] true []) = true ∧ (chain false true [] true []).pack.good = true ∧ (chain true true [] false []).pack.good = false ∧
     whole (chain true true [] false []) = true ∧ whole (chain true true [] true [5]) = true ∧ (chain true true [] true [5]).first.unread ≠ [] ∧
     (chain false false [] true []).northOk = false ∧ c.selfTestFails (chain false true [5] true []) 5 = true ∧
     (List.range 5).all (fun i => !c.selfTestFails (chain false true [5] true []) i) = true) := by decide +kernel

/-! ### The regulators -/

/-- Rail `k` on at 0.7 V. -/
def railed (k : Nat) (v : Rail) : State := running.setRail k { v with mode := .on, good := true, setpoint := 700000, vref := 700000 }

/-- A rail with all phases idle. -/
def phased : Rail := { Rail.reset with phases := List.replicate 40 Phase.idle }

/-- For RegulatorsFollowTheirReference: a rail on and one off; its coefficients; a phase without a pulse, and on-times below and above the
ends of their range; 20 bad blocks and fewer; a boundary of a millisecond and none; peaks kept and reset. -/
theorem witness_regulators :
    ((railed 3 phased).rail 3).live = true ∧ (running.rail 3).live = false ∧ ((railed 3 phased).bank 3).coeff.length = 7 ∧
    ((railed 3 phased).rail 3).pastE.length = 3 ∧ ((railed 3 phased).rail 3).pastU.length = 3 ∧ railPhases 3 = 40 ∧
    (((railed 3 phased).rail 3).phase 39).stopped = false ∧
    ((((railed 15 { Rail.reset with phases := [{ Phase.idle with stopped := true }] }).rail 15).phase 0).stopped = true) ∧ railPhases 15 ≤ 2 ∧
    (let v := (railed 3 { phased with active := some (Bank.ofBytes (bankBytes 10)), mode := .starting, goodSince := some 7199280000 }).rail 3
     let b := Bank.ofBytes (bankBytes 10)
     v.active = some b ∧ b.coeff = [0, 0, 0, 0, 0, 0, 0] ∧ v.pastE = [0, 0, 0] ∧ v.pastU = [0, 0, 0] ∧ v.good = true ∧
     v.goodSince = some 7199280000 ∧ 7199280000 + 720000 ≤ running.now ∧ v.vref + 1000 * (b.overshootMv : Rat) ≤ 710000 ∧
     (690000 : Rat) ≤ v.vref - 1000 * (b.undershootMv : Rat) ∧ (704999 : Rat) < v.vref + 500 * (b.overshootMv : Rat) ∧
     (7200000000 - (7200000000 - 225 * 39)) % 9000 = 9000 * 39 / railPhases 3) ∧
    (1152 : Rat) ≤ 72000 * 700000 / 12000000 ∧ (72000 : Rat) * 700000 / 12000000 ≤ 69696 ∧ (69696 : Rat) ≤ 72000 * 700000 / 700000 ∧
    ((railed 3 { phased with watchUntil := 7200000000, badBlocks := 19 }).rail 3).watchUntil = 7200000000 ∧ 25000 < 25001 ∧
    (railed 3 phased).now ≤ 7200000000 ∧ ((railed 3 { phased with badBlocks := 18 }).rail 3).badBlocks + 1 < 20 ∧
    running.onRtMultiple 5000 = true ∧ running.frame.frozen = false ∧ (running.upTo 7200000001).onRtMultiple 5000 = false ∧
    running.rt / 5000 % 20 = 0 ∧ (running.upTo 7200360000).rt / 5000 % 20 = 1 ∧
    ((railed 3 { phased with peakAny := true }).rail 3).peakAny = true ∧ ((railed 3 phased).rail 3).peakResetDue = false ∧
    ((railed 3 { phased with peakResetDue := true }).rail 3).peakResetDue = true := by decide +kernel

/-- For RegulatorsProtectTheirRails: the first and the fifth failed phase of a class L rail, one of a class S rail; rails live and not; the
fixed-ratio stage live and not. -/
theorem witness_rail_protection :
    (∀ k : Fin 16, ((railed k phased).rail k).live = true ∧ 0 < railPhases k ∧ (((railed k phased).rail k).phase 0).stopped = false ∧
      0 < ((railed k phased).rail k).phases.length) ∧
    ((railed 3 phased).rail 3).failed < 4 ∧
    4 ≤ ((railed 3 { phased with phases := List.replicate 4 { Phase.idle with stopped := true } ++ List.replicate 36 Phase.idle }).rail 3).failed ∧
    (∀ k : Fin 16, 1250 * derated k 0 < 10000000 ∧ railOverUv k < 10000000 ∧ (100 * 0 : Rat) < 85 * 700000) ∧
    ((railed 3 { phased with phases := List.replicate 40 { Phase.idle with limited := 100, uneven := 800 } }).rail 3).phases.length = 40 ∧
    (running.rail 3).live = false ∧ 5 ∉ ((railed 3 phased).rail 3).hotStages ∧ 5 ∈ ((railed 3 { phased with hotStages := [5] }).rail 3).hotStages ∧
    ((running.setRail 7 { Rail.reset with mode := .stoppedFault }).rail 7).mode = .stoppedFault ∧
    ((running.setRail 16 { Rail.reset with mode := .on }).rail 16).live = true ∧ (running.rail 16).live = false := by decide +kernel

/-- A staged start that waits for event `k`, every rail but those of `lacking` good. -/
def staged (k : Nat) (mode : ModState) (lacking : List Nat) : State :=
  { running with
    mod := { running.mod with mode := mode, restored := false }
    gov := { running.gov with flowLow := false }
    rails := { RailState.reset with
      startAt := some 0, startStep := k
      rails := (List.range 17).foldl (fun m r => if lacking.contains r then m
        else SMap.set m r { Rail.reset with mode := .on, good := true } Rail.reset) [] } }

/-- For RailsStartAndStopInOrder: every event of the start, in STARTING and in RECOVERY, with power-good and with a rail that lacks it; the
wait for coolant; every step of the stop; times before and at their limits. -/
theorem witness_start :
    ((List.range 10).all (fun k =>
      let u := staged k .starting []
      u.rails.startAt == some 0 && u.rails.startStep == k && decide (9100 * 7200 ≤ u.now) && decide (u.mod.mode ≠ .safe) && !u.gov.flowLow &&
        (List.range 17).all (fun r => (u.rail r).good))) = true ∧
    ((staged 4 .starting [10]).rail 10).good = false ∧ ((staged 4 .starting [10]).rail 10).mode = .off ∧ (staged 4 .recovery []).mod.mode = .recovery ∧
    (staged 4 .recovery []).rails.startStep = 4 ∧
    (let u := { staged 5 .starting [0] with gov := { running.gov with flowLow := true } }
     u.gov.flowLow = true ∧ u.rails.startStep = 5 ∧ u.rails.startAt = some 0) ∧
    ({ staged 0 .starting [] with now := 0, rails := { (staged 1 .starting []).rails with startAt := some 0 } } : State).now < 0 + 2000 * 7200 ∧
    (staged 0 .safe []).mod.mode = .safe ∧ running.rails.startAt = none ∧ running.rails.stopNext = none ∧
    (let u := (staged 1 .starting [7]).setRail 7 { Rail.reset with mode := .stoppedFault }
     (u.rail 7).live = false ∧ (u.rail 7).mode ≠ .off ∧ railPhases 7 = 6) ∧
    ({ faulted 2 with fc := { (faulted 2).fc with slots := [(2, slotOf 3)] } } : State).classQuiet 2 = false ∧
    ((List.range 5).all (fun j =>
      let u := { staged 0 .starting [] with now := j * 7200000, rails := { (staged 0 .starting []).rails with stopNext := some j, stopLast := 4,
                                                                                                              stopOnly := List.range 17 } }
      u.rails.stopNext == some j && decide (u.rails.stopAt + j * 7200000 ≤ u.now) && (u.rail 0).live)) = true := by decide +kernel

/-! ### The governor -/

/-- The module at F0, each die limited to 900 W and 1,000 A, partition 0 to 100 W, the droop threshold 4, die 0 stretching since `a`. -/
def governed (a : Option Nat) : State :=
  { railed 0 phased with gov := { running.gov with
      running := 0, f0Since := some 0, vrAlert := false
      limits := { running.gov.limits with dies := [900, 900, 900, 900], railA := [1000, 1000, 1000, 1000], parts := [(0, 100)] }
      settings := { running.gov.settings with droop := [some 4, none, none, none] }
      dies := running.gov.dies.set 0 { DieGov.reset with stretching := a } } }

/-- For PacingHoldsTheLimits: an update on its edge and off it; each limit just exceeded and just kept; a voltage that droops, and recovers
after 32 periods; F0 used for 6 seconds; the alert. -/
theorem witness_pacing :
    (governed none).gov.dies.length = 5 ∧ (governed none).gov.stop = .running ∧ (governed none).frame.kerf.active = false ∧
    (governed none).onRtMultiple 100 = true ∧ ((governed none).upTo 7200000072).onRtMultiple 100 = false ∧
    (nth (governed none).gov.limits.dies 3 900 * 1000 < (900001 : Rat)) ∧ ¬ (nth (governed none).gov.limits.dies 3 900 * 1000 < (900000 : Rat)) ∧
    (0 : Nat) ∈ (governed none).partitionsOnDie 3 ∧ SMap.get (governed none).gov.limits.parts 0 0 = 100 ∧
    SMap.get (governed none).gov.pacedAtUs 1 0 ≠ 7200000000 / 7200 + 1 ∧ ((governed none).die 0).stretching = none ∧
    (let u := governed none
     200 * (685999 : Int) < (200 - (u.droop 0 : Int)) * (u.rail 0).setpoint ∧ ¬ (200 * (686000 : Int) < (200 - (u.droop 0 : Int)) * (u.rail 0).setpoint)) ∧
    (let u := governed (some 7199992900)
     (u.die 0).stretching = some 7199992900 ∧ (201 - (u.droop 0 : Int)) * (u.rail 0).setpoint < 200 * (690000 : Int) ∧
     32 * (u.dieClock 0).heldPeriod ≤ tick * (u.now - 7199992900)) ∧
    (governed none).gov.running = 0 ∧ 43200000000 ≤ ((governed none).upTo 43200000000).f0Time 43200000000 ∧ (governed none).gov.f0Floor = false ∧
    (governed none).gov.vrAlert = false ∧ State.reset.gov.stop ≠ .running := by decide +kernel

/-- The module with one die whose diode has been sampled, its nodes at `v` (0.1 degrees) and shutdown not reached. -/
def heated (v : Rat) : State :=
  { running with gov := { running.gov with dies := running.gov.dies.set 4 { DieGov.reset with
      sampled := true, nodes := List.replicate 64 v, hottest := List.replicate 21 v } } }

/-- For HeatIsModelledAndLimited: valid samples and invalid; a shutdown that leaves time and one that does not; a first sample. -/
theorem witness_heat :
    (heated 1000).gov.dies.length = 5 ∧ ((heated 1000).die 4).sampled = true ∧ (running.die 4).sampled = false ∧
    absRat ((1150 : Rat) - ((heated 1000).die 4).nodes.getD 63 0) ≤ 150 ∧ ¬ absRat ((1151 : Rat) - ((heated 1000).die 4).nodes.getD 63 0) ≤ 150 ∧
    (heated 1000).gov.stop = .running ∧ running.gov.stackTemps.length = 16 ∧ ((heated 1000).die 4).shutdown = false ∧
    leaves (.diodeSample 4 1190 0) (heated 1170) (fun t => (t.die 4).shutdown && decide (t.gov.stop = .stopping 7200000000)) = true ∧
    leaves (.diodeSample 4 1240 0) (heated 1120) (fun t => (t.die 4).shutdown && decide (t.gov.stop = .stopped)) = true := by decide +kernel

/-- For CoreDiesStopAndRestart: an orderly stop whose transfers have completed, one still short of 500 microseconds, clocks off for 1 microsecond;
dies awake and asleep; a restart whose cause is gone. -/
theorem witness_stops :
    (let u := { running with gov := { running.gov with stop := .stopping 7199000000 } }
     u.gov.stop = .stopping 7199000000 ∧ ∀ kv ∈ u.qf.movers, kv.2.active = []) ∧
    (let u := { moving 0 (mvIssue 1 0 0 0 0 [] []) with gov := { running.gov with stop := .stopping 7200000000 } }
     (∃ kv ∈ u.qf.movers, kv.2.active ≠ []) ∧ u.now < 7200000000 + 3600000) ∧
    (let u := { running with gov := { running.gov with stop := .clocksOff 7199992800 } }
     u.gov.stop = .clocksOff 7199992800 ∧ 7199992800 + 7200 ≤ u.now) ∧
    running.gov.stop = .running ∧ State.reset.gov.stop = .stopped ∧ (∀ r, r < 4 → (State.reset.rail r).live = false) ∧
    (let u := { running with gov := { running.gov with stop := .stopped, stopCauses := [stopThermal], flowLow := false },
                             frame := { running.frame with kerf := { running.frame.kerf with active := true } } }
     u.mod.mode = .active ∧ u.gov.stop = .stopped ∧ u.rails.startAt = none ∧ u.rails.stopNext = none ∧ u.frame.kerf.active = true ∧
     u.levelInForce < 4 ∧ (∀ r ∈ u.fc.raised, baseLevel r.msg.code < 4) ∧ u.gov.flowLow = false ∧
     (∀ d ∈ u.gov.dies, d.temp < 1030 ∧ d.shutdown = false) ∧ 5400 * 7200 ≤ u.now) := by decide +kernel

/-- For EnergyIsAttributedWhole: the slices of the dies, and units on them. -/
theorem witness_energy : running.gov.dies.length = 5 ∧ 0x1003 / 4096 < 2 ∧ sectionOfUnit 0x1003 < 4 := by decide +kernel

/-! ### The fault collector -/

/-- A stage that is hot on rail 3, and the same raised on die 3 and by the power controller. -/
def hotStage : FaultMsg := { code := FC.stageHot, cond := true, unit := 0x305, scope := 0xFF, detail := 1250 }

/-- The module with a record in class 2, whose power controller raised that message. -/
def collecting (level : Nat) : State :=
  { running with fc := { (faulted 2).fc with
      slots := [(2, { slotOf level with recs := [recordOfCode FC.railUndervoltage level 7] })]
      raised := [{ src := .pwc, msg := hotStage, raisedAt := 7200000000 }] } }

/-- For FaultsAreRecordedAndReactedTo: a message that escalates and one that does not; a bad one; each level; causes that leave no auxiliary power. -/
theorem witness_faults :
    State.reset.mod.powered = false ∧ running.mod.powered = true ∧ shimming.mod.powered = true ∧ shimming.shim.busDead = false ∧
    baseLevel hotStage.code ≠ 0 ∧ 3 ≤ running.levelOf FC.faultMessageBad ∧
    (let u := (collecting 3).arrive .pwc hotStage
     u.levelOf hotStage.code ≤ 4 ∧ ¬ (u.levelOf hotStage.code = 3 ∨ u.levelOf hotStage.code = 4) ∧ u.mod.powered = true) ∧
    (let m : FaultMsg := { hotStage with code := FC.railOvercurrent, cond := false, unit := 0x3FF }
     let u := (collecting 3).arrive .pwc m
     let x := u.classSlot (m.code / 256)
     (u.levelOf m.code = 3 ∨ u.levelOf m.code = 4) ∧ x.ackPending = false ∧
       (∃ r ∈ x.recs, 3 ≤ r.level ∧ r.code ≠ m.code ∧ ¬ (r.src = .pwc ∧ u.coldPc < r.timePc + 240)) ∧
       (∀ kv ∈ running.fc.slots, kv.2.recs = []) ∧ (∃ kv ∈ u.fc.slots, kv.2.recs ≠ [])) ∧
    (let u := { shimming with shim := { shimming.shim with isolationOpen := false } }
     u.shim.busPresent = true ∧ u.shim.isolationOpen = false ∧ shimming.gov.stop = .running ∧ shimming.mod.mode = .active ∧
       shimming.fc.ibusOvSeen = false) := by decide +kernel

/-- The module with a job of partition 0 at `phase` whose halt is due, and the PF to be told. -/
def reacting (phase : JigPhase) (o : FaultOut) : State :=
  { running with
    jigs := { JigState.reset with parts := [(0, some (held5 phase))] }
    fc := { running.fc with haltsDue := [(0xFF, 7200000000)], eventsDue := 1, out := o } }

/-- For ReactionsRunAndEnd: a halt that is due for a job that runs and one that waits; a report that is due with the hub's rail good and not;
the line in each of its states; a condition that stands and one that has ended. -/
theorem witness_reactions :
    (let u := reacting .running { low := true, since := 7199928000, waiting := false }
     (u.partJig 0).map (·.phase) = some .running ∧ (∃ h ∈ u.fc.haltsDue, h.2 ≤ u.now ∧ h.1 = 0xFF) ∧ u.fc.eventsDue ≠ 0 ∧
     u.fc.out.low = true ∧ u.fc.out.since + 72000 ≤ u.now ∧ u.levelInForce < 3 ∧ (u.rail 4).good = false) ∧
    ((reacting .loaded { low := false, since := 0, waiting := true }).partJig 0).map (·.phase) = some .loaded ∧ JigPhase.loaded ≠ JigPhase.loading ∧
    ((reacting .loaded { low := false, since := 0, waiting := true }).fc.out.waiting = true) ∧
    running.fc.eventsDue = 0 ∧ (hubbed.rail 4).good = true ∧ 3 ≤ (collecting 3).levelInForce ∧
    (let u := { running with rails := (railed 3 { phased with hotStages := [5] }).rails }
     u.conditionStands FC.stageHot 0x305 0 = true ∧ running.conditionStands FC.stageHot 0x305 0 = false ∧ SMap.wf running.fc.slots emptySlot = true) ∧
    (let u := { faulted 4 with mod := { running.mod with mode := .safe, prior := some .active } }
     u.mod.fatal = false ∧ u.mod.mode = .safe ∧ u.mod.prior.isSome = true ∧ u.mod.prior ≠ some .safe) := by decide +kernel

/-! ### What ill-formed operands are refused (WellFormed) -/

def faultMsg0 : FaultMsg := { code := 0x0A01, unit := 0, scope := 15, detail := 0, cond := false }

/-- The terms below are well-formed but for the one operand that each check refuses. -/
theorem test_well_formed_terms :
    [Instr.mailboxDatagram 0 0 0 0 (zeros 65527) 0, .registerWrite 0 (.bar0 0) [0] 0, .hqSendEntry 0 0 511 [0] 0,
     .apertureWrite 0 4095 [0] [true] 0, .apertureRead 0 0 4096 0, .dowelDone (.member 0) (dowelOf 1 1 1) 0, .relayNotice (.member 0) (dowelOf 5 1 1) 0,
     .arrayLoad 0 (arrayDesc 1 1) 0 ArrayUpset.none, .moverCopy 0 (mvDesc 1) 0 false, .laneSlset row1 0 (-320),
     .laneMxexp lane1 0 0 .mxint8, .lanePack lane1 0 0 .int8 0 round1, .laneUnpk lane1 0 0 .t2 0 0, .laneSlcvt lane1 0 0 .wa64 round1,
     .portTrainingComplete 0 8191 (zeros 8) 0 0 0, .flitReceive 0 0 (zeros 256) false false none, .cellScan 0 (scanOf 0 0), .captureRead 0 (ringAt 9000000),
     .thermalModelUpdate (List.replicate 64 0) 0, .energyAttribution [] [0, 0, 0, 0] 0 [] 0, .faultArrival .pwc faultMsg0 false 0,
     .ptpMessage 0 (2 ^ 80 - 1) 0, .icmpv6Message 0 0 (.solicit 0) 0].all Instr.wf = true := by decide +kernel

theorem test_ill_formed_terms :
    [Instr.mailboxDatagram 0 (2 ^ 128) 0 0 [] 0, .mailboxDatagram 0 0 65536 0 [] 0, .mailboxDatagram 0 0 0 0 (zeros 65528) 0,
     .registerWrite 0 (.bar0 0) [] 0, .hqSendEntry 0 0 511 [0, 0] 0, .hqSendEntry 0 0 0 [] 0, .apertureWrite 0 4095 [0, 0] [true, true] 0,
     .apertureWrite 0 0 [0] [] 0, .apertureRead 0 1 4096 0, .apertureRead 0 0 0 0, .dowelDone (.member 0) (dowelOf 2 1 1) 0,
     .dowelGo .parent { dowelOf 2 1 1 with frame := 2 ^ 48 } 0, .dowelHalt .parent (dowelOf 4 1 1) 0, .dowelLeave .parent (dowelOf 3 1 1) 0,
     .relayNotice (.member 0) (dowelOf 6 1 1) 0,
     .arrayLoad 0 (arrayDesc 2 1) 0 ArrayUpset.none, .arrayPass 0 { arrayDesc 2 1 with footBase := 1023 } 0 ArrayUpset.none,
     .arrayDrain 0 { arrayDesc 4 1 with window := 321 } 0 ArrayUpset.none, .moverCopy 0 { mvDesc 1 with rowBytes := 63 } 0 false,
     .laneSlset row1 0 (-321), .laneMxexp lane1 0 0 .int8, .laneMxdiv lane1 0 0 0 .fp32, .lanePack lane1 0 0 .t2 0 round1,
     .laneUnpk lane1 0 0 .raw 0 0, .laneSlcvt lane1 0 0 .mxint8 round1, .laneCvtfi lane1 0 0 { round1 with stochastic := false },
     .portTrainingComplete 0 8192 (zeros 8) 0 0 0, .portTrainingComplete 0 0 [] 0 0 0, .flitReceive 0 0 (zeros 255) false false none,
     .cellScan 0 { scanOf 0 0 with scan := { (scanOf 0 0).scan with dies := [] } }, .captureRead 0 [{ start := 0, volts := [], currentMa := 0 }],
     .thermalModelUpdate [] 0, .energyAttribution [] [] 0 [] 0, .faultArrival .pwc { faultMsg0 with scope := 16 } false 0,
     .ptpMessage 0 (2 ^ 80) 0, .icmpv6Message 0 0 (.solicit (2 ^ 128)) 0, .icmpv6Message 0 0 (.routerAdvert (2 ^ 64)) 0].all (fun i => !i.wf) = true := by
  decide +kernel

/-! ### Worked examples of the manual -/

/-- The example encodings of *Number formats*. -/
theorem test_example_encodings :
    decodeElem .fp8E4m3 0x39 = .fin false 9 (-3) ∧ decodeElem .fp8E4m3 0xB3 = .fin true 11 (-4) ∧ decodeElem .fp8E4m3 0x7E = .fin false 14 5 ∧
    decodeElem .fp8E4m3 0x7F = .nan ∧ decodeElem .fp8E4m3 0x01 = .fin false 1 (-9) ∧ decodeElem .fp8E4m3 0x80 = .fin true 0 (-9) ∧
    decodeElem .fp8E5m2 0x7C = .inf false ∧ decodeElem .fp8E5m2 0x3C = .fin false 4 (-2) := by decide +kernel

/-- Unpacking one T2 byte: 181 holds the digits 1, 0, 2, 0, 2. -/
theorem test_example_t2_byte : t2Digits 0xB5 = some [1, 0, 2, 0, 2] := by decide +kernel

/-- Four products in two tilings: each product's term and flags, and their sum. -/
theorem test_example_products :
    [(0x39, 0xB3), (0x44, 0x2A), (0x20, 0x1C), (0xC2, 0x30)].map (fun x => quantize ((decodeElem .fp8E4m3 x.1).mul (decodeElem .fp8E4m3 x.2)) (-6)) =
      [(-50, waInexact), (60, 0), (0, waInexact), (-80, 0)] ∧
    wa64OfInt (-50 + 60 + 0 - 80) = 0xFFFFFFFFFFFFFFBA := by decide +kernel

/-- Rounding the sum to E4M3, to the nearest and by the generator. -/
theorem test_example_rounding :
    convertOut .fp8E4m3 0xFFFFFFFFFFFFFFBA (-6) .rne = (0xB9, false) ∧
    convertOut .fp8E4m3 0xFFFFFFFFFFFFFFBA (-6) (.stochastic 0xD12345) = (0xB8, false) := by decide +kernel

/-- An MXFP8 scale: 208 and 200 as the largest magnitudes of a block. -/
theorem test_example_mx_block :
    mxBlock .mxfp8E4m3 [(false, 208, 0)] [.rne] = (0x7E, [0x7D], false) ∧ mxBlock .mxfp8E4m3 [(false, 200, 0)] [.rne] = (0x7E, [0x7C], false) := by
  decide +kernel

/-- Packing one MXFP8 block: the two words of `PACK`, and the elements of lanes 9 and 20. -/
theorem test_example_pack :
    (laneIssueOf (.lanePack lane1 2 2 .mxfp8E4m3 8 { stochastic := false, vb := 0, vc := 0, high := 0 })).map (·.word) = some 0x0000200700024056 ∧
    (laneIssueOf (.lanePack lane1 2 2 .mxfp8E4m3 8 { stochastic := true, vb := 6, vc := 7, high := 0 })).map (·.word) = some 0x0000210707624056 ∧
    mxElem .mxfp8E4m3 true 53 (-4) (-1) .rne = (0xCD, false) ∧ mxElem .mxfp8E4m3 true 53 (-4) (-1) (.stochastic 0x3A5C10) = (0xCE, false) ∧
    mxElem .mxfp8E4m3 false 224 0 (-1) .rne = (0x7E, false) := by decide +kernel

/-- The check value of CRC-32C: the CRC of the digits 1 to 9. -/
theorem test_crc32c : crc32c ((List.range 9).map (fun i => BitVec.ofNat 8 (0x31 + i))) = 0xE3069283#32 := by decide +kernel

/-! ### Single steps -/

/-- The queue is first in, first out; an empty one idles. -/
theorem test_queue :
    (match step { running with pending := [.emergencyStop false 0, .flowRestored 0] } with
      | .next t => decide (t.pending = [.flowRestored 0])
      | _ => false) = true ∧ decodeTableWord 64 0 = none := by decide +kernel

/-- A write of 64 bytes through the aperture is refused to a function that is not enabled. -/
theorem test_aperture_of_a_disabled_partition :
    leaves (.apertureWrite 3 0 (zeros 64) (List.replicate 64 true) 0)
      { running with host := { running.host with vfs := [(3, { Vf.reset with present := true, busMaster := true })] } }
      (fun t => decide (t.mem.cells = running.mem.cells) && t.fc.raised.any (fun r => r.msg.code == FC.apertureDenied)) = true := by decide +kernel

/-- The over-temperature of a converter stops it at once, and the module enters ISLAND. -/
theorem test_converter_overtemp :
    leaves (.converterOvertemp 0 false) shimming
      (fun t => !t.shim.input.running && decide (t.shim.policy = .island) && decide (t.shim.input.stoppedBy = some FC.converterOvertemp)) = true := by
  decide +kernel

end Sys2Proof.Tests
end

section
/-! SUPPORT. The kerf and the frequency state (R45 to R52, R60, R479, R488, R659, R660): what the accounts, the roots and the pacing of the
dies leave as it was, and from that what the switch, its deferral, the clamp load, the end of the kerf and a late kerf do. -/

namespace Sys2Proof.Machine

/-! ### The commands -/

theorem exec_freqStateSwitch (t : Nat) (s : State) : exec (.freqStateSwitch t) s = execFreqStateSwitch t s := rfl
theorem exec_freqSwitchDeferred (t : Nat) (s : State) : exec (.freqSwitchDeferred t) s = execFreqSwitchDeferred t s := rfl
theorem exec_clampLoad (t : Nat) (s : State) : exec (.clampLoad t) s = execClampLoad t s := rfl
theorem exec_kerfEnd (known : Bool) (t : Nat) (s : State) : exec (.kerfEnd known t) s = execKerfEnd known t s := rfl
theorem exec_kerfLate (t : Nat) (s : State) : exec (.kerfLate t) s = execKerfLate t s := rfl

/-- What a command leaves alone once time has come so far. -/
theorem Within.from_upTo {l : List Part} {s t : State} {t0 : Nat} (h : Within (.time :: l) s t) (now : t.now = (s.upTo t0).now) :
    Within l (s.upTo t0) t := by
  intro p hp
  by_cases time : p = .time
  · subst time
    exact now
  · have same := h p (by rw [List.contains_cons, hp, Bool.or_false]; exact beq_false_of_ne time)
    cases p with
    | time => exact absurd rfl time
    | _ => exact same

/-! ### Lists -/

/-- What each of a list of operations leaves alone, all of them do. -/
theorem foldl_leaves {α σ β : Type} (g : σ → β) (f : σ → α → σ) (hf : ∀ s a, g (f s a) = g s) (l : List α) (s : σ) :
    g (l.foldl f s) = g s :=
  List.foldlRecOn l f (motive := fun x => g x = g s) rfl (fun x hx a _ => (hf x a).trans hx)

/-- A value put in a place where `g` does not tell it from the one before. -/
theorem map_setNth_of_eq {α β : Type} {l : List α} {n : Nat} {d v : α} {g : α → β} (h : g v = g (l.getD n d)) :
    (setNth l n v).map g = l.map g := by
  unfold setNth
  rw [List.map_set]
  by_cases hn : n < l.length
  · rw [h, List.getD_eq_getElem l d hn, ← List.getElem_map g (h := by simpa using hn), List.set_getElem_self]
  · exact List.set_eq_of_length_le (by simpa using hn)

/-! ### The dies' clock units (R658 to R662) -/

/-- A clock unit but for its root's edges. -/
def DieClock.rootless (d : DieClock) : DieClock := { d with root := [] }

theorem DieClock.rootless_switchTo (d : DieClock) (x p ref : Nat) (resume : Bool) :
    (d.switchTo x p ref resume).rootless = d.rootless := by
  unfold DieClock.switchTo
  split <;> rfl

/-- A change of roots alone leaves the rest of every clock unit. -/
theorem State.rootless_changeRoot (s : State) (n : Nat) {f : DieClock → DieClock} (hf : ∀ d, (f d).rootless = d.rootless) :
    (s.changeRoot n f).clocks.dies.map DieClock.rootless = s.clocks.dies.map DieClock.rootless :=
  map_setNth_of_eq (hf _)

@[simp] theorem State.rootless_switchRoots (s : State) (x : Nat) (resume : Bool) :
    (s.switchRoots x resume).clocks.dies.map DieClock.rootless = s.clocks.dies.map DieClock.rootless :=
  foldl_leaves (fun s : State => s.clocks.dies.map DieClock.rootless) _
    (fun s n => s.rootless_changeRoot n (fun d => d.rootless_switchTo _ _ _ _)) _ s

/-- What can be read without the edges of the roots stands where all but these does. -/
theorem DieClock.map_eq_of_rootless {β : Type} {l l' : List DieClock} (g : DieClock → β)
    (h : l.map DieClock.rootless = l'.map DieClock.rootless) (hg : ∀ d, g d.rootless = g d) : l.map g = l'.map g := by
  simpa only [List.map_map, Function.comp_def, hg] using congrArg (List.map g) h

@[simp] theorem State.running_switchRoots (s : State) (x : Nat) (resume : Bool) :
    (s.switchRoots x resume).clocks.dies.map (·.running) = s.clocks.dies.map (·.running) :=
  DieClock.map_eq_of_rootless _ (s.rootless_switchRoots x resume) (fun _ => rfl)

/-- A switch of roots puts no die on the reserve clock. -/
theorem State.reserve_switchRoots {s : State} (x : Nat) (resume : Bool) (h : ∀ d ∈ s.clocks.dies, d.reserve = false) :
    ∀ d ∈ (s.switchRoots x resume).clocks.dies, d.reserve = false := by
  have same : (s.switchRoots x resume).clocks.dies.map (·.reserve) = s.clocks.dies.map (·.reserve) :=
    DieClock.map_eq_of_rootless _ (s.rootless_switchRoots x resume) (fun _ => rfl)
  intro d hd
  have mem : d.reserve ∈ s.clocks.dies.map (·.reserve) := same ▸ List.mem_map_of_mem hd
  obtain ⟨d', hd', eq⟩ := List.mem_map.mp mem
  exact eq.symm.trans (h d' hd')

theorem State.rootless_setPacing (s : State) (n m : Nat) :
    (s.setPacing n m).clocks.dies.map DieClock.rootless = s.clocks.dies.map DieClock.rootless := by
  unfold State.setPacing
  extract_lets
  split
  · rfl
  · exact State.rootless_changeRoot _ n (fun _ => rfl)

@[simp] theorem State.frame_switchRoots (s : State) (x : Nat) (resume : Bool) : (s.switchRoots x resume).frame = s.frame :=
  (s.switchRoots_moves x resume).2 .frame rfl
@[simp] theorem State.gov_switchRoots (s : State) (x : Nat) (resume : Bool) : (s.switchRoots x resume).gov = s.gov :=
  (s.switchRoots_moves x resume).2 .gov rfl

/-- The clocks run or stand as the stop of R504 says. -/
theorem State.diesClocked_congr {s t : State} (h : t.gov.stop = s.gov.stop) : t.diesClocked = s.diesClocked := by
  unfold State.diesClocked
  rw [h]

/-! ### The governor's accounts (R483, R675) -/

/-- A die's governor but for its pacing count and its clock account. -/
def DieGov.unclocked (d : DieGov) : DieGov := { d with pacing := 0, pacedAt := 0, stretchNs := 0 }

/-- The governor but for the pacing counts and clock accounts of its dies and the account of its state. -/
def GovState.unclocked (g : GovState) : GovState := { g with dies := g.dies.map DieGov.unclocked, stateSince := 0 }

theorem State.unclocked_setDie {s : State} {n : Nat} {d : DieGov} (h : d.unclocked = (s.die n).unclocked) :
    (s.setDie n d).gov.unclocked = s.gov.unclocked :=
  congrArg (fun l => { s.gov with dies := l, stateSince := 0 }) (map_setNth_of_eq h)

theorem State.unclocked_settleClock (s : State) (n : Nat) : (s.settleClock n).gov.unclocked = s.gov.unclocked := by
  unfold State.settleClock
  extract_lets d t on root x ns s1
  have h1 : s1.gov.unclocked = s.gov.unclocked := State.unclocked_setDie rfl
  split <;> exact h1

@[simp] theorem State.unclocked_settleClocks (s : State) : s.settleClocks.gov.unclocked = s.gov.unclocked := by
  unfold State.settleClocks
  extract_lets s1 us s2
  have h1 : s1.gov.unclocked = s.gov.unclocked :=
    foldl_leaves (fun s : State => s.gov.unclocked) _ State.unclocked_settleClock _ s
  have h2 : s2.gov = s1.gov := by
    unfold s2
    split
    · exact foldl_leaves State.gov _ (fun s n => s.gov_bump _ _) _ s1
    · rfl
  exact Eq.trans (congrArg GovState.unclocked h2 :) h1

@[simp] theorem State.frame_settleClocks (s : State) : s.settleClocks.frame = s.frame := s.settleClocks_moves.2 .frame rfl
@[simp] theorem State.clocks_settleClocks (s : State) : s.settleClocks.clocks = s.clocks := s.settleClocks_moves.2 .clocks rfl

/-- Only the account of F0 time changes (R493). -/
theorem State.gov_settleF0 (s : State) :
    s.settleF0.gov = { s.gov with f0Since := s.settleF0.gov.f0Since, f0Past := s.settleF0.gov.f0Past } := by
  unfold State.settleF0
  extract_lets g
  split <;> rfl

@[simp] theorem State.running_settleF0 (s : State) : s.settleF0.gov.running = s.gov.running := (congrArg GovState.running s.gov_settleF0 :)
@[simp] theorem State.stop_settleF0 (s : State) : s.settleF0.gov.stop = s.gov.stop := (congrArg GovState.stop s.gov_settleF0 :)
@[simp] theorem State.dies_settleF0 (s : State) : s.settleF0.gov.dies = s.gov.dies := (congrArg GovState.dies s.gov_settleF0 :)
@[simp] theorem State.frameReasons_settleF0 (s : State) : s.settleF0.gov.frameReasons = s.gov.frameReasons :=
  (congrArg GovState.frameReasons s.gov_settleF0 :)
@[simp] theorem State.frame_settleF0 (s : State) : s.settleF0.frame = s.frame := s.settleF0_moves.2 .frame rfl
@[simp] theorem State.clocks_settleF0 (s : State) : s.settleF0.clocks = s.clocks := s.settleF0_moves.2 .clocks rfl

/-! ### Pacing at the end of the kerf (R479, R480, R660) -/

/-- The floors do not depend on pacing counts, accounts and roots. -/
theorem State.paceFloor_congr {s t : State} (n : Nat) (hg : t.gov.unclocked = s.gov.unclocked)
    (hc : t.clocks.dies.map DieClock.rootless = s.clocks.dies.map DieClock.rootless) : t.paceFloor n = s.paceFloor n := by
  have die : (t.die n).unclocked = (s.die n).unclocked := by
    have h : t.gov.dies.map DieGov.unclocked = s.gov.dies.map DieGov.unclocked := (congrArg GovState.dies hg :)
    simpa only [State.die, ← List.getD_map] using congrArg (fun l => l.getD n DieGov.reset.unclocked) h
  have clock : (t.dieClock n).rootless = (s.dieClock n).rootless := by
    simpa only [State.dieClock, ← List.getD_map] using congrArg (fun l => l.getD n DieClock.start.rootless) hc
  have throttled : (t.die n).throttled = (s.die n).throttled := (congrArg DieGov.throttled die :)
  have running : t.gov.running = s.gov.running := (congrArg GovState.running hg :)
  have stop : t.gov.stop = s.gov.stop := (congrArg GovState.stop hg :)
  have floor : t.gov.f0Floor = s.gov.f0Floor := (congrArg GovState.f0Floor hg :)
  have emulation : (t.dieClock n).emulation = (s.dieClock n).emulation := (congrArg DieClock.emulation clock :)
  unfold State.paceFloor
  simp only [throttled, running, stop, floor, emulation]

/-- Pacing resumes on one die. -/
def State.resumeDie (s : State) (n : Nat) : State :=
  (s.setDie n { s.die n with pacedAt := s.now }).setPacing n (max (max (s.die n).paceBefore (s.die n).preset) (s.paceFloor n))

theorem State.resumePacing_eq (s : State) : s.resumePacing = coreRails.foldl State.resumeDie s := rfl

theorem State.gov_setPacing (s : State) (n m : Nat) : (s.setPacing n m).gov = (s.setDie n { s.die n with pacing := m }).gov := by
  unfold State.setPacing
  extract_lets
  split <;> rfl

@[simp] theorem State.unclocked_resumeDie (s : State) (n : Nat) : (s.resumeDie n).gov.unclocked = s.gov.unclocked := by
  rw [State.resumeDie, State.gov_setPacing]
  refine Eq.trans (State.unclocked_setDie ?_) (State.unclocked_setDie ?_) <;> rfl

@[simp] theorem State.rootless_resumeDie (s : State) (n : Nat) :
    (s.resumeDie n).clocks.dies.map DieClock.rootless = s.clocks.dies.map DieClock.rootless :=
  State.rootless_setPacing _ n _

theorem State.die_resumeDie_of_ne (s : State) {a n : Nat} (h : a ≠ n) : (s.resumeDie a).gov.dies[n]? = s.gov.dies[n]? := by
  simp [State.resumeDie, State.gov_setPacing, setNth, h]

theorem State.pacing_resumeDie_same {s : State} {n : Nat} {d : DieGov} (h : s.gov.dies[n]? = some d) :
    (s.resumeDie n).gov.dies[n]?.map DieGov.pacing = some (max (max d.paceBefore d.preset) (s.paceFloor n)) := by
  have die : s.die n = d := by simp [State.die, List.getD, h]
  have lt : n < s.gov.dies.length := (List.getElem?_eq_some_iff.mp h).1
  simp [State.resumeDie, State.gov_setPacing, setNth, die, lt]

/-- The dies do not disturb one another: each resumes at the count that the state before them all gives it. -/
theorem State.pacing_resumeDies {l : List Nat} (s : State) {n : Nat} {d : DieGov} (distinct : l.Nodup) (mem : n ∈ l)
    (h : s.gov.dies[n]? = some d) :
    (l.foldl State.resumeDie s).gov.dies[n]?.map DieGov.pacing = some (max (max d.paceBefore d.preset) (s.paceFloor n)) := by
  induction l generalizing s with
  | nil => cases mem
  | cons a r ih =>
    obtain ⟨notMem, distinct⟩ := List.nodup_cons.mp distinct
    rw [List.foldl_cons]
    by_cases ha : a = n
    · subst ha
      have rest : (r.foldl State.resumeDie (s.resumeDie a)).gov.dies[a]? = (s.resumeDie a).gov.dies[a]? :=
        List.foldlRecOn r State.resumeDie (motive := fun x => x.gov.dies[a]? = (s.resumeDie a).gov.dies[a]?) rfl
          (fun x hx b hb => (x.die_resumeDie_of_ne (fun hab : b = a => notMem (hab ▸ hb))).trans hx)
      rw [rest, State.pacing_resumeDie_same h]
    · have mem : n ∈ r := (List.mem_cons.mp mem).resolve_left (Ne.symm ha)
      rw [ih (s.resumeDie a) distinct mem ((s.die_resumeDie_of_ne ha).trans h),
        State.paceFloor_congr n (s.unclocked_resumeDie a) (s.rootless_resumeDie a)]

/-- All but its pacing count and account stands of a die, where it stands of the governor. -/
theorem GovState.die_of_unclocked {g g' : GovState} {n : Nat} {d : DieGov} (hg : g'.unclocked = g.unclocked) (h : g.dies[n]? = some d) :
    ∃ d', g'.dies[n]? = some d' ∧ d'.unclocked = d.unclocked := by
  have dies : g'.dies.map DieGov.unclocked = g.dies.map DieGov.unclocked := congrArg GovState.dies hg
  have die : g'.dies[n]?.map DieGov.unclocked = some d.unclocked := by rw [← List.getElem?_map, dies, List.getElem?_map, h]; rfl
  exact Option.map_eq_some_iff.mp die

/-- After the accounts, each die paces at the largest of its count before the kerf, the preset and its floors, as `s` has them. -/
theorem State.pacing_resumePacing {s v : State} {n : Nat} {d : DieGov} (hg : v.gov.unclocked = s.gov.unclocked)
    (hc : v.clocks = s.clocks) (hn : n < 4) (h : s.gov.dies[n]? = some d) :
    v.resumePacing.gov.dies[n]?.map DieGov.pacing = some (max (max d.paceBefore d.preset) (s.paceFloor n)) := by
  obtain ⟨d', hd', same⟩ := GovState.die_of_unclocked hg h
  have before : d'.paceBefore = d.paceBefore := (congrArg DieGov.paceBefore same :)
  have preset : d'.preset = d.preset := (congrArg DieGov.preset same :)
  have mem : n ∈ coreRails := List.mem_range.mpr hn
  rw [State.resumePacing_eq, State.pacing_resumeDies v (by decide) mem hd', State.paceFloor_congr n hg (by rw [hc]), before, preset]

@[simp] theorem State.frame_resumePacing (s : State) : s.resumePacing.frame = s.frame := s.resumePacing_moves.2 .frame rfl

/-! ### The next state is armed (R488, R659), voltage and setpoints follow (R452) -/

@[simp] theorem State.frame_arm (s : State) (known : Bool) : (s.arm known).frame = s.frame := by
  unfold State.arm; extract_lets; split <;> rfl
@[simp] theorem State.dies_arm (s : State) (known : Bool) : (s.arm known).gov.dies = s.gov.dies := by
  unfold State.arm; extract_lets; split <;> rfl
@[simp] theorem State.stop_arm (s : State) (known : Bool) : (s.arm known).gov.stop = s.gov.stop := by
  unfold State.arm; extract_lets; split <;> rfl

/-- Every standby PLL of clocked dies is being retuned: armed, and holding no state until it locks. -/
theorem State.standby_arm {s : State} (known : Bool) (clocked : s.diesClocked = true) :
    ∀ d ∈ (s.arm known).clocks.dies, d.standbyArmed = true ∧ d.standby = none := by
  unfold State.arm
  extract_lets at_ frame x sel gov s1
  rw [if_pos (show s1.diesClocked = true from clocked)]
  refine List.forall_mem_map.mpr (fun d _ => ?_)
  split <;> simp [DieClock.standby, *]

@[simp] theorem State.dies_settleVolted (s : State) : s.settleVolted.gov.dies = s.gov.dies := by
  unfold State.settleVolted; extract_lets; split <;> rfl
@[simp] theorem State.stop_settleVolted (s : State) : s.settleVolted.gov.stop = s.gov.stop := by
  unfold State.settleVolted; extract_lets; split <;> rfl
@[simp] theorem State.frame_settleVolted (s : State) : s.settleVolted.frame = s.frame := s.settleVolted_moves.2 .frame rfl
@[simp] theorem State.clocks_settleVolted (s : State) : s.settleVolted.clocks = s.clocks := s.settleVolted_moves.2 .clocks rfl
@[simp] theorem State.gov_settleSetpoints (s : State) : s.settleSetpoints.gov = s.gov := s.settleSetpoints_moves.2 .gov rfl
@[simp] theorem State.frame_settleSetpoints (s : State) : s.settleSetpoints.frame = s.frame := s.settleSetpoints_moves.2 .frame rfl
@[simp] theorem State.clocks_settleSetpoints (s : State) : s.settleSetpoints.clocks = s.clocks :=
  s.settleSetpoints_moves.2 .clocks rfl

/-- The state that the deferral takes is no faster than `f` and than what any die's root holds. -/
theorem le_foldl_rootState (l : List DieClock) (f : Nat) :
    f ≤ l.foldl (fun m d => max m d.rootState) f ∧ ∀ d ∈ l, d.rootState ≤ l.foldl (fun m d => max m d.rootState) f := by
  induction l generalizing f with
  | nil => simp
  | cons x r ih =>
    obtain ⟨least, all⟩ := ih (max f x.rootState)
    exact ⟨(le_max_left _ _).trans least, List.forall_mem_cons.mpr ⟨(le_max_right _ _).trans least, all⟩⟩

/-! ### When the events of a kerf come (R45) -/

/-- An event of the kerf comes at its time, once no switch is due or no clock runs to be switched. -/
theorem State.kerfDue_of_settled {u : State} {offset : Nat} (active : u.frame.kerf.active = true)
    (settled : u.frame.kerf.switchDue = false ∨ u.diesClocked = false)
    (come : u.frame.kerf.strobe + offset + u.frame.kerf.extTime ≤ u.now) : u.kerfDue offset = true := by
  have waits : u.switchWaits = false := by
    rcases settled with h | h <;> simp [State.switchWaits, h]
  simp [State.kerfDue, active, waits, come]

/-- None comes while a switch is awaited. -/
theorem State.kerfDue_of_waits {u : State} {offset : Nat} (waits : u.switchWaits = true) : u.kerfDue offset = false := by
  simp [State.kerfDue, waits]

/-! ### The switch and its deferral (R49 to R52, R660) -/

section
variable {t0 : Nat} {s u : State} (hu : s.upTo t0 = u)
include hu

theorem freqStateSwitch_switches (active : u.frame.kerf.active = true) (isDue : u.frame.kerf.switchDue = true)
    (clocked : u.diesClocked = true) (come : u.frame.kerf.switchAt ≤ u.now) (inTime : u.now ≤ u.frame.kerf.switchAt + u.wait256)
    (free : u.stretchBusy = false) :
    ∃ t, exec (.freqStateSwitch t0) s = .next t ∧ t.gov.running = u.frame.kerf.sampled ∧
      t.frame.kerf = { u.frame.kerf with
        switchDue := false, extTime := u.now - u.frame.kerf.switchAt,
        extRc := min 256 (((u.now - u.frame.kerf.switchAt) * stateMult u.gov.running + 71) / 72) } ∧
      t.clocks.dies.map (·.running) = u.clocks.dies.map (fun d => (d.source u.frame.kerf.sampled).getD d.running) ∧
      ∀ d ∈ t.clocks.dies, d.reserve = false := by
  subst hu
  have done : execFreqStateSwitch t0 s = .next _ := if_pos ⟨active, isDue, clocked, come, inTime, by rw [free]; rfl⟩
  refine ⟨_, (exec_freqStateSwitch t0 s).trans done, by simp, by simp, by simp, ?_⟩
  rw [State.clocks_settleF0]
  exact State.reserve_switchRoots _ _ (List.forall_mem_map.mpr (fun _ _ => rfl))

theorem freqSwitchDeferred_defers (active : u.frame.kerf.active = true) (isDue : u.frame.kerf.switchDue = true)
    (clocked : u.diesClocked = true) (waited : u.frame.kerf.switchAt + u.wait256 ≤ u.now) (stretch : u.stretchBusy = true) :
    ∃ t, exec (.freqSwitchDeferred t0) s = .next t ∧ t.clocks.dies.map (·.running) = u.clocks.dies.map (·.running) ∧
      (u.clocks.dies.any (·.reserve) = true → t.gov.running = 5) ∧
      (u.clocks.dies.any (·.reserve) = false →
        u.frame.kerf.sampled ≤ t.gov.running ∧ ∀ d ∈ u.clocks.dies, d.rootState ≤ t.gov.running) ∧
      t.frame.kerf = { u.frame.kerf with switchDue := false, extRc := 256, extTime := u.wait256 } ∧
      t.frame.deferredCount = min 0xFFFFFFFF (u.frame.deferredCount + 1) ∧ (rsDroop, t.gov.running) ∈ t.gov.frameReasons := by
  subst hu
  have done : execFreqSwitchDeferred t0 s = .next _ := if_pos ⟨active, isDue, clocked, waited, stretch⟩
  refine ⟨_, (exec_freqSwitchDeferred t0 s).trans done, ?_, ?_, ?_, by simp, by simp, by simp⟩
  · simp only [State.clocks_settleF0, State.clocks_bump, State.clocks_settleClocks, List.map_map]
    refine List.map_congr_left (fun d _ => ?_)
    dsimp only [Function.comp_apply]
    split <;> rfl
  · exact fun reserve => (State.running_settleF0 _).trans (if_pos reserve)
  · intro reserve
    rw [(State.running_settleF0 _).trans (if_neg (by rw [reserve]; exact Bool.false_ne_true))]
    exact le_foldl_rootState _ _

/-! ### Limits, end of the kerf and a late kerf (R45, R60, R474, R479) -/

theorem clampLoad_loads (isDue : u.kerfDue 24480 = true) (first : u.frame.kerf.clampLoaded = false) :
    ∃ t, exec (.clampLoad t0) s = .next t ∧ t.gov = { u.gov with limits := u.gov.nextLimits } ∧
      t.frame = { u.frame with kerf := { u.frame.kerf with clampLoaded := true } } ∧ Within [.frame, .gov] u t := by
  subst hu
  have done : execClampLoad t0 s = .next _ := if_pos ⟨isDue, by rw [first]; rfl⟩
  exact ⟨_, (exec_clampLoad t0 s).trans done, rfl, rfl, (execClampLoad_moves t0 s _ done).2.from_upTo rfl⟩

theorem kerfEnd_ends (known : Bool) (isDue : u.kerfDue 28800 = true) :
    ∃ t, exec (.kerfEnd known t0) s = .next t ∧
      t.frame = { u.frame with lastExtRc := u.frame.kerf.extRc, kerf := { u.frame.kerf with active := false } } ∧
      (∀ n d, n < 4 → u.gov.dies[n]? = some d →
        (t.gov.dies[n]?).map (·.pacing) = some (max (max d.paceBefore d.preset) (u.paceFloor n))) ∧
      (t.diesClocked = true → ∀ d ∈ t.clocks.dies, d.standbyArmed = true ∧ d.standby = none) := by
  subst hu
  have done : execKerfEnd known t0 s = .next _ := if_pos isDue
  refine ⟨_, (exec_kerfEnd known t0 s).trans done, by simp, ?_, ?_⟩
  · intro n d hn hd
    simp only [State.dies_settleF0, State.gov_settleSetpoints, State.dies_settleVolted, State.dies_arm]
    exact State.pacing_resumePacing (State.unclocked_settleClocks _) (State.clocks_settleClocks _) hn hd
  · intro clocked
    rw [State.clocks_settleF0, State.clocks_settleSetpoints, State.clocks_settleVolted]
    refine State.standby_arm known ?_
    rw [← clocked]
    exact (State.diesClocked_congr (by simp)).symm

theorem kerfLate_raises (any : u.frame.anyKerf = true) (missing : u.frame.kerf.complete = false) (first : u.frame.kerf.late = false)
    (late : u.frame.kerf.strobe + 28800 + u.wait256 ≤ u.now) :
    ∃ t, exec (.kerfLate t0) s = .next t ∧ t.frame = { u.frame with kerf := { u.frame.kerf with late := true } } ∧
      Raises u t [raisedOf u.now .hd FC.kerfLate 0xFFFF none 0 false] ∧ Within [.frame, .fc, .ob] u t := by
  subst hu
  have done : execKerfLate t0 s = .next _ := if_pos ⟨any, by rw [missing]; rfl, by rw [first]; rfl, late⟩
  exact ⟨_, (exec_kerfLate t0 s).trans done, rfl, rfl, (execKerfLate_moves t0 s _ done).2.from_upTo rfl⟩

/-! ### What follows the switch waits for it (R45) -/

theorem clampLoad_waits (waits : u.switchWaits = true) : exec (.clampLoad t0) s = .next u := by
  subst hu
  rw [exec_clampLoad]
  exact if_neg (fun h => Bool.false_ne_true ((State.kerfDue_of_waits waits).symm.trans h.1))

theorem kerfEnd_waits (known : Bool) (waits : u.switchWaits = true) : exec (.kerfEnd known t0) s = .next u := by
  subst hu
  rw [exec_kerfEnd]
  exact if_neg (fun h => Bool.false_ne_true ((State.kerfDue_of_waits waits).symm.trans h))

end

theorem Kerf.complete_iff (k : Kerf) :
    k.complete = true ↔ k.switchDue = false ∧ k.moversStarted = true ∧ k.groupsDone.length = 16 ∧ k.arraysDone.length = 16 ∧
      k.clampLoaded = true := by
  simp [Kerf.complete, and_assoc]

/-- Settles O21: each clause by its command's lemma, of the state that time has come to. The end of the kerf needs no premise that the
limits are loaded: the model lets 4,000 ns pass without it (log entry 33). -/
theorem kerfSettlesTheFrequencyState : Obligations.KerfSettlesTheFrequencyState := by
  intro t0 known s u k w due settled
  refine ⟨freqStateSwitch_switches rfl, freqSwitchDeferred_defers rfl, ?_, ?_, ?_, kerfLate_raises rfl, k.complete_iff⟩
  · rintro ⟨active, settled⟩ come first
    exact clampLoad_loads rfl (State.kerfDue_of_settled active settled come) first
  · rintro ⟨active, settled⟩ come
    exact kerfEnd_ends rfl known (State.kerfDue_of_settled active settled come)
  · intro isDue clocked
    have waits : u.switchWaits = true := Bool.and_eq_true_iff.mpr ⟨isDue, clocked⟩
    simpa using ⟨clampLoad_waits rfl waits, kerfEnd_waits rfl known waits⟩

end Sys2Proof.Machine
end

section
/-! SUPPORT. Turns, guards and storage errors of the lane field (R170, R171, R173, R174, R183, R196, R200): words and flags lane by lane,
when a row has its turn, and what each error met at a turn does. -/

namespace Sys2Proof.Machine

/-! ### Lane by lane (R200) -/

theorem getElem?_mergeLanes {α : Type} (g : List Bool) (new old : List α) (hg : g.length = old.length) (hn : new.length = old.length)
    (i : Nat) : (mergeLanes g new old)[i]? = if g[i]? = some true then new[i]? else old[i]? := by
  induction old generalizing g new i with
  | nil =>
    obtain rfl := List.length_eq_zero_iff.mp hg
    simp [mergeLanes]
  | cons o os ih =>
    obtain ⟨b, gs, rfl⟩ := List.exists_cons_of_length_eq_add_one hg
    obtain ⟨n, ns, rfl⟩ := List.exists_cons_of_length_eq_add_one hn
    cases i with
    | zero => cases b <;> simp [mergeLanes]
    | succ i => simpa [mergeLanes] using ih gs ns (Nat.succ.inj hg) (Nat.succ.inj hn) i

theorem testBit_laneFlags (g : List Bool) (new : List (W32 × Nat)) (h : g.length = new.length) (k : Nat) :
    (laneFlags g new).testBit k =
      (List.range g.length).any (fun i => g[i]? == some true && ((new[i]?).elim 0 Prod.snd).testBit k) := by
  induction g generalizing new with
  | nil => simp [laneFlags]
  | cons b gs ih =>
    obtain ⟨n, ns, rfl⟩ := List.exists_cons_of_length_eq_add_one h.symm
    have rest := ih ns (Nat.succ.inj h)
    rw [List.length_cons, List.range_succ_eq_map, List.any_cons, List.any_map, laneFlags, Nat.testBit_or, rest]
    cases b <;> simp [Function.comp_def]

/-! ### When a row has its turn (R171, R173) -/

theorem Cluster.turnOf_iff (cl : Cluster) (l : Int) (j : Nat) :
    cl.turnOf l j = true ↔ cl.entry.isSome = true ∧ cl.stopped = false ∧ cl.origin ≤ l ∧ cl.turn < l ∧ j < cl.rowCount ∧
      (l - cl.origin) % cl.rowCount = j := by
  simp [Cluster.turnOf, and_assoc]

theorem State.rowTurn_iff (s : State) (c j : Nat) :
    s.rowTurn c j = true ↔ s.diesIssue = true ∧ (s.cluster c).turnOf (s.lcOf (dieOfCluster c)) j = true :=
  Bool.and_eq_true_iff

@[simp] theorem State.lcOf_setCluster (s : State) (c n : Nat) (v : Cluster) : (s.setCluster c v).lcOf n = s.lcOf n := rfl

/-- The turn of an lc, once taken, is no row's any more. -/
theorem State.rowTurn_takeTurn (s : State) (c j : Nat) : (s.takeTurn c).rowTurn c j = false := by
  rw [← Bool.not_eq_true, State.rowTurn_iff, Cluster.turnOf_iff]
  rintro ⟨-, -, -, -, later, -⟩
  simp [State.takeTurn] at later

/-- A stopped cluster's rows have no turn (R196). -/
theorem State.rowTurn_of_stopped {s : State} {c : Nat} (h : (s.cluster c).stopped = true) (j : Nat) : s.rowTurn c j = false := by
  rw [← Bool.not_eq_true, State.rowTurn_iff, Cluster.turnOf_iff]
  rintro ⟨-, -, runs, -⟩
  exact Bool.false_ne_true (runs.symm.trans h)

/-- The row that has its turn is the one that the lc, counted from the entry's first, names. -/
theorem Cluster.turnOf_rotation {cl : Cluster} {l : Int} {j : Nat} (h : cl.turnOf l j = true) :
    ∃ k : Nat, l = cl.origin + (k : Int) ∧ k % cl.rowCount = j := by
  obtain ⟨-, -, begun, -, -, row⟩ := (cl.turnOf_iff l j).mp h
  refine ⟨(l - cl.origin).toNat, by omega, ?_⟩
  rw [← Int.toNat_of_nonneg (Int.sub_nonneg_of_le begun)] at row
  exact_mod_cast row

theorem Cluster.turnOf_unique {cl : Cluster} {l : Int} {j j' : Nat} (h : cl.turnOf l j = true) (h' : cl.turnOf l j' = true) : j' = j := by
  obtain ⟨-, -, -, -, -, row⟩ := (cl.turnOf_iff l j).mp h
  obtain ⟨-, -, -, -, -, row'⟩ := (cl.turnOf_iff l j').mp h'
  exact_mod_cast row'.symm.trans row

/-! ### Storage errors met at a turn (R196) -/

/-- An instruction word of cluster `c` fails its parity check; `p` owns the cluster. -/
def State.wordUpset (p : Option Nat) (c : Nat) (s : State) : State :=
  (s.setCluster c { s.cluster c with stopped := true }).raiseFor (Source.ofDie (dieOfCluster c)) FC.lfProgramParity (0x1000 + c) p

/-- A register word of row `j` is hit: by a double-bit error if the last component is true, else by one that is corrected. -/
def State.regUpset (p : Option Nat) (c j : Nat) (s : State) (x : Fin 16 × Fin 128 × Bool) : State :=
  if x.2.2 then
    (s.setCluster c ((s.cluster c).setReg j x.1 (((s.cluster c).reg j x.1).set x.2.1 0))).raiseFor
      (Source.ofDie (dieOfCluster c)) FC.lfRegUncorrected (0x1000 + c) p
  else s.raiseFor (Source.ofDie (dieOfCluster c)) FC.lfRegCorrected (0x1000 + c) p

/-- An accumulation slot is hit by a double-bit error. -/
def State.slotUpset (p : Option Nat) (c : Nat) (s : State) (k : Nat) : State :=
  (s.setCluster c { s.cluster c with
      slots := SMap.modify (s.cluster c).slots k AccSlot.zero (fun y => { y with value := 0, flags := y.flags ||| waInvalid }) }).raiseFor
    (Source.ofDie (dieOfCluster c)) FC.lfSlotUncorrected (0x1000 + c) p

/-- Errors are dealt with in order: the word's parity, registers, slots, memory. -/
theorem State.laneUpset_eq (s : State) (c j : Nat) (u : LaneUpset) :
    s.laneUpset c j u =
      ((u.slots.map Fin.val).foldl (State.slotUpset (s.ownerOfCluster c) c)
        (u.regs.foldl (State.regUpset (s.ownerOfCluster c) c j)
          (if u.parity then s.wordUpset (s.ownerOfCluster c) c else s))).memErrors (s.ownerOfCluster c) u.mem := by
  unfold State.laneUpset
  split
  · next none => subst none; rfl
  · rw [List.map_eq_flatMap]; rfl

theorem State.laneUpset_word (s : State) (c j : Nat) :
    s.laneUpset c j { LaneUpset.none with parity := true } = s.wordUpset (s.ownerOfCluster c) c := State.laneUpset_eq ..

theorem State.laneUpset_reg (s : State) (c j : Nat) (x : Fin 16 × Fin 128 × Bool) :
    s.laneUpset c j { LaneUpset.none with regs := [x] } = s.regUpset (s.ownerOfCluster c) c j x := State.laneUpset_eq ..

theorem State.laneUpset_slot (s : State) (c j : Nat) (k : Fin 64) :
    s.laneUpset c j { LaneUpset.none with slots := [k] } = s.slotUpset (s.ownerOfCluster c) c k := State.laneUpset_eq ..

theorem State.cluster_memErrors (s : State) (p : Option Nat) (l : List (Nat × Bool)) (c : Nat) : (s.memErrors p l).cluster c = s.cluster c :=
  congrArg (fun x : LaneState => SMap.get x.clusters c Cluster.reset) ((State.memErrors_moves s p l).2 .lanes rfl)

theorem State.stopped_regUpset (p : Option Nat) (c j : Nat) (s : State) (x : Fin 16 × Fin 128 × Bool) :
    ((s.regUpset p c j x).cluster c).stopped = (s.cluster c).stopped := by
  unfold State.regUpset
  split <;> simp [Cluster.setReg]

theorem State.stopped_slotUpset (p : Option Nat) (c : Nat) (s : State) (k : Nat) :
    ((s.slotUpset p c k).cluster c).stopped = (s.cluster c).stopped := by
  simp [State.slotUpset]

theorem State.stopped_wordUpset (p : Option Nat) (c : Nat) (s : State) : ((s.wordUpset p c).cluster c).stopped = true := by
  simp [State.wordUpset]

/-- A word that fails its parity check stops the cluster, whatever other errors the turn meets. -/
theorem State.stopped_laneUpset (s : State) (c j : Nat) {u : LaneUpset} (h : u.parity = true) :
    ((s.laneUpset c j u).cluster c).stopped = true := by
  rw [State.laneUpset_eq, State.cluster_memErrors, if_pos h,
    foldl_leaves (fun s : State => (s.cluster c).stopped) _ (State.stopped_slotUpset _ c),
    foldl_leaves (fun s : State => (s.cluster c).stopped) _ (State.stopped_regUpset _ c j)]
  exact State.stopped_wordUpset _ c s

/-! ### A turn of a row that does not execute (R174, R196) -/

/-- The two forms of a lane instruction: with guard and row-wide. Each is a turn of the row that the issue names. -/
inductive TakesTurn (s : State) : LaneIssue → Outcome → Prop
  | guarded (w : LaneAt) (word : Nat) (f : State → State) : TakesTurn s ⟨w.cluster, w.row, w.t, w.upset, word⟩ (s.laneIssue w word f)
  | rowWide (r : RowAt) (word : Nat) (f : State → State) : TakesTurn s ⟨r.cluster, r.row, r.t, r.upset, word⟩ (s.rowIssue r word f)

/-- By the arms of `exec`: those that `laneIssueOf` names are all of the two forms. -/
theorem exec_takesTurn {i : Instr} {x : LaneIssue} (h : laneIssueOf i = some x) (s : State) : TakesTurn s x (exec i s) := by
  cases i <;> cases h <;> (dsimp only [exec]; constructor)

theorem TakesTurn.laneTurn {s : State} {x : LaneIssue} {o : Outcome} (h : TakesTurn s x o) :
    ∃ f, o = s.laneTurn x.cluster x.row x.t x.upset x.word f := by
  cases h with
  | guarded w word f => exact ⟨f, rfl⟩
  | rowWide r word f => exact ⟨f, rfl⟩

theorem exec_of_done {i : Instr} {x : LaneIssue} {s : State} (h : laneIssueOf i = some x)
    (turn : (x.at_ s).rowTurn x.cluster x.row = true) (done : (((x.at_ s).cluster x.cluster).row x.row).done = true) :
    exec i s = .next (((x.at_ s).takeTurn x.cluster).emptyTurn x.cluster) := by
  obtain ⟨f, e⟩ := (exec_takesTurn h s).laneTurn
  exact e.trans ((if_pos turn).trans (if_pos done))

theorem exec_of_parity {i : Instr} {x : LaneIssue} {s : State} (h : laneIssueOf i = some x)
    (turn : (x.at_ s).rowTurn x.cluster x.row = true) (runs : (((x.at_ s).cluster x.cluster).row x.row).done = false)
    (next : (x.at_ s).laneWord x.cluster x.row = x.word) (bad : x.upset.parity = true) :
    exec i s = .next (((x.at_ s).takeTurn x.cluster).laneUpset x.cluster x.row x.upset) := by
  obtain ⟨f, e⟩ := (exec_takesTurn h s).laneTurn
  have stopped := State.stopped_laneUpset ((x.at_ s).takeTurn x.cluster) x.cluster x.row bad
  exact e.trans ((if_pos turn).trans ((if_neg (ne_true_of_eq_false runs)).trans ((if_pos next).trans (if_pos stopped))))

/-! ### The statement -/

/-- Settles O10: lane by lane by the rows' lemmas, turns by the rotation, errors by what each kind of upset does. -/
theorem laneTurnsAndGuards : Obligations.LaneTurnsAndGuards := by
  refine ⟨?_, ?_, ⟨?_, ?_⟩, ?_⟩
  · intro g new old hg hn ho
    refine ⟨fun i _ => ?_, fun k => ?_⟩
    · rw [getElem?_mergeLanes g (new.map Prod.fst) old (by omega) (by simp; omega), List.getElem?_map]
    · rw [testBit_laneFlags g new (by omega), hg]
  · intro cl w p
    exact ⟨by simp [Cluster.selected, bne], rfl, rfl⟩
  · intro s c j turn
    obtain ⟨-, turnOf⟩ := (s.rowTurn_iff c j).mp turn
    obtain ⟨entry, runs, -, -, row, -⟩ := ((s.cluster c).turnOf_iff _ j).mp turnOf
    refine ⟨row, Cluster.turnOf_rotation turnOf, Option.isSome_iff_ne_none.mp entry, runs, ?_, s.rowTurn_takeTurn c⟩
    intro j' turn'
    exact Cluster.turnOf_unique turnOf ((s.rowTurn_iff c j').mp turn').2
  · intro i x s issue u turn done
    exact exec_of_done issue turn done
  · intro c j v i k s
    refine ⟨rfl, ?_, ?_, ?_, ?_, fun w x => exec_of_parity⟩
    · have stopped := State.stopped_laneUpset s c j (u := { LaneUpset.none with parity := true }) rfl
      exact ⟨stopped, State.rowTurn_of_stopped stopped, State.laneUpset_word s c j ▸ rfl⟩
    · rw [State.laneUpset_reg]
      exact ⟨by simp [State.regUpset], rfl⟩
    · rw [State.laneUpset_reg]
      exact ⟨rfl, rfl⟩
    · rw [State.laneUpset_slot]
      exact ⟨by simp [State.slotUpset, SMap.get_modify, waInvalid], rfl⟩

end Sys2Proof.Machine
end

section
/-! SUPPORT. Control of the lane field (R223 to R225): what putting a row at a word and a stack leaves as it was, and from that what each
control instruction does. -/

namespace Sys2Proof.Machine

/-- From `u` to `t` row `j` of cluster `c` has come to stand at `x`. No other row and nothing else of any cluster has changed, nor have
the partitions' flag bytes. -/
structure RowSet (u t : State) (c j : Nat) (x : RowCtl) : Prop where
  clusters : ∀ c', ∃ rows, t.cluster c' = { u.cluster c' with rows := rows }
  row : ∀ c' j', (t.cluster c').row j' = if c' = c ∧ j' = j then x else (u.cluster c').row j'
  arith : t.lanes.arith = u.lanes.arith
  latched : t.lanes.latchedArith = u.lanes.latchedArith

theorem RowSet.refl (u : State) (c j : Nat) : RowSet u u c j ((u.cluster c).row j) where
  clusters c' := ⟨_, rfl⟩
  row c' j' := by split <;> simp_all
  arith := rfl
  latched := rfl

/-- A row that has been put somewhere is put somewhere else. -/
theorem RowSet.setRow {u v : State} {c j : Nat} {y : RowCtl} (h : RowSet u v c j y) (x : RowCtl) :
    RowSet u (v.setCluster c ((v.cluster c).setRow j x)) c j x where
  clusters c' := by
    obtain ⟨rows, e⟩ := h.clusters c'
    by_cases here : c' = c
    · subst here
      exact ⟨_, by rw [State.cluster_setCluster, if_pos rfl, Cluster.setRow, e]⟩
    · exact ⟨rows, by rw [State.cluster_setCluster, if_neg here, e]⟩
  row c' j' := by
    by_cases here : c' = c
    · subst here
      by_cases same : j' = j <;> simp [h.row, same]
    · simp [h.row, here]
  arith := h.arith
  latched := h.latched

/-- What leaves the clusters and the flag bytes as they are leaves the row where it was put. -/
theorem RowSet.of_clusters {u v t : State} {c j : Nat} {x : RowCtl} (h : RowSet u v c j x) (same : ∀ c', t.cluster c' = v.cluster c')
    (arith : t.lanes.arith = v.lanes.arith) (latched : t.lanes.latchedArith = v.lanes.latchedArith) : RowSet u t c j x :=
  ⟨fun c' => same c' ▸ h.clusters c', fun c' => same c' ▸ h.row c', arith.trans h.arith, latched.trans h.latched⟩

theorem RowSet.row_self {u t : State} {c j : Nat} {x : RowCtl} (h : RowSet u t c j x) : (t.cluster c).row j = x :=
  (h.row c j).trans (if_pos ⟨rfl, rfl⟩)

theorem RowSet.row_other {u t : State} {c j c' j' : Nat} {x : RowCtl} (h : RowSet u t c j x) (other : c' ≠ c ∨ j' ≠ j) :
    (t.cluster c').row j' = (u.cluster c').row j' :=
  (h.row c' j').trans (if_neg (by omega))

theorem RowSet.rowTo {u v : State} {c j : Nat} {y : RowCtl} (h : RowSet u v c j y) (pc : Nat) :
    RowSet u (v.rowTo c j pc) c j { y with pc := pc % 1024 } := by
  have moved := (h.setRow { (v.cluster c).row j with pc := pc % 1024 }).of_clusters (t := v.rowTo c j pc) (fun _ => rfl) rfl rfl
  rwa [h.row_self] at moved

theorem RowSet.frame {u t : State} {c j : Nat} {x : RowCtl} {l : List Part} (h : RowSet u t c j x) (within : Within l u t) :
    LaneFrame u t c j [] [] [] l where
  regs c' j' r _ _ := by obtain ⟨rows, e⟩ := h.clusters c'; rw [e]; rfl
  preds c' j' p _ _ := by obtain ⟨rows, e⟩ := h.clusters c'; rw [e]; rfl
  slots c' k _ := by obtain ⟨rows, e⟩ := h.clusters c'; rw [e]
  runs c' := by obtain ⟨rows, e⟩ := h.clusters c'; rw [e]; exact ⟨rfl, rfl, rfl, rfl, rfl⟩
  latched := h.latched
  within := within

/-- A control instruction of row `j` of cluster `c` has issued in `u`: the row stands at `x`, one issue is counted, nothing else has
changed but the faults raised. -/
def ControlIssued (u t : State) (c j : Nat) (x : RowCtl) : Prop :=
  (t.cluster c).row j = x ∧ (∀ c' j', (c' ≠ c ∨ j' ≠ j) → (t.cluster c').row j' = (u.cluster c').row j') ∧ IssueCounted u t c ∧
  LaneFrame u t c j [] [] [] [.lanes, .fc, .ob] ∧ t.lanes.arith = u.lanes.arith

theorem RowSet.issued {u t : State} {c j : Nat} {x : RowCtl} (h : RowSet u t c j x) (counted : IssueCounted u t c)
    (within : Within [.lanes, .fc, .ob] u t) : ControlIssued u t c j x :=
  ⟨h.row_self, fun _ _ other => h.row_other other, counted, h.frame within, h.arith⟩

/-- The row moves, its loops put in place before; such an issue is counted once and stays in its parts. -/
theorem RowSet.issued_rowTo {u v : State} {c j : Nat} {y : RowCtl} (h : RowSet u v c j y) (uncounted : v.ob = u.ob)
    (within : Within [.lanes, .fc, .ob] u v) (pc : Nat) : ControlIssued u (v.rowTo c j pc) c j { y with pc := pc % 1024 } :=
  (h.rowTo pc).issued (by simp [IssueCounted, State.rowTo, uncounted])
    (within.trans ((State.rowTo_moves v c j pc).2.weaken (by decide)))

theorem RowSet.issued_rowNext {u v : State} {c j : Nat} {y : RowCtl} (h : RowSet u v c j y) (uncounted : v.ob = u.ob)
    (within : Within [.lanes, .fc, .ob] u v) : ControlIssued u (v.rowNext c j) c j { y with pc := (y.pc + 1) % 1024 } := by
  unfold State.rowNext
  rw [h.row_self]
  exact h.issued_rowTo uncounted within (y.pc + 1)

/-- A fault raised by the instruction changes nothing else. -/
theorem ControlIssued.raiseFor {u t : State} {c j : Nat} {x : RowCtl} (h : ControlIssued u t c j x) (src : Source) (code unit : Nat)
    (p : Option Nat) : ControlIssued u (t.raiseFor src code unit p) c j x := by
  obtain ⟨row, others, counted, ⟨regs, preds, slots, runs, latched, within⟩, arith⟩ := h
  exact ⟨row, others, counted, ⟨regs, preds, slots, runs, latched,
    within.trans ((State.raiseFor_moves t src code unit p).2.weaken (by decide))⟩, arith⟩

theorem State.within_setCluster (u : State) (c : Nat) (v : Cluster) : Within [.lanes, .fc, .ob] u (u.setCluster c v) :=
  (State.setCluster_moves u c v).2.weaken (by decide)

/-! ### What each control instruction does in the state in which it issues -/

section
variable (u : State) (r : RowAt)

theorem State.issueRow_issued :
    let row := (u.cluster r.cluster).row r.row
    ControlIssued u (u.issueRow r.cluster r.row (fun cl => (cl, 0))) r.cluster r.row { row with pc := (row.pc + 1) % 1024 } := by
  have same : ∀ c', (u.setCluster r.cluster (u.cluster r.cluster)).cluster c' = u.cluster c' := by
    intro c'
    rw [State.cluster_setCluster]
    split
    · next here => rw [here]
    · rfl
  exact ((RowSet.refl u r.cluster r.row).of_clusters same rfl rfl).issued_rowNext rfl (u.within_setCluster _ _)

theorem State.end_issued :
    let cl := u.cluster r.cluster
    let x : RowCtl := { cl.row r.row with done := true }
    ControlIssued u ((u.setCluster r.cluster (cl.setRow r.row x)).bump (0x090 + 4 * r.cluster) 1) r.cluster
      r.row x := by
  intro cl x
  have ended : RowSet u ((u.setCluster r.cluster (cl.setRow r.row x)).bump (0x090 + 4 * r.cluster) 1) r.cluster r.row x :=
    ((RowSet.refl u r.cluster r.row).setRow x).of_clusters (fun _ => rfl) rfl rfl
  exact ended.issued rfl ((u.within_setCluster _ _).trans ((State.bump_moves _ _ _).2.weaken (by decide)))

/-- The row's loops change and it goes to word `pc`. -/
theorem State.restack_issued (stack : List LoopLevel) (pc : Nat) :
    let cl := u.cluster r.cluster
    let row := cl.row r.row
    ControlIssued u ((u.setCluster r.cluster (cl.setRow r.row { row with stack := stack })).rowTo r.cluster r.row pc)
      r.cluster r.row { row with pc := pc % 1024, stack := stack } :=
  ((RowSet.refl u r.cluster r.row).setRow _).issued_rowTo rfl (u.within_setCluster _ _) pc

/-- The row's loops change and it goes to the next word. -/
theorem State.restackNext_issued (stack : List LoopLevel) :
    let cl := u.cluster r.cluster
    let row := cl.row r.row
    ControlIssued u ((u.setCluster r.cluster (cl.setRow r.row { row with stack := stack })).rowNext r.cluster r.row)
      r.cluster r.row { row with pc := (row.pc + 1) % 1024, stack := stack } :=
  ((RowSet.refl u r.cluster r.row).setRow _).issued_rowNext rfl (u.within_setCluster _ _)

/-- A taken branch keeps the loops whose `LOOPEND` does not lie before its target (R225). -/
theorem State.laneBranch_issued (taken : Bool) (target : Fin 1024) :
    let row := (u.cluster r.cluster).row r.row
    ControlIssued u (u.laneBranch r taken target) r.cluster r.row
      (if taken then { row with pc := target.val, stack := row.stack.filter (fun l => decide (target.val ≤ l.stop)) }
       else { row with pc := (row.pc + 1) % 1024 }) := by
  have next := (RowSet.refl u r.cluster r.row).issued_rowNext rfl (Moves.refl _ u).2
  cases taken with
  | false => exact next
  | true =>
    have jumped := u.restack_issued r
      (((u.cluster r.cluster).row r.row).stack.filter (fun l => !decide (l.stop < target.val))) target.val
    simpa [State.laneBranch, Nat.mod_eq_of_lt target.isLt, ← decide_not, Nat.not_lt] using jumped

end

/-! ### Loops (R180, R224) -/

/-- The trip count of a `LOOP`: lane 0's word of the register it names, or its immediate. -/
def Cluster.tripCount (cl : Cluster) (j : Nat) (trip : Option (Fin 16)) (imm : Fin 65536) : Nat :=
  trip.elim imm.val (fun v => ((cl.reg j v).headD 0).toNat)

/-- A `LOOP` of trip count `n`: passed by if `n` is 0, else entered, a count above `MAX_TRIP` raising its fault. -/
def State.enterLoop (u : State) (r : RowAt) (n maxTrip target : Nat) : State :=
  let cl := u.cluster r.cluster
  let row := cl.row r.row
  let lev : LoopLevel := { left := min n maxTrip, start := row.pc, stop := target }
  let entered := (u.setCluster r.cluster (cl.setRow r.row { row with stack := lev :: row.stack })).rowNext r.cluster r.row
  if n = 0 then u.rowTo r.cluster r.row (target + 1)
  else if maxTrip < n then
    entered.raiseFor (Source.ofDie (dieOfCluster r.cluster)) FC.lfTripLimit (0x1000 + r.cluster) (u.ownerOfCluster r.cluster)
  else entered

theorem State.enterLoop_issued (u : State) (r : RowAt) (n maxTrip target : Nat) :
    let row := (u.cluster r.cluster).row r.row
    ControlIssued u (u.enterLoop r n maxTrip target) r.cluster r.row
      (if n = 0 then { row with pc := (target + 1) % 1024 }
       else { row with pc := (row.pc + 1) % 1024, stack := { left := min n maxTrip, start := row.pc, stop := target } :: row.stack }) := by
  have base := RowSet.refl u r.cluster r.row
  unfold State.enterLoop
  by_cases zero : n = 0
  · simpa only [if_pos zero] using base.issued_rowTo rfl (Moves.refl _ u).2 (target + 1)
  · simp only [if_neg zero]
    split
    · exact (u.restackNext_issued r _).raiseFor ..
    · exact u.restackNext_issued r _

/-! ### Issue -/

theorem exec_laneNop (r : RowAt) (s : State) : exec (.laneNop r) s = execLaneNop r s := rfl
theorem exec_laneEnd (r : RowAt) (s : State) : exec (.laneEnd r) s = execLaneEnd r s := rfl
theorem exec_laneBr (r : RowAt) (all : Bool) (p : Fin 8) (pol : Bool) (target : Fin 1024) (s : State) :
    exec (.laneBr r all p pol target) s = execLaneBr r all p pol target s := rfl
theorem exec_laneJmp (r : RowAt) (target : Fin 1024) (s : State) : exec (.laneJmp r target) s = execLaneJmp r target s := rfl
theorem exec_laneLoop (r : RowAt) (trip : Option (Fin 16)) (imm maxTrip : Fin 65536) (target : Fin 1024) (s : State) :
    exec (.laneLoop r trip imm maxTrip target) s = execLaneLoop r trip imm maxTrip target s := rfl
theorem exec_laneLoopend (r : RowAt) (p : Fin 8) (s : State) : exec (.laneLoopend r p) s = execLaneLoopend r p s := rfl

/-- A row-wide instruction that issues does its effect `f` in the state in which it issues. -/
theorem Issues.rowIssue {ins : Instr} {s u : State} {i : LaneIssue} {r : RowAt} {word : Nat} (h : Issues ins s u i)
    (issue : laneIssueOf ins = some ⟨r.cluster, r.row, r.t, r.upset, word⟩) (f : State → State) : s.rowIssue r word f = .next (f u) := by
  obtain rfl := Option.some.inj (h.lane.symm.trans issue)
  exact h.laneTurn f

section
variable {s u : State} {i : LaneIssue} {r : RowAt}

theorem exec_laneLoop_of_issues {trip : Option (Fin 16)} {imm maxTrip : Fin 65536} {target : Fin 1024}
    (h : Issues (.laneLoop r trip imm maxTrip target) s u i) :
    exec (.laneLoop r trip imm maxTrip target) s =
      .next (u.enterLoop r ((u.cluster r.cluster).tripCount r.row trip imm) maxTrip target) := by
  cases trip with
  | none => exact (exec_laneLoop ..).trans (h.rowIssue rfl _)
  | some v => exact (exec_laneLoop ..).trans (h.rowIssue rfl _)

theorem laneLoopend_issues {p : Fin 8} {lev : LoopLevel} {rest : List LoopLevel} (h : Issues (.laneLoopend r p) s u i)
    (inside : ((u.cluster r.cluster).row r.row).stack = lev :: rest) :
    let cl := u.cluster r.cluster
    let row := cl.row r.row
    ∃ t, exec (.laneLoopend r p) s = .next t ∧ ControlIssued u t r.cluster r.row
      (if lev.left - 1 = 0 ∨ (cl.pred r.row p).all (fun b => !b) = true then { row with pc := (row.pc + 1) % 1024, stack := rest }
       else { row with pc := (lev.start + 1) % 1024, stack := { lev with left := lev.left - 1 } :: rest }) := by
  refine ⟨_, (exec_laneLoopend ..).trans (h.rowIssue rfl _), ?_⟩
  dsimp only
  rw [inside]
  dsimp only
  split
  · exact u.restackNext_issued r _
  · exact u.restack_issued r _ _

end

/-- Settles O13: each instruction by its effect on the row in the state in which it issues. -/
theorem laneControlFlow : Obligations.LaneControlFlow := by
  intro r all pol p target trip imm maxTrip s u i c cl row hold jumped n goes
  refine ⟨fun h => ?_, fun h => ?_, fun h => ?_, fun h => ?_, fun h => ?_, fun lev rest inside h => laneLoopend_issues h inside⟩
  · exact ⟨_, (exec_laneNop ..).trans (h.rowIssue rfl _), u.issueRow_issued r⟩
  · exact ⟨_, (exec_laneEnd ..).trans (h.rowIssue rfl _), u.end_issued r⟩
  · exact ⟨_, (exec_laneJmp ..).trans (h.rowIssue rfl _), u.laneBranch_issued r true target⟩
  · exact ⟨_, (exec_laneBr ..).trans (h.rowIssue rfl _), u.laneBranch_issued r _ target⟩
  · refine ⟨_, exec_laneLoop_of_issues h, ?_⟩
    cases trip with
    | none => exact u.enterLoop_issued r ..
    | some v => exact u.enterLoop_issued r ..

end Sys2Proof.Machine
end
